-- ==== Sys2Proof/Word.lean ====
section
/-! DEFINITION. The word types and their plainest arithmetic (00 R5). -/

namespace Sys2Proof

/-- A 32-bit register lane or uniform register (06 R126). -/
abbrev Word := BitVec 32
/-- One byte of memory. -/
abbrev Byte := BitVec 8
/-- A 64-bit value: a register pair, or an address as computed (04 R99). -/
abbrev DWord := BitVec 64
/-- A set of lanes of one warp, bit `l` for lane `l`, at W = 32 (00 R2, 06 R149). -/
abbrev Mask := BitVec 32
/-- A fault cause code, 0x00 to 0xBF (21 R356). -/
abbrev Cause := BitVec 8

end Sys2Proof
end

