-- ==== Sys2Proof/Syntax.lean ====
section
/-! DEFINITION. Instruction syntax: one constructor per row of the opcode table (04 R107, R102 to R105, and
the events of 95). Every 64-bit form carries the header of R93 and one upper word (R95, R97 to R99). -/

namespace Sys2Proof

/-- Execution scope, header bits [15:14] (01 R24). -/
inductive Scope where
  | lane | warp | flock | block
  deriving DecidableEq, Repr

/-- The 64-bit header (04 R93), less length, major, function and I, which the constructors name. -/
structure Hdr where
  width : BitVec 2
  sat : Bool
  x : Bool
  vd : BitVec 8
  pneg : Bool
  pred : BitVec 3
  scope : Scope
  deriving DecidableEq, Repr

/-- Upper word of the X form (04 R95). -/
structure XForm where
  mb : Bool
  ma : Bool
  uc : Bool
  ub : Bool
  ua : Bool
  rnd : BitVec 3
  vc : BitVec 8
  vb : BitVec 8
  va : BitVec 8
  deriving DecidableEq, Repr

/-- Upper word of the M form (04 R99). -/
structure MForm where
  imm8 : BitVec 8
  nt : Bool
  order : BitVec 2
  mscope : BitVec 3
  esize : BitVec 3
  oe : Bool
  off : BitVec 8
  base : BitVec 6
  deriving DecidableEq, Repr

/-- The upper word: X (R95) and M (R99) have I = 0; XI (R97) and XL (R98) have I = 1. -/
inductive Upper where
  | x (f : XForm)
  | m (f : MForm)
  | xi (va : BitVec 8) (imm : BitVec 24)
  | xl (imm : BitVec 32)
  deriving DecidableEq, Repr

/-- Fields of the 32-bit L form (04 R102). -/
structure LForm where
  vd : BitVec 8
  va : BitVec 8
  vb : BitVec 8
  deriving DecidableEq, Repr

/-- Fields of the 32-bit I form (04 R104). -/
structure IForm where
  vd : BitVec 8
  imm : BitVec 16
  deriving DecidableEq, Repr

/-- Fields of the 16-bit form (04 R105): `im` says whether `s` is a register or imm5. -/
structure SForm where
  im : Bool
  s : BitVec 5
  vd : BitVec 5
  deriving DecidableEq, Repr

/-- Fields of the REP prefix (04 R103): `count` is the number of repeats less one. -/
structure RepForm where
  size : BitVec 2
  sc : Bool
  sb : Bool
  sa : Bool
  sd : Bool
  count : BitVec 6
  deriving DecidableEq, Repr

/-- A firmware image as a start or an update checks it (22 R382, R380): its bytes, the public key that it carries, its
RSA-4096 signature, and whether the state table is of its major version. -/
structure FwImage where
  body : List (BitVec 8)
  key : List (BitVec 8)
  signature : BitVec 4096
  sameMajor : Bool
  deriving DecidableEq, Repr

/-- A partition's share of memory, in units of 1 GiB, first unit and number of units of each tier (22 R371). -/
structure MemShare where
  hbmFirst : Nat
  hbmCount : Nat
  tierFirst : Nat
  tierCount : Nat
  deriving DecidableEq, Repr

/-- The settings of a partition that its configuration gives (22 R371, 21 R366). -/
structure PartSettings where
  root : Nat
  fillerF : Nat
  throtT : Nat
  ageLim : Nat
  pwrShare : Nat
  frBase : Nat
  frSize : Nat
  deriving DecidableEq, Repr

/-- An access from a peer device (22 R377): a load, a store, or an atomic of 10 R218 on 4 or 8 bytes. -/
inductive PeerAccess where
  | load (phys bytes : Nat)
  | store (phys : Nat) (data : List (BitVec 8))
  | atomic (op : Nat) (wide : Bool) (phys : Nat) (data compare : BitVec 64)
  deriving DecidableEq, Repr

/-- Work that waits for a peer (22 R377): an engine operation, or the load or store at a place in a warp's counter. -/
inductive PeerWork where
  | engine (id : Nat)
  | load (w idx : Nat)
  | store (w idx : Nat)
  deriving DecidableEq, Repr

/-- The instructions of the opcode table: 64-bit forms, short forms, REP, and the device's events. -/
inductive Instr where
  /-- NOP (R140). No operation at lane or warp scope; at flock or block scope an empty rendezvous that acts as a flock or block barrier (sync.flock, sync.block). -/
  | nop (h : Hdr) (u : Upper)
  /-- BRA (R140). Branches to PC plus a signed 32-bit displacement; at lane scope the warp splits by R136. -/
  | bra (h : Hdr) (u : Upper)
  /-- BRX (R140). Branches to the 64-bit target held in a uniform pair; at lane scope the warp splits by R136. -/
  | brx (h : Hdr) (u : Upper)
  /-- CALL (R140). Pushes the return PC and the divergence depth onto the call stack, then branches to PC plus a displacement. -/
  | call (h : Hdr) (u : Upper)
  /-- CALLX (R140). Calls the 64-bit target held in a uniform pair, pushing the return PC and the divergence depth. -/
  | callx (h : Hdr) (u : Upper)
  /-- RET (R140). Pops the call stack and resumes at the return PC, checking the divergence depth. -/
  | ret (h : Hdr) (u : Upper)
  /-- RPUSH (R140). Pushes a reconvergence entry that holds the reconvergence PC and the active mask. -/
  | rpush (h : Hdr) (u : Upper)
  /-- RJOIN (R137). Pops the top divergence entry, either switching to a pending path or reconverging the warp. -/
  | rjoin (h : Hdr) (u : Upper)
  /-- EXIT (R138). Removes the selected lanes for good and pops stack entries; the warp exits once no lane is left. -/
  | exit (h : Hdr) (u : Upper)
  /-- YIELD (R140). Keeps the warp from being selected for 32 string clocks unless no other warp of its quarter is ready. -/
  | yield (h : Hdr) (u : Upper)
  /-- TRAP (R140). Traps the warp with cause n from 0 to 15; the trap is precise, and execution resumes at the next instruction. -/
  | trap (h : Hdr) (u : Upper)
  /-- BPT (R140). Traps with BPT (0x18); execution resumes at the BPT itself. -/
  | bpt (h : Hdr) (u : Upper)
  /-- RETI (R142). Returns from a user-level handler, restoring the PC, REPI and active mask from UEPC and UEMASK. -/
  | reti (h : Hdr) (u : Upper)
  /-- ICMPP (R147). Compares two integers and writes the result to a predicate. -/
  | icmpp (h : Hdr) (u : Upper)
  /-- FCMPP (R147). Compares two floating-point values and writes the result to a predicate. -/
  | fcmpp (h : Hdr) (u : Upper)
  /-- PBOOL (R148). Combines two predicates through a 4-bit truth table. -/
  | pbool (h : Hdr) (u : Upper)
  /-- PMOV (R148). Moves a value between a register and a predicate, in the direction that X selects. -/
  | pmov (h : Hdr) (u : Upper)
  /-- PCNT (R148). Counts the participating lanes whose predicate bit is set. -/
  | pcnt (h : Hdr) (u : Upper)
  /-- PFIRST (R148). Writes a predicate that holds only the lowest participating set lane. -/
  | pfirst (h : Hdr) (u : Upper)
  /-- PQRY (R148). Queries a predicate in summary, mask or lowest-lane mode and writes a uniform result. -/
  | pqry (h : Hdr) (u : Upper)
  /-- MOV (R172). Integer move from a register or an immediate. -/
  | mov (h : Hdr) (u : Upper)
  /-- IADD (R172). Integer add, with optional saturation or overflow trap. -/
  | iadd (h : Hdr) (u : Upper)
  /-- ISUB (R172). Integer subtract. -/
  | isub (h : Hdr) (u : Upper)
  /-- IMUL (R172). Low half of an integer product. -/
  | imul (h : Hdr) (u : Upper)
  /-- IMULHI (R172). High half of an integer product, signed or unsigned. -/
  | imulhi (h : Hdr) (u : Upper)
  /-- IMAD (R172). Integer multiply-add. -/
  | imad (h : Hdr) (u : Upper)
  /-- IMIN (R172). Integer minimum. -/
  | imin (h : Hdr) (u : Upper)
  /-- IMAX (R172). Integer maximum. -/
  | imax (h : Hdr) (u : Upper)
  /-- IABS (R172). Integer absolute value. -/
  | iabs (h : Hdr) (u : Upper)
  /-- AND (R172). Bitwise and, with optional operand inversion. -/
  | and (h : Hdr) (u : Upper)
  /-- OR (R172). Bitwise or. -/
  | or (h : Hdr) (u : Upper)
  /-- XOR (R172). Bitwise exclusive or. -/
  | xor (h : Hdr) (u : Upper)
  /-- NOT (R172). Bitwise not. -/
  | not (h : Hdr) (u : Upper)
  /-- SHL (R172). Shift left. -/
  | shl (h : Hdr) (u : Upper)
  /-- SHR (R172). Logical shift right. -/
  | shr (h : Hdr) (u : Upper)
  /-- SAR (R172). Arithmetic shift right. -/
  | sar (h : Hdr) (u : Upper)
  /-- ROTL (R172). Rotate left. -/
  | rotl (h : Hdr) (u : Upper)
  /-- POPC (R172). Population count. -/
  | popc (h : Hdr) (u : Upper)
  /-- CLZ (R172). Count of leading zeros. -/
  | clz (h : Hdr) (u : Upper)
  /-- BREV (R172). Bit reverse. -/
  | brev (h : Hdr) (u : Upper)
  /-- BFX (R172). Bit-field extract. -/
  | bfx (h : Hdr) (u : Upper)
  /-- BFI (R172). Bit-field insert. -/
  | bfi (h : Hdr) (u : Upper)
  /-- SEL (R172). Selects a or b according to whether c is nonzero. -/
  | sel (h : Hdr) (u : Upper)
  /-- LEA (R172). Adds a shifted, extended operand: a + (b' << c). -/
  | lea (h : Hdr) (u : Upper)
  /-- FADD (R178). Correctly rounded floating-point add, with an optional exact pair. -/
  | fadd (h : Hdr) (u : Upper)
  /-- FSUB (R178). Correctly rounded floating-point subtract. -/
  | fsub (h : Hdr) (u : Upper)
  /-- FMUL (R178). Correctly rounded floating-point multiply. -/
  | fmul (h : Hdr) (u : Upper)
  /-- FFMA (R178). Fused multiply-add, rounded once. -/
  | ffma (h : Hdr) (u : Upper)
  /-- FMIN (R63). minimumNumber of two values. -/
  | fmin (h : Hdr) (u : Upper)
  /-- FMAX (R63). maximumNumber of two values. -/
  | fmax (h : Hdr) (u : Upper)
  /-- FRCP (R178). Correctly rounded reciprocal. -/
  | frcp (h : Hdr) (u : Upper)
  /-- FDIV (R178). Correctly rounded division. -/
  | fdiv (h : Hdr) (u : Upper)
  /-- FSQRT (R178). Correctly rounded square root. -/
  | fsqrt (h : Hdr) (u : Upper)
  /-- FRSQ (R180). Approximate reciprocal square root. -/
  | frsq (h : Hdr) (u : Upper)
  /-- FEX2 (R180). Approximate base-2 exponential. -/
  | fex2 (h : Hdr) (u : Upper)
  /-- FLG2 (R180). Approximate base-2 logarithm. -/
  | flg2 (h : Hdr) (u : Upper)
  /-- FSIN (R180). Approximate sin(pi x a). -/
  | fsin (h : Hdr) (u : Upper)
  /-- FCOS (R180). Approximate cos(pi x a). -/
  | fcos (h : Hdr) (u : Upper)
  /-- FSCALE (R181). Computes a x 2^b, rounded once. -/
  | fscale (h : Hdr) (u : Upper)
  /-- FCLASS (R182). Writes the class mask of a floating-point operand. -/
  | fclass (h : Hdr) (u : Upper)
  /-- MOV_L (R102). 32-bit L form of MOV. -/
  | movL (f : LForm)
  /-- IADD_L (R102). 32-bit L form of IADD. -/
  | iaddL (f : LForm)
  /-- ISUB_L (R102). 32-bit L form of ISUB. -/
  | isubL (f : LForm)
  /-- IMUL_L (R102). 32-bit L form of IMUL. -/
  | imulL (f : LForm)
  /-- IMULHI_L (R102). 32-bit L form of IMULHI, signed. -/
  | imulhiL (f : LForm)
  /-- IMAD_L (R102). 32-bit L form of IMAD, with vc taken from vd. -/
  | imadL (f : LForm)
  /-- IMIN_L (R102). 32-bit L form of IMIN. -/
  | iminL (f : LForm)
  /-- IMAX_L (R102). 32-bit L form of IMAX. -/
  | imaxL (f : LForm)
  /-- IABS_L (R102). 32-bit L form of IABS. -/
  | iabsL (f : LForm)
  /-- AND_L (R102). 32-bit L form of AND. -/
  | andL (f : LForm)
  /-- OR_L (R102). 32-bit L form of OR. -/
  | orL (f : LForm)
  /-- XOR_L (R102). 32-bit L form of XOR. -/
  | xorL (f : LForm)
  /-- NOT_L (R102). 32-bit L form of NOT. -/
  | notL (f : LForm)
  /-- SHL_L (R102). 32-bit L form of SHL. -/
  | shlL (f : LForm)
  /-- SHR_L (R102). 32-bit L form of SHR. -/
  | shrL (f : LForm)
  /-- SAR_L (R102). 32-bit L form of SAR. -/
  | sarL (f : LForm)
  /-- ROTL_L (R102). 32-bit L form of ROTL. -/
  | rotlL (f : LForm)
  /-- POPC_L (R102). 32-bit L form of POPC. -/
  | popcL (f : LForm)
  /-- CLZ_L (R102). 32-bit L form of CLZ. -/
  | clzL (f : LForm)
  /-- BREV_L (R102). 32-bit L form of BREV. -/
  | brevL (f : LForm)
  /-- BFX_L (R102). 32-bit L form of BFX, with vc taken from vd. -/
  | bfxL (f : LForm)
  /-- BFI_L (R102). 32-bit L form of BFI, with vc taken from vd. -/
  | bfiL (f : LForm)
  /-- SEL_L (R102). 32-bit L form of SEL, with vc taken from vd. -/
  | selL (f : LForm)
  /-- LEA_L (R102). 32-bit L form of LEA, with vc taken from vd. -/
  | leaL (f : LForm)
  /-- FADD_L (R102). 32-bit L form of FADD. -/
  | faddL (f : LForm)
  /-- FSUB_L (R102). 32-bit L form of FSUB. -/
  | fsubL (f : LForm)
  /-- FMUL_L (R102). 32-bit L form of FMUL. -/
  | fmulL (f : LForm)
  /-- FFMA_L (R102). 32-bit L form of FFMA, with vc taken from vd. -/
  | ffmaL (f : LForm)
  /-- FMIN_L (R102). 32-bit L form of FMIN. -/
  | fminL (f : LForm)
  /-- FMAX_L (R102). 32-bit L form of FMAX. -/
  | fmaxL (f : LForm)
  /-- FRCP_L (R102). 32-bit L form of FRCP. -/
  | frcpL (f : LForm)
  /-- FDIV_L (R102). 32-bit L form of FDIV. -/
  | fdivL (f : LForm)
  /-- FSQRT_L (R102). 32-bit L form of FSQRT. -/
  | fsqrtL (f : LForm)
  /-- FRSQ_L (R102). 32-bit L form of FRSQ. -/
  | frsqL (f : LForm)
  /-- FEX2_L (R102). 32-bit L form of FEX2. -/
  | fex2L (f : LForm)
  /-- FLG2_L (R102). 32-bit L form of FLG2. -/
  | flg2L (f : LForm)
  /-- FSIN_L (R102). 32-bit L form of FSIN. -/
  | fsinL (f : LForm)
  /-- FCOS_L (R102). 32-bit L form of FCOS. -/
  | fcosL (f : LForm)
  /-- FSCALE_L (R102). 32-bit L form of FSCALE. -/
  | fscaleL (f : LForm)
  /-- FCLASS_L (R102). 32-bit L form of FCLASS. -/
  | fclassL (f : LForm)
  /-- MOVI (R104). Writes a sign-extended 16-bit immediate to vd. -/
  | movi (f : IForm)
  /-- MOVHI (R104). Writes a 16-bit immediate into the upper half of vd and keeps the lower half. -/
  | movhi (f : IForm)
  /-- IADDI (R104). Adds a sign-extended 16-bit immediate to vd. -/
  | iaddi (f : IForm)
  /-- ANDI (R104). Ands vd with a sign-extended immediate. -/
  | andi (f : IForm)
  /-- ORI (R104). Ors vd with a sign-extended immediate. -/
  | ori (f : IForm)
  /-- XORI (R104). Xors vd with a sign-extended immediate. -/
  | xori (f : IForm)
  /-- SHLI (R104). Shifts vd left by a 5-bit immediate. -/
  | shli (f : IForm)
  /-- SHRI (R104). Shifts vd right logically by a 5-bit immediate. -/
  | shri (f : IForm)
  /-- SARI (R104). Shifts vd right arithmetically by a 5-bit immediate. -/
  | sari (f : IForm)
  /-- REP (R144). Repeat prefix: issues the target 1 to 64 times with the chosen register fields stepped. -/
  | rep (f : RepForm) (target : Instr)
  /-- MOV_S16 (R105). 16-bit form of MOV. -/
  | movS16 (f : SForm)
  /-- IADD_S16 (R105). 16-bit form of IADD. -/
  | iaddS16 (f : SForm)
  /-- ISUB_S16 (R105). 16-bit form of ISUB. -/
  | isubS16 (f : SForm)
  /-- IMUL_S16 (R105). 16-bit form of IMUL. -/
  | imulS16 (f : SForm)
  /-- AND_S16 (R105). 16-bit form of AND. -/
  | andS16 (f : SForm)
  /-- OR_S16 (R105). 16-bit form of OR. -/
  | orS16 (f : SForm)
  /-- XOR_S16 (R105). 16-bit form of XOR. -/
  | xorS16 (f : SForm)
  /-- SHL_S16 (R105). 16-bit form of SHL. -/
  | shlS16 (f : SForm)
  /-- SHR_S16 (R105). 16-bit form of SHR. -/
  | shrS16 (f : SForm)
  /-- SAR_S16 (R105). 16-bit form of SAR. -/
  | sarS16 (f : SForm)
  /-- FADD_S16 (R105). 16-bit form of FADD. -/
  | faddS16 (f : SForm)
  /-- FSUB_S16 (R105). 16-bit form of FSUB. -/
  | fsubS16 (f : SForm)
  /-- FMUL_S16 (R105). 16-bit form of FMUL. -/
  | fmulS16 (f : SForm)
  /-- FMIN_S16 (R105). 16-bit form of FMIN. -/
  | fminS16 (f : SForm)
  /-- FMAX_S16 (R105). 16-bit form of FMAX. -/
  | fmaxS16 (f : SForm)
  /-- IMIN_S16 (R105). 16-bit form of IMIN. -/
  | iminS16 (f : SForm)
  /-- DWADD (R187). Double-word add by the fixed sequence of R88. -/
  | dwadd (h : Hdr) (u : Upper)
  /-- DWSUB (R187). Double-word subtract. -/
  | dwsub (h : Hdr) (u : Upper)
  /-- DWMUL (R187). Double-word multiply. -/
  | dwmul (h : Hdr) (u : Upper)
  /-- DWNORM (R187). Renormalises a double word with FastTwoSum. -/
  | dwnorm (h : Hdr) (u : Upper)
  /-- DWCVT (R188). Rounds the exact sum of a double word once into one value. -/
  | dwcvt (h : Hdr) (u : Upper)
  /-- SHFL (R191). Lane shuffle in idx, up, down or xor mode. -/
  | shfl (h : Hdr) (u : Upper)
  /-- SHFLX (R191). Lane shuffle within segments of 2^k lanes. -/
  | shflx (h : Hdr) (u : Upper)
  /-- RFIRST (R192). Broadcasts the value of the lowest participating lane. -/
  | rfirst (h : Hdr) (u : Upper)
  /-- RLANE (R192). Reads one lane into a uniform register. -/
  | rlane (h : Hdr) (u : Upper)
  /-- WLANE (R192). Writes a uniform value into one lane. -/
  | wlane (h : Hdr) (u : Upper)
  /-- REDSTEP (R194). One butterfly step of a reduction. -/
  | redstep (h : Hdr) (u : Upper)
  /-- RED (R195). Reduction in fixed butterfly order, then across members in rank order. -/
  | red (h : Hdr) (u : Upper)
  /-- REDCMP (R196). Compensated sum in increasing lane order, optionally folded to one value. -/
  | redcmp (h : Hdr) (u : Upper)
  /-- SCAN (R197). Inclusive or exclusive prefix over the participating lanes. -/
  | scan (h : Hdr) (u : Upper)
  /-- TRN (R198). Transposes groups of n lanes by n registers. -/
  | trn (h : Hdr) (u : Upper)
  /-- CVT (R200). Converts between float, T and integer formats. -/
  | cvt (h : Hdr) (u : Upper)
  /-- QBLK (R203). Quantises register values into T blocks with a scale. -/
  | qblk (h : Hdr) (u : Upper)
  /-- DQ (R203). Dequantises T blocks into floats. -/
  | dq (h : Hdr) (u : Upper)
  /-- PACKH (R204). Rounds two FP32 values and packs them as 16-bit halves. -/
  | packh (h : Hdr) (u : Upper)
  /-- UNPACKH (R204). Widens two 16-bit halves to FP32. -/
  | unpackh (h : Hdr) (u : Upper)
  /-- SRD (R150). Reads a special register. -/
  | srd (h : Hdr) (u : Upper)
  /-- SWR (R150). Writes a writable special register. -/
  | swr (h : Hdr) (u : Upper)
  /-- LDI (R150). Loads a 32-bit immediate, or its sign extension into a pair. -/
  | ldi (h : Hdr) (u : Upper)
  /-- LD (R214). Global load. -/
  | ld (h : Hdr) (u : Upper)
  /-- ST (R214). Global store. -/
  | st (h : Hdr) (u : Upper)
  /-- LDS (R214). Scratch load. -/
  | lds (h : Hdr) (u : Upper)
  /-- STS (R214). Scratch store. -/
  | sts (h : Hdr) (u : Upper)
  /-- LDF (R214). Load through a fold window. -/
  | ldf (h : Hdr) (u : Upper)
  /-- STF (R214). Store through a fold window. -/
  | stf (h : Hdr) (u : Upper)
  /-- ATOM (R219). Global atomic read-modify-write. -/
  | atom (h : Hdr) (u : Upper)
  /-- ATOMS (R219). Scratch atomic read-modify-write. -/
  | atoms (h : Hdr) (u : Upper)
  /-- FENCE (R220). Acquire, release or both-kind fence at a memory scope. -/
  | fence (h : Hdr) (u : Upper)
  /-- PREF (R221). Prefetches sectors into the L1 and L2, or into the L2 alone. -/
  | pref (h : Hdr) (u : Upper)
  /-- LDREC (R222). Loads T records into registers. -/
  | ldrec (h : Hdr) (u : Upper)
  /-- STREC (R222). Stores T records from registers. -/
  | strec (h : Hdr) (u : Upper)
  /-- BARINIT (R247). Initialises a barrier object. -/
  | barinit (h : Hdr) (u : Upper)
  /-- BARARR (R247). Arrives at a barrier, optionally merging flags, as a release. -/
  | bararr (h : Hdr) (u : Upper)
  /-- BARWAIT (R247). Waits for a barrier phase to complete, then returns the last-phase flags. -/
  | barwait (h : Hdr) (u : Upper)
  /-- BARTEST (R247). Tests barrier phase completion without waiting. -/
  | bartest (h : Hdr) (u : Upper)
  /-- BAREXP (R247). Raises the pending bytes of a barrier. -/
  | barexp (h : Hdr) (u : Upper)
  /-- WAITF (R248). Polls a 32-bit word until its condition holds. -/
  | waitf (h : Hdr) (u : Upper)
  /-- WAITC (R223). Waits until the warp's outstanding-operation counters fall to their limits. -/
  | waitc (h : Hdr) (u : Upper)
  /-- WAITT (R271). Waits until a timeline reaches n, then acquires its operations. -/
  | waitt (h : Hdr) (u : Upper)
  /-- TLARM (R273). Arms a timeline so that the warp vectors to a handler at n. -/
  | tlarm (h : Hdr) (u : Upper)
  /-- TLRD (R272). Reads a timeline counter or the number last issued. -/
  | tlrd (h : Hdr) (u : Upper)
  /-- FLAGRD (R184). Waits for drains, then reads and clears sticky flags. -/
  | flagrd (h : Hdr) (u : Upper)
  /-- LCOPY (R257). One copy per lane from global memory into scratch, joining the open batch. -/
  | lcopy (h : Hdr) (u : Upper)
  /-- BSEAL (R261). Seals the open batch and returns its number. -/
  | bseal (h : Hdr) (u : Upper)
  /-- BWAITN (R261). Waits until at most n sealed batches are incomplete. -/
  | bwaitn (h : Hdr) (u : Upper)
  /-- BWAITS (R261). Waits until batch b and every earlier batch are complete. -/
  | bwaits (h : Hdr) (u : Upper)
  /-- BTEST (R261). Returns batch status without waiting. -/
  | btest (h : Hdr) (u : Upper)
  /-- TDEF (R264). Fills a tile handle from a shape record. -/
  | tdef (h : Hdr) (u : Upper)
  /-- TLOAD (R268). Tile copy from a global array into scratch. -/
  | tload (h : Hdr) (u : Upper)
  /-- TSTORE (R268). Tile copy from scratch into a global array. -/
  | tstore (h : Hdr) (u : Upper)
  /-- TMCAST (R269). Multicasts a tile into the scratch of fold members, with barrier byte arrivals. -/
  | tmcast (h : Hdr) (u : Upper)
  /-- TRED (R268). Adds a scratch tile into a global array atomically. -/
  | tred (h : Hdr) (u : Upper)
  /-- TPEER (R268). Tile copy between scratch and a peer array. -/
  | tpeer (h : Hdr) (u : Upper)
  /-- OMAP (R284). Defines an operand map. -/
  | omap (h : Hdr) (u : Upper)
  /-- WBLOAD (R286). Fills a weight slot from scratch or through a tile handle. -/
  | wbload (h : Hdr) (u : Upper)
  /-- MMA (R291). Multiplies A by the slot's B and accumulates into a tile. -/
  | mma (h : Hdr) (u : Upper)
  /-- ACCZ (R295). Clears tiles and their flag fields. -/
  | accz (h : Hdr) (u : Upper)
  /-- ACCLD (R296). Loads a tile from scratch. -/
  | accld (h : Hdr) (u : Upper)
  /-- ACCDRAIN (R298). Scales, biases, activates and converts a tile, and writes it out. -/
  | accdrain (h : Hdr) (u : Upper)
  /-- KVWALK (R312). Resolves a sequence position to its page entry. -/
  | kvwalk (h : Hdr) (u : Upper)
  /-- KVGATHER (R314). Gathers the K or V rows of a range of pages into scratch. -/
  | kvgather (h : Hdr) (u : Upper)
  /-- KVAPPEND (R316). Appends tokens to a sequence. -/
  | kvappend (h : Hdr) (u : Upper)
  /-- KVTRUNC (R317). Rolls a sequence back, or advances its window, freeing pages. -/
  | kvtrunc (h : Hdr) (u : Upper)
  /-- KVFORK (R318). Creates a descriptor that shares a prefix of the source. -/
  | kvfork (h : Hdr) (u : Upper)
  /-- SMERGE (R320). Merges the softmax partials of fold members in rank order. -/
  | smerge (h : Hdr) (u : Upper)
  /-- ACQ (R237). Requests claim units from the Shepherd; the request may be deferred. -/
  | acq (h : Hdr) (u : Upper)
  /-- ACQT (R238). Tries to acquire claim units without deferral. -/
  | acqt (h : Hdr) (u : Upper)
  /-- REL (R239). Releases claim units after their operations drain. -/
  | rel (h : Hdr) (u : Upper)
  /-- CLAIMQ (R240). Reads Shepherd state. -/
  | claimq (h : Hdr) (u : Upper)
  /-- FJOIN (R241). Joins the block to a fold by key. -/
  | fjoin (h : Hdr) (u : Upper)
  /-- FLEAVE (R242). Leaves the fold after the block's window accesses complete. -/
  | fleave (h : Hdr) (u : Upper)
  /-- FLOCKSET (R243). Redeclares the block's flock size. -/
  | flockset (h : Hdr) (u : Upper)
  /-- LAUNCH (R333). Checks a launch record, creates a job and enqueues the grid. -/
  | launch (h : Hdr) (u : Upper)
  /-- SPAWN (R343). Enters a TCB into the job. -/
  | spawn (h : Hdr) (u : Upper)
  /-- TDEP (R344). Adds a dependency edge between two TCBs. -/
  | tdep (h : Hdr) (u : Upper)
  /-- TCANCEL (R345). Cancels a job, and with kill traps its placed blocks. -/
  | tcancel (h : Hdr) (u : Upper)
  /-- SLICEYIELD (R335). Reloads the slice budget and offers the core for pre-emption. -/
  | sliceyield (h : Hdr) (u : Upper)
  /-- REGION (R336). Enters an idempotent region and captures the region carry. -/
  | region (h : Hdr) (u : Upper)
  /-- REGIONEND (R336). Leaves an idempotent region. -/
  | regionend (h : Hdr) (u : Upper)
  /-- STENQ (R346). Enqueues one 64-byte slot on a stile. -/
  | stenq (h : Hdr) (u : Upper)
  /-- STDEQ (R346). Dequeues the head slot of a stile. -/
  | stdeq (h : Hdr) (u : Upper)
  /-- OVFLD (R361). Loads a partition's overflow table. -/
  | ovfld (h : Hdr) (u : Upper)
  /-- TLBINV (R362). Invalidates TLB entries of a partition. -/
  | tlbinv (h : Hdr) (u : Upper)
  /-- CTXSAVE (R363). Saves the context image of a suspended block. -/
  | ctxsave (h : Hdr) (u : Upper)
  /-- CTXLOAD (R363). Loads a context image onto a core through admission. -/
  | ctxload (h : Hdr) (u : Upper)
  /-- QDESTROY (R347). Destroys a launch queue. -/
  | qdestroy (h : Hdr) (u : Upper)
  /-- SWRP (R366). Writes a partition register and returns its old value. -/
  | swrp (h : Hdr) (u : Upper)
  /-- HALT (R364). Suspends a warp or block with DEBUG-HALT. -/
  | halt (h : Hdr) (u : Upper)
  /-- ERET (R365). Resumes or ends a suspended warp or block. -/
  | eret (h : Hdr) (u : Upper)
  /-- FILLER_ISSUE (R160). A deficit quarter issues hardware filler, which charges the meter and has no architectural effect. -/
  | fillerIssue (core quarter : Nat)
  /-- THROTTLE_ENTRY (R161). The string enters throttle after 16 clocks of filler with the imbalance above T. -/
  | throttleEntry (core : Nat)
  /-- THROTTLE_EXIT (R161). The string leaves throttle once the imbalance falls to T − F. -/
  | throttleExit (core : Nat)
  /-- STRING_BALANCE_LOST (R163). A balancer is beyond its limit for 256 clocks; issue stops on the core and a record is made. -/
  | stringBalanceLost (core quarter : Nat)
  /-- POWER_INTERVAL (R165). At the end of each 1 ms interval, partition energy is compared with its share, and the next interval may be throttled. -/
  | powerInterval (part energyW creditW : Nat)
  /-- OPERATING_POINT_CHANGE (R26). The string operating point changes between string clocks. -/
  | operatingPointChange (mhz : Nat)
  /-- YIELD_EXPIRY (R157). The 32 clocks of a YIELD end and the warp becomes ready again. -/
  | yieldExpiry (w : Nat)
  /-- THERMAL_MIGRATE (R166). A core crosses its migration threshold; a qualifying block is pre-empted and restarted elsewhere, or the string is throttled. -/
  | thermalMigrate (core : Nat)
  /-- THERMAL_TRIP (R166). The temperature reaches the trip threshold and the device traps. -/
  | thermalTrip (core : Nat)
  /-- RAIL_UNDERVOLT (R356). A rail undervoltage event stops issue on the core. -/
  | railUndervolt (core : Nat)
  /-- RAIL_OVERCURRENT (R356). A rail overcurrent event stops issue on the core. -/
  | railOvercurrent (core : Nat)
  /-- CORE_UNGATE (R167). A gated core finishes ungating, within 1.5 µs, for a placement. -/
  | coreUngate (core : Nat)
  /-- POWER_GATE (R167). A core with no resident block is power-gated and loses its storage. -/
  | powerGate (core : Nat)
  /-- LOAD_DATA_RETURN (R213). The data of a load or returning atomic arrives and is written to its destination registers. -/
  | loadDataReturn (w idx : Nat)
  /-- STORE_PERFORMED (R212). A store is performed with respect to its scope instance and leaves the store counter. -/
  | storePerformed (w idx : Nat)
  /-- SHEPHERD_TEST (R229). The Shepherd takes a queued request and runs the safe-state test and the age rule, then grants or defers it. -/
  | shepherdTest (core : Nat)
  /-- RENDEZVOUS_COMPLETE (R130). The last member arrives or exits, and the bellwether issues the operation once for all members. -/
  | rendezvousComplete (blk inst : Nat)
  /-- HANDLER_VECTOR (R141). An armed timeline condition holds and the warp vectors to its user handler. -/
  | handlerVector (w : Nat)
  /-- WAITC_RESUME (R223). The counters of a waiting WAITC fall to their limits and the warp proceeds. -/
  | waitcResume (w : Nat)
  /-- BARWAIT_RESUME (R247). The awaited phase completes and a waiting BARWAIT returns with the flags. -/
  | barwaitResume (w : Nat)
  /-- WAITF_RESUME (R248). The polled word meets its condition and WAITF returns as an acquire. -/
  | waitfResume (w : Nat)
  /-- WAITT_RESUME (R271). A timeline reaches n and a waiting WAITT acquires. -/
  | waittResume (w : Nat)
  /-- BATCH_WAIT_RESUME (R261). Batches complete and a waiting BWAITN or BWAITS acquires them. -/
  | batchWaitResume (w : Nat)
  /-- BSEAL_RESUME (R261). A held BSEAL seals once one of eight outstanding batches completes. -/
  | bsealResume (w : Nat)
  /-- REL_RESUME (R239). The operations that touch the released units finish, and REL removes the units. -/
  | relResume (w : Nat)
  /-- FLEAVE_RESUME (R242). The load and store counters reach 0 and FLEAVE frees the rank. -/
  | fleaveResume (w : Nat)
  /-- FJOIN_RESUME (R241). A FLEAVE in progress completes, and the waiting FJOIN checks for room and joins. -/
  | fjoinResume (w : Nat)
  /-- FLAGRD_RESUME (R184). The matrix counter reaches 0 and FLAGRD reads and clears the flags. -/
  | flagrdResume (w : Nat)
  /-- STDEQ_RESUME (R346). A slot arrives on an empty stile and the waiting STDEQ takes it. -/
  | stdeqResume (w : Nat)
  /-- STENQ_RESUME (R346). Room frees on a full stile and the waiting STENQ enqueues. -/
  | stenqResume (w : Nat)
  /-- LAUNCH_QUEUE_RESUME (R333). An entry leaves a full launch queue and the waiting LAUNCH makes its entry. -/
  | launchQueueResume (w : Nat)
  /-- LCOPY_TRANSFER_DONE (R279). All bytes of a lane transfer land in scratch and its tag counter decreases. -/
  | lcopyTransferDone (op : Nat)
  /-- ENGINE_ASYNC_FAULT (R274). A lane copy or tile operation faults while it is performed and is recorded against its batch or timeline. -/
  | engineAsyncFault (op : Nat)
  /-- ENGINE_REPLAY (R276). After a replayable fault is serviced, the engine performs the faulted operation or transfers again. -/
  | engineReplay (op : Nat)
  /-- TILE_ACCEPT (R267). The tile engine accepts an issued operation into a free slot, and it leaves the tile counter. -/
  | tileAccept (w : Nat)
  /-- TILE_OP_COMPLETE (R55). A tile operation completes and its timeline advances over contiguous completed numbers. -/
  | tileOpComplete (op : Nat)
  /-- TMCAST_DELIVERY (R269). A box lands in one member's scratch and its byte count is added to that member's barrier. -/
  | tmcastDelivery (op rank : Nat)
  /-- MMA_A_FETCH (R293). The matrix unit fetches an MMA's A operand once earlier instructions have issued and earlier stores are performed. -/
  | mmaAFetch (w : Nat)
  /-- WBLOAD_FILL_DONE (R286). Every byte of a WBLOAD lands and the slot counts as filled. -/
  | wbloadFillDone (w : Nat)
  /-- MMA_COMPLETE (R301). An MMA's last group is added to the tile and the MMA leaves the matrix counter. -/
  | mmaComplete (w : Nat)
  /-- ACCZ_ACCLD_COMPLETE (R301). The tiles of an ACCZ or ACCLD are written and the operation leaves the matrix counter. -/
  | acczAccldComplete (w : Nat)
  /-- ACCDRAIN_COMPLETE (R300). Every drain byte is written and its flags are merged into STICKY or a barrier. -/
  | accdrainComplete (w : Nat)
  /-- MATRIX_LATE_FAULT (R302). A matrix operation meets a released unit or poison after issue and is marked faulted on the counter. -/
  | matrixLateFault (w : Nat)
  /-- KVGATHER_WALK (R314). The KV unit walks the descriptor, writes the arrival record and posts page-in requests. -/
  | kvgatherWalk (op : Nat)
  /-- KV_PAGE_DELIVERY (R314). One range page is delivered to scratch, its arrival bit is set and its byte count arrives at the barrier. -/
  | kvPageDelivery (op page : Nat)
  /-- KV_RETURN_PASS (R314). After the present pass, the unit waits for each absent page to be made present, rereads it and delivers it. -/
  | kvReturnPass (op : Nat)
  /-- KVAPPEND_STEP (R316). The KV unit performs an append in one indivisible step. -/
  | kvappendStep (op : Nat)
  /-- SMERGE_COMPLETE (R320). The fold reduction unit merges every row, arrives at the barrier and completes. -/
  | smergeComplete (op : Nat)
  /-- PAGER_PAGE_IN (17 R308, 18 R322). The pager serves a posted request: it brings an absent KV page into a pool page. -/
  | pagerPageIn (part req : Nat)
  /-- PAGER_DEMOTION (R308). One move for a posted request: demotions go on until the free count reaches the mark. -/
  | pagerDemotion (part req : Nat)
  /-- DISPATCH_DECISION (R329). The dispatcher orders the candidates, places the head or back-fills, and reserves cores when the head has aged. -/
  | dispatchDecision (part : Nat)
  /-- BLOCK_RETIRE (R239). The block's last warp exits; after the drains every unit is released and the block leaves its fold. -/
  | blockRetire (blk : Nat)
  /-- DEADLINE_MISSED (R331). Device time passes an entry's deadline while units remain unplaced, and a record is sent. -/
  | deadlineMissed (grid : Nat)
  /-- BUDGET_EXHAUSTED (R334). The slice budget counter reaches 0 and the block traps block-wide. -/
  | budgetExhausted (blk : Nat)
  /-- REGION_GAP (R337). The time outside a region exceeds 256 x S clocks and the block traps. -/
  | regionGap (blk : Nat)
  /-- PREEMPT (R338). A block inside a region is discarded from its core for restart, and a PREEMPTED record is made. -/
  | preempt (blk reason : Nat)
  /-- WAIT_FOR_SAMPLE (R253). Every 65,536 clocks the detector builds the wait-for graph and traps blocks deadlocked at two samples. -/
  | waitForSample (part : Nat)
  /-- SYSTEM_HANDLER (R370). Firmware takes a fault record and copies any record it does not resolve to the event ring, raising vector 0. -/
  | systemHandler (part : Nat) (resolved : Bool)
  /-- ECC_UNCORRECTABLE (R357). An uncorrectable error poisons the storage and makes a hardware-event record. -/
  | eccUncorrectable (array : Nat) (phys : BitVec 64) (core w item : Nat)
  /-- SOFT_ERROR_CORRECT (R357). A single-bit error is corrected without a record and counted. -/
  | softErrorCorrect (array : Nat)
  /-- DOORBELL (R369). The host writes a new ring tail, and firmware fetches the packets up to it. -/
  | doorbell (part ring : Nat) (tail : BitVec 32)
  /-- HOST_PACKET_LAUNCH (R328). Firmware takes a launch packet, checks its record and moves it into a hardware queue. -/
  | hostPacketLaunch (part ring : Nat)
  /-- HOST_PACKET_WAIT (R328). A wait packet holds back the ring until the object's phase completes. -/
  | hostPacketWait (part ring : Nat)
  /-- RSIZE_WRITE (R369). The host writes RSIZE, which restarts a ring stopped by an error. -/
  | rsizeWrite (part ring : Nat) (value : BitVec 32)
  /-- RESUME (R370). The host answers an event-ring record, and firmware issues ERET for it. -/
  | resume (part : Nat) (value : BitVec 32)
  /-- EVHEAD (R370). The host consumes event records, freeing slots for held records. -/
  | evhead (part : Nat) (value : BitVec 32)
  /-- HOST_REGISTER_WRITE (R368). A write to a BAR0 register that has no behaviour of its own. -/
  | hostRegisterWrite (part offset : Nat) (value : BitVec 32)
  /-- PCTL_RUN (R373). The run command sets a stopped, configured partition running and raises vector 2. -/
  | pctlRun (part : Nat)
  /-- PCTL_RESET (R373). The reset command requests the reset of a configured partition. -/
  | pctlReset (part : Nat)
  /-- PARTITION_RESET (R372). The partition stops placement, removes its blocks, empties its stiles, scrubs memory and returns to its reset state. -/
  | partitionReset (part : Nat)
  /-- PARTITION_CONFIGURE (R371). Physical function 0 configures a partition with regions, memory shares and settings. -/
  | partitionConfigure (part : Nat) (regions : List Nat) (memory : MemShare) (settings : PartSettings)
  /-- STILE_CREATE (R375). Physical function 0 creates a stile with its mapping. -/
  | stileCreate (number capacity producer consumer : Nat)
  /-- STILE_DESTROY (R375). A stile is destroyed, and its waiters fault with STILE-INVALID. -/
  | stileDestroy (number : Nat)
  /-- LIVE_UPDATE (R380). The standby complex loads and checks a new image and imports the state table. -/
  | liveUpdate (image : FwImage)
  /-- FIRMWARE_TAKEOVER (R380). At the next packet boundary of every ring, the standby complex becomes active. -/
  | firmwareTakeover
  /-- FIRMWARE_ROLLBACK (R380). The takeover does not finish within 100 ms, and the old complex resumes. -/
  | firmwareRollback
  /-- WATCHDOG (R379). The active complex misses its watchdog for 50 ms, and the standby takes over. -/
  | watchdog
  /-- COLD_START (R381). Self-test, memory and link training, and signature checks of both images. -/
  | coldStart (selfTestPass : Bool) (image0 image1 : FwImage)
  /-- WARM_START (R381). Signature check of the boot image and re-initialisation of queues and partitions. -/
  | warmStart (image : FwImage)
  /-- FAILED_START (R381). One warm retry, then a boot from the other complex's image. -/
  | failedStart (retry other : FwImage)
  /-- ATTESTATION_REQUEST (R383). The device returns a signed attestation report for the host's nonce. -/
  | attestationRequest (nonce : BitVec 256)
  /-- TELEMETRY_READ (R384). The board controller reads telemetry over I3C. -/
  | telemetryRead
  /-- LINK_RETRAIN (R377). A Nuvon Link retrains and posts a record. -/
  | linkRetrain (peer : Nat)
  /-- LINK_DOWN (R377). A peer becomes unreachable, and the operations concerned fault. -/
  | linkDown (peer : Nat)
  /-- PEER_TIMEOUT (R377). A peer access receives no response for 1 ms and faults. -/
  | peerTimeout (work : PeerWork)
  /-- ETH_DOWN (R378). An Ethernet port is lost and ETH-DOWN is posted. -/
  | ethDown (port : Nat)
  /-- HOST_MEMORY_WRITE (R369). The host writes device memory over PCIe, for example the packets of a host ring, in posted-write order. -/
  | hostMemoryWrite (phys : Nat) (bytes : List (BitVec 8))
  /-- PEER_ACCESS (R377). A load, store or atomic from a peer device arrives over Nuvon Link and is performed on this device's memory at system scope. -/
  | peerAccess (kind : PeerAccess)
  /-- HOST_TIMEOUT (R356). An access to the host gets no response in time, and HOST-TIMEOUT (0xB6) faults the operation concerned or is posted as a hardware event. -/
  | hostTimeout (part : Nat) (op : Option Nat)
  deriving DecidableEq, Repr

end Sys2Proof
end

