-- ==== Sys2Proof/Machine/Checks.lean ====
section
/-! DEFINITION. Checks 4, 5 and 6 of 04 R110, which depend on the instruction word alone: the scope, the
reserved and unused fields (R100), and the alignment of pairs and groups (R84, R96). Also the registers that
each instruction names, which checks 7 and 8 hold against the warp's role and grant. -/

namespace Sys2Proof.Machine

/-- ILLEGAL-OPCODE (21 R356). -/
def cIllegalOpcode : Cause := 0x10
/-- RESERVED-FIELD. -/
def cReserved : Cause := 0x11
/-- ILLEGAL-SCOPE. -/
def cScope : Cause := 0x12
/-- REG-BOUND. -/
def cRegBound : Cause := 0x13
/-- PAIR-ALIGN. -/
def cPairAlign : Cause := 0x14
/-- PRIVILEGED. -/
def cPrivileged : Cause := 0x15
/-- REP-TARGET. -/
def cRepTarget : Cause := 0x16

/-- A run of registers that an instruction names: `count` registers from `num`, uniform or vector, whose first
number must be a multiple of `align` (04 R96, 03 R84). -/
structure RegUse where
  uniform : Bool
  num : Nat
  count : Nat
  align : Nat
  deriving DecidableEq, Repr

/-- One single register. -/
def RegUse.one (uniform : Bool) (r : BitVec 8) : RegUse := ⟨uniform, r.toNat, 1, 1⟩
/-- An even pair. -/
def RegUse.pair (uniform : Bool) (r : BitVec 8) : RegUse := ⟨uniform, r.toNat, 2, 2⟩
/-- A register, or an even pair when `wide`. -/
def RegUse.value (wide uniform : Bool) (r : BitVec 8) : RegUse :=
  if wide then RegUse.pair uniform r else RegUse.one uniform r
/-- A group of `n` registers at a multiple of `n`. -/
def RegUse.group (n : Nat) (uniform : Bool) (r : BitVec 8) : RegUse := ⟨uniform, r.toNat, n, n⟩

/-- The alignment of check 6. -/
def RegUse.aligned (u : RegUse) : Bool := decide (u.num % u.align = 0)
/-- A uniform register number above 63 is reserved (04 R96); a misaligned group is left to check 6 (R110). -/
def RegUse.inUniform (u : RegUse) : Bool :=
  !u.uniform || (decide (u.num < 64) && (!u.aligned || decide (u.num + u.count ≤ 64)))

/-- The scopes that an entry allows. -/
def laneWarp (s : Scope) : Bool := s == .lane || s == .warp

/-- pred = 111 and pneg = 0 ("p7 only", 06 R139). -/
def p7only (h : Hdr) : Bool := h.pred == 7 && !h.pneg
/-- width, sat and X all zero. -/
def plainHdr (h : Hdr) : Bool := h.width == 0 && !h.sat && !h.x
/-- The three uniform bits clear. -/
def noUni (f : XForm) : Bool := !f.ua && !f.ub && !f.uc
/-- ma, mb and rnd zero. -/
def noMod (f : XForm) : Bool := !f.ma && !f.mb && f.rnd == 0
/-- The whole upper word zero. -/
def zeroX (f : XForm) : Bool := noUni f && noMod f && f.va == 0 && f.vb == 0 && f.vc == 0
/-- rnd holds one of the five modes (03 R73). -/
def rndOk (f : XForm) : Bool := decide (f.rnd.toNat ≤ 4)

/-- What the checks of one word need: whether the scope and the fields pass, and the registers named. -/
structure WordUse where
  scopeOk : Bool
  fieldsOk : Bool
  regs : List RegUse

/-- A word whose fields fail. -/
def WordUse.reserved (scopeOk : Bool) : WordUse := ⟨scopeOk, false, []⟩

/-- The first failing check among 4, 5 and 6 (04 R110). -/
def WordUse.cause (u : WordUse) : Option Cause :=
  if !u.scopeOk then some cScope
  else if !u.fieldsOk || u.regs.any (fun r => !r.inUniform) then some cReserved
  else if u.regs.any (fun r => !r.aligned) then some cPairAlign
  else none

/-- CTRL (06 R139). -/
def ctrlUse (fn : Nat) (h : Hdr) (u : Upper) : WordUse :=
  let lane := h.scope == .lane
  let scopeOk :=
    if fn = 0 || fn = 10 then true
    else if fn = 1 || fn = 2 || fn = 3 || fn = 4 || fn = 11 then laneWarp h.scope
    else lane
  let head := plainHdr h && h.vd == 0
  match u with
  | .xl _ => ⟨scopeOk, (fn = 1 || fn = 3 || (fn = 6 && p7only h)) && head, []⟩
  | .x f =>
    if fn = 2 || fn = 4 then
      ⟨scopeOk, head && noMod f && (f.ua == lane) && !f.ub && !f.uc && f.vb == 0 && f.vc == 0,
        [RegUse.pair true f.va]⟩
    else if fn = 10 then
      ⟨scopeOk, head && noMod f && noUni f && f.va == 0 && f.vb == 0 && decide (f.vc.toNat ≤ 15), []⟩
    else if fn = 1 || fn = 3 || fn = 6 then WordUse.reserved scopeOk
    else
      let p7 := if fn = 5 || fn = 7 || fn = 12 then p7only h else true
      ⟨scopeOk, head && zeroX f && p7, []⟩
  | _ => WordUse.reserved scopeOk

/-- PRED (06 R146). -/
def predUse (fn : Nat) (h : Hdr) (u : Upper) : WordUse :=
  let many := h.scope == .warp || h.scope == .flock || h.scope == .block
  let warp := h.scope == .warp
  match u with
  | .x f =>
    let base := noUni f && f.rnd == 0 && !h.sat
    let p (r : BitVec 8) : Bool := decide (r.toNat ≤ 7)
    if fn = 0 then
      ⟨laneWarp h.scope, base && noMod f && p h.vd && decide (f.vc.toNat ≤ 5),
        [RegUse.value (h.width == 1) warp f.va, RegUse.value (h.width == 1) warp f.vb]⟩
    else if fn = 1 then
      ⟨laneWarp h.scope, base && noMod f && p h.vd && decide (f.vc.toNat ≤ 7) && h.width != 3
          && (!h.x || h.width == 2),
        [RegUse.value (h.width == 1) warp f.va, RegUse.value (h.width == 1) warp f.vb]⟩
    else if fn = 2 then
      ⟨laneWarp h.scope, base && plainHdr h && p h.vd && p f.va && p f.vb && decide (f.vc.toNat ≤ 15), []⟩
    else if fn = 3 then
      ⟨laneWarp h.scope, base && noMod f && h.width == 0 && f.vb == 0 && f.vc == 0
          && (if h.x then p f.va else p h.vd),
        [RegUse.one warp (if h.x then h.vd else f.va)]⟩
    else if fn = 4 then
      ⟨many, base && noMod f && plainHdr h && p f.va && f.vb == 0 && f.vc == 0, [RegUse.one true h.vd]⟩
    else if fn = 5 then
      ⟨warp, base && noMod f && plainHdr h && p h.vd && p f.va && f.vb == 0 && f.vc == 0, []⟩
    else
      ⟨if f.vc == 1 then warp else many,
        base && noMod f && plainHdr h && p f.va && f.vb == 0 && decide (f.vc.toNat ≤ 2),
        [RegUse.one true h.vd]⟩
  | _ => WordUse.reserved (if fn = 5 then warp else if fn ≤ 3 then laneWarp h.scope else many)

/-- INT functions of one source (08 R172, 04 R102). -/
def intOneSource (fn : Nat) : Bool := fn = 0 || fn = 8 || fn = 12 || fn = 17 || fn = 18 || fn = 19
/-- INT functions that read vc. -/
def intReadsC (fn : Nat) : Bool := fn = 5 || fn = 20 || fn = 21 || fn = 22 || fn = 23
/-- INT functions with an XI form (08 R172). -/
def intHasXI (fn : Nat) : Bool :=
  fn = 0 || fn = 1 || fn = 2 || fn = 3 || fn = 4 || fn = 6 || fn = 7 || fn = 9 || fn = 10 || fn = 11
    || fn = 13 || fn = 14 || fn = 15 || fn = 16
/-- INT functions that saturate (08 R171, R174). -/
def intSat (fn : Nat) : Bool := fn = 1 || fn = 2 || fn = 3 || fn = 5 || fn = 8
/-- INT functions whose vb is always one register (08 R170). -/
def intSingleB (fn : Nat) : Bool := fn = 13 || fn = 14 || fn = 15 || fn = 16 || fn = 20 || fn = 21 || fn = 23
/-- INT functions whose vc is always one register (08 R170). -/
def intSingleC (fn : Nat) : Bool := fn = 20 || fn = 22 || fn = 23

/-- INT (08 R168 to R174). IABS with sat = 1 keeps mb = 1 as `ovf`: R171, R174 and R175 name it, and R172's
rule for one-source functions is read to hold for mb outside that use (DEDUCED, log 9). -/
def intUse (fn : Nat) (h : Hdr) (u : Upper) : WordUse :=
  let warp := h.scope == .warp
  let wide := h.width == 1
  let satOk := (!h.sat || intSat fn) && (!h.x || fn != 8)
  let vd := RegUse.value (wide && fn != 17 && fn != 18) warp h.vd
  match u with
  | .x f =>
    let mbOk := if fn = 9 || fn = 10 || fn = 11 then true else if intSat fn then !f.mb || h.sat else !f.mb
    let maOk := if fn = 9 || fn = 10 || fn = 11 then true else !f.ma
    let bOk := if intOneSource fn then f.vb == 0 && !f.ub else true
    let cOk := if intReadsC fn then true else f.vc == 0 && !f.uc
    let uniOk := if warp then noUni f else true
    let use (b : Bool) (r : BitVec 8) (single : Bool) : RegUse := RegUse.value (wide && !single) (warp || b) r
    ⟨laneWarp h.scope, satOk && mbOk && maOk && bOk && cOk && uniOk && f.rnd == 0,
      vd :: use f.ua f.va false
        :: ((if intOneSource fn then [] else [use f.ub f.vb (intSingleB fn)])
          ++ (if intReadsC fn then [use f.uc f.vc (intSingleC fn)] else []))⟩
  | .xi va _ =>
    ⟨laneWarp h.scope, satOk && intHasXI fn && (fn != 0 || va == 0),
      if fn = 0 then [vd] else [vd, RegUse.value wide warp va]⟩
  | _ => WordUse.reserved (laneWarp h.scope)

/-- FP functions of one source (08 R177). -/
def fpOneSource (fn : Nat) : Bool :=
  fn = 6 || fn = 8 || fn = 9 || fn = 10 || fn = 11 || fn = 12 || fn = 13 || fn = 15
/-- FP functions with X (08 R177). -/
def fpHasX (fn : Nat) : Bool := fn ≤ 2
/-- FP functions with sat. -/
def fpSat (fn : Nat) : Bool := fn ≤ 3 || fn = 6 || fn = 7 || fn = 10 || fn = 14
/-- FP functions whose rnd field takes all modes. -/
def fpRnd (fn : Nat) : Bool := fn ≤ 3 || fn = 6 || fn = 7 || fn = 8 || fn = 14
/-- FP functions with mb. -/
def fpMb (fn : Nat) : Bool := fn ≤ 5 || fn = 7
/-- FP functions with an XI form. -/
def fpHasXI (fn : Nat) : Bool := fn = 0 || fn = 1 || fn = 2 || fn = 4 || fn = 5 || fn = 7 || fn = 14

/-- The group of an exact pair or double word of a width code (03 R84, R87). -/
def pairGroup (width : BitVec 2) (uniform : Bool) (r : BitVec 8) : RegUse :=
  if width == 1 then ⟨uniform, r.toNat, 4, 4⟩
  else if width == 0 then ⟨uniform, r.toNat, 2, 2⟩
  else ⟨uniform, r.toNat, 2, 1⟩

/-- FP (08 R176, R177). -/
def fpUse (fn : Nat) (h : Hdr) (u : Upper) : WordUse :=
  let warp := h.scope == .warp
  let wide := h.width == 1
  let vd := if fn = 15 then RegUse.one warp h.vd
    else if h.x then pairGroup h.width warp h.vd else RegUse.value wide warp h.vd
  let headOk := (!h.x || fpHasX fn) && (!h.sat || fpSat fn)
  match u with
  | .x f =>
    let rOk := rndOk f && (fpRnd fn || f.rnd == 0) && (!h.x || f.rnd == 0)
    let maOk := !f.ma || fn != 15
    let mbOk := !f.mb || fpMb fn
    let bOk := if fpOneSource fn then f.vb == 0 && !f.ub else true
    let cOk := if fn = 3 then true else f.vc == 0 && !f.uc
    let uniOk := if warp then noUni f else true
    ⟨laneWarp h.scope, headOk && rOk && maOk && mbOk && bOk && cOk && uniOk,
      vd :: RegUse.value wide (warp || f.ua) f.va
        :: ((if fpOneSource fn then [] else [RegUse.value (wide && fn != 14) (warp || f.ub) f.vb])
          ++ (if fn = 3 then [RegUse.value wide (warp || f.uc) f.vc] else []))⟩
  | .xi va imm =>
    let immOk := if (h.width == 2 || h.width == 3) && fn != 14 then decide (imm.toNat < 65536) else true
    ⟨laneWarp h.scope, headOk && fpHasXI fn && immOk, [vd, RegUse.value wide warp va]⟩
  | _ => WordUse.reserved (laneWarp h.scope)

/-- DW (09 R186). -/
def dwUse (fn : Nat) (h : Hdr) (u : Upper) : WordUse :=
  let warp := h.scope == .warp
  match u with
  | .x f =>
    let two := decide (fn ≤ 2)
    let ok := !h.x && (fn = 4 || !h.sat) && rndOk f && (fn = 4 || f.rnd == 0) && (two || !f.mb) && !f.uc
      && (two || (f.vb == 0 && !f.ub))
      && (if fn = 4 then decide (f.vc.toNat ≤ 3) else f.vc == 0)
      && (!warp || noUni f)
    let vd := if fn = 4 then RegUse.value (f.vc == 1) warp h.vd else pairGroup h.width warp h.vd
    ⟨laneWarp h.scope, ok,
      vd :: pairGroup h.width (warp || f.ua) f.va
        :: (if two then [pairGroup h.width (warp || f.ub) f.vb] else [])⟩
  | _ => WordUse.reserved (laneWarp h.scope)

/-- Width and op code rules "by X" of REDSTEP, RED and SCAN (09 R189, R193). -/
def reduceCodeOk (h : Hdr) (op : Nat) : Bool :=
  if h.x then decide (h.width.toNat ≤ 1) && decide (op ≤ 5) else !h.sat && decide (op ≤ 2)

/-- XLANE (09 R189). -/
def xlaneUse (fn : Nat) (h : Hdr) (u : Upper) : WordUse :=
  let s := h.scope
  let warp := s == .warp
  let laneFlock := s == .lane || s == .flock
  let scopeOk :=
    if fn = 0 || fn = 1 || fn = 8 then laneFlock
    else if fn = 2 then laneFlock || warp
    else if fn = 3 || fn = 4 then warp
    else if fn = 6 || fn = 7 then true
    else s == .lane
  match u with
  | .x f =>
    let wide := h.width == 1
    let base := !f.ua && !f.uc && noMod f && (!f.ub || fn ≤ 1)
    let plain := decide (h.width.toNat ≤ 1) && !h.sat && !h.x
    let va := RegUse.value wide false f.va
    let vc := f.vc.toNat
    if fn = 0 then
      ⟨scopeOk, base && plain && decide (vc ≤ 3), [RegUse.value wide false h.vd, va, RegUse.one f.ub f.vb]⟩
    else if fn = 1 then
      ⟨scopeOk, base && plain && decide (vc < 32) && decide (1 ≤ vc / 4),
        [RegUse.value wide false h.vd, va, RegUse.one f.ub f.vb]⟩
    else if fn = 2 then
      ⟨scopeOk, base && plain && f.vb == 0 && f.vc == 0, [RegUse.value wide warp h.vd, va]⟩
    else if fn = 3 then
      ⟨scopeOk, base && plain && f.vc == 0, [RegUse.value wide true h.vd, va, RegUse.one true f.vb]⟩
    else if fn = 4 then
      ⟨scopeOk, base && plain && f.vc == 0,
        [RegUse.value wide false h.vd, RegUse.value wide true f.va, RegUse.one true f.vb]⟩
    else if fn = 5 then
      ⟨scopeOk, base && f.vb == 0 && reduceCodeOk h (vc % 16) && decide (vc < 128) && decide (vc / 16 ≤ 4),
        [RegUse.value wide false h.vd, va]⟩
    else if fn = 6 then
      ⟨scopeOk, base && f.vb == 0 && reduceCodeOk h vc && decide (vc < 16),
        [RegUse.value wide warp h.vd, va]⟩
    else if fn = 7 then
      ⟨scopeOk, base && f.vb == 0 && !h.sat && !h.x && decide (vc ≤ 1),
        [if vc = 1 then RegUse.value wide warp h.vd else pairGroup h.width warp h.vd, va]⟩
    else if fn = 8 then
      ⟨scopeOk, base && f.vb == 0 && reduceCodeOk h (vc % 16) && decide (vc < 32),
        [RegUse.value wide false h.vd, va]⟩
    else
      let n := 2 ^ (vc + 1)
      ⟨scopeOk, base && f.vb == 0 && plainHdr h && decide (vc ≤ 2),
        [RegUse.group n false h.vd, RegUse.group n false f.va]⟩
  | _ => WordUse.reserved scopeOk

/-- Format codes of 09 R199 held in an even pair: FP64, s64, b64. -/
def fmtWide (c : Nat) : Bool := c = 1 || c = 11 || c = 15
/-- Format codes that name an integer. -/
def fmtInt (c : Nat) : Bool := 8 ≤ c

/-- Registers of the float group of QBLK and DQ (09 R202). -/
def blockGroup (width : BitVec 2) : Nat := if width == 0 then 4 else if width == 1 then 8 else 2

/-- CVT (09 R200 to R204). -/
def cvtUse (fn : Nat) (h : Hdr) (u : Upper) : WordUse :=
  let warp := h.scope == .warp
  let scopeOk := if fn = 1 || fn = 2 then h.scope == .lane else laneWarp h.scope
  match u with
  | .x f =>
    let vc := f.vc.toNat
    if fn = 0 then
      let src := vc / 16
      let dst := vc % 16
      let toInt := fmtInt dst && !fmtInt src
      ⟨scopeOk, h.width == 0 && !h.x && !f.ma && f.vb == 0 && !f.ub && !f.uc && (!warp || !f.ua) && rndOk f
          && src != 7 && dst != 7 && !(h.sat && toInt) && !(f.mb && h.sat) && !(f.mb && !fmtInt dst),
        [RegUse.value (fmtWide dst) warp h.vd, RegUse.value (fmtWide src) (warp || f.ua) f.va]⟩
    else if fn = 1 || fn = 2 then
      let n := blockGroup h.width
      ⟨scopeOk, !h.x && !f.ma && !f.mb && noUni f && rndOk f && decide (vc < 16) && decide (vc / 4 ≤ 2),
        if fn = 1 then [RegUse.one false h.vd, RegUse.group n false f.va, RegUse.one false f.vb]
        else [RegUse.group n false h.vd, RegUse.one false f.va, RegUse.one false f.vb]⟩
    else if fn = 3 then
      ⟨scopeOk, decide (2 ≤ h.width.toNat) && !h.x && !f.ma && !f.mb && f.vc == 0 && !f.uc && rndOk f
          && (!warp || noUni f),
        [RegUse.one warp h.vd, RegUse.one (warp || f.ua) f.va, RegUse.one (warp || f.ub) f.vb]⟩
    else
      ⟨scopeOk, decide (2 ≤ h.width.toNat) && !h.x && !h.sat && noMod f && f.vc == 0 && !f.uc && f.vb == 0
          && !f.ub && (!warp || !f.ua),
        [RegUse.pair warp h.vd, RegUse.one (warp || f.ua) f.va]⟩
  | _ => WordUse.reserved scopeOk

/-- SPEC (06 R150). -/
def specUse (fn : Nat) (h : Hdr) (u : Upper) : WordUse :=
  let warp := h.scope == .warp
  let scopeOk := if fn = 1 then warp else laneWarp h.scope
  match u with
  | .x f =>
    if fn = 0 then
      ⟨scopeOk, plainHdr h && noUni f && noMod f && f.va == 0 && f.vb == 0, [RegUse.one warp h.vd]⟩
    else if fn = 1 then
      ⟨scopeOk, plainHdr h && noUni f && noMod f && h.vd == 0 && f.vb == 0, [RegUse.one true f.va]⟩
    else WordUse.reserved scopeOk
  | .xl _ =>
    if fn = 2 then
      ⟨scopeOk, decide (h.width.toNat ≤ 1) && !h.sat && !h.x, [RegUse.value (h.width == 1) warp h.vd]⟩
    else WordUse.reserved scopeOk
  | _ => WordUse.reserved scopeOk

/-- Header bits [31:28] of an M-form word (10 R206, R218). -/
def hdrTop (h : Hdr) : Nat := h.width.toNat * 4 + (if h.sat then 2 else 0) + (if h.x then 1 else 0)

/-- Registers of a data group for an esize code (10 R208). -/
def dataCount (esize : BitVec 3) : Nat :=
  if esize == 3 then 2 else if esize == 4 then 4 else if esize == 5 then 8 else 1

/-- MEM (10 R206 to R208, R219, R222; 02 R39). -/
def memUse (fn : Nat) (h : Hdr) (u : Upper) : WordUse :=
  let warp := h.scope == .warp
  let scopeOk := if fn ≤ 3 then true else if fn ≤ 9 then laneWarp h.scope else h.scope == .lane
  match u with
  | .m f =>
    let top := hdrTop h
    let isLoad := fn = 0 || fn = 2 || fn = 4
    let isStore := fn = 1 || fn = 3 || fn = 5
    let common := f.base.toNat % 2 == 0 && f.esize != 7 && decide (f.mscope.toNat ≤ 5) && (f.oe || f.off == 0)
    let inScratch := !(fn = 2 || fn = 3 || fn = 4 || fn = 5 || fn = 7) || decide (f.mscope.toNat ≤ 3)
    let offUse : List RegUse := if f.oe then [RegUse.one warp f.off] else []
    let baseUse : RegUse := ⟨true, f.base.toNat, 2, 2⟩
    if isLoad then
      ⟨scopeOk, common && inScratch && decide (f.esize.toNat ≤ 5) && decide (f.order.toNat ≤ 1)
          && decide (top ≤ 1) && (top == 0 || decide (f.esize.toNat ≤ 1)),
        RegUse.group (dataCount f.esize) warp h.vd :: baseUse :: offUse⟩
    else if isStore then
      ⟨scopeOk, common && inScratch && decide (f.esize.toNat ≤ 5) && (f.order == 0 || f.order == 2)
          && top == 0,
        RegUse.group (dataCount f.esize) warp h.vd :: baseUse :: offUse⟩
    else if fn = 6 || fn = 7 then
      let n := (if f.esize == 3 then 2 else 1) * (if top = 9 then 2 else 1)
      ⟨scopeOk, common && inScratch && (f.esize == 2 || f.esize == 3) && decide (top ≤ 14),
        RegUse.group n warp h.vd :: baseUse :: offUse⟩
    else if fn = 8 then
      ⟨scopeOk, common && p7only h && h.vd == 0 && top == 0 && f.imm8 == 0 && !f.nt && f.order != 0
          && f.esize == 0 && !f.oe && f.off == 0 && f.base == 0, []⟩
    else if fn = 9 then
      ⟨scopeOk, common && h.vd == 0 && top == 0 && f.order == 0 && f.mscope == 0 && decide (f.esize.toNat ≤ 5),
        baseUse :: offUse⟩
    else
      ⟨scopeOk, common && f.esize == 6 && f.order == 0 && h.width != 3 && !f.nt,
        RegUse.pair false h.vd :: baseUse :: offUse⟩
  | _ => WordUse.reserved scopeOk

/-- SYNC (12 R236, R246). -/
def syncUse (fn : Nat) (h : Hdr) (u : Upper) : WordUse :=
  let warp := h.scope == .warp
  let scopeOk := if fn = 1 || fn = 2 then h.scope != .lane else warp
  match u with
  | .x f =>
    let ok := p7only h && noUni f && !f.ma && f.rnd == 0 && h.width != 3 && (fn = 1 || !f.mb)
      && (fn = 5 || (!h.sat && !h.x))
    let va := if h.width == 0 then RegUse.pair true f.va else RegUse.one true f.va
    let r := RegUse.one true
    if fn = 0 then ⟨scopeOk, ok && h.vd == 0, [va, r f.vb, r f.vc]⟩
    else if fn = 1 then ⟨scopeOk, ok && f.vb == 0 && f.vc == 0, [va, r h.vd]⟩
    else if fn = 5 then ⟨scopeOk, ok, [va, r h.vd, r f.vb, r f.vc]⟩
    else ⟨scopeOk, ok && f.vc == 0, [va, r h.vd, r f.vb]⟩
  | _ => WordUse.reserved scopeOk

/-- WAIT (10 R223, 14 R270, 08 R184). -/
def waitUse (fn : Nat) (h : Hdr) (u : Upper) : WordUse :=
  let scopeOk := if fn = 0 || fn = 4 then h.scope != .lane else h.scope == .warp
  match u with
  | .xi va imm =>
    if fn = 0 then ⟨scopeOk, plainHdr h && p7only h && h.vd == 0 && va == 0, []⟩
    else if fn = 4 then ⟨scopeOk, plainHdr h && va == 0 && decide (imm.toNat < 64), [RegUse.one true h.vd]⟩
    else WordUse.reserved scopeOk
  | .x f =>
    let ok := p7only h && noUni f && noMod f && !h.sat && decide (f.vc.toNat ≤ 31)
    if fn = 1 then ⟨scopeOk, ok && plainHdr h && h.vd == 0 && f.vb == 0, [RegUse.one true f.va]⟩
    else if fn = 2 then ⟨scopeOk, ok && plainHdr h && h.vd == 0, [RegUse.one true f.va, RegUse.pair true f.vb]⟩
    else if fn = 3 then
      ⟨scopeOk, ok && h.width == 1 && f.va == 0 && f.vb == 0, [RegUse.pair true h.vd]⟩
    else WordUse.reserved scopeOk
  | _ => WordUse.reserved scopeOk

/-- LCOPY (14 R256, R260). -/
def lcopyUse (fn : Nat) (h : Hdr) (u : Upper) : WordUse :=
  let scopeOk := if fn = 0 then h.scope == .lane else h.scope == .warp
  match u with
  | .m f =>
    if fn = 0 then
      ⟨scopeOk, h.width == 0 && !h.x && f.order == 0 && f.mscope == 0 && decide (2 ≤ f.esize.toNat)
          && decide (f.esize.toNat ≤ 5) && (f.oe || f.off == 0) && f.base.toNat % 2 == 0,
        RegUse.one false h.vd :: ⟨true, f.base.toNat, 2, 2⟩
          :: ((if f.oe then [RegUse.one false f.off] else []) ++ (if h.sat then [RegUse.one false f.imm8] else []))⟩
    else
      let ok := plainHdr h && p7only h && !f.nt && f.order == 0 && f.mscope == 0 && f.esize == 0 && f.base == 0
      if fn = 1 then ⟨scopeOk, ok && f.imm8 == 0 && !f.oe && f.off == 0, [RegUse.one true h.vd]⟩
      else if fn = 2 then
        ⟨scopeOk, ok && h.vd == 0 && !f.oe && f.off == 0 && decide (f.imm8.toNat ≤ 8), []⟩
      else if fn = 3 then ⟨scopeOk, ok && h.vd == 0 && f.imm8 == 0 && f.oe, [RegUse.one true f.off]⟩
      else ⟨scopeOk, ok && f.imm8 == 0 && f.oe, [RegUse.one true h.vd, RegUse.one true f.off]⟩
  | _ => WordUse.reserved scopeOk

/-- TILE (14 R264, R265). -/
def tileUse (fn : Nat) (h : Hdr) (u : Upper) : WordUse :=
  let scopeOk := h.scope == .warp
  match u with
  | .x f =>
    let ok := plainHdr h && noUni f && noMod f
    if fn = 0 then
      ⟨scopeOk, ok && decide (h.vd.toNat ≤ 31) && f.vb == 0 && f.vc == 0, [RegUse.pair true f.va]⟩
    else
      ⟨scopeOk, ok && decide (f.vb.toNat ≤ 31) && decide (f.vc.toNat ≤ 31),
        [RegUse.one true h.vd, RegUse.group 8 true f.va]⟩
  | _ => WordUse.reserved scopeOk

/-- MMA (16 R282). -/
def mmaUse (fn : Nat) (h : Hdr) (u : Upper) : WordUse :=
  let warp := h.scope == .warp
  let scopeOk := if fn = 2 || fn = 3 then warp || h.scope == .flock else warp
  match u with
  | .x f =>
    let fmt := hdrTop h
    let ok := p7only h && noUni f
    let r := RegUse.one true
    let pairTile : RegUse := ⟨false, h.vd.toNat, 0, if fmt = 1 then 2 else 1⟩
    if fn = 0 then
      ⟨scopeOk, ok && decide (fmt ≤ 6) && decide (h.vd.toNat ≤ 15) && f.vc == 0 && !f.mb && f.rnd == 0,
        [r f.va, r f.vb]⟩
    else if fn = 1 then
      if f.ma then
        ⟨scopeOk, ok && decide (fmt ≤ 6) && !f.mb && f.rnd == 0 && decide (f.vb.toNat ≤ 31)
            && decide (f.vc.toNat ≤ 31), [RegUse.group 8 true f.va]⟩
      else ⟨scopeOk, ok && decide (fmt ≤ 6) && f.rnd == 0 && f.vc == 0, [r f.va, r f.vb]⟩
    else if fn = 2 then
      ⟨scopeOk, ok && decide (fmt ≤ 6) && decide (f.va.toNat ≤ 15) && noMod f, [r f.vc, pairTile]⟩
    else if fn = 3 then
      ⟨scopeOk, ok && fmt == 0 && f.va == 0 && f.vb == 0 && noMod f && decide (1 ≤ f.vc.toNat)
          && decide (f.vc.toNat ≤ 128), []⟩
    else if fn = 4 then
      ⟨scopeOk, ok && decide (fmt ≤ 3) && f.vc == 0 && noMod f, [r f.va, r f.vb, pairTile]⟩
    else
      ⟨scopeOk, ok && decide (fmt ≤ 1) && f.vb == 0 && f.vc == 0 && !f.ma && !f.mb && rndOk f,
        [RegUse.group 8 true f.va, pairTile]⟩
  | _ => WordUse.reserved scopeOk

/-- KV (17 R309). -/
def kvUse (fn : Nat) (h : Hdr) (u : Upper) : WordUse :=
  let scopeOk := h.scope == .warp
  match u with
  | .x f =>
    let ok := p7only h && plainHdr h && f.rnd == 0 && noUni f && f.vb == 0 && !f.mb
    let blk := RegUse.group 8 true f.va
    if fn = 0 then ⟨scopeOk, ok && f.vc == 0 && !f.ma, [RegUse.pair true h.vd, blk]⟩
    else if fn = 3 then ⟨scopeOk, ok && f.vc == 0, [RegUse.pair true h.vd, blk]⟩
    else if fn = 4 then ⟨scopeOk, ok && h.vd == 0 && f.vc == 0 && !f.ma, [blk]⟩
    else ⟨scopeOk, ok && decide (f.vc.toNat ≤ 31) && (fn = 1 || !f.ma), [RegUse.one true h.vd, blk]⟩
  | _ => WordUse.reserved scopeOk

/-- GRANT (12 R236). -/
def grantUse (fn : Nat) (h : Hdr) (u : Upper) : WordUse :=
  let warp := h.scope == .warp
  let block := h.scope == .block
  let scopeOk :=
    if fn ≤ 2 then (if h.width.toNat ≤ 1 then warp || block else h.scope != .lane)
    else if fn = 3 then warp else block
  let head := p7only h && !h.sat && !h.x
  match u with
  | .xi va imm =>
    if fn ≤ 2 then
      ⟨scopeOk, head && va == 0 && decide (imm.toNat < 256) && (fn != 2 || h.vd == 0), [RegUse.one true h.vd]⟩
    else if fn = 6 then
      ⟨scopeOk, head && h.width == 0 && h.vd == 0 && va == 0 && decide (imm.toNat < 32), []⟩
    else WordUse.reserved scopeOk
  | .x f =>
    let ok := head && noUni f && noMod f && f.vb == 0
    if fn ≤ 2 then
      ⟨scopeOk, ok && f.vc == 0 && (fn != 2 || h.vd == 0), [RegUse.one true h.vd, RegUse.one true f.va]⟩
    else if fn = 3 then ⟨scopeOk, ok && f.va == 0 && decide (f.vc.toNat ≤ 4), [RegUse.one true h.vd]⟩
    else if fn = 4 then
      ⟨scopeOk, ok && h.width == 0 && f.vc == 0, [RegUse.one true h.vd, RegUse.one true f.va]⟩
    else if fn = 5 then ⟨scopeOk, ok && h.width == 0 && h.vd == 0 && f.va == 0 && f.vc == 0, []⟩
    else WordUse.reserved scopeOk
  | _ => WordUse.reserved scopeOk

/-- TASK (19 R332). -/
def taskUse (fn : Nat) (h : Hdr) (u : Upper) : WordUse :=
  let scopeOk := if fn = 4 || fn = 5 || fn = 6 then h.scope == .block else h.scope == .warp
  match u with
  | .x f =>
    let ok := p7only h && h.width == 0 && !h.sat && noUni f && noMod f && f.vc == 0
      && (!h.x || fn = 0 || fn = 3)
    let r := RegUse.one true
    let p := RegUse.pair true
    if fn = 0 || fn = 1 then ⟨scopeOk, ok, [r h.vd, p f.va, r f.vb]⟩
    else if fn = 2 then ⟨scopeOk, ok, [r h.vd, p f.va, p f.vb]⟩
    else if fn = 3 then ⟨scopeOk, ok && h.vd == 0 && f.vb == 0, [r f.va]⟩
    else if fn = 7 then ⟨scopeOk, ok && h.vd == 0, [r f.va, RegUse.group 16 true f.vb]⟩
    else if fn = 8 then ⟨scopeOk, ok && f.vb == 0, [r f.va, RegUse.group 16 true h.vd]⟩
    else ⟨scopeOk, ok && h.vd == 0 && f.va == 0 && f.vb == 0, []⟩
  | _ => WordUse.reserved scopeOk

/-- SYS (21 R360, 19 R347). -/
def sysUse (fn : Nat) (h : Hdr) (u : Upper) : WordUse :=
  let scopeOk := h.scope == .warp
  match u with
  | .x f =>
    let ok := p7only h && plainHdr h && noUni f && noMod f && f.vc == 0
    let r := RegUse.one true
    let p := RegUse.pair true
    if fn = 0 || fn = 5 then ⟨scopeOk, ok, [r h.vd, r f.va, r f.vb]⟩
    else if fn = 1 then ⟨scopeOk, ok && h.vd == 0, [p f.va, r f.vb]⟩
    else if fn = 4 then ⟨scopeOk, ok && h.vd == 0 && f.vb == 0, [r f.va]⟩
    else if fn = 6 then ⟨scopeOk, ok && f.vb == 0, [r h.vd, r f.va]⟩
    else ⟨scopeOk, ok, [r h.vd, r f.va, p f.vb]⟩
  | _ => WordUse.reserved scopeOk

/-- The use of a 64-bit word by its major and function (04 R107). -/
def wordUse (major fn : Nat) (h : Hdr) (u : Upper) : WordUse :=
  match major with
  | 0 => ctrlUse fn h u
  | 1 => predUse fn h u
  | 2 => intUse fn h u
  | 3 => fpUse fn h u
  | 4 => dwUse fn h u
  | 5 => xlaneUse fn h u
  | 6 => cvtUse fn h u
  | 7 => specUse fn h u
  | 8 => memUse fn h u
  | 9 => syncUse fn h u
  | 10 => waitUse fn h u
  | 11 => lcopyUse fn h u
  | 12 => tileUse fn h u
  | 13 => mmaUse fn h u
  | 14 => kvUse fn h u
  | 15 => grantUse fn h u
  | 16 => taskUse fn h u
  | 17 => sysUse fn h u
  | _ => WordUse.reserved true

/-- Checks 4 to 6 of R110 for a 64-bit word. -/
def wordCause (major fn : Nat) (h : Hdr) (u : Upper) : Option Cause := (wordUse major fn h u).cause

end Sys2Proof.Machine
end

