-- ==== Sys2Proof/Machine/Forms.lean ====
section
/-! DEFINITION. The encoding of every constructor (04 R101 to R107): its form, the 64-bit expansion of the
short forms (R102, R104, R105), the stepped repeats of REP (R103), and checks 4 to 6 of R110 on each. -/

namespace Sys2Proof.Machine

/-- Where the opcode map places an instruction, with its fields (04 R101, R105, R107). -/
inductive Form where
  | w64 (major fn : Nat) (h : Hdr) (u : Upper)
  | l (major : Nat) (f : LForm)
  | i (major : Nat) (f : IForm)
  | s (op : Nat) (f : SForm)
  | rep (f : RepForm) (target : Instr)
  | event
  deriving DecidableEq, Repr

/-- The place of each constructor in the opcode map. -/
def form (i : Instr) : Form :=
  match i with
  | .nop h u => .w64 0 0 h u
  | .bra h u => .w64 0 1 h u
  | .brx h u => .w64 0 2 h u
  | .call h u => .w64 0 3 h u
  | .callx h u => .w64 0 4 h u
  | .ret h u => .w64 0 5 h u
  | .rpush h u => .w64 0 6 h u
  | .rjoin h u => .w64 0 7 h u
  | .exit h u => .w64 0 8 h u
  | .yield h u => .w64 0 9 h u
  | .trap h u => .w64 0 10 h u
  | .bpt h u => .w64 0 11 h u
  | .reti h u => .w64 0 12 h u
  | .icmpp h u => .w64 1 0 h u
  | .fcmpp h u => .w64 1 1 h u
  | .pbool h u => .w64 1 2 h u
  | .pmov h u => .w64 1 3 h u
  | .pcnt h u => .w64 1 4 h u
  | .pfirst h u => .w64 1 5 h u
  | .pqry h u => .w64 1 6 h u
  | .mov h u => .w64 2 0 h u
  | .iadd h u => .w64 2 1 h u
  | .isub h u => .w64 2 2 h u
  | .imul h u => .w64 2 3 h u
  | .imulhi h u => .w64 2 4 h u
  | .imad h u => .w64 2 5 h u
  | .imin h u => .w64 2 6 h u
  | .imax h u => .w64 2 7 h u
  | .iabs h u => .w64 2 8 h u
  | .and h u => .w64 2 9 h u
  | .or h u => .w64 2 10 h u
  | .xor h u => .w64 2 11 h u
  | .not h u => .w64 2 12 h u
  | .shl h u => .w64 2 13 h u
  | .shr h u => .w64 2 14 h u
  | .sar h u => .w64 2 15 h u
  | .rotl h u => .w64 2 16 h u
  | .popc h u => .w64 2 17 h u
  | .clz h u => .w64 2 18 h u
  | .brev h u => .w64 2 19 h u
  | .bfx h u => .w64 2 20 h u
  | .bfi h u => .w64 2 21 h u
  | .sel h u => .w64 2 22 h u
  | .lea h u => .w64 2 23 h u
  | .fadd h u => .w64 3 0 h u
  | .fsub h u => .w64 3 1 h u
  | .fmul h u => .w64 3 2 h u
  | .ffma h u => .w64 3 3 h u
  | .fmin h u => .w64 3 4 h u
  | .fmax h u => .w64 3 5 h u
  | .frcp h u => .w64 3 6 h u
  | .fdiv h u => .w64 3 7 h u
  | .fsqrt h u => .w64 3 8 h u
  | .frsq h u => .w64 3 9 h u
  | .fex2 h u => .w64 3 10 h u
  | .flg2 h u => .w64 3 11 h u
  | .fsin h u => .w64 3 12 h u
  | .fcos h u => .w64 3 13 h u
  | .fscale h u => .w64 3 14 h u
  | .fclass h u => .w64 3 15 h u
  | .movL f => .l 0 f
  | .iaddL f => .l 1 f
  | .isubL f => .l 2 f
  | .imulL f => .l 3 f
  | .imulhiL f => .l 4 f
  | .imadL f => .l 5 f
  | .iminL f => .l 6 f
  | .imaxL f => .l 7 f
  | .iabsL f => .l 8 f
  | .andL f => .l 9 f
  | .orL f => .l 10 f
  | .xorL f => .l 11 f
  | .notL f => .l 12 f
  | .shlL f => .l 13 f
  | .shrL f => .l 14 f
  | .sarL f => .l 15 f
  | .rotlL f => .l 16 f
  | .popcL f => .l 17 f
  | .clzL f => .l 18 f
  | .brevL f => .l 19 f
  | .bfxL f => .l 20 f
  | .bfiL f => .l 21 f
  | .selL f => .l 22 f
  | .leaL f => .l 23 f
  | .faddL f => .l 24 f
  | .fsubL f => .l 25 f
  | .fmulL f => .l 26 f
  | .ffmaL f => .l 27 f
  | .fminL f => .l 28 f
  | .fmaxL f => .l 29 f
  | .frcpL f => .l 30 f
  | .fdivL f => .l 31 f
  | .fsqrtL f => .l 32 f
  | .frsqL f => .l 33 f
  | .fex2L f => .l 34 f
  | .flg2L f => .l 35 f
  | .fsinL f => .l 36 f
  | .fcosL f => .l 37 f
  | .fscaleL f => .l 38 f
  | .fclassL f => .l 39 f
  | .movi f => .i 48 f
  | .movhi f => .i 49 f
  | .iaddi f => .i 50 f
  | .andi f => .i 51 f
  | .ori f => .i 52 f
  | .xori f => .i 53 f
  | .shli f => .i 54 f
  | .shri f => .i 55 f
  | .sari f => .i 56 f
  | .rep f t => .rep f t
  | .movS16 f => .s 0 f
  | .iaddS16 f => .s 1 f
  | .isubS16 f => .s 2 f
  | .imulS16 f => .s 3 f
  | .andS16 f => .s 4 f
  | .orS16 f => .s 5 f
  | .xorS16 f => .s 6 f
  | .shlS16 f => .s 7 f
  | .shrS16 f => .s 8 f
  | .sarS16 f => .s 9 f
  | .faddS16 f => .s 10 f
  | .fsubS16 f => .s 11 f
  | .fmulS16 f => .s 12 f
  | .fminS16 f => .s 13 f
  | .fmaxS16 f => .s 14 f
  | .iminS16 f => .s 15 f
  | .dwadd h u => .w64 4 0 h u
  | .dwsub h u => .w64 4 1 h u
  | .dwmul h u => .w64 4 2 h u
  | .dwnorm h u => .w64 4 3 h u
  | .dwcvt h u => .w64 4 4 h u
  | .shfl h u => .w64 5 0 h u
  | .shflx h u => .w64 5 1 h u
  | .rfirst h u => .w64 5 2 h u
  | .rlane h u => .w64 5 3 h u
  | .wlane h u => .w64 5 4 h u
  | .redstep h u => .w64 5 5 h u
  | .red h u => .w64 5 6 h u
  | .redcmp h u => .w64 5 7 h u
  | .scan h u => .w64 5 8 h u
  | .trn h u => .w64 5 9 h u
  | .cvt h u => .w64 6 0 h u
  | .qblk h u => .w64 6 1 h u
  | .dq h u => .w64 6 2 h u
  | .packh h u => .w64 6 3 h u
  | .unpackh h u => .w64 6 4 h u
  | .srd h u => .w64 7 0 h u
  | .swr h u => .w64 7 1 h u
  | .ldi h u => .w64 7 2 h u
  | .ld h u => .w64 8 0 h u
  | .st h u => .w64 8 1 h u
  | .lds h u => .w64 8 2 h u
  | .sts h u => .w64 8 3 h u
  | .ldf h u => .w64 8 4 h u
  | .stf h u => .w64 8 5 h u
  | .atom h u => .w64 8 6 h u
  | .atoms h u => .w64 8 7 h u
  | .fence h u => .w64 8 8 h u
  | .pref h u => .w64 8 9 h u
  | .ldrec h u => .w64 8 10 h u
  | .strec h u => .w64 8 11 h u
  | .barinit h u => .w64 9 0 h u
  | .bararr h u => .w64 9 1 h u
  | .barwait h u => .w64 9 2 h u
  | .bartest h u => .w64 9 3 h u
  | .barexp h u => .w64 9 4 h u
  | .waitf h u => .w64 9 5 h u
  | .waitc h u => .w64 10 0 h u
  | .waitt h u => .w64 10 1 h u
  | .tlarm h u => .w64 10 2 h u
  | .tlrd h u => .w64 10 3 h u
  | .flagrd h u => .w64 10 4 h u
  | .lcopy h u => .w64 11 0 h u
  | .bseal h u => .w64 11 1 h u
  | .bwaitn h u => .w64 11 2 h u
  | .bwaits h u => .w64 11 3 h u
  | .btest h u => .w64 11 4 h u
  | .tdef h u => .w64 12 0 h u
  | .tload h u => .w64 12 1 h u
  | .tstore h u => .w64 12 2 h u
  | .tmcast h u => .w64 12 3 h u
  | .tred h u => .w64 12 4 h u
  | .tpeer h u => .w64 12 5 h u
  | .omap h u => .w64 13 0 h u
  | .wbload h u => .w64 13 1 h u
  | .mma h u => .w64 13 2 h u
  | .accz h u => .w64 13 3 h u
  | .accld h u => .w64 13 4 h u
  | .accdrain h u => .w64 13 5 h u
  | .kvwalk h u => .w64 14 0 h u
  | .kvgather h u => .w64 14 1 h u
  | .kvappend h u => .w64 14 2 h u
  | .kvtrunc h u => .w64 14 3 h u
  | .kvfork h u => .w64 14 4 h u
  | .smerge h u => .w64 14 5 h u
  | .acq h u => .w64 15 0 h u
  | .acqt h u => .w64 15 1 h u
  | .rel h u => .w64 15 2 h u
  | .claimq h u => .w64 15 3 h u
  | .fjoin h u => .w64 15 4 h u
  | .fleave h u => .w64 15 5 h u
  | .flockset h u => .w64 15 6 h u
  | .launch h u => .w64 16 0 h u
  | .spawn h u => .w64 16 1 h u
  | .tdep h u => .w64 16 2 h u
  | .tcancel h u => .w64 16 3 h u
  | .sliceyield h u => .w64 16 4 h u
  | .region h u => .w64 16 5 h u
  | .regionend h u => .w64 16 6 h u
  | .stenq h u => .w64 16 7 h u
  | .stdeq h u => .w64 16 8 h u
  | .ovfld h u => .w64 17 0 h u
  | .tlbinv h u => .w64 17 1 h u
  | .ctxsave h u => .w64 17 2 h u
  | .ctxload h u => .w64 17 3 h u
  | .qdestroy h u => .w64 17 4 h u
  | .swrp h u => .w64 17 5 h u
  | .halt h u => .w64 17 6 h u
  | .eret h u => .w64 17 7 h u
  | .fillerIssue _ _ => .event
  | .throttleEntry _ => .event
  | .throttleExit _ => .event
  | .stringBalanceLost _ _ => .event
  | .powerInterval _ _ _ => .event
  | .operatingPointChange _ => .event
  | .yieldExpiry _ => .event
  | .thermalMigrate _ => .event
  | .thermalTrip _ => .event
  | .railUndervolt _ => .event
  | .railOvercurrent _ => .event
  | .coreUngate _ => .event
  | .powerGate _ => .event
  | .loadDataReturn _ _ => .event
  | .storePerformed _ _ => .event
  | .shepherdTest _ => .event
  | .rendezvousComplete _ _ => .event
  | .handlerVector _ => .event
  | .waitcResume _ => .event
  | .barwaitResume _ => .event
  | .waitfResume _ => .event
  | .waittResume _ => .event
  | .batchWaitResume _ => .event
  | .bsealResume _ => .event
  | .relResume _ => .event
  | .fleaveResume _ => .event
  | .fjoinResume _ => .event
  | .flagrdResume _ => .event
  | .stdeqResume _ => .event
  | .stenqResume _ => .event
  | .launchQueueResume _ => .event
  | .lcopyTransferDone _ => .event
  | .engineAsyncFault _ => .event
  | .engineReplay _ => .event
  | .tileAccept _ => .event
  | .tileOpComplete _ => .event
  | .tmcastDelivery _ _ => .event
  | .mmaAFetch _ => .event
  | .wbloadFillDone _ => .event
  | .mmaComplete _ => .event
  | .acczAccldComplete _ => .event
  | .accdrainComplete _ => .event
  | .matrixLateFault _ => .event
  | .kvgatherWalk _ => .event
  | .kvPageDelivery _ _ => .event
  | .kvReturnPass _ => .event
  | .kvappendStep _ => .event
  | .smergeComplete _ => .event
  | .pagerPageIn _ _ => .event
  | .pagerDemotion _ _ => .event
  | .dispatchDecision _ => .event
  | .blockRetire _ => .event
  | .deadlineMissed _ => .event
  | .budgetExhausted _ => .event
  | .regionGap _ => .event
  | .preempt _ _ => .event
  | .waitForSample _ => .event
  | .systemHandler _ _ => .event
  | .eccUncorrectable _ _ _ _ _ => .event
  | .softErrorCorrect _ => .event
  | .doorbell _ _ _ => .event
  | .hostPacketLaunch _ _ => .event
  | .hostPacketWait _ _ => .event
  | .rsizeWrite _ _ _ => .event
  | .resume _ _ => .event
  | .evhead _ _ => .event
  | .hostRegisterWrite _ _ _ => .event
  | .pctlRun _ => .event
  | .pctlReset _ => .event
  | .partitionReset _ => .event
  | .partitionConfigure _ _ _ _ => .event
  | .stileCreate _ _ _ _ => .event
  | .stileDestroy _ => .event
  | .liveUpdate _ => .event
  | .firmwareTakeover => .event
  | .firmwareRollback => .event
  | .watchdog => .event
  | .coldStart _ _ _ => .event
  | .warmStart _ => .event
  | .failedStart _ _ => .event
  | .attestationRequest _ => .event
  | .telemetryRead => .event
  | .linkRetrain _ => .event
  | .linkDown _ => .event
  | .peerTimeout _ => .event
  | .ethDown _ => .event
  | .hostMemoryWrite _ _ => .event
  | .peerAccess _ => .event
  | .hostTimeout _ _ => .event

/-- The header of a short form: lane scope, p7, width 32 (04 R102). -/
def shortHdr (vd : BitVec 8) : Hdr := ⟨0, false, false, vd, false, 7, .lane⟩

/-- An X-form upper word with register fields alone. -/
def shortX (va vb vc : BitVec 8) : Upper := .x ⟨false, false, false, false, false, 0, vc, vb, va⟩

/-- L-form functions whose vc is taken from vd: IMAD, BFX, BFI, SEL, LEA, FFMA (04 R102). -/
def lReadsC (major : Nat) : Bool :=
  major = 5 || major = 20 || major = 21 || major = 22 || major = 23 || major = 27

/-- The 64-bit expansion of an L form (04 R102). -/
def expandL (major : Nat) (f : LForm) : Nat × Nat × Hdr × Upper :=
  (if major < 24 then 2 else 3, if major < 24 then major else major - 24, shortHdr f.vd,
    shortX f.va f.vb (if lReadsC major then f.vd else 0))

/-- imm16, or its low 5 bits for the shifts, as imm24 (04 R104). -/
def immOfI (major : Nat) (imm : BitVec 16) : BitVec 24 :=
  if major = 54 || major = 55 || major = 56 then (imm.extractLsb' 0 5).zeroExtend 24 else imm.signExtend 24

/-- INT function of an I-form major (04 R104). -/
def fnOfI (major : Nat) : Nat :=
  match major with
  | 48 => 0
  | 50 => 1
  | 51 => 9
  | 52 => 10
  | 53 => 11
  | 54 => 13
  | 55 => 14
  | _ => 15

/-- The 64-bit equivalent of an I form other than MOVHI (04 R104). -/
def expandI (major : Nat) (f : IForm) : Nat × Nat × Hdr × Upper :=
  (2, fnOfI major, shortHdr f.vd, .xi (if major = 48 then 0 else f.vd) (immOfI major f.imm))

/-- Major and function of a 16-bit op (04 R105). -/
def fnOfS (op : Nat) : Nat × Nat :=
  match op with
  | 0 => (2, 0)
  | 1 => (2, 1)
  | 2 => (2, 2)
  | 3 => (2, 3)
  | 4 => (2, 9)
  | 5 => (2, 10)
  | 6 => (2, 11)
  | 7 => (2, 13)
  | 8 => (2, 14)
  | 9 => (2, 15)
  | 10 => (3, 0)
  | 11 => (3, 1)
  | 12 => (3, 2)
  | 13 => (3, 4)
  | 14 => (3, 5)
  | _ => (2, 6)

/-- sext(imm5) converted exactly to FP32, top 24 bits, from the magnitude's table of leading bits (04 R105). -/
def fp32OfImm5 (s : BitVec 5) : BitVec 24 :=
  let neg := s.msb
  let m : Nat := if neg then 32 - s.toNat else s.toNat
  if m = 0 then 0
  else
    let e := Nat.log2 m
    BitVec.ofNat 24 ((if neg then 0x800000 else 0) + (e + 127) * 2 ^ 15 + (m - 2 ^ e) * 2 ^ (15 - e))

/-- imm24 of a 16-bit immediate form (04 R105). -/
def immOfS (op : Nat) (s : BitVec 5) : BitVec 24 :=
  if op = 7 || op = 8 || op = 9 then s.zeroExtend 24
  else if 10 ≤ op && op ≤ 14 then fp32OfImm5 s
  else s.signExtend 24

/-- The 64-bit expansion of a 16-bit form (04 R105). -/
def expandS (op : Nat) (f : SForm) : Nat × Nat × Hdr × Upper :=
  let d := f.vd.zeroExtend 8
  let (mj, fn) := fnOfS op
  (mj, fn, shortHdr d,
    if f.im then .xi (if op = 0 then 0 else d) (immOfS op f.s)
    else if op = 0 then shortX (f.s.zeroExtend 8) 0 0
    else shortX d (f.s.zeroExtend 8) 0)

/-- The 64-bit instruction that a form is, where it is one (04 R106; MOVHI and REP are none). -/
def Form.expand (f : Form) : Option (Nat × Nat × Hdr × Upper) :=
  match f with
  | .w64 mj fn h u => some (mj, fn, h, u)
  | .l mj f => some (expandL mj f)
  | .i mj f => if mj = 49 then none else some (expandI mj f)
  | .s op f => some (expandS op f)
  | .rep _ _ => none
  | .event => none

/-- Reserved bits of the I form itself: imm16[15:5] of the shifts (04 R104). -/
def iFieldsOk (major : Nat) (f : IForm) : Bool :=
  if major = 54 || major = 55 || major = 56 then decide (f.imm.toNat < 32) else true

/-- The use of one unprefixed instruction (checks 4 to 6). -/
def Form.use (f : Form) : WordUse :=
  match f with
  | .i mj g =>
    if mj = 49 then ⟨true, true, [RegUse.one false g.vd]⟩
    else
      let (m, fn, h, u) := expandI mj g
      let w := wordUse m fn h u
      { w with fieldsOk := w.fieldsOk && iFieldsOk mj g }
  | _ =>
    match f.expand with
    | some (m, fn, h, u) => wordUse m fn h u
    | none => ⟨true, true, []⟩

/-- Instructions that REP may repeat (04 R103). -/
def Form.repTarget (f : Form) : Bool :=
  match f with
  | .i _ _ => true
  | _ =>
    match f.expand with
    | some (m, fn, _, _) =>
      m = 2 || m = 3 || m = 4 || m = 6 || (m = 5 && fn = 9) || (m = 8 && fn ≤ 3)
    | none => false

/-- Whether the target is of the M form. -/
def Form.isM (f : Form) : Bool :=
  match f with
  | .w64 8 _ _ _ => true
  | _ => false

/-- Whether the target is MOVHI. -/
def Form.isMovhi (f : Form) : Bool :=
  match f with
  | .i 49 _ => true
  | _ => false

/-- Fields of the prefix that must be 0 for this target (04 R103). -/
def repFieldsOk (f : RepForm) (t : Form) : Bool :=
  if t.isM then !f.sb && !f.sc else if t.isMovhi then !f.sa && !f.sb && !f.sc else true

/-- Adds a step to an 8-bit field; the flag says that it passed the field (04 R103). -/
def stepField (on : Bool) (k : Nat) (r : BitVec 8) : BitVec 8 × Bool :=
  if on then (r + BitVec.ofNat 8 k, decide (256 ≤ r.toNat + k)) else (r, false)

/-- One mark for each register field of a word: vd, va (or the lane offset), vb and vc. -/
structure Fields where
  vd : Bool
  va : Bool
  vb : Bool
  vc : Bool
  deriving DecidableEq, Repr

/-- A field marked in the one and not in the other. -/
def Fields.anyBut (p q : Fields) : Bool := (p.vd && !q.vd) || (p.va && !q.va) || (p.vb && !q.vb) || (p.vc && !q.vc)
/-- A field marked in both. -/
def Fields.anyIn (p q : Fields) : Bool := (p.vd && q.vd) || (p.va && q.va) || (p.vb && q.vb) || (p.vc && q.vc)

/-- The fields of a word that REP may repeat which name vector registers (04 R96, R103). -/
def vectorFields (major fn : Nat) (h : Hdr) (u : Upper) : Fields :=
  let lane := h.scope != .warp
  match u with
  | .x f =>
    let two := (major = 2 && !intOneSource fn) || (major = 3 && !fpOneSource fn) || (major = 4 && decide (fn ≤ 2))
      || (major = 6 && decide (1 ≤ fn) && decide (fn ≤ 3))
    let three := (major = 2 && intReadsC fn) || (major = 3 && fn = 3)
    ⟨lane, lane && !f.ua, lane && two && !f.ub, lane && three && !f.uc⟩
  | .xi _ _ => ⟨lane, lane && !(major = 2 && fn = 0), false, false⟩
  | .m f => ⟨lane, lane && f.oe, false, false⟩
  | .xl _ => ⟨lane, false, false, false⟩

/-- What repeat `i` of a pair issues: the stepped instruction, and the fields that passed 255 (04 R103). MOVHI has no
64-bit expansion and keeps its I form. -/
inductive Stepped where
  | w64 (major fn : Nat) (h : Hdr) (u : Upper) (past : Fields)
  | movhi (f : IForm) (past : Bool)
  deriving DecidableEq, Repr

/-- Repeat `i` of the pair (04 R103). The XI form has no vb and no vc, so sb and sc step nothing there. -/
def stepTarget (f : RepForm) (t : Form) (i : Nat) : Option Stepped :=
  let k := i * 2 ^ f.size.toNat
  match t with
  | .i 49 g =>
    let (vd, o) := stepField f.sd k g.vd
    some (.movhi { g with vd := vd } o)
  | _ =>
    match t.expand with
    | none => none
    | some (m, fn, h, u) =>
      let (vd, od) := stepField f.sd k h.vd
      let h' := { h with vd := vd }
      match u with
      | .x g =>
        let (va, oa) := stepField f.sa k g.va
        let (vb, ob) := stepField f.sb k g.vb
        let (vc, oc) := stepField f.sc k g.vc
        some (.w64 m fn h' (.x { g with va := va, vb := vb, vc := vc }) ⟨od, oa, ob, oc⟩)
      | .m g =>
        let (off, oa) := stepField f.sa k g.off
        some (.w64 m fn h' (.m { g with off := off }) ⟨od, oa, false, false⟩)
      | .xi va imm =>
        let (va', oa) := stepField f.sa k va
        some (.w64 m fn h' (.xi va' imm) ⟨od, oa, false, false⟩)
      | .xl imm => some (.w64 m fn h' (.xl imm) ⟨od, false, false, false⟩)

/-- Checks 4 to 6 of R110 on a whole instruction; a REP pair is checked as one, on its prefix and on repeat 0,
after the rule on its target. -/
def check (i : Instr) : Option Cause :=
  match form i with
  | .rep f t =>
    let tf := form t
    if !tf.repTarget then some cRepTarget
    else
      let w := tf.use
      { w with fieldsOk := w.fieldsOk && repFieldsOk f tf }.cause
  | .event => none
  | g => g.use.cause

/-- Bytes of an instruction: 8, 4 or 2; a REP pair is 4 plus its target's (04 R90, 06 R144). An event has none. -/
def Form.length (f : Form) : Nat :=
  match f with
  | .w64 _ _ _ _ => 8
  | .l _ _ => 4
  | .i _ _ => 4
  | .s _ _ => 2
  | .rep _ _ => 4
  | .event => 0

/-- Length in bytes of an instruction. -/
def instrLength (i : Instr) : Nat :=
  match form i with
  | .rep _ t => 4 + (form t).length
  | g => g.length

end Sys2Proof.Machine
end

