-- ==== Sys2Proof/WellFormed.lean ====
section
/-! DEFINITION. Well-formed instructions: those that pass checks 4 to 6 of 04 R110. The checks themselves
stand in Machine/Checks.lean and Machine/Forms.lean. -/

namespace Sys2Proof

/-- An instruction word of the device, not one of its events. -/
def Instr.isWord (i : Instr) : Bool := Machine.form i != .event

/-- A well-formed instruction: a word whose scope, fields, pairs and REP target pass (04 R110). -/
def Instr.wellFormed (i : Instr) : Bool := i.isWord && Machine.check i == none

end Sys2Proof
end

