-- ==== Sys2Proof/Decode.lean ====
section
/-! DEFINITION. The decoder, total on any 16-bit units (04 R90, R93 to R110), rejecting by cause, and after
it the encoder, from the same tables. -/

namespace Sys2Proof

open Sys2Proof.Machine

/-- The context that checks 2 and 3 of R110 read: firmware context, and control mode (04 R109). -/
structure Context where
  fw : Bool
  control : Bool
  deriving DecidableEq, Repr

/-- A program in user context on a core. -/
def Context.user : Context := ⟨false, false⟩
/-- Firmware context, control mode aside. -/
def Context.firmware : Context := ⟨true, false⟩

/-- Scope of a code (01 R24). -/
def scopeOf (b : BitVec 2) : Scope :=
  if b = 0 then .lane else if b = 1 then .warp else if b = 2 then .flock else .block

/-- Code of a scope (01 R24). -/
def scopeBits (s : Scope) : BitVec 2 :=
  match s with
  | .lane => 0
  | .warp => 1
  | .flock => 2
  | .block => 3

/-- The header fields of a 64-bit word (04 R93). -/
def hdrOf (w : BitVec 64) : Hdr :=
  { width := w.extractLsb' 30 2, sat := w.getLsbD 29, x := w.getLsbD 28, vd := w.extractLsb' 20 8,
    pneg := w.getLsbD 19, pred := w.extractLsb' 16 3, scope := scopeOf (w.extractLsb' 14 2) }

/-- The X-form upper word (04 R95). -/
def xOf (w : BitVec 64) : XForm :=
  { mb := w.getLsbD 63, ma := w.getLsbD 62, uc := w.getLsbD 61, ub := w.getLsbD 60, ua := w.getLsbD 59,
    rnd := w.extractLsb' 56 3, vc := w.extractLsb' 48 8, vb := w.extractLsb' 40 8, va := w.extractLsb' 32 8 }

/-- The M-form upper word (04 R99). -/
def mOf (w : BitVec 64) : MForm :=
  { imm8 := w.extractLsb' 56 8, nt := w.getLsbD 55, order := w.extractLsb' 53 2, mscope := w.extractLsb' 50 3,
    esize := w.extractLsb' 47 3, oe := w.getLsbD 46, off := w.extractLsb' 38 8, base := w.extractLsb' 32 6 }

/-- Whether a major uses the M form (04 R99). -/
def isMMajor (major : Nat) : Bool := major = 8 || major = 11

/-- Whether a function uses the XL form (04 R98). -/
def isXL (major fn : Nat) : Bool := (major = 0 && (fn = 1 || fn = 3 || fn = 6)) || (major = 7 && fn = 2)

/-- The upper word as the major, function and I bit decide it (04 R93, R97 to R99). -/
def upperOf (major fn : Nat) (w : BitVec 64) : Upper :=
  if w.getLsbD 13 then
    if isXL major fn then .xl (w.extractLsb' 32 32) else .xi (w.extractLsb' 32 8) (w.extractLsb' 40 24)
  else if isMMajor major then .m (mOf w)
  else .x (xOf w)

/-- The 64-bit opcode map (04 R107); none where major or function is unassigned. -/
def make64 (major fn : Nat) (h : Hdr) (u : Upper) : Option Instr :=
  match major, fn with
  | 0, 0 => some (.nop h u)
  | 0, 1 => some (.bra h u)
  | 0, 2 => some (.brx h u)
  | 0, 3 => some (.call h u)
  | 0, 4 => some (.callx h u)
  | 0, 5 => some (.ret h u)
  | 0, 6 => some (.rpush h u)
  | 0, 7 => some (.rjoin h u)
  | 0, 8 => some (.exit h u)
  | 0, 9 => some (.yield h u)
  | 0, 10 => some (.trap h u)
  | 0, 11 => some (.bpt h u)
  | 0, 12 => some (.reti h u)
  | 1, 0 => some (.icmpp h u)
  | 1, 1 => some (.fcmpp h u)
  | 1, 2 => some (.pbool h u)
  | 1, 3 => some (.pmov h u)
  | 1, 4 => some (.pcnt h u)
  | 1, 5 => some (.pfirst h u)
  | 1, 6 => some (.pqry h u)
  | 2, 0 => some (.mov h u)
  | 2, 1 => some (.iadd h u)
  | 2, 2 => some (.isub h u)
  | 2, 3 => some (.imul h u)
  | 2, 4 => some (.imulhi h u)
  | 2, 5 => some (.imad h u)
  | 2, 6 => some (.imin h u)
  | 2, 7 => some (.imax h u)
  | 2, 8 => some (.iabs h u)
  | 2, 9 => some (.and h u)
  | 2, 10 => some (.or h u)
  | 2, 11 => some (.xor h u)
  | 2, 12 => some (.not h u)
  | 2, 13 => some (.shl h u)
  | 2, 14 => some (.shr h u)
  | 2, 15 => some (.sar h u)
  | 2, 16 => some (.rotl h u)
  | 2, 17 => some (.popc h u)
  | 2, 18 => some (.clz h u)
  | 2, 19 => some (.brev h u)
  | 2, 20 => some (.bfx h u)
  | 2, 21 => some (.bfi h u)
  | 2, 22 => some (.sel h u)
  | 2, 23 => some (.lea h u)
  | 3, 0 => some (.fadd h u)
  | 3, 1 => some (.fsub h u)
  | 3, 2 => some (.fmul h u)
  | 3, 3 => some (.ffma h u)
  | 3, 4 => some (.fmin h u)
  | 3, 5 => some (.fmax h u)
  | 3, 6 => some (.frcp h u)
  | 3, 7 => some (.fdiv h u)
  | 3, 8 => some (.fsqrt h u)
  | 3, 9 => some (.frsq h u)
  | 3, 10 => some (.fex2 h u)
  | 3, 11 => some (.flg2 h u)
  | 3, 12 => some (.fsin h u)
  | 3, 13 => some (.fcos h u)
  | 3, 14 => some (.fscale h u)
  | 3, 15 => some (.fclass h u)
  | 4, 0 => some (.dwadd h u)
  | 4, 1 => some (.dwsub h u)
  | 4, 2 => some (.dwmul h u)
  | 4, 3 => some (.dwnorm h u)
  | 4, 4 => some (.dwcvt h u)
  | 5, 0 => some (.shfl h u)
  | 5, 1 => some (.shflx h u)
  | 5, 2 => some (.rfirst h u)
  | 5, 3 => some (.rlane h u)
  | 5, 4 => some (.wlane h u)
  | 5, 5 => some (.redstep h u)
  | 5, 6 => some (.red h u)
  | 5, 7 => some (.redcmp h u)
  | 5, 8 => some (.scan h u)
  | 5, 9 => some (.trn h u)
  | 6, 0 => some (.cvt h u)
  | 6, 1 => some (.qblk h u)
  | 6, 2 => some (.dq h u)
  | 6, 3 => some (.packh h u)
  | 6, 4 => some (.unpackh h u)
  | 7, 0 => some (.srd h u)
  | 7, 1 => some (.swr h u)
  | 7, 2 => some (.ldi h u)
  | 8, 0 => some (.ld h u)
  | 8, 1 => some (.st h u)
  | 8, 2 => some (.lds h u)
  | 8, 3 => some (.sts h u)
  | 8, 4 => some (.ldf h u)
  | 8, 5 => some (.stf h u)
  | 8, 6 => some (.atom h u)
  | 8, 7 => some (.atoms h u)
  | 8, 8 => some (.fence h u)
  | 8, 9 => some (.pref h u)
  | 8, 10 => some (.ldrec h u)
  | 8, 11 => some (.strec h u)
  | 9, 0 => some (.barinit h u)
  | 9, 1 => some (.bararr h u)
  | 9, 2 => some (.barwait h u)
  | 9, 3 => some (.bartest h u)
  | 9, 4 => some (.barexp h u)
  | 9, 5 => some (.waitf h u)
  | 10, 0 => some (.waitc h u)
  | 10, 1 => some (.waitt h u)
  | 10, 2 => some (.tlarm h u)
  | 10, 3 => some (.tlrd h u)
  | 10, 4 => some (.flagrd h u)
  | 11, 0 => some (.lcopy h u)
  | 11, 1 => some (.bseal h u)
  | 11, 2 => some (.bwaitn h u)
  | 11, 3 => some (.bwaits h u)
  | 11, 4 => some (.btest h u)
  | 12, 0 => some (.tdef h u)
  | 12, 1 => some (.tload h u)
  | 12, 2 => some (.tstore h u)
  | 12, 3 => some (.tmcast h u)
  | 12, 4 => some (.tred h u)
  | 12, 5 => some (.tpeer h u)
  | 13, 0 => some (.omap h u)
  | 13, 1 => some (.wbload h u)
  | 13, 2 => some (.mma h u)
  | 13, 3 => some (.accz h u)
  | 13, 4 => some (.accld h u)
  | 13, 5 => some (.accdrain h u)
  | 14, 0 => some (.kvwalk h u)
  | 14, 1 => some (.kvgather h u)
  | 14, 2 => some (.kvappend h u)
  | 14, 3 => some (.kvtrunc h u)
  | 14, 4 => some (.kvfork h u)
  | 14, 5 => some (.smerge h u)
  | 15, 0 => some (.acq h u)
  | 15, 1 => some (.acqt h u)
  | 15, 2 => some (.rel h u)
  | 15, 3 => some (.claimq h u)
  | 15, 4 => some (.fjoin h u)
  | 15, 5 => some (.fleave h u)
  | 15, 6 => some (.flockset h u)
  | 16, 0 => some (.launch h u)
  | 16, 1 => some (.spawn h u)
  | 16, 2 => some (.tdep h u)
  | 16, 3 => some (.tcancel h u)
  | 16, 4 => some (.sliceyield h u)
  | 16, 5 => some (.region h u)
  | 16, 6 => some (.regionend h u)
  | 16, 7 => some (.stenq h u)
  | 16, 8 => some (.stdeq h u)
  | 17, 0 => some (.ovfld h u)
  | 17, 1 => some (.tlbinv h u)
  | 17, 2 => some (.ctxsave h u)
  | 17, 3 => some (.ctxload h u)
  | 17, 4 => some (.qdestroy h u)
  | 17, 5 => some (.swrp h u)
  | 17, 6 => some (.halt h u)
  | 17, 7 => some (.eret h u)
  | _, _ => none

/-- The L-form majors (04 R101, R102). -/
def makeL (major : Nat) (f : LForm) : Option Instr :=
  match major with
  | 0 => some (.movL f)
  | 1 => some (.iaddL f)
  | 2 => some (.isubL f)
  | 3 => some (.imulL f)
  | 4 => some (.imulhiL f)
  | 5 => some (.imadL f)
  | 6 => some (.iminL f)
  | 7 => some (.imaxL f)
  | 8 => some (.iabsL f)
  | 9 => some (.andL f)
  | 10 => some (.orL f)
  | 11 => some (.xorL f)
  | 12 => some (.notL f)
  | 13 => some (.shlL f)
  | 14 => some (.shrL f)
  | 15 => some (.sarL f)
  | 16 => some (.rotlL f)
  | 17 => some (.popcL f)
  | 18 => some (.clzL f)
  | 19 => some (.brevL f)
  | 20 => some (.bfxL f)
  | 21 => some (.bfiL f)
  | 22 => some (.selL f)
  | 23 => some (.leaL f)
  | 24 => some (.faddL f)
  | 25 => some (.fsubL f)
  | 26 => some (.fmulL f)
  | 27 => some (.ffmaL f)
  | 28 => some (.fminL f)
  | 29 => some (.fmaxL f)
  | 30 => some (.frcpL f)
  | 31 => some (.fdivL f)
  | 32 => some (.fsqrtL f)
  | 33 => some (.frsqL f)
  | 34 => some (.fex2L f)
  | 35 => some (.flg2L f)
  | 36 => some (.fsinL f)
  | 37 => some (.fcosL f)
  | 38 => some (.fscaleL f)
  | 39 => some (.fclassL f)
  | _ => none

/-- The I-form majors (04 R101, R104). -/
def makeI (major : Nat) (f : IForm) : Option Instr :=
  match major with
  | 48 => some (.movi f)
  | 49 => some (.movhi f)
  | 50 => some (.iaddi f)
  | 51 => some (.andi f)
  | 52 => some (.ori f)
  | 53 => some (.xori f)
  | 54 => some (.shli f)
  | 55 => some (.shri f)
  | 56 => some (.sari f)
  | _ => none

/-- The 16-bit ops (04 R105): every op is assigned. -/
def makeS (op : Nat) (f : SForm) : Instr :=
  match op with
  | 0 => .movS16 f
  | 1 => .iaddS16 f
  | 2 => .isubS16 f
  | 3 => .imulS16 f
  | 4 => .andS16 f
  | 5 => .orS16 f
  | 6 => .xorS16 f
  | 7 => .shlS16 f
  | 8 => .shrS16 f
  | 9 => .sarS16 f
  | 10 => .faddS16 f
  | 11 => .fsubS16 f
  | 12 => .fmulS16 f
  | 13 => .fminS16 f
  | 14 => .fmaxS16 f
  | _ => .iminS16 f

/-- Groups that control mode lacks (04 R109). -/
def controlLacks (major fn : Nat) : Bool :=
  major = 11 || major = 12 || major = 13 || major = 14 || (major = 15 && (fn = 4 || fn = 5 || fn = 6))

/-- Checks 2 and 3 on a 64-bit word (04 R110). -/
def decode64 (c : Context) (w : BitVec 64) : Except Cause Instr :=
  let major := (w.extractLsb' 2 6).toNat
  let fn := (w.extractLsb' 8 5).toNat
  if major = 17 && !c.fw then .error cPrivileged
  else if c.control && controlLacks major fn then .error cIllegalOpcode
  else
    match make64 major fn (hdrOf w) (upperOf major fn w) with
    | some i => .ok i
    | none => .error cIllegalOpcode

/-- Checks 2 and 3 on a 32-bit word other than REP (04 R101). -/
def decode32 (w : BitVec 32) : Except Cause Instr :=
  let major := (w.extractLsb' 2 6).toNat
  let l := makeL major ⟨w.extractLsb' 8 8, w.extractLsb' 16 8, w.extractLsb' 24 8⟩
  let i := makeI major ⟨w.extractLsb' 8 8, w.extractLsb' 16 16⟩
  match l, i with
  | some x, _ => .ok x
  | none, some x => .ok x
  | none, none => .error cIllegalOpcode

/-- A 16-bit word is always an instruction (04 R105). -/
def decode16 (w : BitVec 16) : Instr :=
  makeS (w.extractLsb' 1 4).toNat ⟨w.getLsbD 15, w.extractLsb' 10 5, w.extractLsb' 5 5⟩

/-- The fields of a REP prefix (04 R103). -/
def repOf (w : BitVec 32) : RepForm :=
  { size := w.extractLsb' 18 2, sc := w.getLsbD 17, sb := w.getLsbD 16, sa := w.getLsbD 15,
    sd := w.getLsbD 14, count := w.extractLsb' 8 6 }

/-- Whether a first unit begins a REP prefix: a 32-bit word of major 47 (04 R101). -/
def isRep (u : BitVec 16) : Bool := u.extractLsb' 0 2 == 1 && u.extractLsb' 2 6 == 47

/-- Number of 16-bit units of the instruction that a unit begins, prefix alone for REP (04 R90). -/
def unitCount (u : BitVec 16) : Nat :=
  if !u.getLsbD 0 then 1 else if u.extractLsb' 0 2 == 1 then 2 else 4

/-- Unit `k` of a fetched window, zero beyond it. -/
def unitAt (us : List (BitVec 16)) (k : Nat) : BitVec 16 := us.getD k 0

/-- 32 bits from unit `k` on (04 R90: little-endian units). -/
def word32At (us : List (BitVec 16)) (k : Nat) : BitVec 32 := unitAt us (k + 1) ++ unitAt us k
/-- 64 bits from unit `k` on. -/
def word64At (us : List (BitVec 16)) (k : Nat) : BitVec 64 := word32At us (k + 2) ++ word32At us k

/-- Checks 2 and 3 on the unprefixed instruction at unit `k`. -/
def decodeOne (c : Context) (us : List (BitVec 16)) (k : Nat) : Except Cause Instr :=
  let u := unitAt us k
  if !u.getLsbD 0 then .ok (decode16 u)
  else if u.extractLsb' 0 2 == 1 then decode32 (word32At us k)
  else decode64 c (word64At us k)

/-- The instruction that a window of units begins, before the checks of its fields. -/
def instrAt (c : Context) (us : List (BitVec 16)) : Except Cause Instr :=
  if isRep (unitAt us 0) then
    match decodeOne c us 2 with
    | .error e => .error e
    | .ok t => .ok (.rep (repOf (word32At us 0)) t)
  else decodeOne c us 0

/-- Control mode allows neither flock nor block scope (04 R109). -/
def controlScopeBad (c : Context) (i : Instr) : Bool :=
  c.control &&
    match form i with
    | .w64 _ _ h _ => h.scope == .flock || h.scope == .block
    | _ => false

/-- The decoder: the instruction that a window of units begins, or the first check of R110 among 2 to 6 that
fails. A REP pair is checked as one instruction, with the prefix's reserved bits in check 5. -/
def decode (c : Context) (us : List (BitVec 16)) : Except Cause Instr :=
  if isRep (unitAt us 0) then
    let p := word32At us 0
    if isRep (unitAt us 2) then .error cRepTarget
    else
      match decodeOne c us 2 with
      | .error e => .error e
      | .ok t =>
        let tf := form t
        if !tf.repTarget then .error cRepTarget
        else if controlScopeBad c t then .error cScope
        else
          let w := tf.use
          let w' := { w with fieldsOk := w.fieldsOk && repFieldsOk (repOf p) tf && p.extractLsb' 20 12 == 0 }
          match w'.cause with
          | some e => .error e
          | none => .ok (.rep (repOf p) t)
  else
    match decodeOne c us 0 with
    | .error e => .error e
    | .ok i =>
      if controlScopeBad c i then .error cScope
      else
        match check i with
        | some e => .error e
        | none => .ok i

/-- A number's consecutive 16-bit units, the first in its low bits. -/
def unitsOf (n : Nat) (w : Nat) : List (BitVec 16) :=
  match n with
  | 0 => []
  | n + 1 => BitVec.ofNat 16 w :: unitsOf n (w / 65536)

/-- The instruction that the decoder reads from an opcode-table word, its units laid out in order and zero
units behind it, in the context that allows every group. -/
def decodeTableWord (nbits w : Nat) : Option Instr :=
  match decode Context.firmware (unitsOf 6 (w % 2 ^ nbits)) with
  | .ok i => some i
  | .error _ => none

/-- A flag as a bit. -/
def bit (b : Bool) : BitVec 1 := BitVec.ofBool b

/-- The upper word of a 64-bit form, and its I bit (04 R95 to R99). -/
def encodeUpper (u : Upper) : BitVec 32 × Bool :=
  match u with
  | .x f => (bit f.mb ++ bit f.ma ++ bit f.uc ++ bit f.ub ++ bit f.ua ++ f.rnd ++ f.vc ++ f.vb ++ f.va, false)
  | .m f => (f.imm8 ++ bit f.nt ++ f.order ++ f.mscope ++ f.esize ++ bit f.oe ++ f.off ++ f.base, false)
  | .xi va imm => (imm ++ va, true)
  | .xl imm => (imm, true)

/-- A 64-bit word (04 R93). -/
def encode64 (major fn : Nat) (h : Hdr) (u : Upper) : BitVec 64 :=
  let (up, i) := encodeUpper u
  up ++ (h.width ++ bit h.sat ++ bit h.x ++ h.vd ++ bit h.pneg ++ h.pred ++ scopeBits h.scope ++ bit i
    ++ BitVec.ofNat 5 fn ++ BitVec.ofNat 6 major ++ (3 : BitVec 2) : BitVec 32)

/-- An L-form word (04 R102). -/
def encodeL (major : Nat) (f : LForm) : BitVec 32 :=
  f.vb ++ f.va ++ f.vd ++ BitVec.ofNat 6 major ++ (1 : BitVec 2)

/-- An I-form word (04 R104). -/
def encodeI (major : Nat) (f : IForm) : BitVec 32 := f.imm ++ f.vd ++ BitVec.ofNat 6 major ++ (1 : BitVec 2)

/-- A 16-bit word (04 R105). -/
def encodeS (op : Nat) (f : SForm) : BitVec 16 :=
  bit f.im ++ f.s ++ f.vd ++ BitVec.ofNat 4 op ++ (0 : BitVec 1)

/-- A REP prefix (04 R103). -/
def encodeRep (f : RepForm) : BitVec 32 :=
  (0 : BitVec 12) ++ f.size ++ bit f.sc ++ bit f.sb ++ bit f.sa ++ bit f.sd ++ f.count ++ (47 : BitVec 6)
    ++ (1 : BitVec 2)

/-- The two units of a 32-bit word. -/
def units32 (w : BitVec 32) : List (BitVec 16) := [w.extractLsb' 0 16, w.extractLsb' 16 16]
/-- The four units of a 64-bit word. -/
def units64 (w : BitVec 64) : List (BitVec 16) :=
  [w.extractLsb' 0 16, w.extractLsb' 16 16, w.extractLsb' 32 16, w.extractLsb' 48 16]

/-- The units of one unprefixed form. -/
def Machine.Form.units (f : Form) : List (BitVec 16) :=
  match f with
  | .w64 m fn h u => units64 (encode64 m fn h u)
  | .l m f => units32 (encodeL m f)
  | .i m f => units32 (encodeI m f)
  | .s op f => [encodeS op f]
  | .rep f _ => units32 (encodeRep f)
  | .event => []

/-- The encoder: the units of an instruction, in the order in which they are stored (04 R90). -/
def encode (i : Instr) : List (BitVec 16) :=
  match form i with
  | .rep f t => units32 (encodeRep f) ++ (form t).units
  | g => g.units

/-- The instruction word that a fault record holds: zero-extended to 64 bits; of a REP pair, the target's
(04 R92, 06 R145). -/
def recordWord (i : Instr) : BitVec 64 :=
  match form i with
  | .rep _ t => word64At (form t).units 0
  | g => word64At g.units 0

end Sys2Proof
end

