-- ==== Sys2Proof/Config.lean ====
section
/-! DEFINITION. What this part fixes (the figures of 01 and 12), and the free values: constants without a
body, for what the manual leaves open. Nothing can be proved of a free value. -/

namespace Sys2Proof.Config

/-- Warp width W of the BSP-9420 (00 R2). -/
def warpWidth : Nat := 32
/-- Cores of the device (01 R10). -/
def coreCount : Nat := 192
/-- Warp slots per core (01 R12's table). -/
def slotsPerCore : Nat := 128
/-- Warp slots per quarter. -/
def slotsPerQuarter : Nat := 32
/-- Divergence-stack entries (06 R126). -/
def divergenceDepth : Nat := 32
/-- Call-stack entries (06 R126). -/
def callDepth : Nat := 16
/-- Tile-engine operation slots per core (14 R267). -/
def tileSlots : Nat := 64
/-- Queued lane transfers at which LCOPY is held (14 R258). -/
def laneCopyQueue : Nat := 512
/-- Operations that one outstanding-operation counter can hold (10 R212). -/
def counterMax : Nat := 63
/-- Shepherd request queue entries (12 R232). -/
def requestQueue : Nat := 64
/-- Deferred list entries (12 R232). -/
def deferredMax : Nat := 128
/-- Entries of a launch queue (19 R327). -/
def launchQueueMax : Nat := 32
/-- String clocks between two admissions on one core (12 R233). -/
def admitInterval : Nat := 40
/-- TLB entries per core (21 R359). -/
def tlbMax : Nat := 2048
/-- Records that each half holds while a fault ring is full (21 R353). -/
def heldRecordsMax : Nat := 64

/-- FREE VALUE (log 2). A free 32-bit word, indexed by a counter of State and a position. -/
opaque freeWord : Nat → Nat → BitVec 32
/-- FREE VALUE (log 2). A free byte, as for contents the manual calls unspecified (12 R235, 14 R276). -/
opaque freeByte : Nat → Nat → BitVec 8
/-- FREE VALUE (log 2). A free bit: old or new (02 R59, 21 R359). -/
opaque freeBit : Nat → Nat → Bool
/-- FREE VALUE (log 2). A free natural, reduced by its user to the choices that the manual allows (02 R40). -/
opaque freeNat : Nat → Nat → Nat
/-- FREE VALUE (log 8). Which of the values within the bound of 08 R180 an approximate function gives: a
fixed mapping from the function (8 RSQ, 9 FRSQ .. as the FP function number), the format code and the operand's bits. -/
opaque approxChoice : Nat → Nat → Nat → Nat

/-- FREE VALUE (log 86). The SHA-512 digest of the public key that is fused in the device (22 R382). -/
opaque fusedDigest : BitVec 512
/-- FREE VALUE (log 86). How a digest is laid out in the number that a signature signs, below its leading zero byte (22
R382). -/
opaque rsaMessage : BitVec 512 → BitVec 4088
/-- FREE VALUE (log 86). The device's signature on an attestation report: its nonce, the digests of both images, the
active complex, and the counter of State (22 R383). -/
opaque signature : BitVec 256 → List (BitVec 512) → Nat → Nat → BitVec 4096

end Sys2Proof.Config
end

