-- ==== Sys2Proof/Machine/State.lean ====
section
/-! DEFINITION. The state of the device as plain data: the device, its partitions, cores, blocks, warps and the
work in flight; the reasons a step can stop; and the state after reset (22 R381). -/

namespace Sys2Proof.Machine

/-- A sparse table: keys strictly rising. -/
abbrev AMap (β : Type) := List (Nat × β)

/-- A move of the agenda: which agent acts next (log 1). -/
inductive Move where
  /-- An event of the opcode table. -/
  | event (i : Instr)
  /-- A core takes its next turn: a quarter's issue slot, or the end of the string clock (01 R14, R27, 07 R158). -/
  | turn (core : Nat)
  /-- Device time advances (01 R27). -/
  | time (ns : Nat)
  /-- The warp that issues next, by its id. -/
  | focus (w : Nat)
  deriving DecidableEq, Repr

/-- The 64-byte fault record (21 R352). -/
structure FaultRec where
  cause : BitVec 8
  detail : BitVec 8
  agent : BitVec 8
  flags : BitVec 8
  slot : BitVec 16
  flock : BitVec 8
  count : BitVec 8
  pc : DWord
  iword : DWord
  addr : DWord
  laneMask : BitVec 32
  memberMask : BitVec 32
  timeline : DWord
  ipc : DWord
  wpc : DWord
  deriving DecidableEq, Repr

/-- A divergence-stack entry (06 R135). -/
inductive DivEntry where
  | reconv (rpc : DWord) (mask : Mask)
  | pending (pc : DWord) (mask : Mask)
  deriving DecidableEq, Repr

/-- A call-stack entry: return PC and divergence depth (06 R126). -/
structure CallEntry where
  ret : DWord
  depth : Nat
  deriving DecidableEq, Repr

/-- A member of an operation: the warp, its active mask and its selected lanes at arrival (06 R129). -/
structure Member where
  w : Nat
  act : Mask
  sel : Mask
  deriving DecidableEq, Repr

/-- Who performs an instruction: one warp, or the members of a rendezvous in rank order (06 R128 to R130). -/
structure Actor where
  scope : Scope
  members : List Member
  /-- The warp that issues: the bellwether (06 R130). -/
  lead : Nat
  iword : DWord
  len : Nat
  /-- Repeats of a REP pair less one; none outside a pair (06 R144). -/
  rep : Option Nat
  /-- The rendezvous it completes, at flock and block scope. -/
  inst : Option Nat
  deriving DecidableEq, Repr

/-- What a waiting warp waits for. -/
inductive WaitKind where
  | rendezvous | shepherd | deferred | barrier | flag | timeline | batchN | batchS | bseal | waitc | flagrd
  | rel | release | fleave | fjoin | stenq | stdeq | launchQueue
  deriving DecidableEq, Repr

/-- A wait: its kind, the instruction and its performer, and the operands read at issue. -/
structure Wait where
  kind : WaitKind
  instr : Instr
  actor : Actor
  args : List DWord
  deriving DecidableEq, Repr

/-- The blocked-state register (12 R251). -/
structure Blocked where
  owner : Word
  kind : BitVec 4
  detail : BitVec 24
  deriving DecidableEq, Repr

/-- A suspension: the record's cause and flags, the warps it names together, and the engine operation whose
service it awaits (21 R354, R355, 14 R276). -/
structure Susp where
  cause : Cause
  flags : BitVec 8
  group : List Nat
  op : Option Nat
  matrix : Bool
  rendezvous : Bool
  /-- The number of the record in its partition's fault ring (21 R353). -/
  serial : Nat
  deriving DecidableEq, Repr

/-- A register cell that a load will write; `keep` holds the bits that it leaves (10 R222), `clob` says that a later
instruction has written it (02 R59). -/
structure LoadCell where
  uniform : Bool
  reg : Nat
  lane : Nat
  value : Word
  keep : Word
  clob : Bool
  deriving DecidableEq, Repr

/-- Where a byte lies: physical memory, a peer device, or the on-chip map (02 R35). -/
inductive Place where
  | phys (a : Nat)
  | peer (dev : Nat) (a : Nat)
  | onChip (a : Nat)
  deriving DecidableEq, Repr

/-- A checked element: where its bytes lie. -/
inductive Target where
  | glob (runs : List (Place × Nat))
  | scr (blk off n : Nat)
  deriving DecidableEq, Repr

/-- How the bytes of an element fill registers: a loaded element, or a record (10 R208, R222). -/
inductive Filling where
  | elem (uniform : Bool) (vd : Nat) (sext : Bool)
  | record (code : BitVec 2) (vd byte : Nat) (sel : Mask)
  deriving DecidableEq, Repr

/-- An element that a load in flight may still read: where it lies, the lane that it is for, how it fills registers, and
the path and scope of the access (02 R43, R53). -/
structure LateRead where
  lane : Nat
  target : Target
  filling : Filling
  act : Mask
  scope : Nat
  deriving DecidableEq, Repr

/-- A load or returning atomic outstanding (10 R212, R213); `bad` is the cause that it traps with instead of writing
(10 R211), `peers` the devices that answer it (22 R377), `folds` the fold members that it reaches, each with its core
(02 R33), `reads` what it may still read anew before it returns (02 R53). -/
structure PendLoad where
  cells : List LoadCell
  reads : List LateRead
  bad : Option Cause
  peers : List Nat
  folds : List (Nat × Nat)
  atomic : Bool
  ipc : DWord
  iword : DWord
  done : Bool
  deriving DecidableEq, Repr

/-- A store, or an atomic with nr = 1, outstanding (10 R212), of the step that issued it. -/
structure PendStore where
  step : Nat
  bad : Option Cause
  peers : List Nat
  folds : List (Nat × Nat)
  atomic : Bool
  scratch : Bool
  ipc : DWord
  iword : DWord
  done : Bool
  deriving DecidableEq, Repr

/-- Parameters of a drain, read at issue (16 R297). -/
structure Drain where
  tile : Nat
  pairTile : Bool
  rnd : Nat
  dest : DWord
  /-- Where the elements or records lie, for a global destination. -/
  runs : Option (List (List (Place × Nat)))
  stride : Nat
  scale : Word
  bound : Word
  bias : Word
  flagTarget : Word
  act : Nat
  dfmt : Nat
  dctr : Word
  deriving DecidableEq, Repr

/-- A matrix operation (16 R301). -/
inductive MatKind where
  | mma (fmt tile : Nat) (a b : List Byte)
  | accz (first count : Nat)
  | accld (fmt tile : Nat) (off stride : Nat)
  | wbload (slot fmt : Nat) (off cs : Nat) (kmaj : Bool)
  | drain (d : Drain)
  deriving DecidableEq, Repr

/-- A matrix operation on the matrix counter (16 R301, R302). -/
structure MatOp where
  id : Nat
  kind : MatKind
  fn : Nat
  ipc : DWord
  iword : DWord
  done : Bool
  fault : Option (Cause × DWord)
  deriving DecidableEq, Repr

/-- A weight slot: format tag, image, and whether it is filled (16 R286). -/
structure WSlot where
  fmt : Option Nat
  filled : Bool
  bytes : List Byte
  deriving DecidableEq, Repr

/-- A TLARM arming (14 R273). -/
structure Arming where
  tl : Nat
  n : Word
  handler : DWord
  pc : DWord
  deriving DecidableEq, Repr

/-- A sealed batch (14 R259). -/
structure Batch where
  num : BitVec 16
  ops : List Nat
  deriving DecidableEq, Repr

/-- A release, by what it concludes: an access or arrival of an agent in a step, for one element, or in all of them for
element 0; a both-kind fence; the operation of a timeline's number; a lane transfer or matrix operation of a warp; a grid
(02 R48, R50, R51, 19 R326). -/
inductive Msg where
  | access (step agent elem : Nat)
  | fence (step agent : Nat)
  | work (blk tl num : Nat)
  | copy (blk w op : Nat)
  | unit (blk w op : Nat)
  | grid (g : Nat)
  deriving DecidableEq, Repr

/-- The agent of an access, as scopes see it (02 R38): its key, the memory scope, its block and flock, and the blocks of its
fold at the access. -/
structure Origin where
  key : Nat
  scope : Nat
  blk : Nat
  flock : Nat
  reach : List Nat
  deriving DecidableEq, Repr

/-- A release that a value carries; `always` marks an engine's arrival, which every wait on its phase acquires (02 R48,
R56). -/
structure Rel where
  msg : Msg
  origin : Origin
  always : Bool
  deriving DecidableEq, Repr

/-- A write, by its step, its agent, its single-copy unit, and its turn among the writes of that step to the unit. -/
structure WriteId where
  step : Nat
  agent : Nat
  unit : Nat
  turn : Nat
  deriving DecidableEq, Repr

/-- A write to a byte that some agent need not have seen yet (02 R43, R53, R54): the byte that it replaced, with the releases
that the value before it carries; whether it is a step of an atomic; how many reads that its scope takes in may still miss
it (R45); the agents that may still read what was there before it, and those that it happens before, each by its key: a
warp's lanes, an operation, a grid that waits to be placed; and the releases that it happens before (R47, R48). -/
structure Past where
  id : WriteId
  old : Byte
  oldRels : List Rel
  origin : Origin
  rmw : Bool
  patience : Nat
  unread : List (Nat × Mask)
  known : List (Nat × Mask)
  sent : List Msg
  deriving DecidableEq, Repr

/-- What synchronisation keeps beside the writes: by byte, the releases that its present value carries; the releases that
the reads of a path have read, for a later acquire fence; those that release fences of a path put on its later writes; and
the both-kind fences in their order (02 R48, R51). -/
structure Sync where
  rels : AMap (List Rel)
  heard : List (Nat × Mask × Rel)
  fences : List (Nat × Mask × Rel)
  order : List Rel
  deriving DecidableEq, Repr

/-- A trap due at the next instruction boundary, for poison or a lost peer (10 R211, 21 R356). -/
structure AsyncTrap where
  cause : Cause
  agent : Nat
  ipc : DWord
  iword : DWord
  deriving DecidableEq, Repr

/-- An operand map (16 R284). -/
structure OMap where
  tr : Bool
  fmt : Nat
  stride : Nat
  base : Nat
  deriving DecidableEq, Repr

/-- A warp (06 R126, 10 R212, 14 R259, 12 R234). -/
structure Warp where
  blk : Nat
  core : Nat
  slot : Nat
  quarter : Nat
  widx : Nat
  role : Nat
  control : Bool
  fw : Bool
  pc : DWord
  active : Mask
  live : Mask
  dstack : List DivEntry
  cstack : List CallEntry
  v : AMap Word
  s : AMap Word
  p : AMap Mask
  sticky : Word
  trapen : Word
  dctr : Word
  repi : Nat
  uepclo : Word
  uepchi : Word
  uemask : Word
  inHandler : Bool
  held : Bool
  hdDepth : Nat
  hcDepth : Nat
  arming : Option Arming
  heldArm : Option Arming
  blocked : Blocked
  wait : Option Wait
  susp : Option Susp
  haltReq : Bool
  /-- Traps due at the next boundaries, one at each (10 R211). -/
  asyncTraps : List AsyncTrap
  clockHi : Word
  timeHi : Word
  loads : List PendLoad
  stores : List PendStore
  matrix : List MatOp
  /-- Flags of completed drains not yet in STICKY, by TRAPEN's layout, each with the number of matrix operations issued
  after the drain (03 R81). -/
  drainFlags : List (Nat × Word)
  /-- Ids of the last matrix operations issued, newest first (03 R81). -/
  matrixLog : List Nat
  tileq : List Nat
  /-- The A operand of the warp's next MMA in the unit's operand buffer: the map that it was fetched through, whether
  it met poison, and its bytes (16 R284, R293). -/
  abuf : Option (OMap × Bool × List Byte)
  openBatch : List Nat
  sealedBatches : List Batch
  lastBatch : BitVec 16
  regEpochs : List (Option Nat)
  accEpochs : List Nat
  /-- The quarter's register and accumulator units that hold the warp's, in the order of its own (02 R35). -/
  regUnits : List Nat
  accUnits : List Nat
  acc : AMap Word
  flg : AMap (BitVec 6)
  wslots : AMap WSlot
  /-- Vector registers, tiles and weight slots that an uncorrectable error has poisoned (21 R357). -/
  vPoison : List Nat
  accPoison : List Nat
  wPoison : List Nat
  age : Nat
  yieldLeft : Nat
  deriving DecidableEq, Repr

/-- A launch record's fields (19 R323). -/
structure LaunchRec where
  entry : DWord
  arg : DWord
  gx : Nat
  gy : Nat
  gz : Nat
  warps : Nat
  flock : Nat
  fold : Nat
  roles : Nat
  roleMap : BitVec 64
  regStart : List Nat
  regMax : List Nat
  scrStart : Nat
  scrMax : Nat
  engStart : Nat
  engMax : Nat
  accStart : List Nat
  accMax : List Nat
  deadline : DWord
  budget : Word
  dither : Word
  done : DWord
  table : DWord
  prio : Nat
  persistent : Bool
  gang : Bool
  preempt : Bool
  gap : Nat
  deriving DecidableEq, Repr

/-- A timeline: counter, number last issued, and numbers completed beyond the counter (14 R270, R274). -/
structure Timeline where
  counter : Nat
  last : Nat
  doneAhead : List Nat
  deriving DecidableEq, Repr

/-- A tile handle: the captured shape record (14 R262). -/
structure Handle where
  base : DWord
  fmt : Nat
  rank : Nat
  nt : Bool
  extents : List Nat
  strides : List Nat
  boxes : List Nat
  deriving DecidableEq, Repr

/-- Fold membership (12 R241, 19 R325): FOLDID and rank; for a fold formed at placement, the gang's number. -/
structure Fold where
  id : Word
  rank : Nat
  gang : Option Nat
  deriving DecidableEq, Repr

/-- An open or completing rendezvous (06 R129): id, site, and the arrivals so far in order of arrival. -/
structure Inst where
  id : Nat
  scope : Scope
  flockId : Nat
  pc : DWord
  repi : Nat
  instr : Instr
  len : Nat
  rep : Option Nat
  arrivals : List Member
  /-- Suspended by a fault of the operation, which a replay performs again (06 R133). -/
  suspended : Bool
  /-- The operation has been issued and waits for its condition. -/
  waiting : Bool
  /-- Once it is complete, its bellwether and the clock of that core on which it became so (06 R130, 07 R158). -/
  bell : Option (Nat × Nat)
  deriving DecidableEq, Repr

/-- A claim or allocation vector (12 R227): SCR, ENG, REG.q0 to q3, ACC.q0 to q3. -/
abbrev Vec := List Nat

/-- A resident block (12 R228, 19 R323 to R340). -/
structure Block where
  core : Nat
  part : Nat
  grid : Nat
  index : Nat
  q0 : Nat
  lrec : LaunchRec
  flockSize : Nat
  claim : Vec
  alloc : Vec
  scr : AMap Byte
  scrEpochs : List Nat
  /-- The core's scratch units that hold the block's, in the order of its own (02 R35). -/
  scrUnits : List Nat
  scrPoison : List Nat
  timelines : List Timeline
  handles : AMap Handle
  omaps : AMap OMap
  fold : Option Fold
  leftGang : Bool
  insts : List Inst
  budget : Nat
  inRegion : Bool
  carry : List Word
  regionPc : DWord
  gap : Nat
  preemptReq : Option Nat
  /-- A trap CANCELLED is due whose record could not be held yet (19 R345, 21 R353). -/
  killReq : Bool
  stqUsed : List (Nat × Bool)
  deriving DecidableEq, Repr

/-- A fault recorded against engine work (14 R274). -/
structure OpFault where
  cause : Cause
  addr : DWord
  lanes : Mask
  served : Bool
  deriving DecidableEq, Repr

/-- A page of a gather's range as its walk found it: masked, or its node, entry number and entry (17 R314). -/
inductive GatherPage where
  | masked
  | entry (node : DWord) (e : Nat) (word : Word)
  deriving DecidableEq, Repr

/-- What the walk of a KVGATHER recorded (17 R314): row bytes, pool, length, window, the range pages in order; and the
pages that the pager could not supply. -/
structure Gather where
  rb : Nat
  pool : DWord
  len : Nat
  win : Nat
  pages : List GatherPage
  refused : List Nat
  deriving DecidableEq, Repr

/-- What an engine operation does. -/
inductive OpKind where
  | lane (lane : Nat) (src : DWord) (dst size v : Nat) (nt : Bool)
  | tile (fn : Nat) (h : Handle)
  | wbload (slot : Nat) (fmt : Nat) (h : Handle)
  | gather (vRows : Bool) (g : Option Gather)
  | append
  | smerge
  deriving DecidableEq, Repr

/-- Work handed to the lane-copy unit, the tile engine or the KV unit (14 R257, R267; 17 R310). -/
structure EngOp where
  w : Nat
  blk : Nat
  kind : OpKind
  tl : Nat
  num : Nat
  ipc : DWord
  iword : DWord
  handleIx : Nat
  regs : List Word
  /-- Fold members as they stood at issue: rank, block and core (02 R33, 14 R269, 17 R320). -/
  members : List (Nat × Nat × Nat)
  accepted : Bool
  delivered : List Nat
  /-- A TMCAST that counts as complete after a member's fault, and still delivers to the others (14 R269, R276). -/
  counted : Bool
  /-- The box that a TMCAST has read, once for all its members (14 R268). -/
  box : Option (List Byte)
  fault : Option OpFault
  deriving DecidableEq, Repr

/-- A request in the Shepherd (12 R229 to R232, R237): the waiting warp that leads it. -/
structure Request where
  w : Nat
  blk : Nat
  cls : Nat
  amount : Nat
  vec : Vec
  try' : Bool
  deriving DecidableEq, Repr

/-- What enters the Shepherd's queue (01 R18). -/
inductive Need where
  /-- A REL whose waits are over; its lead. -/
  | release (w : Nat)
  /-- The retirement of a block. -/
  | retire (blk : Nat)
  /-- An ACQ or ACQT. -/
  | acq (r : Request)
  /-- The admission request of a partition's dispatcher. -/
  | admission (part : Nat)
  deriving DecidableEq, Repr

/-- An entry of the Shepherd's queue, with the clock on which it reached the queue (01 R18). -/
structure Entry where
  stamp : Nat
  need : Need
  deriving DecidableEq, Repr

/-- A cached translation (21 R359): partition, page base, page size and the leaf entry. -/
structure TlbEntry where
  part : Nat
  base : Nat
  size : Nat
  entry : DWord
  deriving DecidableEq, Repr

/-- A core (01, 07, 12 R229, 14 R267). -/
structure Core where
  gated : Bool
  clock : Nat
  /-- The string clock of the partition that the core is on, by which its cores keep in step (01 R26, 20 R351). -/
  lap : Nat
  /-- Issue slots of the clock in progress that have passed: quarters below `turn` have had theirs (01 R14). -/
  turn : Nat
  /-- Charges landed on the last 64 clocks, newest first, each a list of the four quarters (07 R155). -/
  window : List (List Nat)
  /-- Charges that have landed on the clock in progress, and on later clocks in order. -/
  future : List (List Nat)
  /-- Charges of matrix occupancies still to land, clock by clock (07 R154, R161). -/
  matrixFuture : List (List Nat)
  fillRun : List Nat
  filledNow : List Bool
  /-- Warps that issued on the clock in progress (07 R157). -/
  issuedNow : List Nat
  /-- Warps that were ready for a slot of the clock in progress (07 R157). -/
  readyNow : List Nat
  throttled : Bool
  pwr : Bool
  entries : Nat
  /-- How many clocks ended with each value of IMB, for telemetry (22 R384). -/
  imbHist : AMap Nat
  /-- Numbers of the records of the events that stopped its issue (07 R163). -/
  stops : List Nat
  /-- The core would make a record that cannot be held (21 R353). -/
  recWait : Bool
  reqs : List Entry
  deferred : List Request
  lastAdmit : Option Nat
  tlb : List TlbEntry
  /-- Storage that no block holds: the bytes written, and the epochs of its unspecified contents, by place in the core's
  window and by KiB of it (02 R35). -/
  spare : AMap Byte
  spareEpochs : AMap Nat
  deriving DecidableEq, Repr

/-- A block that waits to be placed again: index, region carry and region entry, and a core that it must leave
(19 R340, 07 R166). -/
structure Restart where
  index : Nat
  carry : List Word
  pc : DWord
  avoid : Option Nat
  deriving DecidableEq, Repr

/-- A grid (19 R325, R326). -/
structure Grid where
  part : Nat
  job : Nat
  lrec : LaunchRec
  recAddr : DWord
  queue : Nat
  entryNo : Nat
  /-- The string clock on which the entry was made (19 R329). -/
  made : Option Nat
  next : Nat
  live : Nat
  status : Nat
  stopped : Bool
  /-- Of a stopped grid, the status that dropped units give it (19 R326). -/
  dropStatus : Nat
  queued : Bool
  /-- Its TCB and, with a condition word, the mask of successors taken (19 R342). -/
  tcb : Option (Nat × Option Nat)
  hostRing : Bool
  deadlineSent : Bool
  /-- Bypass counts of its units, by unit number (19 R329, 20 R350). -/
  bypass : AMap Nat
  /-- Bytes of memory overwritten since its launch, as they stood at it (04 R92). -/
  code : AMap Byte
  /-- Pre-empted blocks waiting to be placed again (19 R340). -/
  restarts : List Restart
  deriving DecidableEq, Repr

/-- A job (19 R333, R341 to R345): its table, cancel bit, and the TCBs entered. -/
structure Job where
  part : Nat
  id : Nat
  table : DWord
  cancel : Bool
  tcbs : List Nat
  deriving DecidableEq, Repr

/-- A TCB that is ready and waits for room in its queue: its index, its taken mask and its launch record (19 R327, R342). -/
structure ReadyTcb where
  job : Nat
  queue : Nat
  tcb : Nat
  taken : Option Nat
  recAddr : DWord
  lrec : LaunchRec
  deriving DecidableEq, Repr

/-- A page-in request to the pager: the gather and its range page, the node and entry, and the pool (17 R314, 18 R322). -/
structure PageReq where
  op : Nat
  page : Nat
  node : DWord
  entry : Nat
  pool : DWord
  deriving DecidableEq, Repr

/-- A host ring (22 R369). -/
structure Ring where
  baseLo : Word
  baseHi : Word
  size : Word
  head : Word
  tail : Word
  err : Bool
  deriving DecidableEq, Repr

/-- What a blocked warp looked like at a sample of the detector (12 R253). -/
structure Sample where
  blk : Nat
  warps : List (Nat × DWord × BitVec 4)
  deriving DecidableEq, Repr

/-- A partition's run state (22 R368 STATE). -/
inductive PState where
  | running | resetting | stopped
  deriving DecidableEq, Repr

/-- A partition (21 R366, 19 R327, 22 R368, R371, 12 R252). -/
structure Part where
  configured : Bool
  regions : List Nat
  share : MemShare
  root : DWord
  /-- Bytes of memory overwritten since a TLBINV last covered them, as they stood then (21 R359). -/
  tables : AMap Byte
  ovf : Word
  fillerF : Nat
  throtT : Nat
  ageLim : Nat
  pwrShare : Nat
  frBase : DWord
  frSize : Nat
  frHead : Word
  frTail : Word
  /-- Records held while the ring is full, each with the half that made it and, where it suspends
  warps, its number in the ring (21 R353). -/
  heldRecs : List (Nat × FaultRec × Option Nat)
  /-- Records made, oldest first, that the system handler has not yet taken (22 R370). -/
  handlerQ : List (FaultRec × Option Nat)
  /-- Records in the event ring that suspend warps, for RESUME: the slot, and the record's number in the fault ring (22
  R370). -/
  evNamed : List (Nat × Nat)
  evHeld : List (FaultRec × Option Nat)
  destroying : List Nat
  nextEntry : Nat
  nextJob : Nat
  readyTcbs : List ReadyTcb
  reserved : List Nat
  /-- The head of the last decision, for which cores are reserved: its grid and unit number (20 R350). -/
  head : Option (Nat × Nat)
  /-- The string clock of the retirements, placements and entries that the dispatcher has still to decide on (20 R351). -/
  events : Option Nat
  evBaseLo : Word
  evBaseHi : Word
  evSize : Word
  evHead : Word
  evTail : Word
  evOvf : Bool
  takeover : Bool
  pstate : PState
  resetReq : Bool
  rings : AMap Ring
  prevD : List Sample
  /-- Page-in requests, in the order posted (18 R322). -/
  pageReqs : List PageReq
  /-- Pools with a demotion request outstanding (17 R308). -/
  demoteReqs : List DWord
  /-- Nodes named to the pager, each with its pool (17 R308). -/
  named : List (DWord × DWord)
  /-- Device time of each pool page's last delivery: pool, index, ns (17 R308). -/
  delivered : List (DWord × Nat × Nat)
  deriving DecidableEq, Repr

/-- A stile (19 R346, 22 R375). -/
structure Stile where
  capacity : Nat
  producer : Nat
  consumer : Nat
  slots : List (List Word)
  /-- The release that each slot carries (19 R346). -/
  sent : List Rel
  deriving DecidableEq, Repr

/-- Where a live update or a start stands (22 R380, R381). -/
inductive FwPhase where
  /-- The active complex serves, and no image waits. -/
  | steady
  /-- The standby has imported the state table, and takes over at the next packet boundary. -/
  | takingOver
  /-- The active complex has missed its watchdog, and the standby takes over. -/
  | failingOver
  /-- A start has failed: one warm retry of its image is due. -/
  | failed
  /-- No complex runs: the retry and the other complex's image have failed too. -/
  | down
  deriving DecidableEq, Repr

/-- What the device sends out of itself: messages to the host and accesses to peers (22 R367, R377, R383). -/
inductive Output where
  | msix (part vector : Nat)
  /-- A record written into the event ring in host memory: its slot and the address of that slot (22 R368, R370). -/
  | eventRecord (part slot : Nat) (addr : DWord) (r : FaultRec)
  | peerLoad (peer : Nat) (addr : DWord) (bytes : Nat)
  | peerStore (peer : Nat) (addr : DWord) (data : List Byte)
  | peerAtomic (peer op bytes : Nat) (addr : DWord) (data compare : DWord)
  | peerData (data : List Byte)
  /-- A peer's access met poison. -/
  | peerPoison
  /-- A signed attestation report: nonce, digests of both images, the fused key digest, the active complex, and each
  configured partition with its regions, its share and its settings in the order of R366. -/
  | attestation (nonce : BitVec 256) (images : List (BitVec 512)) (fused : BitVec 512) (active : Nat)
      (config : List (Nat × List Nat × MemShare × List Word)) (signature : BitVec 4096)
  /-- Telemetry: rail power, temperature by region, corrected errors by array, and of each string clocks by IMB. -/
  | telemetry (power : Word) (temperatures : List Word) (softErrors : List Nat) (imb : List (Nat × AMap Nat))
  | pagerFetch (part : Nat) (node : DWord) (entry : Nat)
  | discard (part : Nat) (node : DWord) (entry : Nat)
  deriving DecidableEq, Repr

/-- A saved context image (21 R363): the number and draw index of its bytes, the block, its warps with their ids, and
its engine operations with a pending fault. -/
structure Image where
  size : Nat
  draw : Nat
  blk : Block
  warps : AMap Warp
  ops : AMap EngOp
  deriving DecidableEq, Repr

/-- The state of the device. -/
structure State where
  agenda : List Move
  focus : Option Nat
  freeCtr : Nat
  nextUid : Nat
  mem : List Host.Cell
  poison : List Nat
  /-- By byte of memory or scratch, the writes that some agent need not have seen, newest first (02 R53). -/
  past : AMap (List Past)
  /-- Releases still to be acquired (02 R48, R51). -/
  sync : Sync
  timeNs : Nat
  mhz : Nat
  cores : AMap Core
  warps : AMap Warp
  blocks : AMap Block
  grids : AMap Grid
  jobs : AMap Job
  ops : AMap EngOp
  parts : AMap Part
  stiles : AMap Stile
  images : List Image
  activeFw : Nat
  /-- The SHA-512 digest of the public key that is fused in the device (22 R382). -/
  fused : BitVec 512
  /-- The SHA-512 digest of each complex's image (22 R383). -/
  fwDigests : List (BitVec 512)
  fwPhase : FwPhase
  softErrors : AMap Nat
  weights : List Nat
  links : List Nat
  outputs : List Output
  deriving DecidableEq, Repr

/-- Why a step stops: the step proposed is not one the device can take. Every fault of the device itself is a
fault record, which is a next state (21 R352). -/
inductive Fault where
  /-- An instruction is to issue and the focus names no warp. Raised by every instruction's meaning; safe. -/
  | noWarp
  /-- The warp in focus waits, is suspended, or its core does not issue (06 R127). Raised by every
  instruction's meaning; safe. -/
  | notReady
  /-- The event of that name cannot happen in this state. Raised by the events' meanings; safe. -/
  | notEnabled (event : String)
  deriving DecidableEq, Repr

/-- Why the model gives no meaning. -/
inductive Refusal where
  /-- An instruction without a meaning yet. Raised by the dispatch alone; safe. -/
  | notModelled (mnemonic : String)
  deriving DecidableEq, Repr

/-- A core at reset: powered, its clock at 0, nothing charged (07 R155, log 4). -/
def Core.reset : Core :=
  { gated := false, clock := 0, lap := 0, turn := 0, window := [], future := [], matrixFuture := [], fillRun := [0, 0, 0, 0],
    filledNow := [false, false, false, false], issuedNow := [], readyNow := [], throttled := false,
    pwr := false, entries := 0, imbHist := [], stops := [], recWait := false, reqs := [], deferred := [], lastAdmit := none, tlb := [],
    spare := [], spareEpochs := [] }

/-- A host ring at reset (log 5). -/
def Ring.reset : Ring := { baseLo := 0, baseHi := 0, size := 0, head := 0, tail := 0, err := false }

/-- A partition at reset: unconfigured and stopped, settings at their defaults (22 R381, R368, 03 R76, 07 R160,
R161, 19 R329), the rest as log 5 says. -/
def Part.reset : Part :=
  { configured := false, regions := [], share := ⟨0, 0, 0, 0⟩, root := 0, tables := [], ovf := 0, fillerF := 2048, throtT := 6144,
    ageLim := 8, pwrShare := 0, frBase := 0, frSize := 0, frHead := 0, frTail := 0, heldRecs := [], handlerQ := [],
    evNamed := [], evHeld := [], destroying := [], nextEntry := 0, nextJob := 1, readyTcbs := [], reserved := [], head := none,
    events := none,
    evBaseLo := 0, evBaseHi := 0, evSize := 0, evHead := 0, evTail := 0, evOvf := false, takeover := false,
    pstate := .stopped, resetReq := false, rings := [], prevD := [], pageReqs := [], demoteReqs := [], named := [],
    delivered := [] }

/-- The device right after a start: every partition unconfigured, no block resident, memory with nothing listed and
no poison (22 R381); the values the manual does not state are those of log 1 to 5. -/
def State.reset : State :=
  { agenda := [], focus := none, freeCtr := 0, nextUid := 0, mem := [], poison := [], past := [], sync := ⟨[], [], [], []⟩, timeNs := 0, mhz := 940,
    cores := [], warps := [], blocks := [], grids := [], jobs := [], ops := [], parts := [], stiles := [],
    images := [], activeFw := 0, fused := Config.fusedDigest, fwDigests := [0, 0], fwPhase := .steady, softErrors := [], weights := [4, 2, 1], links := [],
    outputs := [] }

end Sys2Proof.Machine
end

