-- ==== Sys2Proof/Machine/Sparse.lean ====
section
/-! DEFINITION. Sparse tables and the bytes of memory: one lookup and one update each, with the canonical form that
every memory operation keeps (log 3), and the lemmas that say all that an update does. -/

namespace Sys2Proof.Machine

/-- The entry at a key. -/
def AMap.find {β : Type} (m : AMap β) (k : Nat) : Option β :=
  match m with
  | [] => none
  | (j, b) :: t => if j = k then some b else AMap.find t k

/-- Sets the entry at a key, keeping the keys in rising order. -/
def AMap.put {β : Type} (m : AMap β) (k : Nat) (b : β) : AMap β :=
  match m with
  | [] => [(k, b)]
  | (j, c) :: t =>
    if k < j then (k, b) :: (j, c) :: t
    else if j = k then (k, b) :: t
    else (j, c) :: AMap.put t k b

/-- Removes the entry at a key. -/
def AMap.drop {β : Type} (m : AMap β) (k : Nat) : AMap β := List.filter (fun e => e.1 != k) m

/-- Every entry through a function of key and value. -/
def AMap.mapVal {β : Type} (f : Nat → β → β) (m : AMap β) : AMap β := List.map (fun e => (e.1, f e.1 e.2)) m

/-- The keys whose entries satisfy a test. -/
def AMap.keysWhere {β : Type} (f : Nat → β → Bool) (m : AMap β) : List Nat :=
  List.map (fun e => e.1) (List.filter (fun e => f e.1 e.2) m)

theorem AMap.find_put_same {β : Type} (m : AMap β) (k : Nat) (b : β) : (m.put k b).find k = some b := by
  induction m with
  | nil => simp [AMap.put, AMap.find]
  | cons e t ih =>
    obtain ⟨j, c⟩ := e
    simp only [AMap.put]
    split
    · simp [AMap.find]
    · split
      · simp [AMap.find]
      · simp [AMap.find, *]

theorem AMap.find_put_other {β : Type} (m : AMap β) {k j : Nat} (b : β) (h : j ≠ k) :
    (m.put k b).find j = m.find j := by
  induction m with
  | nil => simp [AMap.put, AMap.find, Ne.symm h]
  | cons e t ih =>
    obtain ⟨i, c⟩ := e
    simp only [AMap.put]
    split
    · simp [AMap.find, Ne.symm h]
    · split
      · next hk => subst hk; simp [AMap.find, Ne.symm h]
      · simp [AMap.find, ih]

/-- What an address that memory does not list reads as (log 3). -/
def unlistedByte : Byte := 0

/-- The byte of memory at a physical address. -/
def memRead (m : List Host.Cell) (a : Nat) : Byte :=
  match m with
  | [] => unlistedByte
  | (j, b) :: t => if j = a then b else memRead t a

/-- Memory with one byte written; writing what an unlisted address reads as removes the entry. -/
def memWrite (m : List Host.Cell) (a : Nat) (b : Byte) : List Host.Cell :=
  match m with
  | [] => if b = unlistedByte then [] else [(a, b)]
  | (j, c) :: t =>
    if a < j then (if b = unlistedByte then (j, c) :: t else (a, b) :: (j, c) :: t)
    else if j = a then (if b = unlistedByte then t else (a, b) :: t)
    else (j, c) :: memWrite t a b

/-- Addresses above `lo` strictly rising, and no entry equal to what an unlisted address reads as. -/
def memWfFrom (lo : Nat) (m : List Host.Cell) : Bool :=
  match m with
  | [] => true
  | (j, b) :: t => decide (lo ≤ j) && b != unlistedByte && memWfFrom (j + 1) t

/-- The canonical form of memory. -/
def Memory.wf (m : List Host.Cell) : Bool := memWfFrom 0 m

/-- Memory with consecutive bytes written. -/
def memWriteList (m : List Host.Cell) (a : Nat) (bs : List Byte) : List Host.Cell :=
  match bs with
  | [] => m
  | b :: t => memWriteList (memWrite m a b) (a + 1) t

/-- `n` consecutive bytes of memory. -/
def memReadList (m : List Host.Cell) (a n : Nat) : List Byte :=
  (List.range n).map (fun i => memRead m (a + i))

/-- A number from bytes, the first least significant (00 R5). -/
def leNat (bs : List Byte) : Nat :=
  match bs with
  | [] => 0
  | b :: t => b.toNat + 256 * leNat t

/-- `n` bytes of a number, the first least significant (00 R5). -/
def leBytes (n x : Nat) : List Byte := (List.range n).map (fun i => BitVec.ofNat 8 (x / 2 ^ (8 * i)))

/-- A mask's lanes, lowest first. -/
def lanesOf (m : Mask) : List Nat := (List.range 32).filter (fun l => m.getLsbD l)

/-- The mask of some lanes. -/
def maskOf (ls : List Nat) : Mask := ls.foldl (fun m l => m ||| (1#32 <<< l)) 0

/-- Number of lanes of a mask. -/
def popMask (m : Mask) : Nat := (lanesOf m).length

/-- Replaces an element of a list. -/
def setNth {β : Type} (l : List β) (i : Nat) (b : β) : List β :=
  match l, i with
  | [], _ => []
  | _ :: t, 0 => b :: t
  | x :: t, i + 1 => x :: setNth t i b

end Sys2Proof.Machine
end

