-- ==== Sys2Proof/Machine/Charge.lean ====
section
/-! DEFINITION. The charge meter (07 R153 to R156): the weight of each instruction, where a charge lands, and the
windows that CHARGE and IMB read. -/

namespace Sys2Proof.Machine

/-- Weight of a 64-bit form's class (07 R153). -/
def weightOf (major fn : Nat) (h : Hdr) : Nat :=
  match major with
  | 0 => if fn = 0 || fn = 9 then 0 else 1
  | 1 => 1
  | 2 => 2
  | 3 => if (6 ≤ fn && fn ≤ 13) then 5 else if h.width == 1 then 6 else 3
  | 4 => 7
  | 5 => 4
  | 6 => 3
  | 7 => 1
  | 8 => if fn = 8 then 1 else 4
  | 9 => 4
  | 10 => 0
  | 11 => if fn = 0 then 4 else 1
  | 13 =>
    if fn = 0 then 1
    else if fn = 2 then
      (if hdrTop h = 0 then 10 else if hdrTop h = 1 then 15 else if hdrTop h ≤ 3 then 12 else 14)
    else 4
  | _ => 1

/-- Weight and scope of a form; REP charges its target (07 R153, 06 R144). -/
def formWeight (f : Form) : Nat :=
  match f with
  | .w64 m fn h _ => weightOf m fn h
  | .l m _ => if m < 24 then 2 else weightOf 3 (m - 24) (shortHdr 0)
  | .i _ _ => 2
  | .s op _ => let (m, fn) := fnOfS op; weightOf m fn (shortHdr 0)
  | .rep _ _ => 0
  | .event => 0

/-- Weight of an instruction. -/
def weight (i : Instr) : Nat :=
  match form i with
  | .rep _ t => formWeight (form t)
  | g => formWeight g

/-- The 64-bit word that decides scope and predicate: the instruction's own, or a pair's target's. -/
def headWord (i : Instr) : Option (Nat × Nat × Hdr × Upper) :=
  match form i with
  | .rep _ t => (form t).expand
  | g => g.expand

/-- Execution scope; short forms have lane scope (01 R24). -/
def scopeOfInstr (i : Instr) : Scope :=
  match headWord i with
  | some (_, _, h, _) => h.scope
  | none => .lane

/-- Whether a warp-scope instruction touches vector registers (07 R154): the lane reads and writes of XLANE. -/
def usesVectors (i : Instr) : Bool :=
  match headWord i with
  | some (5, _, _, _) => true
  | _ => false

/-- Adds to element `q` of a list of the four quarters. -/
def addQuarter (l : List Nat) (q n : Nat) : List Nat := setNth (l ++ List.replicate (4 - l.length) 0) q (l.getD q 0 + n)

/-- Adds a charge on the clock `k` after the one in progress. -/
def addCharge (f : List (List Nat)) (k q n : Nat) : List (List Nat) :=
  let g := f ++ List.replicate (k + 1 - f.length) [0, 0, 0, 0]
  setNth g k (addQuarter (g.getD k []) q n)

/-- The windowed charge of a quarter at the end of the last clock (07 R155). -/
def windowOf (c : Core) (q : Nat) : Nat := (c.window.map (fun l => l.getD q 0)).sum

/-- The four windows. -/
def windows (c : Core) : List Nat := [windowOf c 0, windowOf c 1, windowOf c 2, windowOf c 3]

/-- Largest of a list. -/
def listMax (l : List Nat) : Nat := l.foldl Nat.max 0
/-- Smallest of a list. -/
def listMin (l : List Nat) : Nat := l.foldl Nat.min (l.headD 0)
/-- First position of a value. -/
def firstAt (l : List Nat) (v : Nat) : Nat := l.findIdx (fun x => x = v)

/-- IMB's VALUE: the largest window less the smallest (07 R156). -/
def imbalance (c : Core) : Nat := listMax (windows c) - listMin (windows c)

/-- Charges `n` times the weight on a quarter, `k` clocks from now (07 R154). -/
def Core.charge (c : Core) (k q n : Nat) : Core := { c with future := addCharge c.future k q n }

/-- A matrix operation's charge for each of its `clocks` of occupancy, from the next clock on (07 R154). -/
def Core.chargeMatrix (c : Core) (q n clocks : Nat) : Core :=
  { c with matrixFuture := (List.range clocks).foldl (fun f k => addCharge f (k + 1) q n) c.matrixFuture }

/-- Whether a quarter's matrix unit works on the next clock or later (16 R293). -/
def Core.unitBusy (c : Core) (q : Nat) : Bool := c.matrixFuture.tail.any (fun l => l.getD q 0 != 0)

end Sys2Proof.Machine
end

