-- ==== Sys2Proof/Machine/Ops.lean ====
section
/-! DEFINITION. The named operations that every meaning shares: access to warps, blocks, cores and partitions; the
registers; fault records, taking an exception and returning from one; the issue of an instruction with the
checks of 04 R110; and the rendezvous of 06 R128 to R134. -/

namespace Sys2Proof.Machine

/-- Not blocked (12 R251). -/
def Blocked.none : Blocked := ⟨0, 0, 0⟩

/-- A warp at launch, before its placement is filled in (06 R126). CLOCKHI and TIMEHI read 0 until a first SRD of the low half
latches them: DESIGN CHOICE (log 115). -/
def Warp.blank : Warp :=
  { blk := 0, core := 0, slot := 0, quarter := 0, widx := 0, role := 0, control := false, fw := false, pc := 0,
    active := 0xFFFFFFFF, live := 0xFFFFFFFF, dstack := [], cstack := [], v := [], s := [], p := [], sticky := 0,
    trapen := 0, dctr := 0, repi := 0, uepclo := 0, uepchi := 0, uemask := 0, inHandler := false, held := false,
    hdDepth := 0, hcDepth := 0, arming := none, heldArm := none, blocked := Blocked.none, wait := none,
    susp := none, haltReq := false, asyncTraps := [], clockHi := 0, timeHi := 0, loads := [], stores := [],
    matrix := [], drainFlags := [], matrixLog := [], tileq := [], abuf := none, openBatch := [], sealedBatches := [],
    lastBatch := 0, regEpochs := [], accEpochs := [], regUnits := [], accUnits := [], acc := [], flg := [], wslots := [], vPoison := [], accPoison := [],
    wPoison := [], age := 0, yieldLeft := 0 }

/-- A launch record with every field zero. -/
def LaunchRec.blank : LaunchRec :=
  { entry := 0, arg := 0, gx := 1, gy := 1, gz := 1, warps := 1, flock := 1, fold := 0, roles := 1, roleMap := 0,
    regStart := [], regMax := [], scrStart := 0, scrMax := 0, engStart := 0, engMax := 0, accStart := [], accMax := [],
    deadline := 0, budget := 0, dither := 0, done := 0, table := 0, prio := 0, persistent := false, gang := false,
    preempt := false, gap := 0 }

/-- A block with nothing granted. -/
def Block.blank : Block :=
  { core := 0, part := 0, grid := 0, index := 0, q0 := 0, lrec := LaunchRec.blank, flockSize := 1,
    claim := List.replicate 10 0, alloc := List.replicate 10 0, scr := [], scrEpochs := [], scrUnits := [], scrPoison := [],
    timelines := [], handles := [], omaps := [], fold := none, leftGang := false, insts := [], budget := 0,
    inRegion := false, carry := [], regionPc := 0, gap := 0, preemptReq := none, killReq := false, stqUsed := [] }

/-- The warp of an id; a blank one where there is none. -/
def State.warp (s : State) (w : Nat) : Warp := (s.warps.find w).getD Warp.blank
/-- The block of a uid; a blank one where there is none. -/
def State.block (s : State) (b : Nat) : Block := (s.blocks.find b).getD Block.blank
/-- The core of a number; untouched cores are at reset. -/
def State.core (s : State) (c : Nat) : Core := (s.cores.find c).getD Core.reset
/-- The partition of a number; untouched ones are at reset. -/
def State.part (s : State) (p : Nat) : Part := (s.parts.find p).getD Part.reset

/-- Replaces a warp. -/
def State.setWarp (s : State) (w : Nat) (x : Warp) : State := { s with warps := s.warps.put w x }
/-- Replaces a block. -/
def State.setBlock (s : State) (b : Nat) (x : Block) : State := { s with blocks := s.blocks.put b x }
/-- Replaces a core. -/
def State.setCore (s : State) (c : Nat) (x : Core) : State := { s with cores := s.cores.put c x }
/-- Replaces a partition. -/
def State.setPart (s : State) (p : Nat) (x : Part) : State := { s with parts := s.parts.put p x }
/-- Changes a warp. -/
def State.updWarp (s : State) (w : Nat) (f : Warp → Warp) : State := s.setWarp w (f (s.warp w))
/-- Changes a block. -/
def State.updBlock (s : State) (b : Nat) (f : Block → Block) : State := s.setBlock b (f (s.block b))
/-- Changes a core. -/
def State.updCore (s : State) (c : Nat) (f : Core → Core) : State := s.setCore c (f (s.core c))
/-- Changes a partition. -/
def State.updPart (s : State) (p : Nat) (f : Part → Part) : State := s.setPart p (f (s.part p))

/-- The block of a warp. -/
def State.blockOf (s : State) (w : Nat) : Block := s.block (s.warp w).blk
/-- The partition of a warp. -/
def State.partOf (s : State) (w : Nat) : Nat := (s.blockOf w).part
/-- Half of a core (01 R10). -/
def halfOfCore (c : Nat) : Nat := c / 96

/-- Whether a warp has exited: no lane is left (06 R138). -/
def Warp.exited (x : Warp) : Bool := x.live == 0
/-- FLOCKSIZE in force for a warp's block (06 R151). -/
def State.flockSizeOf (s : State) (w : Nat) : Nat := (s.blockOf w).flockSize
/-- FLOCKID (06 R151). -/
def State.flockIdOf (s : State) (w : Nat) : Nat := (s.warp w).widx / s.flockSizeOf w
/-- FLOCKRANK (06 R151). -/
def State.flockRankOf (s : State) (w : Nat) : Nat := (s.warp w).widx % s.flockSizeOf w
/-- Ids of a block's warps, in order of id. -/
def State.warpsOfBlock (s : State) (b : Nat) : List Nat := s.warps.keysWhere (fun _ x => x.blk == b)

/-- Sign extension of a 57-bit address (02 R31, 06 R126). -/
def canon57 (a : DWord) : DWord := (a.extractLsb' 0 57).signExtend 64
/-- A canonical global address (02 R31). -/
def isCanonical (a : DWord) : Bool := canon57 a == a

/-- Word of a natural number. -/
def w32 (n : Nat) : Word := BitVec.ofNat 32 n

/-! Registers. -/

/-- Key of a vector register's lane. -/
def vkey (r l : Nat) : Nat := r * 32 + l

/-- The content of a vector register lane, pending loads aside: what was written, else zero for a unit held
since launch, else the unspecified content at the grant (06 R126, 12 R235); a cross-lane read of an exited member may come
here beyond its units (log 126). -/
def Warp.rawV (x : Warp) (r l : Nat) : Word :=
  match x.v.find (vkey r l) with
  | some b => b
  | none =>
    match x.regEpochs.getD (r / 8) none with
    | none => 0
    | some e => Config.freeWord e (vkey r l)

/-- Id of a warp from its core and slot. -/
def warpId (core slot : Nat) : Nat := core * 128 + slot

/-- A register cell of a warp, as a position of free choices: the warp, uniform or vector, the register and lane. -/
def Warp.cellKey (x : Warp) (uniform : Bool) (r l : Nat) : Nat :=
  (warpId x.core x.slot * 2 + (if uniform then 1 else 0)) * 8192 + vkey r l

/-- A register as outstanding loads leave it to a reader: old or new, chosen for each warp, register and lane (02 R59,
09 R205). A load that is to trap writes nothing (10 R211). -/
def seenThrough (loads : List PendLoad) (k key : Nat) (uniform : Bool) (r l : Nat) (old : Word) : Word :=
  loads.foldl (fun acc q =>
    if q.bad.isSome then acc
    else q.cells.foldl (fun acc c =>
      if c.uniform = uniform && c.reg = r && c.lane = l && Config.freeBit k key then (acc &&& c.keep) ||| c.value
      else acc) acc) old

/-- A vector register lane as read with draw index `k`. A poisoned register holds no stated value: only a store reads it
(log 65). -/
def Warp.readV (x : Warp) (k r l : Nat) : Word :=
  if x.vPoison.contains r then Config.freeWord k (x.cellKey false r l)
  else seenThrough x.loads k (x.cellKey false r l) false r l (x.rawV r l)
/-- A uniform register, pending loads aside. -/
def Warp.rawS (x : Warp) (r : Nat) : Word := (x.s.find r).getD 0
/-- A uniform register as read with draw index `k`. -/
def Warp.readS (x : Warp) (k r : Nat) : Word := seenThrough x.loads k (x.cellKey true r 0) true r 0 (x.rawS r)
/-- A predicate; p7 reads all ones (06 R126). -/
def Warp.readP (x : Warp) (p : Nat) : Mask := if p = 7 then 0xFFFFFFFF else (x.p.find p).getD 0

/-- Marks pending cells as overwritten, chosen by file, register and lane (02 R59). -/
def markCells (loads : List PendLoad) (p : Bool → Nat → Nat → Bool) : List PendLoad :=
  loads.map (fun q => { q with cells := q.cells.map (fun c =>
    if p c.uniform c.reg c.lane then { c with clob := true } else c) })

/-- Marks the pending cells of a register as overwritten (02 R59). -/
def clobber (loads : List PendLoad) (uniform : Bool) (r l : Nat) : List PendLoad :=
  markCells loads (fun u q k => u = uniform && q = r && k = l)

/-- Writes a vector register lane; a poisoned register is no longer so. -/
def Warp.writeV (x : Warp) (r l : Nat) (b : Word) : Warp :=
  { x with v := x.v.put (vkey r l) b, loads := clobber x.loads false r l,
           vPoison := x.vPoison.filter (fun q => q != r) }
/-- Writes a uniform register. -/
def Warp.writeS (x : Warp) (r : Nat) (b : Word) : Warp :=
  { x with s := x.s.put r b, loads := clobber x.loads true r 0 }
/-- Writes a predicate; writes to p7 are ignored (06 R146). -/
def Warp.writeP (x : Warp) (p : Nat) (m : Mask) : Warp :=
  if p = 7 then x else { x with p := x.p.put p m }

/-- A 64-bit value in an even uniform pair, low word first (03 R84, 04 R96). -/
def Warp.readPairS (x : Warp) (k r : Nat) : DWord := x.readS k (r + 1) ++ x.readS k r
/-- Writes a uniform pair. -/
def Warp.writePairS (x : Warp) (r : Nat) (b : DWord) : Warp :=
  (x.writeS r (b.extractLsb' 0 32)).writeS (r + 1) (b.extractLsb' 32 32)

/-- Draw index of a free value: the state's counter and a slot of the step; even, as an epoch is odd. -/
def State.draw (s : State) (slot : Nat) : Nat := (s.freeCtr * 16 + slot) * 2
/-- The epoch of storage granted now: its unspecified contents are draws of their own (12 R235). -/
def State.epoch (s : State) : Nat := s.nextUid * 2 + 1
/-- Advances the counter of free values. -/
def State.bump (s : State) : State := { s with freeCtr := s.freeCtr + 1 }

/-! Fault records (21 R352, R353). -/

/-- What an event tells of itself; the record's other fields come from the warps it names. -/
structure FaultInfo where
  cause : Cause
  detail : Nat
  agent : Nat
  async : Bool
  replay : Bool
  addr : DWord
  lanes : Mask
  timeline : DWord
  ipc : Option DWord
  wpc : DWord
  iword : Option DWord
  members : Option (BitVec 32)
  op : Option Nat
  matrix : Bool
  deriving DecidableEq, Repr

/-- A precise fault or trap of a cause, with no access behind it (21 R352). -/
def FaultInfo.of (cause : Cause) (detail : Nat) : FaultInfo :=
  { cause := cause, detail := detail, agent := 0xFF, async := false, replay := false, addr := 0, lanes := 0,
    timeline := 0, ipc := none, wpc := 0, iword := none, members := none, op := none, matrix := false }

/-- Whether a record's ring has room (21 R353). -/
def Part.ringFull (p : Part) : Bool := decide (p.frSize ≤ (p.frTail - p.frHead).toNat)

/-- The bytes of a record (21 R352). -/
def FaultRec.bytes (r : FaultRec) : List Byte :=
  [r.cause, r.detail, r.agent, r.flags] ++ leBytes 2 r.slot.toNat ++ [r.flock, r.count] ++ leBytes 8 r.pc.toNat
    ++ leBytes 8 r.iword.toNat ++ leBytes 8 r.addr.toNat ++ leBytes 4 r.laneMask.toNat
    ++ leBytes 4 r.memberMask.toNat ++ leBytes 8 r.timeline.toNat ++ leBytes 8 r.ipc.toNat ++ leBytes 8 r.wpc.toNat

/-- Writes a record into slot FRTAIL mod FRSIZE and advances FRTAIL (21 R353); `who` is its number in the ring, where it
suspends warps. -/
def State.writeRecord (s : State) (part : Nat) (r : FaultRec) (who : Option Nat) : State :=
  let p := s.part part
  { s with mem := memWriteList s.mem (p.frBase.toNat + 64 * (p.frTail.toNat % p.frSize)) r.bytes }.setPart part
    { p with frTail := p.frTail + 1, handlerQ := p.handlerQ ++ [(r, who)] }

/-- Makes a record: into the ring, or held in order while the ring is full (21 R353). -/
def State.postRecord (s : State) (half part : Nat) (r : FaultRec) (who : Option Nat) : State :=
  let p := s.part part
  if p.ringFull then s.setPart part { p with heldRecs := p.heldRecs ++ [(half, r, who)] } else s.writeRecord part r who

/-- Whether the half can hold one record more (21 R353). -/
def State.canRecord (s : State) (half part : Nat) : Bool :=
  let p := s.part part
  !p.ringFull || decide ((p.heldRecs.filter (fun e => e.1 = half)).length < Config.heldRecordsMax)

/-- No half holds more than it can: all the records that a step made have their place (21 R353). -/
def State.recordsFit (t : State) (part : Nat) : Bool :=
  [0, 1].all (fun h =>
    decide (((t.part part).heldRecs.filter (fun e => e.1 = h)).length ≤ Config.heldRecordsMax))

/-- Moves held records into the ring as slots free, in order; `n` bounds the number moved. -/
def State.flushHeld (s : State) (part n : Nat) : State :=
  match n with
  | 0 => s
  | n + 1 =>
    let p := s.part part
    match p.heldRecs with
    | [] => s
    | (_, r, who) :: t =>
      if p.ringFull then s else ((s.setPart part { p with heldRecs := t }).writeRecord part r who).flushHeld part n

/-- Flag bits of a record, or of the suspension it makes (21 R352). -/
def flagBits (f : FaultInfo) (sc : Scope) : BitVec 8 :=
  (if f.async then 1 else 0) ||| (if sc == .flock then 2 else 0) ||| (if sc == .block then 4 else 0)
    ||| (if f.replay then 8 else 0)

/-- Members of an actor that have not exited (06 R133). -/
def State.liveMembers (s : State) (a : Actor) : List Member := a.members.filter (fun m => !(s.warp m.w).exited)

/-- Rank of a warp in a member set: FLOCKRANK at flock scope, WARPID at block scope (06 R128). -/
def State.rankIn (s : State) (sc : Scope) (w : Nat) : Nat :=
  if sc == .flock then s.flockRankOf w else (s.warp w).widx

/-- The record of an event that an actor meets at `pc` (21 R352, 11 R226, 06 R133). -/
def State.recordOf (s : State) (a : Actor) (pc : DWord) (f : FaultInfo) : FaultRec :=
  let live := s.liveMembers a
  let wide := a.scope == .flock || a.scope == .block
  { cause := f.cause, detail := BitVec.ofNat 8 f.detail, agent := BitVec.ofNat 8 f.agent,
    flags := flagBits f a.scope, slot := BitVec.ofNat 16 (s.warp a.lead).slot,
    flock := BitVec.ofNat 8 (s.flockIdOf a.lead), count := BitVec.ofNat 8 live.length, pc := pc,
    iword := f.iword.getD a.iword, addr := f.addr, laneMask := f.lanes,
    memberMask := f.members.getD (if wide then maskOf (live.map (fun m => s.rankIn a.scope m.w)) else 0),
    timeline := f.timeline, ipc := f.ipc.getD pc, wpc := f.wpc }

/-- The number in its partition's fault ring of the next record to be made (21 R353). -/
def State.recordNo (s : State) (part : Nat) : Nat := (s.part part).frTail.toNat + (s.part part).heldRecs.length

/-- Suspends warps under one record, of that number (21 R355). -/
def State.suspendAll (s : State) (ws : List Nat) (f : FaultInfo) (flags : BitVec 8) (rdv : Bool) (n : Nat) : State :=
  ws.foldl (fun s w => s.updWarp w (fun x =>
    { x with susp := some ⟨f.cause, flags, ws, f.op, f.matrix, rdv, n⟩ })) s

/-- TAKING AN EXCEPTION (21 R352 to R355). One record goes to the partition's fault ring and FRTAIL advances;
every member of the actor that has not exited is suspended until ERET resumes it. The path of R354 is the caller's:
a fault passes the state before the instruction, a trap the state after it, with `pc` the instruction's. -/
def State.takeException (s : State) (a : Actor) (pc : DWord) (f : FaultInfo) (rdv : Bool) : State :=
  let x := s.warp a.lead
  let n := s.recordNo (s.partOf a.lead)
  (s.postRecord (halfOfCore x.core) (s.partOf a.lead) (s.recordOf a pc f) (some n)).suspendAll
    ((s.liveMembers a).map (fun m => m.w)) f (flagBits f a.scope) rdv n

/-- A record that names no warp (21 R352, R354). -/
def State.deviceRecord (s : State) (half part : Nat) (f : FaultInfo) : State :=
  s.postRecord half part
    { cause := f.cause, detail := BitVec.ofNat 8 f.detail, agent := BitVec.ofNat 8 f.agent, flags := flagBits f .lane,
      slot := 0xFFFF, flock := 0, count := 0, pc := 0, iword := f.iword.getD 0, addr := f.addr, laneMask := f.lanes,
      memberMask := f.members.getD 0, timeline := f.timeline, ipc := f.ipc.getD 0, wpc := f.wpc } none

/-! Exit (06 R138). -/

/-- Pops the divergence stack after the active mask has become empty: PC, active mask and the rest. -/
def popExit (pc : DWord) (st : List DivEntry) : DWord × Mask × List DivEntry :=
  match st with
  | [] => (pc, 0, [])
  | .reconv rpc m :: t => if m == 0 then popExit pc t else (rpc + 8, m, t)
  | .pending p m :: t => if m == 0 then popExit pc t else (p, m, t)

/-- Removes lanes from a stack entry. -/
def DivEntry.without (e : DivEntry) (l : Mask) : DivEntry :=
  match e with
  | .reconv rpc m => .reconv rpc (m &&& ~~~l)
  | .pending p m => .pending p (m &&& ~~~l)

/-- EXIT of some lanes, with `next` the PC where a lane that stays active goes on. Once no lane is left the warp has
exited, and its outstanding loads write no register (06 R138, 09 R190). Lanes that a handler has dropped, through SWR of
UEMASK and RETI, are on no path, and keep the warp from having exited: DESIGN CHOICE (log 116). -/
def Warp.exitLanes (x : Warp) (l : Mask) (next : DWord) : Warp :=
  let act := x.active &&& ~~~l
  let live := x.live &&& ~~~l
  let st := x.dstack.map (fun e => e.without l)
  let y := { x with live := live, uemask := x.uemask &&& ~~~l, dstack := st }
  if act != 0 then { y with active := act, pc := next }
  else
    let (pc, m, t) := popExit next st
    let z := { y with active := m, pc := pc, dstack := t }
    if live == 0 then
      { z with active := 0, wait := none, blocked := Blocked.none, arming := none, heldArm := none,
               loads := x.loads.map (fun q => { q with cells := [], reads := [] }) }
    else z

/-! Results of an instruction's own effect, and the issue that surrounds it. -/

/-- What an instruction's effect answers. -/
inductive Res where
  /-- Completed; each member goes on past the instruction. -/
  | ok (s : State)
  /-- Completed, with the PC already set. -/
  | jump (s : State)
  /-- A precise fault; nothing changed. -/
  | fault (f : FaultInfo)
  /-- Completed, then a trap (03 R83). -/
  | trap (s : State) (f : FaultInfo)
  /-- The warps wait. -/
  | wait (s : State) (k : WaitKind) (args : List DWord)
  /-- Held at issue: not ready yet (10 R212, 14 R258). -/
  | hold
  /-- The performer has left the machine with its block (19 R338). -/
  | gone (s : State)
  deriving DecidableEq, Repr

/-- A fault of a cause with detail 0. -/
def Res.cause (c : Cause) : Res := .fault (FaultInfo.of c 0)

/-- Whether dither mode 4 is selected by a rounding instruction (03 R74, R75). -/
def usesDither (i : Instr) : Bool :=
  match headWord i with
  | some (m, fn, _, .x f) =>
    f.rnd == 4 && ((m = 3 && fpRnd fn) || (m = 4 && fn = 4) || (m = 6 && fn ≤ 3) || (m = 13 && fn = 5))
  | _ => false

/-- Moves a warp past an instruction, or to the next repeat (04 R90, 06 R144). A REPI that RETI has restored at an instruction
that is no REP pair stands, and one above the pair's count performs that repeat and ends the pair: DESIGN CHOICE (log
117). -/
def Warp.advance (x : Warp) (len : Nat) (rep : Option Nat) : Warp :=
  match rep with
  | some n =>
    if x.repi < n then { x with repi := x.repi + 1 }
    else { x with repi := 0, pc := canon57 (x.pc + BitVec.ofNat 64 len) }
  | none => { x with pc := canon57 (x.pc + BitVec.ofNat 64 len) }

/-- Ends the wait of a warp. -/
def Warp.unwait (x : Warp) : Warp := { x with wait := none, blocked := Blocked.none }

/-- DCTR counts each dither-mode instruction that completes (03 R75). -/
def Warp.countDither (x : Warp) (i : Instr) : Warp := if usesDither i then { x with dctr := x.dctr + 1 } else x

/-- Each member that has not exited goes on past the instruction (06 R130). -/
def State.advanceAll (s : State) (a : Actor) (i : Instr) : State :=
  (s.liveMembers a).foldl (fun s m =>
    s.updWarp m.w (fun x => (x.unwait.countDither i).advance a.len a.rep)) s

/-- Each member that has not exited leaves its wait. -/
def State.unwaitAll (s : State) (a : Actor) : State :=
  (s.liveMembers a).foldl (fun s m => s.updWarp m.w (fun x => x.unwait)) s

/-- The rendezvous of an actor, through a function. -/
def State.updInst (s : State) (a : Actor) (f : Inst → Option Inst) : State :=
  match a.inst with
  | none => s
  | some n => s.updBlock (s.warp a.lead).blk (fun b =>
      { b with insts := b.insts.filterMap (fun e => if e.id = n then f e else some e) })

/-- Each member waits, for the kind and operands given. -/
def State.waitAll (s : State) (a : Actor) (k : WaitKind) (i : Instr) (args : List DWord) : State :=
  (s.liveMembers a).foldl (fun s m => s.updWarp m.w (fun x => { x with wait := some ⟨k, i, a, args⟩ })) s

/-- The blocked-state register of every member (12 R251). -/
def State.blockAll (s : State) (a : Actor) (owner : Word) (kind : BitVec 4) (detail : BitVec 24) : State :=
  (s.liveMembers a).foldl (fun s m => s.updWarp m.w (fun x => { x with blocked := ⟨owner, kind, detail⟩ })) s

/-- Owner word of a block (12 R250, 06 R134). An index of 2^30 or more has no room in the field, and its low 30 bits stand:
DESIGN CHOICE (log 118). -/
def ownerBlock (index : Nat) : Word := 0x40000000 ||| BitVec.ofNat 32 (index % 2 ^ 30)
/-- Owner word of a queue (12 R250). -/
def ownerQueue (id : Nat) : Word := 0x80000000 ||| BitVec.ofNat 32 (id % 2 ^ 30)

/-- Brings the answer of an effect into the state `s` that it started from: completion, wait, fault or trap, for a
single warp and for the members of a rendezvous alike (06 R130, R133, 21 R354). None where it is held. -/
def settle (s : State) (a : Actor) (i : Instr) (r : Res) : Option State :=
  let pc := (s.warp a.lead).pc
  let wide := a.scope == .flock || a.scope == .block
  let room := s.canRecord (halfOfCore (s.warp a.lead).core) (s.partOf a.lead)
  match r with
  | .ok t => some ((t.updInst a (fun _ => none)).advanceAll a i)
  | .jump t => some ((t.updInst a (fun _ => none)).unwaitAll a)
  | .wait t k args => some ((t.updInst a (fun e => some { e with waiting := true })).waitAll a k i args)
  | .hold => none
  | .gone t => some t
  | .fault f =>
    if !room then none
    else if wide then
      some (((s.updInst a (fun e => some { e with suspended := true, waiting := false })).waitAll a .rendezvous i
        []).takeException a pc f true)
    else some ((s.unwaitAll a).takeException a pc f false)
  | .trap t f =>
    if !room then none
    else some (((t.updInst a (fun _ => none)).advanceAll a i).takeException a pc f false)

/-- Lanes that an instruction acts on: active, and selected by its predicate (04 R94). -/
def Warp.selected (x : Warp) (i : Instr) : Mask :=
  match headWord i with
  | some (_, _, h, _) =>
    let p := x.readP h.pred.toNat
    x.active &&& (if h.pneg then ~~~p else p)
  | none => x.active

/-- Checks 2 and 3 of R110 that depend on the warp's context, and control mode's scopes (04 R109). -/
def contextCause (x : Warp) (i : Instr) : Option Cause :=
  match headWord i with
  | some (m, fn, h, _) =>
    if m = 17 && !x.fw then some cPrivileged
    else if x.control && controlLacks m fn then some cIllegalOpcode
    else if x.control && (h.scope == .flock || h.scope == .block) then some cScope
    else none
  | none => none

/-- ROLE-BOUND (21 R356). -/
def cRoleBound : Cause := 0x1D

/-- Checks 7 and 8 of R110: the vector registers against the role's maximum and the grant. A tile number has alignment
alone and is no register. -/
def boundCause (roleMax granted : Nat) (us : List RegUse) : Option Cause :=
  let vs := us.filter (fun u => !u.uniform && u.count != 0)
  if vs.any (fun u => decide (8 * roleMax < u.num + u.count)) then some cRoleBound
  else if vs.any (fun u => decide (8 * granted < u.num + u.count)) then some cRegBound
  else none

/-- Register units that a warp's role may hold at most (12 R227). -/
def State.roleMax (s : State) (w : Nat) : Nat := (s.blockOf w).lrec.regMax.getD (s.warp w).role 0
/-- Register units granted to a warp. -/
def Warp.granted (x : Warp) : Nat := x.regEpochs.length

/-- The registers of an instruction, of a pair those of its target as it stands. -/
def usesOf (i : Instr) : List RegUse :=
  match form i with
  | .rep _ t => (form t).use.regs
  | g => g.use.regs

/-- Warps of a member set: the flock as declared now, or the block (06 R128). -/
def State.memberSet (s : State) (sc : Scope) (w : Nat) : List Nat :=
  let b := (s.warp w).blk
  if sc == .flock then (s.warpsOfBlock b).filter (fun v => s.flockIdOf v = s.flockIdOf w) else s.warpsOfBlock b

/-- Lanes of an operand: W at lane scope, W times the members at flock and block scope (09 R190). -/
def State.laneCount (s : State) (sc : Scope) (w : Nat) : Nat :=
  if sc == .flock || sc == .block then Config.warpWidth * (s.memberSet sc w).length
  else if (s.warp w).control then 1 else Config.warpWidth

/-- The reserved fields that depend on the lane count: a segment of SHFLX longer than the operand, a distance of
REDSTEP of W or more (09 R191, R194). -/
def State.laneFieldBad (s : State) (w : Nat) (i : Instr) : Bool :=
  match headWord i with
  | some (5, 1, h, .x f) => decide (s.laneCount h.scope w < 2 ^ (f.vc.toNat / 4))
  | some (5, 5, _, .x f) => decide (s.laneCount .lane w ≤ 2 ^ (f.vc.toNat / 16))
  | _ => false

/-- Checks 5 to 8 of R110 for a later repeat of a pair, on the fields as they are stepped (04 R96, R103): a field past
255 that names no vector register is reserved, one that does is past the role's maximum. -/
def State.repeatCause (s : State) (w : Nat) (f : RepForm) (t : Instr) : Option Cause :=
  let x := s.warp w
  match stepTarget f (form t) x.repi with
  | some (.w64 m fn h u past) =>
    let vec := vectorFields m fn h u
    if past.anyBut vec then some cReserved
    else
      match wordCause m fn h u with
      | some c => some c
      | none => if past.anyIn vec then some cRoleBound else boundCause (s.roleMax w) x.granted (wordUse m fn h u).regs
  | some (.movhi g past) =>
    if past then some cRoleBound else boundCause (s.roleMax w) x.granted [RegUse.one false g.vd]
  | none => none

/-- The checks of R110 before an instruction's own, in order; a later repeat of a pair is checked as it is
stepped. -/
def State.precheck (s : State) (w : Nat) (i : Instr) : Option Cause :=
  let x := s.warp w
  match contextCause x i with
  | some c => some c
  | none =>
    match check i with
    | some c => some (if c = cPairAlign && s.laneFieldBad w i then cReserved else c)
    | none =>
      if s.laneFieldBad w i then some cReserved
      else
        match form i with
        | .rep f t =>
          if x.repi = 0 then boundCause (s.roleMax w) x.granted (usesOf i) else s.repeatCause w f t
        | _ => boundCause (s.roleMax w) x.granted (usesOf i)

/-- The actor of a warp that performs an instruction alone. -/
def State.selfActor (s : State) (w : Nat) (i : Instr) : Actor :=
  let x := s.warp w
  { scope := scopeOfInstr i, members := [⟨w, x.active, x.selected i⟩], lead := w, iword := recordWord i,
    len := instrLength i, rep := match i with | .rep f _ => some f.count.toNat | _ => none, inst := none }

/-- The lanes that the issue of an instruction by one warp charges at its own clock (07 R154): none for MMA, which
charges by its occupancy, and none for an arrival. -/
def Warp.issueCount (x : Warp) (i : Instr) : Nat :=
  match scopeOfInstr i with
  | .lane => popMask x.active
  | .warp =>
    if usesVectors i then popMask x.active
    else match headWord i with
      | some (13, 0, _, _) => 1
      | some (13, 2, _, _) => 0
      | some (13, _, _, _) => Config.warpWidth
      | _ => 1
  | _ => 0

/-- The issue of an instruction by one warp, for the meter (07 R154). -/
def State.chargeIssue (s : State) (w : Nat) (i : Instr) : State :=
  let x := s.warp w
  s.updCore x.core (fun c =>
    { c.charge 0 x.quarter (x.issueCount i * weight i) with issuedNow := w :: c.issuedNow })

/-- The completion of a rendezvous charges each member's quarter for its arrival mask, on the next clock; ACCZ for
every lane; MMA by its own occupancy (07 R154). -/
def State.chargeInstance (s : State) (a : Actor) (i : Instr) : State :=
  (s.liveMembers a).foldl (fun s m =>
    let n := match headWord i with
      | some (13, 2, _, _) => 0
      | some (13, 3, _, _) => Config.warpWidth
      | _ => popMask m.act
    s.updCore (s.warp m.w).core (fun c => c.charge 1 (s.warp m.w).quarter (n * weight i))) s

/-- Whether an arming has reached its number: (counter − n) mod 2^32 lies below 2^31 (14 R270). -/
def reached (counter : Nat) (n : Word) : Bool := decide ((BitVec.ofNat 32 counter - n).toNat < 2 ^ 31)

/-- An armed condition holds, or its work has failed just ahead of the counter (14 R273, R274). -/
def State.armingDue (s : State) (w : Nat) : Bool :=
  match (s.warp w).arming with
  | some a => reached (((s.blockOf w).timelines.getD a.tl ⟨0, 0, []⟩).counter) a.n
  | none => false

/-- Whether an operation holds a fault that no ERET has served yet. -/
def EngOp.failed (o : EngOp) : Bool :=
  match o.fault with
  | some f => !f.served
  | none => false

/-- The faulted operation just above a timeline's counter (14 R274). -/
def State.failedNext (s : State) (blk tl : Nat) : Option (Nat × EngOp) :=
  let c := ((s.block blk).timelines.getD tl ⟨0, 0, []⟩).counter
  s.ops.find? (fun e => e.2.blk = blk && e.2.tl = tl && e.2.num = c + 1 && e.2.failed
    && (match e.2.kind with | .lane .. => false | _ => true))

/-- An armed handler that needs failed work (14 R274). -/
def State.armingFailed (s : State) (w : Nat) : Bool :=
  match (s.warp w).arming with
  | some a => (s.failedNext (s.warp w).blk a.tl).any (fun e => !reached (e.2.num - 1) a.n)
  | none => false

/-- Vectoring is due (06 R141): the condition holds and the warp is not in its handler, or a held condition
waits for the handler's end. -/
def State.vectorDue (s : State) (w : Nat) : Bool :=
  let x := s.warp w
  !x.inHandler && (x.held || s.armingDue w)

/-- Something is to happen at the boundary before the warp's next instruction: a poison trap, a halt, a held or armed
handler, or an arming's failed work (10 R211, 21 R364, 06 R141, 14 R274). -/
def State.boundaryDue (s : State) (w : Nat) : Bool :=
  let x := s.warp w
  !x.asyncTraps.isEmpty || x.haltReq || s.vectorDue w || s.armingFailed w || (x.inHandler && s.armingDue w)

/-- Issue has stopped on a core that would make a record, as none can be held (21 R353). -/
def State.stalled (s : State) (core part : Nat) : Bool :=
  (s.core core).recWait && !s.canRecord (halfOfCore core) part

/-- The partition that holds a core; 0 where none does. -/
def State.partOfCore (s : State) (core : Nat) : Nat :=
  ((s.parts.find? (fun e => e.2.configured && e.2.regions.contains (core / 8))).map (fun e => e.1)).getD 0

/-- A record of that number which suspended no warp has not yet been taken by the system handler. -/
def Part.untaken (p : Part) (n : Nat) : Bool :=
  p.handlerQ.any (fun e => e.2 == some n && e.1.count == 0) || p.heldRecs.any (fun e => e.2.2 == some n && e.2.1.count == 0)

/-- Issue on a core has stopped (07 R163): a warp of it is still suspended under the record, or, where there was none to
suspend, the system handler has not yet taken the record (log 121). -/
def State.stopped (s : State) (core : Nat) : Bool :=
  (s.core core).stops.any (fun n => (s.part (s.partOfCore core)).untaken n
    || s.warps.any (fun e => e.2.core = core && e.2.susp.any (fun u => u.serial = n)))

/-- A warp may issue: it exists, has not exited, neither waits nor is suspended, and its core issues (06 R127). -/
def State.canIssue (s : State) (w : Nat) : Bool :=
  let x := s.warp w
  (s.warps.find w).isSome && !x.exited && x.wait.isNone && x.susp.isNone
    && !s.stopped x.core && !(s.core x.core).gated && !s.stalled x.core (s.partOf w)

/-- A warp is ready for an instruction: it may issue and nothing is due before it. -/
def State.ready (s : State) (w : Nat) : Bool := s.canIssue w && !s.boundaryDue w

/-- Whether a rendezvous belongs to the member set of a warp. -/
def State.sameSet (s : State) (sc : Scope) (w : Nat) (e : Inst) : Bool :=
  e.scope == sc && (sc != .flock || e.flockId = s.flockIdOf w)

/-- Every member has arrived or has exited (06 R130, R131). -/
def State.allArrived (s : State) (b : Nat) (e : Inst) : Bool :=
  ((s.warpsOfBlock b).filter (fun v => e.scope != .flock || s.flockIdOf v = e.flockId)).all (fun v =>
    (s.warp v).exited || e.arrivals.any (fun m => m.w = v))

/-- No arrived member is suspended: the rendezvous of a suspended one stays open (21 R364). -/
def State.noneSuspended (s : State) (e : Inst) : Bool := e.arrivals.all (fun m => (s.warp m.w).susp.isNone)

/-- Insertion of a member by rank. -/
def State.insertByRank (s : State) (sc : Scope) (m : Member) (l : List Member) : List Member :=
  match l with
  | [] => [m]
  | n :: t => if s.rankIn sc m.w < s.rankIn sc n.w then m :: n :: t else n :: s.insertByRank sc m t

/-- The actor that completes a rendezvous: the arrivals in rank order, led by the bellwether (06 R130). -/
def State.instActor (s : State) (e : Inst) (lead : Nat) : Actor :=
  { scope := e.scope, members := e.arrivals.foldr (fun m l => s.insertByRank e.scope m l) [], lead := lead,
    iword := recordWord e.instr, len := e.len, rep := e.rep, inst := some e.id }

/-- The operation of a complete rendezvous, once for all members (06 R130). None where it is held. -/
def State.performInst (s : State) (e : Inst) (lead : Nat) (op : Actor → State → Res) : Option State :=
  let a := s.instActor e lead
  let t := s.chargeInstance a e.instr
  settle t a e.instr (op a t)

/-- FLOCK-MISMATCH (21 R356). -/
def cFlockMismatch : Cause := 0x17

/-- The site of an arrival: PC and repeat index (06 R129). -/
def Inst.atSite (e : Inst) (x : Warp) : Bool := e.pc == x.pc && e.repi == x.repi

/-- An open rendezvous at another site that has an arrival and lacks this warp (06 R132). -/
def State.mismatch (s : State) (sc : Scope) (w : Nat) : Bool :=
  let x := s.warp w
  (s.block x.blk).insts.any (fun e =>
    s.sameSet sc w e && !e.atSite x && !e.arrivals.isEmpty && !e.arrivals.any (fun m => m.w = w))

/-- Records an arrival, opening the rendezvous if need be; the rendezvous as it then stands (06 R129). -/
def State.addArrival (s : State) (sc : Scope) (w : Nat) (i : Instr) : State × Inst :=
  let x := s.warp w
  let b := s.block x.blk
  let m : Member := ⟨w, x.active, x.selected i⟩
  let rep := match i with | .rep f _ => some f.count.toNat | _ => none
  let fresh : Inst :=
    { id := s.nextUid, scope := sc, flockId := if sc == .flock then s.flockIdOf w else 0, pc := x.pc, repi := x.repi,
      instr := i, len := instrLength i, rep := rep, arrivals := [m], suspended := false, waiting := false,
      bell := none }
  match b.insts.find? (fun e => s.sameSet sc w e && e.atSite x && !e.arrivals.any (fun n => n.w = w)) with
  | some e =>
    let e' := { e with arrivals := e.arrivals ++ [m] }
    (s.setBlock x.blk { b with insts := b.insts.map (fun f => if f.id = e.id then e' else f) }, e')
  | none => ({ s with nextUid := s.nextUid + 1 }.setBlock x.blk { b with insts := b.insts ++ [fresh] }, fresh)

/-- A rendezvous of a block after an exit: complete, it has the arrived member of the lowest rank that has not exited for
its bellwether; with every member gone it is dropped (06 R130). -/
def State.closeInst (s : State) (blk : Nat) (e : Inst) : Option Inst :=
  if !s.allArrived blk e then some e
  else
    match s.liveMembers (s.instActor e 0) with
    | [] => none
    | m :: _ => if e.bell.isSome then some e else some { e with bell := some (m.w, (s.core (s.warp m.w).core).clock) }

/-- The rendezvous of a block after an exit. -/
def State.closeInsts (s : State) (blk : Nat) : State :=
  if (s.block blk).insts.isEmpty then s
  else s.updBlock blk (fun b => { b with insts := b.insts.filterMap (s.closeInst blk) })

/-- Arrival at a rendezvous: the warp waits, and the last member to arrive is the bellwether, which issues the operation
on a later clock (06 R129, R130, R134, 07 R158). -/
def State.arrive (s : State) (sc : Scope) (w : Nat) (i : Instr) : State :=
  let x := s.warp w
  let (s1, e) := s.addArrival sc w i
  let a := { s.selfActor w i with inst := some e.id }
  let s2 := s1.updWarp w (fun x =>
    { x with wait := some ⟨.rendezvous, i, a, []⟩,
             blocked := ⟨ownerBlock (s.blockOf w).index, 4, x.pc.extractLsb' 0 24⟩ })
  if s2.allArrived x.blk e then s2.updInst a (fun e => some { e with bell := some (w, (s.core x.core).clock) }) else s2

/-- The performer of what concerns a member alone: its record names no member set (06 R132, R133). -/
def State.loneActor (s : State) (w : Nat) (i : Instr) : Actor :=
  let a := s.selfActor w i
  if a.scope == .flock || a.scope == .block then { a with scope := .warp } else a

/-- A member comes to a rendezvous: FLOCK-MISMATCH, or its arrival (06 R132, R129). -/
def State.join (s : State) (sc : Scope) (w : Nat) (i : Instr) : Option State :=
  if s.mismatch sc w then settle s (s.loneActor w i) i (Res.cause cFlockMismatch) else some (s.arrive sc w i)

/-- What an issue answers: the next state, or not ready. -/
def issued (r : Option State) : Host.Outcome State Fault Refusal :=
  match r with
  | some t => .next t
  | none => .fault .notReady

/-- Of the registers that a word names, destination first, those that it reads (21 R357). -/
def sourceUses (m fn : Nat) (us : List RegUse) : List RegUse :=
  if (2 ≤ m && m ≤ 7) || (m = 8 && (fn = 0 || fn = 2 || fn = 4 || fn = 10)) then us.drop 1 else us

/-- The registers that an instruction reads, of a pair those of the present repeat. -/
def Warp.sources (x : Warp) (i : Instr) : List RegUse :=
  let ofWord (m fn : Nat) (h : Hdr) (u : Upper) : List RegUse := sourceUses m fn (wordUse m fn h u).regs
  match form i with
  | .rep f t =>
    match stepTarget f (form t) x.repi with
    | some (.w64 m fn h u _) => ofWord m fn h u
    | some (.movhi g _) => [RegUse.one false g.vd]
    | none => []
  | .i mj g => if mj = 49 then [RegUse.one false g.vd] else let (m, fn, h, u) := expandI mj g; ofWord m fn h u
  | g =>
    match g.expand with
    | some (m, fn, h, u) => ofWord m fn h u
    | none => []

/-- Loads in flight of a warp read no more what a condition names: their values stand (02 R53). -/
def Warp.fixReads (x : Warp) (p : PendLoad → LateRead → Bool) : Warp :=
  { x with loads := x.loads.map (fun q => { q with reads := q.reads.filter (fun r => !p q r) }) }

/-- An instruction before which a warp's earlier loads have read: a release, a fence, the issue of an operation, the end of a
divergence, an arrival at a rendezvous (02 R42, R43, R50 to R52). -/
def ordersLoads (i : Instr) : Bool :=
  scopeOfInstr i == .flock || scopeOfInstr i == .block || (match headWord i with
    | some (8, fn, _, .m f) => fn = 8 || (fn ≤ 7 && decide (2 ≤ f.order.toNat))
    | _ => false) || (match i with
    | .rjoin .. => true
    | .bararr .. => true
    | .lcopy .. => true
    | .tload .. => true
    | .tstore .. => true
    | .tmcast .. => true
    | .tred .. => true
    | .tpeer .. => true
    | .wbload .. => true
    | .mma .. => true
    | .accld .. => true
    | .accdrain .. => true
    | .kvwalk .. => true
    | .kvgather .. => true
    | .kvappend .. => true
    | .kvtrunc .. => true
    | .kvfork .. => true
    | .smerge .. => true
    | .rel .. => true
    | .launch .. => true
    | .spawn .. => true
    | .stenq .. => true
    | _ => false)

/-- A load in flight is to write a register that an instruction reads, which then has a value of the load's (02 R59). -/
def PendLoad.feeds (q : PendLoad) (us : List RegUse) : Bool :=
  q.cells.any (fun c => us.any (fun u => u.uniform = c.uniform && decide (u.num ≤ c.reg) && decide (c.reg < u.num + u.count)))

/-- A warp issues an instruction: its age restarts (07 R157), and loads in flight that it orders or reads from have read
what they read (02 R42, R53). -/
def Warp.issued (x : Warp) (i : Instr) : Warp :=
  if x.loads.isEmpty then { x with age := 0 }
  else { x.fixReads (fun q _ => ordersLoads i || q.feeds (x.sources i)) with age := 0 }

/-- A member that takes part reads a poisoned vector register (21 R357). -/
def State.readsPoison (s : State) (a : Actor) (i : Instr) : Bool :=
  (s.liveMembers a).any (fun m =>
    let x := s.warp m.w
    !x.vPoison.isEmpty && m.sel != 0
      && (x.sources i).any (fun u => !u.uniform && x.vPoison.any (fun r => decide (u.num ≤ r) && decide (r < u.num + u.count))))

/-- A store: it never faults with POISON (10 R211). -/
def isStore (i : Instr) : Bool :=
  match headWord i with
  | some (8, fn, _, _) => fn = 1 || fn = 3 || fn = 5 || fn = 11
  | _ => false

/-- A prefetch: it faults with nothing but the checks of its encoding (10 R221). -/
def isPref (i : Instr) : Bool :=
  match i with
  | .pref .. => true
  | _ => false

/-- The agent that meets the poison of an instruction's registers: atomic for ATOM and ATOMS, else load (10 R211). -/
def poisonAgent (i : Instr) : Nat :=
  match headWord i with
  | some (8, fn, _, _) => if fn = 6 || fn = 7 then 1 else 0
  | _ => 0

/-- A trap due at a next boundary, behind those that wait already (10 R211). -/
def Warp.trapDue (x : Warp) (cause : Cause) (agent : Nat) (ipc iword : DWord) : Warp :=
  { x with asyncTraps := x.asyncTraps ++ [⟨cause, agent, ipc, iword⟩] }

/-- POISON met in a register, as R211 has it: no destination is written, and the trap comes at the next boundary. -/
def State.registerPoison (s : State) (a : Actor) (i : Instr) : State :=
  (s.liveMembers a).foldl (fun s m => s.updWarp m.w (fun x =>
    x.trapDue (if poisonAgent i = 1 then 0x4C else 0x44) (poisonAgent i) (s.warp a.lead).pc a.iword)) s

/-- An effect behind the poison of the registers that it reads; a store goes on. -/
def guarded (i : Instr) (op : Actor → State → Res) (a : Actor) (s : State) : Res :=
  if s.readsPoison a i && !isStore i && !isPref i then .ok (s.registerPoison a i) else op a s

/-- THE ISSUE of an instruction by the warp in focus, around its own effect `op`: readiness, the checks of R110, the
skip of a warp-scope instruction that selects no lane (R94), which makes none of its entry's own checks (log 96), the
rendezvous at wider scopes, and the completion, wait, fault or trap that follows; an issue that fails is charged too (log 124).
`gate` is what a member meets before it arrives (10 R223, 08 R185). -/
def issueWith (gate : Nat → State → Option Res) (i : Instr) (op : Actor → State → Res) (s : State) :
    Host.Outcome State Fault Refusal :=
  match s.focus with
  | none => .fault .noWarp
  | some w =>
    if (s.warps.find w).isNone then .fault .noWarp
    else if !s.ready w then .fault .notReady
    else
      let s1 := ((s.bump).chargeIssue w i).updWarp w (fun x => x.issued i)
      let a := s.selfActor w i
      match s.precheck w i with
      | some c => issued (settle s1 (s.loneActor w i) i (Res.cause c))
      | none =>
        if a.scope == .flock || a.scope == .block then
          match gate w s1 with
          | some r => issued (settle s1 (s.loneActor w i) i r)
          | none => issued (s1.join a.scope w i)
        else if a.scope == .warp && a.members.all (fun m => m.sel == 0) then issued (settle s1 a i (.ok s1))
        else issued (settle s1 a i (guarded i op a s1))

/-- The issue of an instruction that meets nothing before its arrival. -/
def issue (i : Instr) (op : Actor → State → Res) (s : State) : Host.Outcome State Fault Refusal :=
  issueWith (fun _ _ => none) i op s

/-- The first 8 bytes at a warp's PC as a record holds them when nothing could be decoded, and its actor. -/
def State.rawActor (s : State) (w : Nat) (word : DWord) : Actor :=
  let x := s.warp w
  { scope := .lane, members := [⟨w, x.active, x.active⟩], lead := w, iword := word, len := 0, rep := none, inst := none }

/-! Returning from an exception (21 R354, R365). -/

/-- The warps that resume together with one: the members of its flock-wide or block-wide record, else itself alone
(21 R365). -/
def State.resumeGroup (s : State) (w : Nat) : List Nat :=
  match (s.warp w).susp with
  | some u =>
    if u.flags &&& 6 == 0 then [w] else u.group.filter (fun v => (s.warp v).susp.any (fun t => t.group = u.group))
  | none => []

/-- THE RETURN FROM AN EXCEPTION in mode 00: every warp of the record resumes, at the instruction after a fault and at
the next one after a trap, where its PC already stands; a faulted rendezvous runs once more (06 R133). -/
def State.resumeAll (s : State) (w : Nat) : State :=
  (s.resumeGroup w).foldl (fun s v =>
    let u := (s.warp v).susp
    let s1 := s.updWarp v (fun x => { x with susp := none, abuf := none })
    if u.any (fun t => t.rendezvous) then
      match (s.warp v).wait with
      | some q => s1.updInst q.actor (fun e => some { e with suspended := false })
      | none => s1
    else s1) s

/-- The warp that an entry of the Shepherd's queue concerns. -/
def Need.warp? (n : Need) : Option Nat :=
  match n with
  | .release w => some w
  | .acq r => some r.w
  | _ => none

/-- A warp's requests leave the Shepherd. -/
def State.dropNeeds (s : State) (w : Nat) : State :=
  s.updCore (s.warp w).core (fun c =>
    { c with reqs := c.reqs.filter (fun r => r.need.warp? != some w), deferred := c.deferred.filter (fun r => r.w != w) })

/-- Mode 01: the warps resume at a new PC, masks and stacks unchanged (21 R365). What they waited in is left, with its
requests, and REPI is 0: DESIGN CHOICE (log 120). -/
def State.resumeAt (s : State) (w : Nat) (pc : DWord) : State :=
  (s.resumeGroup w).foldl (fun s v => (s.updWarp v (fun x =>
    { x.unwait with susp := none, pc := pc, repi := 0, abuf := none })).dropNeeds v) s

/-- A rendezvous without a warp's arrival; none where no arrival is left. -/
def Inst.without (e : Inst) (w : Nat) : Option Inst :=
  let ms := e.arrivals.filter (fun m => m.w != w)
  if ms.isEmpty then none else some { e with arrivals := ms }

/-- A warp's arrivals leave their rendezvous: it counts as arrived with an empty mask (06 R131). -/
def State.withdraw (s : State) (w : Nat) : State :=
  if (s.blockOf w).insts.isEmpty then s
  else s.updBlock (s.warp w).blk (fun b => { b with insts := b.insts.filterMap (fun e => e.without w) })

/-- Ends a warp as EXIT of all its lanes (21 R365, 06 R138); its arrivals and its requests go with it. -/
def State.endWarp (s : State) (w : Nat) : State :=
  let s1 := (s.updWarp w (fun x =>
    { (x.exitLanes x.live x.pc) with
      susp := none, wait := none, blocked := Blocked.none, haltReq := false, asyncTraps := [] })).withdraw w
  (s1.dropNeeds w).closeInsts (s.warp w).blk

/-! Finishing a wait. -/

/-- Ends a wait with the answer of its instruction's effect; none where the effect is held still. -/
def State.finishWait (s : State) (q : Wait) (r : Res) : Option State := settle s q.actor q.instr r

end Sys2Proof.Machine
end

