-- ==== Sys2Proof/Machine/Access.lean ====
section
/-! DEFINITION. Access to the five address spaces: translation (21 R358, R359), scratch (02 R32), fold windows
(R33), peers (R34) and the on-chip map (R35), with the checks of 10 R210 and the bytes behind them. -/

namespace Sys2Proof.Machine

/-- Kinds of an access fault: 0x40 + 8 agent + kind (21 R356). -/
def kNotPresent : Nat := 0
/-- PROTECTION. -/
def kProtection : Nat := 1
/-- MISALIGNED. -/
def kMisaligned : Nat := 2
/-- WINDOW-REVOKED. -/
def kRevoked : Nat := 3
/-- POISON. -/
def kPoison : Nat := 4
/-- SHAPE-BOUND. -/
def kShape : Nat := 5
/-- GATED-TARGET. -/
def kGated : Nat := 6
/-- NON-CANONICAL. -/
def kNonCanonical : Nat := 7

/-- The cause of an agent's fault of a kind (21 R356). -/
def agentCause (agent kind : Nat) : Cause := BitVec.ofNat 8 (0x40 + 8 * agent + kind)
/-- Whether a cause of 0x40 to 0x5F is NOT-PRESENT or PROTECTION, which are replayable (21 R356). -/
def replayable (c : Cause) : Bool := decide (0x40 ≤ c.toNat) && decide (c.toNat < 0x60) && decide (c.toNat % 8 ≤ 1)

/-- SCRATCH-BOUND. -/
def cScratchBound : Cause := 0x7E
/-- FOLD-NOT-MEMBER. -/
def cFoldNotMember : Cause := 0x76

/-! Physical memory. -/

/-- First byte of the on-chip physical map (02 R35). -/
def onChipBase : Nat := 0xFF00000000000
/-- Size of one core's window in it. -/
def coreWindow : Nat := 0x400000
/-- First byte of the second tier (02 R35). -/
def tierBase : Nat := 0x10000000000
/-- Bytes of HBM (02 R35). -/
def hbmBytes : Nat := 432 * 10 ^ 9

/-- Whether a physical address lies in the on-chip map. -/
def inOnChip (a : Nat) : Bool := decide (onChipBase ≤ a) && decide (a < onChipBase + 192 * coreWindow)
/-- The core whose window an on-chip address lies in (02 R35). -/
def chipCore (a : Nat) : Nat := (a - onChipBase) / coreWindow

/-- A physical range lies in a partition's share of memory (22 R371, 02 R35). -/
def shareHolds (m : MemShare) (a n : Nat) : Bool :=
  let g := 2 ^ 30
  (decide (m.hbmFirst * g ≤ a) && decide (a + n ≤ (m.hbmFirst + m.hbmCount) * g) && decide (a + n ≤ hbmBytes))
    || (decide (tierBase + m.tierFirst * g ≤ a) && decide (a + n ≤ tierBase + (m.tierFirst + m.tierCount) * g)
      && decide (a + n ≤ 2 * tierBase))

/-- A 64-bit word of physical memory. -/
def memWord64 (m : List Host.Cell) (a : Nat) : DWord := BitVec.ofNat 64 (leNat (memReadList m a 8))

/-! Translation (21 R358, R359). -/

/-- Bytes that one entry of a level covers. -/
def levelSpan (level : Nat) : Nat := 2 ^ (12 + 9 * level)

/-- V, LEAF, RD, W, X and PEER of an entry. -/
def pteV (e : DWord) : Bool := e.getLsbD 0
/-- LEAF. -/
def pteLeaf (e : DWord) : Bool := e.getLsbD 1
/-- PEER. -/
def ptePeer (e : DWord) : Bool := e.getLsbD 59
/-- COAL. -/
def pteCoal (e : DWord) : Nat := (e.extractLsb' 9 3).toNat
/-- FRAME, as a byte address. -/
def pteFrame (e : DWord) : Nat := (e.extractLsb' 12 40).toNat * 4096

/-- Entries of a coalesced group of a code (21 R358). -/
def coalCount (c : Nat) : Nat := if c = 1 then 4 else if c = 2 then 16 else if c = 3 then 64 else if c = 4 then 16 else 1

/-- Fields that an entry of a level may not have (21 R358): a reserved bit, PDEV without PEER, a misplaced LEAF or
COAL, a misaligned frame. -/
def pteBad (level : Nat) (e : DWord) : Bool :=
  let c := pteCoal e
  e.extractLsb' 60 4 != 0 || e.getLsbD 52 || e.extractLsb' 6 3 != 0 || (!ptePeer e && e.extractLsb' 53 6 != 0)
    || (if pteLeaf e then
          decide (2 < level) || !(c = 0 || (level = 0 && c ≤ 3) || (level = 1 && c = 4))
            || decide (pteFrame e % (levelSpan level * coalCount c) ≠ 0)
        else level = 0 || c != 0 || ptePeer e)

/-- A leaf as found: its entry, and the base and size of its page. -/
structure Leaf where
  entry : DWord
  base : Nat
  size : Nat
  deriving DecidableEq, Repr

/-- A cached entry for an address at a given span, of the partition (21 R359). -/
def cached (tlb : List TlbEntry) (part span va : Nat) : Option TlbEntry :=
  tlb.find? (fun t => t.part = part && t.size = span && t.base = va / span * span)

/-- Bytes of a table that keeps what has been overwritten: the first value that each held. -/
def keepOld (m : AMap Byte) (olds : List (Nat × Byte)) : AMap Byte :=
  olds.foldl (fun m e => if (m.find e.1).isSome then m else m.put e.1 e.2) m

/-- The bytes that a write changes, as they stood. -/
def overwritten (m : List Host.Cell) (a : Nat) (bs : List Byte) : List (Nat × Byte) :=
  ((List.range bs.length).zip bs).filterMap (fun e =>
    let o := memRead m (a + e.1)
    if o = e.2 then none else some (a + e.1, o))

/-- `n` bytes at an address as a table of overwritten bytes gives them. -/
def oldBytes (m : List Host.Cell) (old : AMap Byte) (a n : Nat) : List Byte :=
  (List.range n).map (fun i => (old.find (a + i)).getD (memRead m (a + i)))

/-- An entry of a level as a walker may see it while no TLBINV has covered it: as it stands, as this core has it cached, or
as it stood when it was last covered; the walks of one instruction see an entry alike (21 R359, log 102). -/
def seenEntry (m : List Host.Cell) (old : AMap Byte) (tlb : List TlbEntry) (k part level table va : Nat) : DWord :=
  let a := table + 8 * (va / levelSpan level % 512)
  let now := memWord64 m a
  let was : DWord := BitVec.ofNat 64 (leNat (oldBytes m old a 8))
  let held := match cached tlb part (levelSpan level) va with
    | some t => t.entry
    | none => now
  let i := va / levelSpan level
  if held != now && Config.freeBit k (level + 16 * i) then held
  else if was != now && Config.freeBit k (level + 8 + 16 * i) then was
  else now

/-- The entry that stands for a coalesced group: any entry of the group may be used, seen as any other, and for the whole
group alike (21 R358, R359). -/
def groupEntry (m : List Host.Cell) (old : AMap Byte) (tlb : List TlbEntry) (k part level table va : Nat) (e : DWord) :
    DWord :=
  let n := coalCount (pteCoal e)
  if n = 1 then e
  else
    let first := va / levelSpan level / n * n
    let f := seenEntry m old tlb k part level table ((first + Config.freeNat k (level + 16 * first) % n) * levelSpan level)
    if pteV f && pteLeaf f && pteCoal f = pteCoal e && !pteBad level f then f else e

/-- The walk from a level's table down: the leaf, or the kind of fault; and the entries it read (21 R358). -/
def walk (m : List Host.Cell) (old : AMap Byte) (tlb : List TlbEntry) (share : MemShare) (k part va : Nat) (level : Nat)
    (table : Nat) : Except Nat Leaf × List TlbEntry :=
  if !shareHolds share table 4096 then (.error kProtection, [])
  else
    let e := seenEntry m old tlb k part level table va
    let me : TlbEntry := ⟨part, va / levelSpan level * levelSpan level, levelSpan level, e⟩
    if !pteV e then (.error kNotPresent, [])
    else if pteBad level e then (.error kProtection, [])
    else if pteLeaf e then
      let g := groupEntry m old tlb k part level table va e
      let size := levelSpan level * coalCount (pteCoal g)
      if !ptePeer g && !shareHolds share (pteFrame g) size then (.error kProtection, [])
      else (.ok ⟨g, va / size * size, size⟩, [⟨part, va / size * size, size, g⟩])
    else
      match level with
      | 0 => (.error kProtection, [])
      | l + 1 =>
        let (r, es) := walk m old tlb share k part va l (pteFrame e)
        (r, me :: es)

/-- Page sizes of leaves, smallest first (21 R358). -/
def pageSizes : List Nat := [2 ^ 12, 2 ^ 14, 2 ^ 16, 2 ^ 18, 2 ^ 21, 2 ^ 25, 2 ^ 30]

/-- A leaf held in the core's TLB for an address. -/
def cachedLeaf (tlb : List TlbEntry) (part va : Nat) : Option Leaf :=
  pageSizes.findSome? (fun sz =>
    match cached tlb part sz va with
    | some t => if pteLeaf t.entry then some ⟨t.entry, t.base, t.size⟩ else none
    | none => none)

/-- The virtual address that translation indexes: bits [56:0]. -/
def vaBits (a : DWord) : Nat := (a.extractLsb' 0 57).toNat

/-- The leaf of an address for a core and partition, cached or walked: an access of an instruction finds the page as its
other accesses do (21 R358, R359, R362). -/
def State.leafOf (s : State) (core part k : Nat) (a : DWord) : Except Nat Leaf :=
  let p := s.part part
  let tlb := (s.core core).tlb
  let fresh := (walk s.mem p.tables tlb p.share k part (vaBits a) 4 p.root.toNat).1
  match cachedLeaf tlb part (vaBits a) with
  | some l =>
    let held := Config.freeBit k (2 ^ 64 + l.base)
    match fresh with
    | .ok f => if f = l || held then .ok l else .ok f
    | .error e => if held then .ok l else .error e
  | none => fresh

/-- Enters what a walk read into the core's TLB, the newest first (21 R359). -/
def State.fillTlb (s : State) (core part k : Nat) (a : DWord) : State :=
  let p := s.part part
  let c := s.core core
  let es := (walk s.mem p.tables c.tlb p.share k part (vaBits a) 4 p.root.toNat).2
  let new := es.filter (fun e => !c.tlb.contains e)
  if new.isEmpty then s
  else
    let old := c.tlb.filter (fun t => !new.any (fun e => e.part = t.part && e.size = t.size && e.base = t.base))
    s.setCore core { c with tlb := (new ++ old).take Config.tlbMax }

/-- What an access needs: its rights, and whether it may reach a peer page (02 R34, 14 R268). -/
structure Rights where
  read : Bool
  write : Bool
  exec : Bool
  /-- Peer pages allowed. -/
  peer : Bool
  /-- Only peer pages allowed. -/
  onlyPeer : Bool
  deriving DecidableEq, Repr

/-- Read. -/
def Rights.r (peer : Bool) : Rights := ⟨true, false, false, peer, false⟩
/-- Write. -/
def Rights.w (peer : Bool) : Rights := ⟨false, true, false, peer, false⟩
/-- Read and write. -/
def Rights.rw (peer : Bool) : Rights := ⟨true, true, false, peer, false⟩
/-- Execute. -/
def Rights.x : Rights := ⟨false, false, true, false, false⟩

/-- The permissions of a leaf against the rights an access needs. -/
def leafAllows (e : DWord) (r : Rights) : Bool :=
  (!r.read || e.getLsbD 3) && (!r.write || e.getLsbD 4) && (!r.exec || e.getLsbD 5)
    && (if ptePeer e then r.peer || r.onlyPeer else !r.onlyPeer)

/-- Who accesses: core and partition of the translation, and whether in firmware context, where addresses are
physical (02 R30's last row; log 10). -/
structure Via where
  core : Nat
  part : Nat
  fw : Bool
  deriving DecidableEq, Repr

/-- The context of a warp's accesses. -/
def State.via (s : State) (w : Nat) : Via := ⟨(s.warp w).core, s.partOf w, (s.warp w).fw⟩

/-- Where the byte at an address lies, or the kind of fault (02 R31, R35, 10 R210, 21 R358). What a firmware address in no
populated range names is the model's choice (log 97). -/
def State.place (s : State) (v : Via) (r : Rights) (k : Nat) (a : DWord) : Except Nat Place :=
  if v.fw then
    if inOnChip a.toNat then
      if (s.core (chipCore a.toNat)).gated then .error kGated else .ok (.onChip a.toNat)
    else .ok (.phys (a.toNat % 2 ^ 52))
  else
    match s.leafOf v.core v.part k a with
    | .error e => .error e
    | .ok l =>
      if !leafAllows l.entry r then .error kProtection
      else
        let at' := pteFrame l.entry + (vaBits a - l.base)
        if ptePeer l.entry then .ok (.peer (l.entry.extractLsb' 53 6).toNat at') else .ok (.phys at')

/-- The runs of bytes behind an access of `n` bytes, at most two pages (10 R209). -/
def State.runs (s : State) (v : Via) (r : Rights) (k : Nat) (a : DWord) (n : Nat) :
    Except Nat (List (Place × Nat)) :=
  if n = 0 then .ok []
  else if !v.fw && !(isCanonical a && isCanonical (a + BitVec.ofNat 64 (n - 1))) then .error kNonCanonical
  else
    let n0 := min n (4096 - a.toNat % 4096)
    match s.place v r k a with
    | .ok p =>
      if n0 = n then .ok [(p, n)]
      else
        match s.place v r k (a + BitVec.ofNat 64 n0) with
        | .ok q => .ok [(p, n0), (q, n - n0)]
        | .error e => .error e
    | .error e =>
      if n0 = n || e = kNotPresent then .error e
      else
        match s.place v r k (a + BitVec.ofNat 64 n0) with
        | .error 0 => .error kNotPresent
        | _ => .error e

/-- The order in which a range is checked: canonical, present, then the rest (02 R31, 10 R210, 14 R264). -/
def checkRank (kind : Nat) : Nat := if kind = kNonCanonical then 0 else if kind = kNotPresent then 1 else 2

/-- Runs over any number of pages: the first check that some page fails, at the first such page; `fuel` bounds the pages. -/
def State.longRuns (s : State) (v : Via) (r : Rights) (k fuel : Nat) (a : DWord) (n : Nat) :
    Except (Nat × DWord) (List (Place × Nat)) :=
  match fuel with
  | 0 => .ok []
  | fuel + 1 =>
    if n = 0 then .ok []
    else if !v.fw && !isCanonical a then .error (kNonCanonical, a)
    else
      let n0 := min n (4096 - a.toNat % 4096)
      match s.place v r k a with
      | .error e =>
        match s.longRuns v r k fuel (a + BitVec.ofNat 64 n0) (n - n0) with
        | .error f => .error (if checkRank f.1 < checkRank e then f else (e, a))
        | .ok _ => .error (e, a)
      | .ok p =>
        match s.longRuns v r k fuel (a + BitVec.ofNat 64 n0) (n - n0) with
        | .error e => .error e
        | .ok t => .ok ((p, n0) :: t)

/-! Scratch (02 R32, 12 R235). -/

/-- Granted scratch of a block, in bytes (02 R32). -/
def Block.scrBytes (b : Block) : Nat := 8192 * b.scrEpochs.length

/-- A byte of scratch: what was written, else the unspecified content at the grant (12 R235). -/
def Block.scrByte (b : Block) (o : Nat) : Byte :=
  match b.scr.find o with
  | some x => x
  | none => Config.freeByte (b.scrEpochs.getD (o / 8192) 0) o

/-- Consecutive bytes of scratch. -/
def Block.scrRead (b : Block) (o n : Nat) : List Byte := (List.range n).map (fun i => b.scrByte (o + i))

/-- Writes consecutive bytes into a table of bytes. -/
def putBytes (m : AMap Byte) (o : Nat) (bs : List Byte) : AMap Byte :=
  match bs with
  | [] => m
  | x :: t => putBytes (m.put o x) (o + 1) t

/-- Sectors of 32 bytes that a range covers whole. -/
def sectorsWhole (o n q : Nat) : Bool := decide (o ≤ 32 * q) && decide (32 * q + 32 ≤ o + n)
/-- Sectors that a range touches. -/
def sectorTouched (o n q : Nat) : Bool := decide (o < 32 * q + 32) && decide (32 * q < o + n)

/-- Writes consecutive bytes of scratch; sectors covered whole lose their poison (10 R211). -/
def Block.scrWrite (b : Block) (o : Nat) (bs : List Byte) : Block :=
  { b with scr := putBytes b.scr o bs, scrPoison := b.scrPoison.filter (fun q => !sectorsWhole o bs.length q) }

/-- Whether a range of scratch is poisoned. -/
def Block.scrPoisoned (b : Block) (o n : Nat) : Bool := b.scrPoison.any (sectorTouched o n)

/-! Folds (12 R241, 19 R325). -/

/-- Current members of a fold: blocks of one grid with its identifier and gang, by rank and uid. -/
def State.foldMembers (s : State) (blk : Nat) : List (Nat × Nat) :=
  match (s.block blk).fold with
  | none => []
  | some f =>
    s.blocks.filterMap (fun (u, b) =>
      match b.fold with
      | some g =>
        if g.id = f.id && g.gang = f.gang && b.part = (s.block blk).part && b.grid = (s.block blk).grid then
          some (g.rank, u)
        else none
      | none => none)

/-- The member that holds a rank. -/
def State.foldMember (s : State) (blk rank : Nat) : Option Nat :=
  ((s.foldMembers blk).find? (fun e => e.1 = rank)).map (fun e => e.2)

/-- A fold-window offset resolved to a member's scratch, with the checks of 02 R33 in order. A member's core is gated only
after the member has left it, so the gated target of R33's last row is met in flight alone. -/
def State.window (s : State) (blk agent : Nat) (w : DWord) (n : Nat) : Except Cause (Nat × Nat) :=
  if (s.block blk).fold.isNone then .error cFoldNotMember
  else if 8 * 2 ^ 20 ≤ w.toNat then .error cScratchBound
  else
    match s.foldMember blk (w.toNat / 2 ^ 20) with
    | none => .error (agentCause agent kRevoked)
    | some u =>
      if (s.block u).scrBytes < w.toNat % 2 ^ 20 + n then .error cScratchBound
      else .ok (u, w.toNat % 2 ^ 20)

/-! Elements of any space. -/

/-- The address spaces that instructions name by width or function (02 R30). -/
inductive Space where
  | global | scratch | window
  deriving DecidableEq, Repr

/-- Checks 1 to 5 of 10 R210 for one element of `n` bytes, with `align` the alignment it must have. -/
def State.checkElem (s : State) (v : Via) (blk agent : Nat) (sp : Space) (r : Rights) (k : Nat) (a : DWord)
    (n align : Nat) : Except Cause Target :=
  let misaligned := decide (a.toNat % align ≠ 0)
  match sp with
  | .global =>
    if !v.fw && !(isCanonical a && isCanonical (a + BitVec.ofNat 64 (n - 1))) then
      .error (agentCause agent kNonCanonical)
    else if misaligned then .error (agentCause agent kMisaligned)
    else
      match s.runs v r k a n with
      | .error e => .error (agentCause agent e)
      | .ok rs => .ok (.glob rs)
  | .scratch =>
    if (s.block blk).scrBytes < a.toNat + n then .error cScratchBound
    else if misaligned then .error (agentCause agent kMisaligned)
    else .ok (.scr blk a.toNat n)
  | .window =>
    match s.window blk agent a n with
    | .error e => .error e
    | .ok (u, o) => if misaligned then .error (agentCause agent kMisaligned) else .ok (.scr u o n)

/-! The on-chip map (02 R35). -/

/-- A word of a tile: what was written, else the unspecified content at the grant (12 R235). -/
def Warp.tileWord (x : Warp) (t i : Nat) : Word :=
  match x.acc.find (256 * t + i) with
  | some b => b
  | none => Config.freeWord (x.accEpochs.getD ((256 * t + i) / 2048) 0) (2 ^ 20 + 256 * t + i)

/-- What a byte of the on-chip map is. -/
inductive Chip where
  /-- Byte `b` of a lane of a vector register. -/
  | reg (w r l b : Nat)
  | scr (blk off : Nat)
  /-- Byte `b` of a word of the accumulators. -/
  | acc (w i b : Nat)
  | slot (w k off : Nat)
  | reserved
  /-- Storage that no block holds: a core, and the place in its window. -/
  | spare (core off : Nat)
  deriving DecidableEq, Repr

/-- The warp of a quarter that holds a unit, and the place of the unit among its own. -/
def State.unitOwner (s : State) (core q unit : Nat) (units : Warp → List Nat) : Option (Nat × Nat) :=
  (s.warps.find? (fun e => e.2.core = core && e.2.quarter = q && (units e.2).contains unit)).map (fun e =>
    (e.1, (units e.2).findIdx (fun n => n = unit)))

/-- The storage behind an on-chip address (02 R35). -/
def State.chipAt (s : State) (a : Nat) : Chip :=
  let c := chipCore a
  let o := (a - onChipBase) % coreWindow
  if o < 0x100000 then
    let n := o % 0x40000 / 128
    match s.unitOwner c (o / 0x40000) (n / 8) (fun x => x.regUnits) with
    | some (w, j) => .reg w (8 * j + n % 8) (o % 128 / 4) (o % 4)
    | none => .spare c o
  else if o < 0x200000 then
    let p := o - 0x100000
    match s.blocks.find? (fun e => e.2.core = c && e.2.scrUnits.contains (p / 8192)) with
    | some (u, b) => .scr u (8192 * b.scrUnits.findIdx (fun n => n = p / 8192) + p % 8192)
    | none => .spare c o
  else if o < 0x280000 then
    let p := (o - 0x200000) % 0x20000
    match s.unitOwner c ((o - 0x200000) / 0x20000) (p / 8192) (fun x => x.accUnits) with
    | some (w, j) => .acc w (2048 * j + p % 8192 / 4) (p % 4)
    | none => .spare c o
  else if o < 0x2A0000 then
    let p := (o - 0x280000) % 0x8000
    match s.unitOwner c ((o - 0x280000) / 0x8000) (p / 2048) (fun x => x.accUnits) with
    | some (w, j) => .slot w j (p % 2048)
    | none => .spare c o
  else .reserved

/-- A byte of a weight slot: what has landed there, else unspecified (12 R235). -/
def Warp.slotByte (x : Warp) (k o : Nat) : Byte :=
  (((x.wslots.find k).bind (fun l => l.bytes[o]?)).getD
    (Config.freeByte (x.accEpochs.getD k 0) (2 ^ 22 + 2048 * k + o)))

/-- The key of the contents that a core's storage has unless a release of its own has marked it. -/
def wholeWindow : Nat := 4096

/-- A byte that no block holds: what was written, else the unspecified content since the last release of its KiB (02 R35, 12
R235, log 10). -/
def Core.spareByte (c : Core) (o : Nat) : Byte :=
  match c.spare.find o with
  | some b => b
  | none =>
    Config.freeByte (((c.spareEpochs.find (o / 1024)).orElse (fun _ => c.spareEpochs.find wholeWindow)).getD 1) (2 ^ 30 + o)

/-- Storage of a core, by KiB of its window, is held by no block any more: its contents are unspecified from now on (12 R235,
R239). -/
def State.freeStorage (s : State) (core : Nat) (kibs : List Nat) : State :=
  if kibs.isEmpty then s
  else { s.updCore core (fun c => { c with
    spare := List.filter (fun e => !kibs.contains (e.1 / 1024)) c.spare,
    spareEpochs := kibs.foldl (fun m k => m.put k s.epoch) c.spareEpochs }) with nextUid := s.nextUid + 1 }

/-- The KiB of a core's window that units hold: registers, scratch, accumulators with their weight slots (02 R35). -/
def regKibs (q : Nat) (units : List Nat) : List Nat := units.map (fun u => 256 * q + u)
/-- Those of scratch units. -/
def scrKibs (units : List Nat) : List Nat := units.flatMap (fun u => (List.range 8).map (fun i => 1024 + 8 * u + i))
/-- Those of accumulator units of a quarter. -/
def accKibs (q : Nat) (units : List Nat) : List Nat :=
  units.flatMap (fun u => (List.range 8).map (fun i => 2048 + 128 * q + 8 * u + i)
    ++ (List.range 2).map (fun i => 2560 + 32 * q + 2 * u + i))

/-- A byte of the on-chip map (02 R35). -/
def State.chipByte (s : State) (a : Nat) : Byte :=
  match s.chipAt a with
  | .reg w r l b => ((s.warp w).rawV r l).extractLsb' (8 * b) 8
  | .scr u o => (s.block u).scrByte o
  | .acc w i b => ((s.warp w).tileWord 0 i).extractLsb' (8 * b) 8
  | .slot w j o => (s.warp w).slotByte j o
  | .reserved => 0
  | .spare c o => (s.core c).spareByte o

/-- A byte of a word replaced. -/
def putByte (x : Word) (b : Nat) (v : Byte) : Word :=
  (x &&& ~~~((0xFF : Word) <<< (8 * b))) ||| (v.zeroExtend 32 <<< (8 * b))

/-- A byte of an accumulator word written. -/
def Warp.setAccByte (x : Warp) (i b : Nat) (v : Byte) : Warp :=
  { x with acc := x.acc.put i (putByte (x.tileWord 0 i) b v), accPoison := x.accPoison.filter (fun t => t != i / 256) }

/-- A byte of a weight slot written. -/
def Warp.setSlotByte (x : Warp) (j o : Nat) (v : Byte) : Warp :=
  let l := (x.wslots.find j).getD ⟨none, false, []⟩
  let bs := (List.range 2048).map (fun i => if i = o then v else x.slotByte j i)
  { x with wslots := x.wslots.put j { l with bytes := bs }, wPoison := x.wPoison.filter (fun t => t != j) }

/-- Writes a byte of on-chip storage; writes to the map's reserved part are ignored (02 R35). -/
def State.setStore (s : State) (c : Chip) (v : Byte) : State :=
  match c with
  | .reg w r l b => s.updWarp w (fun x => x.writeV r l (putByte (x.rawV r l) b v))
  | .scr u o => s.updBlock u (fun b => { b with scr := b.scr.put o v })
  | .acc w i b => s.updWarp w (fun x => x.setAccByte i b v)
  | .slot w j o => s.updWarp w (fun x => x.setSlotByte j o v)
  | .reserved => s
  | .spare c o => s.updCore c (fun k => { k with spare := k.spare.put o v })

/-- Writes a byte of the on-chip map. -/
def State.setChip (s : State) (a : Nat) (v : Byte) : State := s.setStore (s.chipAt a) v

/-- Writes bytes of the on-chip map; a sector of scratch covered whole loses its poison (10 R211). -/
def State.writeChip (s : State) (a : Nat) (bs : List Byte) : State :=
  let t := ((List.range bs.length).zip bs).foldl (fun s e => s.setChip (a + e.1) e.2) s
  (List.range (bs.length / 32 + 1)).foldl (fun s i =>
    let q := a / 32 + i
    if sectorsWhole a bs.length q then
      match s.chipAt (32 * q) with
      | .scr u o => s.updBlock u (fun b => { b with scrPoison := b.scrPoison.filter (fun p => p != o / 32) })
      | _ => s
    else s) t

/-- A byte of the on-chip map is poisoned. -/
def State.chipPoisoned (s : State) (a : Nat) : Bool :=
  match s.chipAt a with
  | .reg w r _ _ => (s.warp w).vPoison.contains r
  | .scr u o => (s.block u).scrPoison.contains (o / 32)
  | .acc w i _ => (s.warp w).accPoison.contains (i / 256)
  | .slot w j _ => (s.warp w).wPoison.contains j
  | _ => false

/-- Units chosen out of the free ones: which of them a grant takes is left open (02 R35, 12 R234, log 10). -/
def pickUnits (k n : Nat) (free : List Nat) : List Nat :=
  match n with
  | 0 => []
  | n + 1 =>
    match free with
    | [] => []
    | _ =>
      let u := free.getD (Config.freeNat k n % free.length) 0
      u :: pickUnits k n (free.filter (fun v => v != u))

/-- Units of a quarter, or of the core's scratch, that no warp or block holds. -/
def freeUnits (total : Nat) (used : List Nat) : List Nat := (List.range total).filter (fun u => !used.contains u)

/-- Free register units of a quarter. -/
def State.freeRegUnits (s : State) (core q : Nat) : List Nat :=
  freeUnits 256 ((s.warps.filter (fun e => e.2.core = core && e.2.quarter = q)).flatMap (fun e => e.2.regUnits))
/-- Free accumulator units of a quarter. -/
def State.freeAccUnits (s : State) (core q : Nat) : List Nat :=
  freeUnits 16 ((s.warps.filter (fun e => e.2.core = core && e.2.quarter = q)).flatMap (fun e => e.2.accUnits))
/-- Free scratch units of a core. -/
def State.freeScrUnits (s : State) (core : Nat) : List Nat :=
  freeUnits 128 ((s.blocks.filter (fun e => e.2.core = core)).flatMap (fun e => e.2.scrUnits))

/-- The bytes of a run; a peer's are free (02 R34). -/
def State.readRun (s : State) (k : Nat) (p : Place) (n : Nat) : List Byte :=
  match p with
  | .phys a => memReadList s.mem a n
  | .peer d a => (List.range n).map (fun i => Config.freeByte k (a + i + 2 ^ 52 * d))
  | .onChip a => (List.range n).map (fun i => s.chipByte (a + i))

/-- The bytes of an element. -/
def State.readTarget (s : State) (k : Nat) (t : Target) : List Byte :=
  match t with
  | .glob rs => rs.flatMap (fun e => s.readRun k e.1 e.2)
  | .scr u o n => (s.block u).scrRead o n

/-- Whether an element touches poison. -/
def State.poisonedTarget (s : State) (t : Target) : Bool :=
  match t with
  | .glob rs => rs.any (fun e => match e.1 with
      | .phys a => s.poison.any (sectorTouched a e.2)
      | .onChip a => (List.range e.2).any (fun i => s.chipPoisoned (a + i))
      | .peer .. => false)
  | .scr u o n => (s.block u).scrPoisoned o n

/-- Writes bytes of physical memory. What they replace stays with the grids launched before the write, which may still
fetch it (04 R92), and with the partition that holds the bytes, whose walks may still see it (21 R359). -/
def State.writePhys (s : State) (a : Nat) (bs : List Byte) : State :=
  let olds := overwritten s.mem a bs
  let mine (p : Part) : List (Nat × Byte) := olds.filter (fun e => shareHolds p.share e.1 1)
  { s with
    mem := memWriteList s.mem a bs,
    poison := s.poison.filter (fun q => !sectorsWhole a bs.length q),
    grids := s.grids.mapVal (fun _ g => { g with code := keepOld g.code (mine (s.part g.part)) }),
    parts := s.parts.mapVal (fun _ p => { p with tables := keepOld p.tables (mine p) }) }

/-- Writes bytes over runs: physical memory, a peer (an output), or the on-chip map. -/
def State.writeRuns (s : State) (rs : List (Place × Nat)) (bs : List Byte) : State :=
  match rs with
  | [] => s
  | (p, n) :: t =>
    let s1 := match p with
      | .phys a => s.writePhys a (bs.take n)
      | .peer d a => { s with outputs := s.outputs ++ [Output.peerStore d (BitVec.ofNat 64 a) (bs.take n)] }
      | .onChip a => s.writeChip a (bs.take n)
    s1.writeRuns t (bs.drop n)

/-- Writes the bytes of an element. -/
def State.writeTarget (s : State) (t : Target) (bs : List Byte) : State :=
  match t with
  | .glob rs => s.writeRuns rs bs
  | .scr u o _ => s.updBlock u (fun b => b.scrWrite o bs)

/-- Physical ranges that targets cover, for poison cleared by several elements together (10 R211). -/
def physRanges (ts : List Target) : List (Nat × Nat) :=
  ts.flatMap (fun t => match t with
    | .glob rs => rs.filterMap (fun e => match e.1 with | .phys a => some (a, e.2) | _ => none)
    | .scr .. => [])

/-- Whether ranges together cover a sector. -/
def coveredBy (rs : List (Nat × Nat)) (q : Nat) : Bool :=
  (List.range 32).all (fun i => rs.any (fun r => decide (r.1 ≤ 32 * q + i) && decide (32 * q + i < r.1 + r.2)))

/-- A store of several elements clears the poison of sectors it covers whole (10 R211). -/
def State.clearPoison (s : State) (ts : List Target) : State :=
  let s1 := if s.poison.isEmpty then s else
    let rs := physRanges ts
    { s with poison := s.poison.filter (fun q => !coveredBy rs q) }
  (ts.filterMap (fun t => match t with | .scr u _ _ => some u | _ => none)).eraseDups.foldl (fun s u =>
    let rs := ts.filterMap (fun t => match t with | .scr u' o n => if u' = u then some (o, n) else none | _ => none)
    if (s.block u).scrPoison.isEmpty then s
    else s.updBlock u (fun b => { b with scrPoison := b.scrPoison.filter (fun q => !coveredBy rs q) })) s1

/-- A peer read leaves the device (22 R377). -/
def State.notePeerReads (s : State) (ts : List Target) : State :=
  ts.foldl (fun s t => match t with
    | .glob rs => rs.foldl (fun s e => match e.1 with
        | .peer d a => { s with outputs := s.outputs ++ [Output.peerLoad d (BitVec.ofNat 64 a) e.2] }
        | _ => s) s
    | .scr .. => s) s

end Sys2Proof.Machine
end

