-- ==== Sys2Proof/Machine/Past.lean ====
section
/-! DEFINITION. Races and synchronisation (02 R38, R41, R43 to R59): the writes that an agent need not have seen yet, the reads
that choose among them, the place that a racing write takes in the coherence order (R44), the releases that values carry, and
what an acquire, a fence, a wait or RJOIN then orders (R47 to R52). What is left out is in log 6. -/

namespace Sys2Proof.Machine

/-- An agent of memory (02 R37): its key among agents, the lanes of a warp's path, the memory scope of its access, its block
and flock; the lane that an access is for, which chooses for itself; and whether its elements are of 4 bytes (14 R257). -/
structure Agent where
  key : Nat
  lanes : Mask
  scope : Nat
  blk : Nat
  flock : Nat
  lane : Nat
  words : Bool
  deriving DecidableEq, Repr

/-- The key of an engine's or matrix unit's operation among agents; a warp's is its own number. -/
def workKey (id : Nat) : Nat := 65536 + 4 * id
/-- The key under which a grid keeps what is ordered before the blocks that it has still to place. -/
def gridKey (g : Nat) : Nat := 65536 + 4 * g + 1
/-- The key under which a TCB keeps what is ordered before its grid. -/
def tcbKey (part job i : Nat) : Nat := 65536 + 4 * ((part * 2 ^ 32 + job) * 2 ^ 32 + i) + 2
/-- The key of a partition's dispatcher and pager. -/
def deviceKey (part : Nat) : Nat := 65536 + 4 * part + 3
/-- A flock that no warp is of. -/
def noFlock : Nat := 4096

/-- A path of a warp as an agent, at a memory scope (02 R37, R43). -/
def State.path (s : State) (w : Nat) (lanes : Mask) (scope : Nat) : Agent :=
  ⟨w, lanes, scope, (s.warp w).blk, s.flockIdOf w, 0, false⟩

/-- An engine's operation as an agent (02 R37): what it reads and writes, at the scope that its destinations need (R50, 14
R268); a lane copy whose source is aligned is atomic by 4 bytes (14 R257). -/
def EngOp.agent (o : EngOp) (id : Nat) : Agent :=
  let scope := match o.kind with
    | .tile 3 _ => 3
    | .tile 5 _ => 5
    | .smerge => 3
    | _ => 2
  let words := match o.kind with
    | .lane _ src _ _ _ _ => src.toNat % 4 = 0
    | _ => false
  ⟨workKey id, 1, scope, o.blk, noFlock, 0, words⟩

/-- A matrix operation as an agent (02 R37). -/
def State.unitAgent (s : State) (w id : Nat) : Agent := ⟨workKey id, 1, 2, (s.warp w).blk, noFlock, 0, false⟩

/-- A partition's dispatcher or pager as an agent, of no block, which acts at device scope. -/
def deviceAgent (part : Nat) : Agent := ⟨deviceKey part, 1, 4, 2 ^ 64, noFlock, 0, true⟩
/-- The dispatcher as it acts for a grid, or for a TCB, under its key (19 R349). -/
def agentFor (part key : Nat) : Agent := { deviceAgent part with key := key }

/-! Bytes and units. -/

/-- The key of a byte of memory. -/
def memKey (a : Nat) : Nat := 2 * a
/-- The key of a byte of scratch. -/
def scrKey (u o : Nat) : Nat := 2 * (u * 2 ^ 20 + o) + 1

/-- The key of a byte of the on-chip map: that of the scratch that it names (02 R36). -/
def State.chipKey (s : State) (a : Nat) : Option Nat :=
  match s.chipAt a with
  | .scr u o => some (scrKey u o)
  | _ => none

/-- The keys of an element's bytes; a peer's bytes and other on-chip storage have none. -/
def State.keysOf (s : State) (t : Target) : List (Option Nat) :=
  match t with
  | .glob rs => rs.flatMap (fun e => match e.1 with
      | .phys a => (List.range e.2).map (fun i => some (memKey (a + i)))
      | .onChip a => (List.range e.2).map (fun i => s.chipKey (a + i))
      | .peer .. => List.replicate e.2 none)
  | .scr u o n => (List.range n).map (fun i => some (scrKey u (o + i)))

/-- An element's address, for its alignment. -/
def Target.start (t : Target) : Nat :=
  match t with
  | .glob ((.phys a, _) :: _) => a
  | .glob ((.peer _ a, _) :: _) => a
  | .glob ((.onChip a, _) :: _) => a
  | .glob [] => 0
  | .scr _ o _ => o

/-- Single-copy units of an access, by their lengths (02 R46); those of a longer transfer are its elements of 4 bytes
(14 R257, 17 R315). -/
def unitLens (words : Bool) (a n : Nat) : List Nat :=
  if !words && a % n = 0 && (n = 2 || n = 4 || n = 8) then [n]
  else if a % 4 = 0 && (words || (a % n = 0 && (n = 16 || n = 32)) || (decide (32 < n) && n % 4 = 0)) then
    List.replicate (n / 4) 4 ++ List.replicate (n % 4) 1
  else List.replicate n 1

/-- A list cut into pieces of given lengths. -/
def pieces {β : Type} (ns : List Nat) (l : List β) : List (List β) :=
  match ns with
  | [] => []
  | n :: t => l.take n :: pieces t (l.drop n)

/-! Scopes (02 R38). -/

/-- The agent of an access as scopes see it, with the members of its fold where the scope is the fold's. -/
def State.origin (s : State) (g : Agent) : Origin :=
  ⟨g.key, g.scope, g.blk, g.flock, if g.scope = 3 then (s.foldMembers g.blk).map (fun m => m.2) else []⟩

/-- Whether an access's scope takes in an agent. -/
def Origin.takesIn (o : Origin) (key blk flock : Nat) : Bool :=
  match o.scope with
  | 0 => key = o.key && blk = o.blk
  | 1 => blk = o.blk && flock = o.flock
  | 2 => blk = o.blk
  | 3 => blk = o.blk || o.reach.contains blk
  | _ => true

/-- Whether the scopes of two accesses take each other's agents in (02 R45, R48). -/
def State.mutual (s : State) (g : Agent) (o : Origin) : Bool :=
  (s.origin g).takesIn o.key o.blk o.flock && o.takesIn g.key g.blk g.flock

/-! What a write is to an agent. -/

/-- Lanes of an agent in a table of agents. -/
def masksAt (l : List (Nat × Mask)) (key : Nat) : Mask := (AMap.find l key).getD 0

/-- Adds lanes of an agent to a table. -/
def addMask (l : List (Nat × Mask)) (key : Nat) (m : Mask) : List (Nat × Mask) :=
  match l with
  | [] => [(key, m)]
  | e :: t => if e.1 = key then (key, e.2 ||| m) :: t else e :: addMask t key m

/-- Takes lanes of an agent out of a table. -/
def dropMask (l : List (Nat × Mask)) (key : Nat) (m : Mask) : List (Nat × Mask) :=
  l.filterMap (fun e => if e.1 = key then (if e.2 &&& ~~~m == 0 then none else some (key, e.2 &&& ~~~m)) else some e)

/-- An agent may still read what was there before a write. -/
def Past.unreadBy (r : Past) (g : Agent) : Bool := masksAt r.unread g.key &&& g.lanes != 0

/-- A write happens before what an agent does next (02 R47). -/
def Past.knownBy (r : Past) (g : Agent) : Bool := masksAt r.known g.key &&& g.lanes != 0

/-- An agent sees a write, so that it reads nothing older from now on (02 R41). -/
def Past.seen (r : Past) (key : Nat) (lanes : Mask) : Past := { r with unread := dropMask r.unread key lanes }

/-- A write happens before what an agent does from now on (02 R44, R47). -/
def Past.learned (r : Past) (key : Nat) (lanes : Mask) : Past :=
  { r with unread := dropMask r.unread key lanes, known := addMask r.known key lanes }

/-- Whether a release orders a write: it happened before the release, or it is the element that the release wrote (02 R48). -/
def Past.carries (r : Past) (m : Msg) : Bool :=
  r.sent.contains m || (match m with
    | .access st ag (_ + 1) => r.sent.contains (.access st ag 0)
    | _ => false)

/-- Whether an access may still act before a write: the agent has not seen it, and it is not one whose scope and the access's
take each other's agent in, and whose time to become visible is over (02 R45). -/
def State.mayMiss (s : State) (g : Agent) (r : Past) : Bool :=
  r.unreadBy g && (r.patience != 0 || !s.mutual g r.origin)

/-! What is kept. -/

/-- The writes kept of a byte, newest first. -/
def State.pastAt (s : State) (q : Option Nat) : List Past :=
  match q with
  | some q => (s.past.find q).getD []
  | none => []

/-- Forgets the writes to each aligned 8 bytes of which no agent misses any. -/
def prunePast (m : AMap (List Past)) : AMap (List Past) :=
  List.flatten ((List.splitBy (fun a b => a.1 / 16 == b.1 / 16) m).filter (fun g =>
    g.any (fun e => e.2.any (fun r => !r.unread.isEmpty))))

/-- What is kept of every write, through a function. -/
def State.mapPast (s : State) (f : Past → Past) : State :=
  if s.past.isEmpty then s else { s with past := prunePast (s.past.mapVal (fun _ rs => rs.map f)) }

/-- Some write kept is ordered by a release. -/
def State.carried (s : State) (m : Msg) : Bool := s.past.any (fun e => e.2.any (fun r => r.carries m))

/-- Some agents' lanes come to know some of the writes. -/
def State.tell (s : State) (p : Past → Bool) (to' : List (Nat × Mask)) : State :=
  s.mapPast (fun r => if p r then to'.foldl (fun q e => q.learned e.1 e.2) r else r)

/-- A path of a warp comes to know some of the writes. -/
def State.learn (s : State) (w : Nat) (lanes : Mask) (p : Past → Bool) : State := s.tell p [(w, lanes)]

/-- A release by an agent: what it knows is ordered before whoever acquires (02 R48). -/
def State.publish (s : State) (g : Agent) (m : Msg) : State :=
  s.mapPast (fun r => if r.knownBy g then { r with sent := r.sent ++ [m] } else r)

/-! Reads. -/

/-- How many of a byte's writes an access misses that sees a set of writes. -/
def missedBy (ids : List WriteId) (rs : List Past) : Nat := (rs.takeWhile (fun r => !ids.contains r.id)).length

/-- What an access sees beside a set of writes: whatever is older at some byte (02 R44); for a write, also an atomic step that
it would otherwise part from the value that the step read (10 R219). -/
def spreadSeen (wr : Bool) (rss : List (List Past)) (ids : List WriteId) : List WriteId :=
  (ids ++ rss.flatMap (fun rs =>
    let n := missedBy ids rs
    (rs.drop n).map (fun (r : Past) => r.id) ++ (match (rs.take n).getLast? with
      | some r => if wr && r.rmw then [r.id] else []
      | none => []))).eraseDups

/-- All that an access then sees. -/
def closeSeen (wr : Bool) (rss : List (List Past)) (fuel : Nat) (ids : List WriteId) : List WriteId :=
  match fuel with
  | 0 => ids
  | n + 1 => closeSeen wr rss n (spreadSeen wr rss ids)

/-- How many of the newest writes an access to a single-copy unit misses at each byte: it sees those that it must, and of the
others those that it happens to, each at all of the unit's bytes or at none (02 R46, R53). -/
def State.cuts (s : State) (g : Agent) (k : Nat) (wr : Bool) (qs : List (Option Nat)) : List Nat :=
  let rss := qs.map s.pastAt
  if rss.all (fun rs => rs.isEmpty) then rss.map (fun _ => 0)
  else
    let must := rss.flatMap (fun rs => (rs.dropWhile (s.mayMiss g)).map (fun (r : Past) => r.id))
    let may := (rss.flatMap (fun rs => (rs.takeWhile (s.mayMiss g)).map (fun (r : Past) => r.id))).eraseDups
    let base := ((qs.filterMap id).head?).getD 0
    let picked := ((List.range may.length).zip may).filterMap (fun e =>
      if Config.freeBit k (((g.key * 32 + g.lane) * 1024 + e.1) * 2 ^ 80 + base) then some e.2 else none)
    let ids := closeSeen wr rss (rss.foldl (fun n rs => n + rs.length) 0) (must ++ picked)
    rss.map (missedBy ids)

/-- A byte as a read sees it that misses its `n` newest writes. -/
def State.byteAt (s : State) (n : Nat) (q : Option Nat) (b : Byte) : Byte :=
  match ((s.pastAt q).take n).getLast? with
  | some r => r.old
  | none => b

/-- The releases that this value of the byte carries (02 R48). -/
def State.relsAt (s : State) (n : Nat) (q : Option Nat) : List Rel :=
  match ((s.pastAt q).take n).getLast? with
  | some r => r.oldRels
  | none => (q.bind (fun q => s.sync.rels.find q)).getD []

/-- The single-copy units of an agent's access to an element, each by the keys of its bytes. -/
def State.elementUnits (s : State) (g : Agent) (t : Target) : List (List (Option Nat)) :=
  let qs := s.keysOf t
  pieces (unitLens g.words t.start qs.length) qs

/-- The keys of an element's bytes, each with the newest writes that an access misses there. -/
def State.cutKeys (s : State) (g : Agent) (k : Nat) (wr : Bool) (t : Target) : List (Nat × Option Nat) :=
  (s.elementUnits g t).flatMap (fun qs => (s.cuts g k wr qs).zip qs)

/-- The bytes of an element as an agent reads them: of each single-copy unit the value of one write, or the initial value
(02 R53); before a write of its own, `wr`, the value that this write follows. -/
def State.seeAt (s : State) (g : Agent) (k : Nat) (wr : Bool) (t : Target) : List Byte :=
  let bs := s.readTarget k t
  if s.past.isEmpty then bs
  else ((s.cutKeys g k wr t).zip bs).map (fun e => s.byteAt e.1.1 e.1.2 e.2)

/-- The bytes of an element as an agent reads them. -/
def State.see (s : State) (g : Agent) (k : Nat) (t : Target) : List Byte := s.seeAt g k false t

/-- The releases that an agent's read of an element reads (02 R48). -/
def State.relsRead (s : State) (g : Agent) (k : Nat) (wr : Bool) (t : Target) : List Rel :=
  if s.past.isEmpty then []
  else (((s.cutKeys g k wr t).flatMap (fun e => s.relsAt e.1 e.2)).eraseDups).filter (fun r => s.carried r.msg)

/-- Marks what a read of a byte has seen, of the writes that it found: all but the `n` newest; each that it missed although the
scopes take both agents in has the less time left to become visible (02 R41, R45). -/
def markSeen (s : State) (g : Agent) (n : Nat) (rs : List Past) : List Past :=
  (rs.take n).map (fun r => if s.mutual g r.origin then { r with patience := r.patience - 1 } else r)
    ++ (rs.drop n).map (fun r => r.seen g.key g.lanes)

/-- The state `t` after an agent's read of bytes as they stood in `s`, of each of which it missed the newest writes. -/
def State.marked (t s : State) (g : Agent) (cs : List (Nat × Option Nat)) : State :=
  { t with past := prunePast (cs.foldl (fun (m : AMap (List Past)) c =>
    match c.2 with
    | some q =>
      match m.find q with
      | some rs => m.put q (markSeen s g c.1 rs)
      | none => m
    | none => m) t.past) }

/-- The state `t` after an agent's read of an element as it stood in `s`: no later read of its path returns an older value
(02 R41). -/
def State.sawFrom (t s : State) (g : Agent) (k : Nat) (e : Target) : State :=
  if s.past.isEmpty then t else t.marked s g (s.cutKeys g k false e)

/-- The state after an agent's read of an element. -/
def State.saw (s : State) (g : Agent) (k : Nat) (e : Target) : State := s.sawFrom s g k e

/-! Writes. -/

/-- How a write takes its place: after the newest write of the byte, or among those that race with it; as a step of an atomic,
whose value carries on the releases of the value that it read; as a release; as an engine's arrival (02 R44, R48, R56). -/
structure Put where
  newest : Bool
  rmw : Bool
  release : Bool
  always : Bool
  deriving DecidableEq, Repr

/-- A store, and one that releases. -/
def Put.store (release : Bool) : Put := ⟨false, false, release, false⟩
/-- An atomic, and one that releases. -/
def Put.atomic (release : Bool) : Put := ⟨false, true, release, false⟩
/-- A change to an object that is read where it is newest and changed in one step: a barrier object, a node. -/
def Put.step (release : Bool) : Put := ⟨true, true, release, false⟩
/-- An engine's arrival at a barrier object (02 R56). -/
def Put.arrival : Put := ⟨true, true, true, true⟩
/-- What an object's first contents are written as. -/
def Put.init : Put := ⟨true, false, false, false⟩

/-- The agents that need not have seen a write that an agent makes now: every lane of another warp, the lanes of its own warp
on other paths, the operations in flight, and the blocks that grids have still to place. Scratch concerns its block, and the
blocks of its grid, which may be members of its fold; firmware reaches all (02 R33, R35). -/
def State.missing (s : State) (g : Agent) (scr : Option Nat) : List (Nat × Mask) :=
  let wide := g.key < 65536 && (s.warp g.key).fw
  let home := s.block (scr.getD g.blk)
  let all := wide || (s.blocks.find (scr.getD g.blk)).isNone
  let near (b : Nat) : Bool :=
    all || (let c := s.block b
      c.part = home.part && (match scr with
        | some u => b = u || c.grid = home.grid
        | none => true))
  let busy (ids : List Nat) : List (Nat × Mask) :=
    (ids.filter (fun i => workKey i != g.key)).map (fun i => (workKey i, 1))
  s.warps.filterMap (fun e =>
      let lanes := if e.1 = g.key then e.2.live &&& ~~~g.lanes else e.2.live
      if lanes == 0 || !(e.2.fw || near e.2.blk) then none else some (e.1, lanes))
    ++ busy ((s.ops.filter (fun e => near e.2.blk)).map (fun e => e.1))
    ++ s.warps.flatMap (fun e =>
      if near e.2.blk then busy ((e.2.matrix.filter (fun o => !o.done)).map (fun o => o.id)) else [])
    ++ (s.grids.filter (fun e => (all || (e.2.part = home.part && (scr.isNone || e.1 = home.grid)))
        && (decide (e.2.next < e.2.lrec.gx * e.2.lrec.gy * e.2.lrec.gz) || !e.2.restarts.isEmpty))).map
        (fun e => (gridKey e.1, 1))

/-- The agents that a write to an element may escape. -/
def State.missingAt (s : State) (g : Agent) (t : Target) : List (Nat × Mask) :=
  s.missing g (match t with
    | .scr u _ _ => some u
    | .glob ((.onChip a, _) :: _) => (match s.chipAt a with | .scr u _ => some u | _ => none)
    | .glob _ => none)

/-- The releases that a path's earlier release fences put on its writes (02 R51). -/
def State.fenceRels (s : State) (g : Agent) : List Rel :=
  (s.sync.fences.filter (fun f => f.1 = g.key && f.2.1 &&& g.lanes != 0 && s.carried f.2.2.msg)).map (fun f => f.2.2)

/-- The releases that a value carries which an agent writes to an element: its own by the write's order, those of its fences,
and with each the element itself; after those of the value that an atomic has read (02 R48, R51). -/
def State.relsPut (s : State) (g : Agent) (p : Put) (elem : Nat) (chain : List Rel) : List Rel :=
  let own : Msg := .access s.freeCtr g.key (elem + 1)
  let fs := s.fenceRels g
  (if p.rmw then chain.filter (fun r => s.carried r.msg) else [])
    ++ fs ++ (fs.map (fun r => r.origin)).eraseDups.map (fun o => ⟨own, o, false⟩)
    ++ (if p.release then [⟨own, s.origin g, p.always⟩] else [])

/-- A byte written below its `n` newest writes: what is kept of it, the byte as it then stands, and the releases that it then
carries (02 R44). -/
def insertWrite (r : Past) (n : Nat) (cur new : Byte) (curRels newRels : List Rel) (rs : List Past) :
    List Past × Byte × List Rel :=
  match (rs.take n).getLast? with
  | none => ({ r with old := cur, oldRels := curRels } :: rs, new, newRels)
  | some l =>
    ((rs.take n).dropLast ++ [{ l with old := new, oldRels := newRels }]
      ++ { r with old := l.old, oldRels := l.oldRels } :: rs.drop n, cur, curRels)

/-- What is kept of the writes, the releases of present values, and the bytes of an element as they then stand, in turn. -/
structure Placing where
  past : AMap (List Past)
  rels : AMap (List Rel)
  bytes : List Byte

/-- One byte of an agent's write takes its place below the `n` newest. -/
def Placing.byte (a : Placing) (s : State) (g : Agent) (p : Put) (elem : Nat) (r : Past) (n : Nat) (q : Option Nat)
    (cur new : Byte) : Placing :=
  match q with
  | none => { a with bytes := a.bytes ++ [new] }
  | some q =>
    let (rs, b, rel) := insertWrite r n cur new ((a.rels.find q).getD [])
      (s.relsPut g p elem (s.relsAt n (some q))) ((a.past.find q).getD [])
    ⟨a.past.put q rs, if rel.isEmpty then a.rels.drop q else a.rels.put q rel, a.bytes ++ [b]⟩

/-- The bytes of an element take their places among the writes that race with them, unit by unit (02 R44, R46, R53). -/
def State.coherent (s : State) (g : Agent) (k : Nat) (p : Put) (ms : List (Nat × Mask)) (t : Target) (bs : List Byte) :
    Placing :=
  let qs := s.keysOf t
  let elem := ((qs.filterMap id).head?).getD 0
  (pieces (unitLens g.words t.start bs.length) (qs.zip ((s.readTarget k t).zip bs))).foldl (fun acc u =>
    let keys := u.map (fun e => e.1)
    let ns := if p.newest then keys.map (fun _ => 0) else s.cuts g k true keys
    let unit := ((keys.filterMap id).head?).getD 0
    let mine := ((s.pastAt (some unit)).filter (fun r => r.id.step = s.freeCtr && r.id.agent = g.key)).length
    let r : Past := ⟨⟨s.freeCtr, g.key, unit, mine⟩, 0, [], s.origin g, p.rmw,
      Config.freeNat k (g.key * 2 ^ 80 + unit), ms, [(g.key, g.lanes)], [.access s.freeCtr g.key (elem + 1)]⟩
    (ns.zip u).foldl (fun acc e => acc.byte s g p elem r e.1 e.2.1 e.2.2.1 e.2.2.2) acc) ⟨s.past, s.sync.rels, []⟩

/-- An agent writes an element. -/
def State.putBy (s : State) (g : Agent) (k : Nat) (p : Put) (t : Target) (bs : List Byte) : State :=
  if s.past.isEmpty && (s.missingAt g t).isEmpty then s.writeTarget t bs
  else
    let c := s.coherent g k p (s.missingAt g t) t bs
    { s with past := prunePast c.past, sync := { s.sync with rels := c.rels } }.writeTarget t c.bytes

/-- The writes of an agent in a step have been performed: every access whose scope and theirs take each other's agents in sees
them from now on (10 R212, 16 R301). -/
def State.performed (s : State) (step agent : Nat) : State :=
  s.mapPast (fun r => if r.id.step = step && r.id.agent = agent then { r with patience := 0 } else r)

/-- A write from outside the device, or of the device's own records: every agent sees it from now on (log 6). -/
def State.putNow (s : State) (t : Target) (bs : List Byte) : State :=
  let qs := if s.past.isEmpty then [] else (s.keysOf t).filterMap id
  { s with past := List.filter (fun e => !qs.contains e.1) s.past, sync := { s.sync with
      rels := List.filter (fun e => !qs.contains e.1) s.sync.rels } }.writeTarget t bs

/-! Acquires, fences and waits. -/

/-- Whether an acquire by an agent synchronises with a release (02 R48); with an engine's arrival, always (R56). -/
def State.syncs (s : State) (g : Agent) (r : Rel) : Bool := r.always || s.mutual g r.origin

/-- What an agent makes of releases that it has read: those that synchronise with an acquire order their writes before it;
all stay for a later acquire fence of its path (02 R48, R51). -/
def State.hear (s : State) (g : Agent) (acq : Bool) (rels : List Rel) : State :=
  if rels.isEmpty then s
  else
    let t := { s with sync := { s.sync with
      heard := s.sync.heard.filter (fun h => s.carried h.2.2.msg) ++ rels.map (fun r => (g.key, g.lanes, r)) } }
    if acq then
      let rs := rels.filter (s.syncs g)
      t.tell (fun r => rs.any (fun e => r.carries e.msg)) [(g.key, g.lanes)]
    else t

/-- An agent's read of an element, with what follows from it: the read is seen, and its releases are heard. -/
def State.readBy (t s : State) (g : Agent) (k : Nat) (acq : Bool) (e : Target) : State :=
  (t.sawFrom s g k e).hear g acq (s.relsRead g k false e)

/-- An agent's read of an object that stands where it is newest, with what follows from it. -/
def State.readNewest (s : State) (g : Agent) (acq : Bool) (e : Target) : State :=
  if s.past.isEmpty then s
  else
    let cs := (s.keysOf e).map (fun q => (0, q))
    (s.marked s g cs).hear g acq
      (((cs.flatMap (fun c => s.relsAt 0 c.2)).eraseDups).filter (fun r => s.carried r.msg))

/-- A release by an agent, of which each element that it writes then tells (02 R48). -/
def State.releaseBy (s : State) (g : Agent) : State := s.publish g (.access s.freeCtr g.key 0)

/-- FENCE by a path, by its kind (02 R51): 1 acquire, 2 release, 3 both. -/
def State.fence (s : State) (g : Agent) (kind : Nat) : State :=
  if s.past.isEmpty then s
  else
    let mine := s.sync.heard.filter (fun h => h.1 = g.key && h.2.1 &&& g.lanes != 0 && s.syncs g h.2.2)
    let s1 := if kind = 2 then s
      else s.tell (fun r => mine.any (fun h => r.carries h.2.2.msg)) [(g.key, g.lanes)]
    let before := s.sync.order.filter (fun r => s.mutual g r.origin)
    let s2 := if kind = 3 then
        s1.mapPast (fun r => if before.any (fun e => r.carries e.msg) then r.seen g.key g.lanes else r)
      else s1
    let own : Rel := ⟨.access s.freeCtr g.key 0, s.origin g, false⟩
    let s3 := if kind = 1 then s2
      else { s2.releaseBy g with sync := { s2.sync with fences := s2.sync.fences ++ [(g.key, g.lanes, own)] } }
    if kind = 3 then
      let m : Msg := .fence s.freeCtr g.key
      State.mapPast { s3 with sync := { s3.sync with order := s3.sync.order ++ [(⟨m, s.origin g, false⟩ : Rel)] } } (fun r =>
        if r.id.agent = g.key && r.knownBy g then { r with sent := r.sent ++ [m] } else r)
    else s3

/-- What a wait makes known of its engine's work (02 R50, R55, R57, R58). -/
def State.learnAll (s : State) (a : Actor) (p : Nat → Past → Bool) : State :=
  if s.past.isEmpty then s
  else (s.liveMembers a).foldl (fun s m => s.learn m.w m.act (p m.w)) s

/-- What the operations of a timeline numbered `n` or below ordered before their completion (02 R50, R54, R55). -/
def ofTimeline (blk tl : Nat) (n : Word) (r : Past) : Bool :=
  r.sent.any (fun m => match m with
    | .work b t i => b = blk && t = tl && decide ((n - BitVec.ofNat 32 i).toNat < 2 ^ 31)
    | _ => false)

/-- RJOIN: what some path of the lanes that reconverge has seen or knows, has heard or fenced, all of them have (02 R43). -/
def State.reconverge (s : State) (w : Nat) (m : Mask) : State :=
  let wide (l : List (Nat × Mask × Rel)) : List (Nat × Mask × Rel) :=
    l.map (fun h => if h.1 = w && h.2.1 &&& m != 0 then (h.1, h.2.1 ||| m, h.2.2) else h)
  if s.past.isEmpty then s
  else
    { s with sync := { s.sync with heard := wide s.sync.heard, fences := wide s.sync.fences } }.mapPast (fun r =>
      let r1 := if masksAt r.unread w &&& m == m then r else r.seen w m
      if masksAt r.known w &&& m == 0 then r1 else r1.learned w m)

/-- Some of the writes happen before all that a new agent does, which may miss the rest (02 R54, 19 R349). -/
def State.adoptOf (s : State) (p : Past → Bool) (key : Nat) : State :=
  s.mapPast (fun r => if p r then r.learned key 1 else { r with unread := addMask r.unread key 1 })

/-- What an agent knows happens before all that another does, which may miss the rest. -/
def State.adopt (s : State) (g : Agent) (key : Nat) : State := s.adoptOf (fun r => r.knownBy g) key

/-- A block's warp, by its key, may miss and knows what its grid kept for the blocks to come (19 R325, R349). -/
def State.inherit (s : State) (grid w : Nat) : State :=
  s.mapPast (fun r =>
    let r1 := if masksAt r.unread (gridKey grid) == 0 then r else { r with unread := addMask r.unread w 0xFFFFFFFF }
    if masksAt r.known (gridKey grid) == 0 then r1 else { r1 with known := addMask r1.known w 0xFFFFFFFF })

/-- An agent is gone. -/
def State.forget (s : State) (key : Nat) : State := s.mapPast (fun r => r.seen key 0xFFFFFFFF)

/-- The bytes of a block's scratch from an offset up. -/
def scrFrom (u off q : Nat) : Bool := q % 2 = 1 && q / 2 / 2 ^ 20 = u && decide (off ≤ q / 2 % 2 ^ 20)

/-- Bytes of scratch from an offset up are released: nothing is kept of them (02 R50, 12 R235). -/
def State.dropScratch (s : State) (u off : Nat) : State :=
  let past : AMap (List Past) := List.filter (fun e => !scrFrom u off e.1) s.past
  let rels : AMap (List Rel) := List.filter (fun e => !scrFrom u off e.1) s.sync.rels
  { s with past := past, sync := { s.sync with rels := rels } }

/-- The agents of a block. -/
def State.agentsOf (s : State) (u : Nat) : List Nat :=
  s.warps.keysWhere (fun _ x => x.blk = u)
    ++ (s.ops.keysWhere (fun _ o => o.blk = u)).map workKey
    ++ (s.warps.filter (fun e => e.2.blk = u)).flatMap (fun e => e.2.matrix.map (fun o => workKey o.id))

/-- A block leaves: its grid's completion releases what its agents have done and known (02 R50), nothing is kept of its
scratch, and its warps' numbers name others from now on. -/
def State.blockGone (s : State) (u : Nat) : State :=
  if s.past.isEmpty then s
  else
    let keys := s.agentsOf u
    let sent : Msg := .grid (s.block u).grid
    { s.dropScratch u 0 with sync := { (s.dropScratch u 0).sync with
        heard := s.sync.heard.filter (fun h => !keys.contains h.1),
        fences := s.sync.fences.filter (fun h => !keys.contains h.1) } }.mapPast (fun r =>
      let mine := r.origin.blk = u || keys.any (fun k => masksAt r.known k != 0)
      { r with
        unread := r.unread.filter (fun e => !keys.contains e.1),
        known := r.known.filter (fun e => !keys.contains e.1),
        sent := if mine && !r.sent.contains sent then r.sent ++ [sent] else r.sent })

/-- What a grid has released before its completion. -/
def ofGrid (g : Nat) (r : Past) : Bool := r.sent.contains (.grid g)

/-- What any grid has released before its completion. -/
def ofGrids (r : Past) : Bool := r.sent.any (fun m => match m with | .grid _ => true | _ => false)

/-! Objects of the KV unit (17 R307). -/

/-- The key of an object that KV steps acquire and release, by its first byte. -/
def objectKey (a : Nat) : Nat := 2 ^ 70 + memKey a

/-- A KV step acquires its objects at device scope. -/
def State.kvEnter (s : State) (g : Agent) (objs : List Nat) : State :=
  if s.past.isEmpty then s
  else s.hear { g with scope := 4 } true
    ((objs.flatMap (fun o => (s.sync.rels.find (objectKey o)).getD [])).eraseDups.filter (fun r => s.carried r.msg))

/-- A KV step releases its objects at device scope. -/
def State.kvLeave (s : State) (g : Agent) (objs : List Nat) : State :=
  if s.past.isEmpty then s
  else
    let own : Rel := ⟨.access s.freeCtr g.key 0, s.origin { g with scope := 4 }, false⟩
    let t := s.releaseBy g
    { t with sync := { t.sync with rels := objs.foldl (fun m o => m.put (objectKey o) [own]) t.sync.rels } }

end Sys2Proof.Machine
end

