-- ==== Sys2Proof/Machine/Fetch.lean ====
section
/-! DEFINITION. Instruction fetch (04 R90 to R92), the faults of fetch and of checks 2 to 6 (R110), and what
happens at an instruction boundary: the poison trap, a halt, and the vectoring to a user handler (06 R141). -/

namespace Sys2Proof.Machine

/-- The bytes of a unit of code as a warp's grid fetches them: as they stood at its launch, or as they stand (04 R92,
log 24). -/
def State.codeBytes (s : State) (w k : Nat) (rs : List (Place × Nat)) : List Byte :=
  let now := s.readTarget k (.glob rs)
  match s.grids.find (s.blockOf w).grid, rs with
  | some g, [(.phys a, n)] =>
    let was := oldBytes s.mem g.code a n
    if was != now && !(s.warp w).fw && Config.freeBit k (2 ^ 58 + a) then was else now
  | _, _ => now

/-- One 16-bit unit of code, or the kind of its fault (04 R91). -/
def State.fetchUnit (s : State) (w : Nat) (k : Nat) (a : DWord) : Except Nat (BitVec 16) :=
  match s.runs (s.via w) Rights.x k a 2 with
  | .error e => .error e
  | .ok rs =>
    if s.poisonedTarget (.glob rs) then .error kPoison
    else .ok (BitVec.ofNat 16 (leNat (s.codeBytes w k rs)))

/-- Appends `n` units from an address; an error carries its kind and the address of the first unit that failed. -/
def State.fetchUnits (s : State) (w : Nat) (k n : Nat) (a : DWord) (acc : List (BitVec 16)) :
    Except (Nat × DWord) (List (BitVec 16)) :=
  match n with
  | 0 => .ok acc
  | n + 1 =>
    match s.fetchUnit w k a with
    | .error e => .error (e, a)
    | .ok u => s.fetchUnits w k n (a + 2) (acc ++ [u])

/-- The units of the instruction at a warp's PC, both words of a REP pair (04 R90, R110). -/
def State.fetchWindow (s : State) (w : Nat) : Except (Nat × DWord) (List (BitVec 16)) :=
  let pc := (s.warp w).pc
  let k := s.draw 15
  match s.fetchUnits w k 1 pc [] with
  | .error e => .error e
  | .ok us =>
    match s.fetchUnits w k (unitCount (unitAt us 0) - 1) (pc + 2) us with
    | .error e => .error e
    | .ok us =>
      if !isRep (unitAt us 0) then .ok us
      else
        match s.fetchUnits w k 1 (pc + 4) us with
        | .error e => .error e
        | .ok us => s.fetchUnits w k (unitCount (unitAt us 2) - 1) (pc + 6) us

/-- The instruction word of a record for fetched units: the target's for a pair (04 R92, 06 R145). -/
def rawWord (us : List (BitVec 16)) : DWord := word64At us (if isRep (unitAt us 0) then 2 else 0)

/-- The cause of a word that does not decode: a reserved code that depends on the lane count comes before a misaligned pair (04
R110, 09 R191, R194). -/
def State.wordCause (s : State) (w : Nat) (c : Context) (us : List (BitVec 16)) (e : Cause) : Cause :=
  match instrAt c us with
  | .ok i => if e = cPairAlign && s.laneFieldBad w i then cReserved else e
  | .error _ => e

/-- What the units at a warp's PC are: an instruction, or the record's cause with the word as fetched. -/
def State.decodeAt (s : State) (w : Nat) : Except (FaultInfo × DWord) Instr :=
  let x := s.warp w
  match s.fetchWindow w with
  | .error (e, a) =>
    .error ({ FaultInfo.of (agentCause 0 e) 0 with agent := 0, replay := true, addr := a }, 0)
  | .ok us =>
    match decode ⟨x.fw, x.control⟩ us with
    | .error c => .error (FaultInfo.of (s.wordCause w ⟨x.fw, x.control⟩ us c) 0, rawWord us)
    | .ok i => .ok i

/-- The state after the fetch at a warp's PC: the TLB holds what the walks read (21 R359). -/
def State.afterFetch (s : State) (w : Nat) : State :=
  let x := s.warp w
  if x.fw then s else s.fillTlb x.core (s.partOf w) (s.draw 15) x.pc

/-- A fault of fetch or decoding, as a record; none where no record can be made (21 R353). -/
def State.fetchFault (s : State) (w : Nat) (f : FaultInfo) (word : DWord) : Option State :=
  settle s.bump (s.rawActor w word) (.movS16 ⟨false, 0, 0⟩) (.fault f)

/-! The instruction boundary. -/

/-- BRANCH-TARGET (21 R356). -/
def cBranchTarget : Cause := 0x1C
/-- HANDLER-ADDRESS. -/
def cHandlerAddress : Cause := 0x1E
/-- DEBUG-HALT. -/
def cDebugHalt : Cause := 0xBF

/-- A place to which control may go: even and canonical (06 R140). -/
def codeAddr (a : DWord) : Bool := !a.getLsbD 0 && isCanonical a

/-- Vectoring (06 R141). -/
def Warp.vector (x : Warp) (handler : DWord) : Warp :=
  { x.unwait with
    uepclo := x.pc.extractLsb' 0 32,
    uepchi := (BitVec.ofNat 32 x.repi <<< 26) ||| (x.pc.extractLsb' 32 25).zeroExtend 32,
    uemask := x.active, pc := handler, active := x.live, repi := 0, inHandler := true, abuf := none,
    hdDepth := x.dstack.length, hcDepth := x.cstack.length }

/-- The arming that vectors now: the one held, else the one pending (14 R273). -/
def Warp.dueArming (x : Warp) : Option Arming := if x.held then x.heldArm else x.arming

/-- A warp vectors, which acquires its operations (02 R50), or faults on its handler address before anything is written (06 R141). -/
def State.vectorWarp (s : State) (w : Nat) : State :=
  let x := s.warp w
  match x.dueArming with
  | none => s
  | some a =>
    if codeAddr a.handler then
      (s.learn w x.live (ofTimeline x.blk a.tl a.n)).setWarp w { x.vector a.handler with
        held := false, heldArm := none, arming := if x.held then x.arming else none }
    else s.takeException (s.rawActor w 0) x.pc (FaultInfo.of cHandlerAddress 0) false

/-- The asynchronous record of a failed tile operation at a waiter (14 R274, R275). -/
def asyncInfo (opId : Nat) (o : EngOp) (wpc : DWord) : FaultInfo :=
  let f := o.fault.getD ⟨0, 0, 0, false⟩
  { FaultInfo.of f.cause o.tl with
    agent := 3, async := true, replay := replayable f.cause, addr := f.addr, lanes := 0,
    timeline := BitVec.ofNat 64 o.num, ipc := some o.ipc, wpc := wpc, iword := some o.iword,
    members := some (BitVec.ofNat 32 (o.handleIx % 32)), op := some opId }

/-- What is due at a warp's boundary, first things first: a poison trap (10 R211), a halt (21 R364), an arming
that has fired while the handler runs (14 R273), an arming whose work has failed (14 R274), and vectoring. -/
def State.takeBoundary (s : State) (w : Nat) : State :=
  let x := s.warp w
  let a := s.rawActor w 0
  match x.asyncTraps with
  | t :: ts =>
    (s.updWarp w (fun x => { x with asyncTraps := ts })).takeException a x.pc
      { FaultInfo.of t.cause 0 with
        agent := t.agent, async := true, ipc := some t.ipc, iword := some t.iword } false
  | [] =>
    if x.haltReq then
      (s.updWarp w (fun x => { x with haltReq := false })).takeException a x.pc (FaultInfo.of cDebugHalt 0) false
    else if x.inHandler && s.armingDue w then
      s.updWarp w (fun x => { x with held := true, heldArm := x.arming, arming := none })
    else if s.armingFailed w then
      match x.arming with
      | some m =>
        match s.failedNext x.blk m.tl with
        | some (id, o) => s.takeException a x.pc (asyncInfo id o m.pc) false
        | none => s
      | none => s
    else s.vectorWarp w

/-- Waits that vectoring abandons (06 R141). -/
def WaitKind.abandonable (k : WaitKind) : Bool :=
  k == .timeline || k == .barrier || k == .flag || k == .batchN || k == .batchS || k == .stdeq

/-- A warp may vector now: at a boundary, or from one of the waits that vectoring abandons; a member that waits at flock or
block scope does not (log 122). -/
def State.mayVector (s : State) (w : Nat) : Bool :=
  let x := s.warp w
  s.vectorDue w && (s.warps.find w).isSome && !x.exited && x.susp.isNone
    && (match x.wait with
      | none => true
      | some q => q.kind.abandonable && (q.actor.scope == .lane || q.actor.scope == .warp))

end Sys2Proof.Machine
end

