-- ==== Sys2Proof/Machine/Flags.lean ====
section
/-! DEFINITION. Sticky flags and the traps that TRAPEN enables (03 R78 to R83), with the traps of integer overflow
and conversion range beside them (08 R175, 09 R201). -/

namespace Sys2Proof.Machine

/-- Flags as in STICKY: IV 0, DZ 1, OF 2, UF 3, NX 4, ER 5 (03 R78). -/
abbrev FlagSet := BitVec 6

/-- No flag. -/
def noFlags : FlagSet := 0
/-- IV. -/
def fIV : FlagSet := 1
/-- DZ. -/
def fDZ : FlagSet := 2
/-- OF. -/
def fOF : FlagSet := 4
/-- UF. -/
def fUF : FlagSet := 8
/-- NX. -/
def fNX : FlagSet := 16
/-- ER. -/
def fER : FlagSet := 32

/-- A flag set where a condition holds. -/
def flagIf (c : Bool) (f : FlagSet) : FlagSet := if c then f else 0

/-- What one lane of an instruction gives: register writes, flags raised, and whether it is marked as overflowed or
out of range. -/
structure LaneOut where
  writes : List (Nat × Word)
  flags : FlagSet
  mark : Bool
  deriving DecidableEq, Repr

/-- The result of a lane without a meaning in the form at hand, which the checks stop. -/
def LaneOut.nothing : LaneOut := ⟨[], 0, false⟩

/-- Flags of a group that TRAPEN enables (03 R82). -/
def enabledFlags (trapen : Word) (group : Nat) (f : FlagSet) : FlagSet := f &&& trapen.extractLsb' (6 * group) 6

/-- The lowest flag of a set. -/
def lowestFlag (f : FlagSet) : Nat := ((List.range 6).find? (fun i => f.getLsbD i)).getD 6

/-- Merges flags into STICKY (03 R78). -/
def Warp.raise (x : Warp) (f : FlagSet) : Warp := { x with sticky := x.sticky ||| f.zeroExtend 32 }

/-- The trap that follows a completed instruction: the lowest of the enabled flags and of the cause marked, with the
lanes that raised it (03 R83). `outs` pairs each lane with what it raised; `whole` replaces the mask at warp scope. -/
def trapOf (trapen : Word) (group : Nat) (outs : List (Nat × FlagSet × Bool)) (markCause : Cause) (detail : Nat)
    (whole : Option Mask) : Option FaultInfo :=
  let all := outs.foldl (fun f o => f ||| o.2.1) (0 : FlagSet)
  let marked := outs.any (fun o => o.2.2)
  if trapen == 0 && !marked then none
  else
    let en := enabledFlags trapen group all
    if en != 0 then
      let i := lowestFlag en
      let lanes := maskOf ((outs.filter (fun o => o.2.1.getLsbD i)).map (fun o => o.1))
      some { FaultInfo.of (BitVec.ofNat 8 (0x20 + 6 * group + i)) 0 with lanes := whole.getD lanes }
    else if marked then
      let lanes := maskOf ((outs.filter (fun o => o.2.2)).map (fun o => o.1))
      some { FaultInfo.of markCause detail with lanes := whole.getD lanes }
    else none

/-- Writes a lane's registers. -/
def Warp.writeLane (x : Warp) (uniform : Bool) (l : Nat) (ws : List (Nat × Word)) : Warp :=
  ws.foldl (fun x e => if uniform then x.writeS e.1 e.2 else x.writeV e.1 l e.2) x

/-- An instruction performed in each selected lane, or once at warp scope on uniform registers; `f` reads the
warp as it was, so that every source is read before any destination is written (08 R169, R178). -/
def lanewise (a : Actor) (s : State) (group : Nat) (markCause : Cause) (detail : Nat)
    (f : Warp → Nat → LaneOut) : Res :=
  let x := s.warp a.lead
  let sel := (a.members.headD ⟨0, 0, 0⟩).sel
  let uniform := a.scope == .warp
  let ls := if uniform then [0] else lanesOf sel
  let outs := ls.map (fun l => (l, f x l))
  let y := outs.foldl (fun y o => y.writeLane uniform o.1 o.2.writes) x
  let flags := outs.foldl (fun g o => g ||| o.2.flags) (0 : FlagSet)
  let s' := s.setWarp a.lead (y.raise flags)
  match trapOf x.trapen group (outs.map (fun o => (o.1, o.2.flags, o.2.mark))) markCause detail
      (if uniform then some sel else none) with
  | some t => .trap s' t
  | none => .ok s'

/-- INTEGER-OVERFLOW. -/
def cIntegerOverflow : Cause := 0x3E
/-- CONVERSION-RANGE. -/
def cConversionRange : Cause := 0x3F

end Sys2Proof.Machine
end

