-- ==== Sys2Proof/Machine/Operands.lean ====
section
/-! DEFINITION. Operands by scope (04 R96, R97): vector, uniform or immediate, single registers, pairs and groups, as
one lane reads them. -/

namespace Sys2Proof.Machine

/-- A register as lane `l` reads it: vector, or uniform by its bit or at warp scope (04 R96). -/
def Warp.reg (x : Warp) (k : Nat) (uniform : Bool) (r l : Nat) : Word :=
  if uniform then x.readS k r else x.readV k r l

/-- A value of one register, or of an even pair with the low word first (03 R84, 08 R168). -/
def Warp.value (x : Warp) (k : Nat) (uniform wide : Bool) (r l : Nat) : DWord :=
  if wide then x.reg (k + 1) uniform (r + 1) l ++ x.reg k uniform r l else (x.reg k uniform r l).zeroExtend 64

/-- Where an instruction reads or writes: which scope, and the draw index of its step. -/
structure Ctx where
  warpScope : Bool
  k : Nat
  deriving DecidableEq, Repr

/-- The context of an actor. -/
def ctxOf (a : Actor) (s : State) : Ctx := ⟨a.scope == .warp, s.draw 0⟩

/-- Operand a (slot 0), b (2) or c (4) of the X form, uniform by its bit (04 R95, R96). -/
def Ctx.opnd (c : Ctx) (x : Warp) (slot : Nat) (u wide : Bool) (r : BitVec 8) (l : Nat) : DWord :=
  x.value (c.k + slot) (c.warpScope || u) wide r.toNat l

/-- The writes of a value to a register, or to a pair. -/
def pairWrites (wide : Bool) (r : BitVec 8) (v : DWord) : List (Nat × Word) :=
  if wide then [(r.toNat, v.extractLsb' 0 32), (r.toNat + 1, v.extractLsb' 32 32)]
  else [(r.toNat, v.extractLsb' 0 32)]

/-- Width in bits of an INT width code (08 R171). -/
def intWidth (w : BitVec 2) : Nat := if w == 0 then 32 else if w == 1 then 64 else if w == 2 then 16 else 8

/-- A value of `w` bits as a signed integer. -/
def sInt (w n : Nat) : Int := if n < 2 ^ (w - 1) then (n : Int) else (n : Int) - 2 ^ w

/-- The low `w` bits of an integer. -/
def lowBits (w : Nat) (e : Int) : Nat := (e % 2 ^ w).toNat

/-- A value of `w` bits as its register holds it: extended below 32 by signedness (08 R173). -/
def extendTo (w : Nat) (uns : Bool) (n : Nat) : DWord :=
  if w < 32 && !uns then BitVec.ofInt 64 (sInt w n) else BitVec.ofNat 64 n

end Sys2Proof.Machine
end

