-- ==== Sys2Proof/Machine/Control.lean ====
section
/-! DEFINITION. CTRL (06 R135 to R143): branches, the two stacks, exit, traps, and the return from a user handler. -/

namespace Sys2Proof.Machine

/-- DIVERGENCE-STACK (21 R356). -/
def cDivergence : Cause := 0x1A
/-- CALL-STACK. -/
def cCallStack : Cause := 0x19
/-- BPT. -/
def cBpt : Cause := 0x18
/-- RETI-OUTSIDE-HANDLER. -/
def cRetiOutside : Cause := 0x1F

/-- The one member of an actor that acts alone. -/
def Actor.self (a : Actor) : Member := a.members.headD ⟨a.lead, 0, 0⟩

/-- NOP: no operation; at flock and block scope the rendezvous is all (06 R140). -/
def opNop (_ : Actor) (s : State) : Res := .ok s

/-- Where a transfer with a displacement goes: PC + sext(imm32) (04 R98, 06 R140). -/
def relTarget (pc : DWord) (u : Upper) : DWord :=
  match u with
  | .xl imm => pc + imm.signExtend 64
  | _ => pc

/-- Where BRX and CALLX go: the uniform pair's value. -/
def pairTarget (x : Warp) (k : Nat) (u : Upper) : DWord :=
  match u with
  | .x f => x.readPairS k f.va.toNat
  | _ => 0

/-- A transfer to `target`, at lane scope with the split of R136; `call` pushes the return PC and the depth after
the split (06 R140). -/
def transfer (call : Bool) (target : DWord) (a : Actor) (s : State) : Res :=
  let x := s.warp a.lead
  let next := canon57 (x.pc + BitVec.ofNat 64 a.len)
  let sel := a.self.sel
  let rest := if a.scope == .warp then 0 else x.active &&& ~~~sel
  if sel == 0 then .ok s
  else if !codeAddr target then .fault (FaultInfo.of cBranchTarget 0)
  else if call && decide (Config.callDepth ≤ x.cstack.length) then .fault (FaultInfo.of cCallStack 0)
  else if rest != 0 && decide (Config.divergenceDepth ≤ x.dstack.length) then .fault (FaultInfo.of cDivergence 0)
  else
    let y := if rest == 0 then x else { x with dstack := .pending next rest :: x.dstack, active := sel }
    let z := if call then { y with cstack := ⟨next, y.dstack.length⟩ :: y.cstack } else y
    .jump (s.setWarp a.lead { z with pc := target })

/-- BRA. -/
def opBra (u : Upper) (a : Actor) (s : State) : Res := transfer false (relTarget (s.warp a.lead).pc u) a s
/-- BRX. -/
def opBrx (u : Upper) (a : Actor) (s : State) : Res := transfer false (pairTarget (s.warp a.lead) (s.draw 0) u) a s
/-- CALL. -/
def opCall (u : Upper) (a : Actor) (s : State) : Res := transfer true (relTarget (s.warp a.lead).pc u) a s
/-- CALLX. -/
def opCallx (u : Upper) (a : Actor) (s : State) : Res := transfer true (pairTarget (s.warp a.lead) (s.draw 0) u) a s

/-- RET (06 R140). -/
def opRet (a : Actor) (s : State) : Res :=
  let x := s.warp a.lead
  match x.cstack with
  | [] => .fault (FaultInfo.of cCallStack 0)
  | e :: t =>
    if e.depth ≠ x.dstack.length then .fault (FaultInfo.of cDivergence 2)
    else .jump (s.setWarp a.lead { x with cstack := t, pc := e.ret })

/-- RPUSH: a reconvergence entry of PC + sext(imm32) and the active mask (06 R135, R140). -/
def opRpush (u : Upper) (a : Actor) (s : State) : Res :=
  let x := s.warp a.lead
  if Config.divergenceDepth ≤ x.dstack.length then .fault (FaultInfo.of cDivergence 0)
  else .ok (s.setWarp a.lead { x with dstack := .reconv (relTarget x.pc u) x.active :: x.dstack })

/-- The mask of a stack entry. -/
def DivEntry.mask (e : DivEntry) : Mask := match e with | .reconv _ m => m | .pending _ m => m

/-- The topmost reconvergence PC. -/
def topReconv (st : List DivEntry) : Option DWord :=
  match st with
  | [] => none
  | .reconv rpc _ :: _ => some rpc
  | .pending _ _ :: t => topReconv t

/-- RJOIN (06 R137, 02 R43). -/
def opRjoin (a : Actor) (s : State) : Res :=
  let x := s.warp a.lead
  let st := x.dstack.dropWhile (fun e => e.mask == 0)
  if topReconv st ≠ some x.pc then .fault (FaultInfo.of cDivergence 1)
  else
    match st with
    | [] => .fault (FaultInfo.of cDivergence 1)
    | .pending pc m :: t => .jump (s.setWarp a.lead { x with dstack := t, pc := pc, active := m })
    | .reconv _ m :: t => .ok ((s.reconverge a.lead m).setWarp a.lead { x with dstack := t, active := m })

/-- EXIT (06 R138). A path that it resumes at an odd or non-canonical address is a transfer that R91 refuses. An exit may
complete a rendezvous (R130). -/
def opExit (a : Actor) (s : State) : Res :=
  let x := s.warp a.lead
  let sel := a.self.sel
  if sel == 0 then .ok s
  else
    let y := x.exitLanes sel (canon57 (x.pc + BitVec.ofNat 64 a.len))
    if codeAddr y.pc then
      .jump (((s.setWarp a.lead y).mapPast (fun r => r.seen a.lead sel)).closeInsts x.blk)
    else Res.cause cBranchTarget

/-- YIELD: not selected for 32 string clocks (06 R140); the count stands at 1 once they have passed. -/
def opYield (a : Actor) (s : State) : Res :=
  if a.self.sel == 0 then .ok s else .ok (s.updWarp a.lead (fun x => { x with yieldLeft := 34 }))

/-- The selected lanes of the lowest-ranked member that has one (06 R133). -/
def Actor.firstSel (a : Actor) : Mask := ((a.members.find? (fun m => m.sel != 0)).map (fun m => m.sel)).getD 0

/-- TRAP n (06 R140). -/
def opTrap (u : Upper) (a : Actor) (s : State) : Res :=
  let n := match u with | .x f => f.vc.toNat | _ => 0
  if a.firstSel == 0 then .ok s
  else .trap s { FaultInfo.of (BitVec.ofNat 8 n) 0 with lanes := a.firstSel }

/-- BPT: the warp is suspended at the BPT itself (06 R140, 21 R356). -/
def opBpt (a : Actor) (s : State) : Res :=
  if a.self.sel == 0 then .ok s else .fault (FaultInfo.of cBpt 0)

/-- RETI (06 R142). The restored PC is the 57-bit value, read as an address (log 11). -/
def opReti (a : Actor) (s : State) : Res :=
  let x := s.warp a.lead
  let pc := canon57 ((x.uepchi.extractLsb' 0 25 ++ x.uepclo).zeroExtend 64)
  if !x.inHandler then .fault (FaultInfo.of cRetiOutside 0)
  else if x.dstack.length ≠ x.hdDepth then .fault (FaultInfo.of cDivergence 3)
  else if x.cstack.length ≠ x.hcDepth then .fault (FaultInfo.of cCallStack 0)
  else if !codeAddr pc then .fault (FaultInfo.of cBranchTarget 0)
  else
    .jump (s.setWarp a.lead { x with
      pc := pc, repi := (x.uepchi.extractLsb' 26 6).toNat, active := x.uemask &&& x.live, inHandler := false })

/-- NOP (06 R139, R140). -/
def execNop (h : Hdr) (u : Upper) (s : State) : Host.Outcome State Fault Refusal := issue (.nop h u) (opNop) s
/-- BRA (06 R139, R140). -/
def execBra (h : Hdr) (u : Upper) (s : State) : Host.Outcome State Fault Refusal := issue (.bra h u) (opBra u) s
/-- BRX (06 R139, R140). -/
def execBrx (h : Hdr) (u : Upper) (s : State) : Host.Outcome State Fault Refusal := issue (.brx h u) (opBrx u) s
/-- CALL (06 R139, R140). -/
def execCall (h : Hdr) (u : Upper) (s : State) : Host.Outcome State Fault Refusal := issue (.call h u) (opCall u) s
/-- CALLX (06 R139, R140). -/
def execCallx (h : Hdr) (u : Upper) (s : State) : Host.Outcome State Fault Refusal := issue (.callx h u) (opCallx u) s
/-- RET (06 R139, R140). -/
def execRet (h : Hdr) (u : Upper) (s : State) : Host.Outcome State Fault Refusal := issue (.ret h u) (opRet) s
/-- RPUSH (06 R139, R140). -/
def execRpush (h : Hdr) (u : Upper) (s : State) : Host.Outcome State Fault Refusal := issue (.rpush h u) (opRpush u) s
/-- RJOIN (06 R139, R140). -/
def execRjoin (h : Hdr) (u : Upper) (s : State) : Host.Outcome State Fault Refusal := issue (.rjoin h u) (opRjoin) s
/-- EXIT (06 R139, R140). -/
def execExit (h : Hdr) (u : Upper) (s : State) : Host.Outcome State Fault Refusal := issue (.exit h u) (opExit) s
/-- YIELD (06 R139, R140). -/
def execYield (h : Hdr) (u : Upper) (s : State) : Host.Outcome State Fault Refusal := issue (.yield h u) (opYield) s
/-- TRAP (06 R139, R140). -/
def execTrap (h : Hdr) (u : Upper) (s : State) : Host.Outcome State Fault Refusal := issue (.trap h u) (opTrap u) s
/-- BPT (06 R139, R140). -/
def execBpt (h : Hdr) (u : Upper) (s : State) : Host.Outcome State Fault Refusal := issue (.bpt h u) (opBpt) s
/-- RETI (06 R139, R140). -/
def execReti (h : Hdr) (u : Upper) (s : State) : Host.Outcome State Fault Refusal := issue (.reti h u) (opReti) s

end Sys2Proof.Machine
end

