-- ==== Sys2Proof/Machine/Float.lean ====
section
/-! DEFINITION. Number formats (03 R61 to R77): IEEE, bfloat and tapered values as exact dyadic numbers, and the one
rounding into each format, with its flags and the overflow table. -/

namespace Sys2Proof.Machine

/-- A value: NaN, infinity, or sign, magnitude and exponent (magnitude times two to the exponent). -/
inductive Num where
  | nan (signalling : Bool)
  | inf (neg : Bool)
  | fin (neg : Bool) (m : Nat) (e : Int)
  deriving DecidableEq, Repr

/-- An IEEE-like format: exponent and fraction bits, and its place in the overflow table (03 R61, R76). -/
structure Fmt where
  ebits : Nat
  fbits : Nat
  ovfIx : Nat
  deriving DecidableEq, Repr

/-- binary64. -/
def fp64 : Fmt := ⟨11, 52, 0⟩
/-- binary32. -/
def fp32 : Fmt := ⟨8, 23, 1⟩
/-- binary16. -/
def fp16 : Fmt := ⟨5, 10, 2⟩
/-- bfloat16. -/
def bf16 : Fmt := ⟨8, 7, 3⟩

/-- Width of a format in bits. -/
def Fmt.width (f : Fmt) : Nat := f.ebits + f.fbits + 1
/-- Exponent of the smallest subnormal. -/
def Fmt.qmin (f : Fmt) : Int := 2 - 2 ^ (f.ebits - 1) - f.fbits
/-- Exponent of the smallest normal. -/
def Fmt.emin (f : Fmt) : Int := 2 - 2 ^ (f.ebits - 1)
/-- Bits of +∞. -/
def Fmt.infBits (f : Fmt) : Nat := (2 ^ f.ebits - 1) * 2 ^ f.fbits
/-- The sign bit. -/
def Fmt.signBit (f : Fmt) : Nat := 2 ^ (f.ebits + f.fbits)
/-- The canonical NaN (03 R62). -/
def Fmt.nanBits (f : Fmt) : Nat := f.infBits + 2 ^ (f.fbits - 1)
/-- The error-unavailable NaN (03 R86). -/
def Fmt.errBits (f : Fmt) : Nat := f.nanBits + 1
/-- Largest finite magnitude. -/
def Fmt.maxBits (f : Fmt) : Nat := f.infBits - 1
/-- Bits with a sign. -/
def Fmt.signed (f : Fmt) (neg : Bool) (b : Nat) : Nat := if neg then f.signBit + b else b

/-- The value of bits (03 R61, R62). -/
def Fmt.decode (f : Fmt) (bits : Nat) : Num :=
  let neg := bits.testBit (f.ebits + f.fbits)
  let frac := bits % 2 ^ f.fbits
  let ex := bits / 2 ^ f.fbits % 2 ^ f.ebits
  if ex = 2 ^ f.ebits - 1 then (if frac = 0 then .inf neg else .nan (!frac.testBit (f.fbits - 1)))
  else if ex = 0 then .fin neg frac f.qmin
  else .fin neg (2 ^ f.fbits + frac) (f.qmin + (ex - 1 : Nat))

/-- Negation flips the sign (08 R176). -/
def Num.neg (x : Num) : Num :=
  match x with
  | .nan s => .nan s
  | .inf n => .inf !n
  | .fin n m e => .fin (!n) m e

/-- Negation where a modifier asks for it. -/
def Num.negIf (x : Num) (c : Bool) : Num := if c then x.neg else x

/-- A NaN. -/
def Num.isNan (x : Num) : Bool := match x with | .nan _ => true | _ => false
/-- A signalling NaN. -/
def Num.isSnan (x : Num) : Bool := match x with | .nan s => s | _ => false
/-- An infinity. -/
def Num.isInf (x : Num) : Bool := match x with | .inf _ => true | _ => false
/-- A zero. -/
def Num.isZero (x : Num) : Bool := match x with | .fin _ m _ => m = 0 | _ => false
/-- The sign. -/
def Num.sign (x : Num) : Bool := match x with | .nan _ => false | .inf n => n | .fin n _ _ => n

/-- An exact real result: a dyadic number, with `sticky` where the magnitude lies strictly between `m` and `m + 1`
units. -/
structure Ex where
  neg : Bool
  m : Nat
  e : Int
  sticky : Bool
  deriving DecidableEq, Repr

/-- What the rounding of an instruction needs: mode (03 R73), the dither word D (R74), `sat`, and the overflow
table (R76). -/
structure Rnd where
  mode : Nat
  dither : Nat
  sat : Bool
  ovf : Word
  deriving DecidableEq, Repr

/-- RNE with no saturation. -/
def Rnd.rne (ovf : Word) : Rnd := ⟨0, 0, false, ovf⟩

/-- Shifts by a signed amount to the left. -/
def shiftBy (m : Nat) (k : Int) : Nat := if 0 ≤ k then m * 2 ^ k.toNat else m / 2 ^ (-k).toNat

/-- A magnitude in units of 2^q, rounded under the mode; and whether that is exact (03 R73, R74). -/
def roundAt (r : Rnd) (x : Ex) (q : Int) : Nat × Bool :=
  if q ≤ x.e then (x.m * 2 ^ (x.e - q).toNat, !x.sticky)
  else
    let sh := min (q - x.e).toNat (Nat.log2 x.m + 42)
    let big := x.m / 2 ^ sh
    let rem := x.m % 2 ^ sh
    let half := 2 ^ (sh - 1)
    let exact := rem = 0 && !x.sticky
    let up :=
      if exact then false
      else if r.mode = 0 then decide (half < rem) || (rem = half && (x.sticky || big % 2 = 1))
      else if r.mode = 2 then !x.neg
      else if r.mode = 3 then x.neg
      else if r.mode = 4 then decide (r.dither < rem * 2 ^ 32 / 2 ^ sh)
      else false
    (if up then big + 1 else big, exact)

/-- Length of a magnitude in bits. -/
def bitLen (m : Nat) : Nat := if m = 0 then 0 else Nat.log2 m + 1

/-- The overflow entry of a destination (03 R76). -/
def ovfEntry (ovf : Word) (ix : Nat) : Nat := ovf.toNat / 4 ^ ix % 4

/-- An overflowing result (03 R77). -/
def Fmt.overflow (f : Fmt) (r : Rnd) (neg : Bool) : Nat :=
  let en := ovfEntry r.ovf f.ovfIx
  if r.sat || en = 1 then f.signed neg f.maxBits
  else if en = 2 then f.nanBits
  else if r.mode = 1 || (r.mode = 2 && neg) || (r.mode = 3 && !neg) then f.signed neg f.maxBits
  else f.signed neg f.infBits

/-- A nonzero exact result rounded once into a format: bits and flags (03 R73 to R79). -/
def Fmt.round (f : Fmt) (r : Rnd) (x : Ex) : Nat × FlagSet :=
  if x.m = 0 then (f.signed x.neg 0, flagIf x.sticky (fNX ||| fUF))
  else
    let top := x.e + bitLen x.m
    let q := max (top - (f.fbits + 1)) f.qmin
    let (big, exact) := roundAt r x q
    let bits := (q - f.qmin).toNat * 2 ^ f.fbits + big
    if f.infBits ≤ bits then (f.overflow r x.neg, fOF ||| fNX)
    else
      let free := top - (f.fbits + 1)
      let tiny := decide (top ≤ f.emin)
        && decide (free + bitLen (roundAt r x free).1 ≤ f.emin)
      (f.signed x.neg bits, flagIf (!exact) fNX ||| flagIf (!exact && tiny) fUF)

/-- A value rounded into a format: a NaN becomes the canonical NaN, an infinity stays (03 R62). -/
def Fmt.roundNum (f : Fmt) (r : Rnd) (x : Num) : Nat × FlagSet :=
  match x with
  | .nan s => (f.nanBits, flagIf s fIV)
  | .inf n => (f.signed n f.infBits, noFlags)
  | .fin n m e => f.round r ⟨n, m, e, false⟩

/-! Tapered formats (03 R66 to R68). -/

/-- A tapered format: bits, exponent bits, the unit of which every value is a multiple (2^−u), emax, and its place in
the overflow table. -/
structure TFmt where
  bits : Nat
  es : Nat
  u : Nat
  emax : Nat
  ovfIx : Nat
  deriving DecidableEq, Repr

/-- T8. -/
def t8 : TFmt := ⟨8, 1, 12, 12, 4⟩
/-- T6. -/
def t6 : TFmt := ⟨6, 1, 8, 8, 5⟩
/-- T4. -/
def t4 : TFmt := ⟨4, 0, 2, 2, 6⟩

/-- Length of the run of bits equal to `b` from bit `i − 1` down. -/
def runLen (mag : Nat) (b : Bool) (i : Nat) : Nat :=
  match i with
  | 0 => 0
  | i + 1 => if mag.testBit i = b then runLen mag b i + 1 else 0

/-- A nonzero magnitude code in units of 2^−u (03 R66). -/
def TFmt.units (t : TFmt) (mag : Nat) : Nat :=
  let n := t.bits - 1
  let b := mag.testBit (n - 1)
  let r := runLen mag b n
  let left := n - r - 1
  let k : Int := if b then (r : Int) - 1 else -(r : Int)
  let ex := if left = 0 || t.es = 0 then 0 else (if mag.testBit (left - 1) then 1 else 0)
  let fb := if t.es = 0 then left else left - 1
  let frac := mag % 2 ^ fb
  shiftBy (2 ^ fb + frac) (k * 2 ^ t.es + ex + t.u - fb)

/-- The largest magnitude code. -/
def TFmt.topCode (t : TFmt) : Nat := 2 ^ (t.bits - 1) - 1
/-- The NaN code. -/
def TFmt.nanCode (t : TFmt) : Nat := 2 ^ (t.bits - 1)
/-- The magnitude of a code in units. -/
def TFmt.magUnits (t : TFmt) (c : Nat) : Nat := if c = 0 then 0 else t.units c

/-- The value of an element, bits above the format ignored (03 R66, R71). -/
def TFmt.decode (t : TFmt) (code : Nat) : Num :=
  let c := code % 2 ^ t.bits
  let mag := c % 2 ^ (t.bits - 1)
  let neg := c.testBit (t.bits - 1)
  if mag = 0 then (if neg then .nan false else .fin false 0 0) else .fin neg (t.magUnits mag) (-t.u)

/-- A code with its sign; magnitude zero is code 0 (03 R68). -/
def TFmt.code (t : TFmt) (neg : Bool) (mag : Nat) : Nat := if neg && mag ≠ 0 then t.nanCode + mag else mag

/-- The largest magnitude code, from `c` down, whose value times 2^d is at most `x`. -/
def TFmt.below (t : TFmt) (d x : Nat) (c : Nat) : Nat :=
  match c with
  | 0 => 0
  | c + 1 => if t.magUnits (c + 1) * 2 ^ d ≤ x then c + 1 else t.below d x c

/-- An exact value rounded into a tapered format: code and flags (03 R68, R74, R76, R77, R79). -/
def TFmt.round (t : TFmt) (r : Rnd) (x : Ex) : Nat × FlagSet :=
  let d := (-(x.e + t.u)).toNat
  let v := x.m * 2 ^ (x.e + t.u).toNat
  let c := t.below d v t.topCode
  let lo := t.magUnits c * 2 ^ d
  let hi := if c = t.topCode then 2 * lo else t.magUnits (c + 1) * 2 ^ d
  let exact := v = lo && !x.sticky
  let up :=
    if exact then false
    else if r.mode = 0 then decide (lo + hi < 2 * v) || (2 * v = lo + hi && (x.sticky || c % 2 = 1))
    else if r.mode = 2 then !x.neg
    else if r.mode = 3 then x.neg
    else if r.mode = 4 then decide (r.dither < (v - lo) * 2 ^ 32 / (hi - lo))
    else false
  if up && c = t.topCode then
    (if ovfEntry r.ovf t.ovfIx = 2 && !r.sat then t.nanCode else t.code x.neg t.topCode, fOF ||| fNX)
  else
    let tiny := decide (v < t.magUnits 1 * 2 ^ d)
    (t.code x.neg (if up then c + 1 else c), flagIf (!exact) fNX ||| flagIf (!exact && tiny) fUF)

/-- A value rounded into a tapered format; an infinity has no code and is invalid (03 R77, R79). -/
def TFmt.roundNum (t : TFmt) (r : Rnd) (x : Num) : Nat × FlagSet :=
  match x with
  | .nan s => (t.nanCode, flagIf s fIV)
  | .inf _ => (t.nanCode, fIV)
  | .fin n m e => t.round r ⟨n, m, e, false⟩

/-! Dither (03 R74). -/

/-- The dither word D of G and C. -/
def ditherWord (g c : Word) : Nat :=
  let h := g * 0x9E3779B1 + c * 0x85EBCA77
  let h := h ^^^ (h >>> 15)
  let h := h * 0x2C1B3C6D
  (h ^^^ (h >>> 12)).toNat

/-- G of a lane of a warp (03 R74). -/
def ditherG (index widx lane : Nat) : Word := BitVec.ofNat 32 (index * 1024 + widx * Config.warpWidth + lane)

/-- The rounding of lane `l` and element `j` of a warp's instruction. -/
def laneRnd (s : State) (w : Nat) (mode : BitVec 3) (sat : Bool) (l j : Nat) : Rnd :=
  let x := s.warp w
  let b := s.blockOf w
  { mode := mode.toNat, sat := sat, ovf := (s.part b.part).ovf,
    dither := if mode == 4 then
        ditherWord (ditherG b.index x.widx l) (x.dctr ^^^ (BitVec.ofNat 32 j <<< 24)) else 0 }

/-! Exact arithmetic. -/

/-- The exact sum of finite values; an exact zero from operands that are not both zeros of one sign is +0, or −0
under RD (08 R179). -/
def sumEx (mode : Nat) (n1 : Bool) (m1 : Nat) (e1 : Int) (n2 : Bool) (m2 : Nat) (e2 : Int) : Ex :=
  let e := min e1 e2
  let a : Int := m1 * 2 ^ (e1 - e).toNat
  let b : Int := m2 * 2 ^ (e2 - e).toNat
  let t := (if n1 then -a else a) + (if n2 then -b else b)
  if t = 0 then ⟨if m1 = 0 && m2 = 0 && n1 = n2 then n1 else mode = 3, 0, e, false⟩
  else ⟨decide (t < 0), t.natAbs, e, false⟩

/-- An exact value as a number, where it is not sticky. -/
def Ex.num (x : Ex) : Num := .fin x.neg x.m x.e

/-- What an operation gives before rounding: a special value with its flags, or an exact result. -/
inductive Raw where
  | special (x : Num) (f : FlagSet)
  | exact (x : Ex)
  deriving DecidableEq, Repr

/-- The NaN of an operation on NaN operands (08 R179). -/
def nanRaw (xs : List Num) : Raw := .special (.nan false) (flagIf (xs.any Num.isSnan) fIV)
/-- The NaN of an invalid operation; a signalling operand sets the same flag. -/
def invalidRaw : Raw := .special (.nan false) fIV

/-- a + b (08 R178, R179). -/
def addRaw (mode : Nat) (a b : Num) : Raw :=
  match a, b with
  | .fin n1 m1 e1, .fin n2 m2 e2 => .exact (sumEx mode n1 m1 e1 n2 m2 e2)
  | .inf n1, .inf n2 => if n1 = n2 then .special a noFlags else invalidRaw
  | .inf _, .fin _ _ _ => .special a noFlags
  | .fin _ _ _, .inf _ => .special b noFlags
  | _, _ => nanRaw [a, b]

/-- a x b. -/
def mulRaw (a b : Num) : Raw :=
  match a, b with
  | .fin n1 m1 e1, .fin n2 m2 e2 => .exact ⟨n1 != n2, m1 * m2, e1 + e2, false⟩
  | .nan _, _ => nanRaw [a, b]
  | _, .nan _ => nanRaw [a, b]
  | _, _ => if a.isZero || b.isZero then invalidRaw else .special (.inf (a.sign != b.sign)) noFlags

/-- a x b + c, rounded once; 0 x ∞ is invalid even with a quiet NaN addend (08 R179). -/
def fmaRaw (mode : Nat) (a b c : Num) : Raw :=
  if (a.isInf && b.isZero) || (a.isZero && b.isInf) then invalidRaw
  else if a.isNan || b.isNan || c.isNan then nanRaw [a, b, c]
  else
    match mulRaw a b with
    | .special p _ => addRaw mode p c
    | .exact p => addRaw mode p.num c

/-- Extra bits of a quotient or root beyond the operands: enough for every rounding and for dither. -/
def extraBits : Nat := 160

/-- a / b. -/
def divRaw (a b : Num) : Raw :=
  match a, b with
  | .nan _, _ => nanRaw [a, b]
  | _, .nan _ => nanRaw [a, b]
  | .inf n, .fin n2 _ _ => .special (.inf (n != n2)) noFlags
  | .inf _, .inf _ => invalidRaw
  | .fin n1 _ _, .inf n2 => .special (.fin (n1 != n2) 0 0) noFlags
  | .fin n1 m1 e1, .fin n2 m2 e2 =>
    if m2 = 0 then (if m1 = 0 then invalidRaw else .special (.inf (n1 != n2)) fDZ)
    else if m1 = 0 then .special (.fin (n1 != n2) 0 0) noFlags
    else
      let k := extraBits + bitLen m2
      let t := m1 * 2 ^ k
      .exact ⟨n1 != n2, t / m2, e1 - e2 - k, decide (t % m2 ≠ 0)⟩

/-- The integer square root of `n`, its bits found from bit `i` down. -/
def isqrtFrom (n : Nat) (i : Nat) (r : Nat) : Nat :=
  match i with
  | 0 => r
  | i + 1 => let t := r + 2 ^ i; isqrtFrom n i (if t * t ≤ n then t else r)

/-- The integer square root. -/
def isqrt (n : Nat) : Nat := isqrtFrom n (bitLen n / 2 + 1) 0

/-- sqrt(a). -/
def sqrtRaw (a : Num) : Raw :=
  match a with
  | .nan _ => nanRaw [a]
  | .inf n => if n then invalidRaw else .special a noFlags
  | .fin n m e =>
    if m = 0 then .special a noFlags
    else if n then invalidRaw
    else
      let odd := e % 2 = 1
      let m' := (if odd then 2 * m else m) * 2 ^ (2 * extraBits)
      let r := isqrt m'
      .exact ⟨false, r, (if odd then e - 1 else e) / 2 - extraBits, decide (r * r ≠ m')⟩

/-- Rounds what an operation gives (03 R62, R77, 08 R178). -/
def Fmt.finish (f : Fmt) (r : Rnd) (x : Raw) : Nat × FlagSet :=
  match x with
  | .special n g => let (b, h) := f.roundNum r n; (b, g ||| h)
  | .exact e => f.round r e

/-- Comparison of finite or infinite values: −1, 0 or 1; both zeros are equal. -/
def cmpNum (a b : Num) : Int :=
  match a, b with
  | .inf n, .inf m => if n = m then 0 else if n then -1 else 1
  | .inf n, _ => if n then -1 else 1
  | _, .inf m => if m then 1 else -1
  | .fin n1 m1 e1, .fin n2 m2 e2 =>
    let t := sumEx 0 n1 m1 e1 (!n2) m2 e2
    if t.m = 0 then 0 else if t.neg then -1 else 1
  | _, _ => 0

/-- minimumNumber and maximumNumber, −0 ordered below +0 (03 R63). -/
def minMax (max : Bool) (a b : Num) : Num × FlagSet :=
  let f := flagIf (a.isSnan || b.isSnan) fIV
  if a.isNan && b.isNan then (.nan false, f)
  else if a.isNan then (b, f)
  else if b.isNan then (a, f)
  else
    let c := cmpNum a b
    let aLess := decide (c < 0) || (c = 0 && a.sign && !b.sign)
    (if aLess != max then a else b, f)

end Sys2Proof.Machine
end

