-- ==== Sys2Proof/Machine/Approx.lean ====
section
/-! DEFINITION. The approximate functions (08 R180): the exact cases, the true value to some 200 bits, and the
representable values within the stated bound of it, among which a fixed free mapping chooses (log 8). -/

namespace Sys2Proof.Machine

/-- Fraction bits of the fixed-point constants and series. -/
def fixBits : Nat := 256
/-- ln 2 in fixed point. -/
def ln2Fix : Nat := 80260960185991308862233904206310070533990667611589946606122867505419956976171
/-- π in fixed point. -/
def piFix : Nat := 363771576891766324280234942777729862653393377328392429958772151117938894466185

/-- A product in fixed point. -/
def fixMul (a b : Nat) : Nat := a * b / 2 ^ fixBits

/-- The sum of y^n / n! from term `i` of value `t`, `n` terms more. -/
def expSeries (y : Nat) (n i t acc : Nat) : Nat :=
  match n with
  | 0 => acc
  | n + 1 => expSeries y n (i + 1) (fixMul t y / (i + 1)) (acc + t)

/-- 2^f for a fixed-point fraction. -/
def exp2Fix (f : Nat) : Nat := expSeries (fixMul f ln2Fix) 70 0 (2 ^ fixBits) 0

/-- sin(y) / y from y², as alternating terms; `i` counts from 1. -/
def sincSeries (y2 : Nat) (n i t : Nat) (acc : Int) : Int :=
  match n with
  | 0 => acc
  | n + 1 =>
    sincSeries y2 n (i + 1) (fixMul t y2 / ((2 * i) * (2 * i + 1))) (if i % 2 = 1 then acc + t else acc - t)

/-- The sum of z^(2k) / (2k + 1). -/
def atanhSeries (z2 : Nat) (n k t acc : Nat) : Nat :=
  match n with
  | 0 => acc
  | n + 1 => atanhSeries z2 n (k + 1) (fixMul t z2) (acc + t / (2 * k + 1))

/-- 2^a for a = ±m 2^e, not an integer, as a magnitude with sticky bit. -/
def exp2Ex (neg : Bool) (m : Nat) (e : Int) : Ex :=
  let v := shiftBy m (e + fixBits)
  let whole := v / 2 ^ fixBits
  let f := v % 2 ^ fixBits
  if !neg then ⟨false, exp2Fix f, whole - fixBits, true⟩
  else if f = 0 then
    -- a tiny negative value: just below a power of two
    ⟨false, 2 ^ fixBits - 1, -(whole : Int) - fixBits, true⟩
  else ⟨false, exp2Fix (2 ^ fixBits - f), -(whole : Int) - 1 - fixBits, true⟩

/-- log2 of a positive value that is no power of two. -/
def log2Ex (m : Nat) (e : Int) : Ex :=
  let n := Nat.log2 m
  -- m / 2^n lies in (1, 2); above 1.5 take half of it and one power more, so that the series stays short
  let high := decide (3 * 2 ^ n ≤ 2 * m)
  let k : Int := e + n + (if high then 1 else 0)
  let d := if high then 2 ^ (n + 1) else 2 ^ n
  let neg := high
  let gap := if high then d - m else m - d
  let z := gap * 2 ^ (2 * fixBits) / (m + d)
  let z1 := z / 2 ^ fixBits
  let sum := atanhSeries (fixMul z1 z1) 90 0 (2 ^ fixBits) 0
  -- log2 = k ± 2 z sum / ln 2, in units of 2^−2·fixBits
  let t : Int := 2 * z * sum / ln2Fix
  let v := k * 2 ^ (2 * fixBits) + (if neg then -t else t)
  ⟨decide (v < 0), v.natAbs, -(2 * fixBits : Int), true⟩

/-- sin(π r 2^−d) for 0 < r < 2^(d−1), accurate at every magnitude, and below 1. -/
def sinPiEx (neg : Bool) (r d : Nat) : Ex :=
  let y := piFix * r / 2 ^ d
  let sinc := (sincSeries (fixMul y y) 60 1 (2 ^ fixBits) 0).toNat
  ⟨neg, min (piFix * r * sinc) (2 ^ (2 * fixBits + d) - 1), -(2 * fixBits : Int) - d, true⟩

/-- 1 / sqrt(a) of a positive value. -/
def rsqrtEx (m : Nat) (e : Int) : Ex :=
  let odd := e % 2 = 1
  let m' := if odd then 2 * m else m
  let k := 200 + bitLen m'
  let n := 2 ^ (2 * k) / m'
  let r := isqrt n
  ⟨false, r, -((if odd then e - 1 else e) / 2) - k, decide (r * r * m' ≠ 2 ^ (2 * k))⟩

/-- The ordinal of a value among the format's values: rounded down, or up; magnitudes and their negatives. -/
def Fmt.ordinal (f : Fmt) (up neg : Bool) (m : Nat) (e : Int) : Int :=
  let q := max (e + bitLen m - (f.fbits + 1)) f.qmin
  let exact := decide (q ≤ e) || decide (m % 2 ^ (q - e).toNat = 0)
  let big : Int := shiftBy m (e - q)
  let o : Int := if m = 0 then 0 else (q - f.qmin).toNat * 2 ^ f.fbits + big
  if neg then -(if exact || up then o else o + 1) else (if exact || !up then o else o + 1)

/-- The bits of an ordinal. -/
def Fmt.ofOrdinal (f : Fmt) (zeroNeg : Bool) (o : Int) : Nat :=
  if o = 0 then f.signed zeroNeg 0 else f.signed (decide (o < 0)) (min o.natAbs f.maxBits)

/-- One of the representable values within `ulps` of the true value, or within 2^`absE` of it where that is wider
(08 R180). -/
def Fmt.withinBound (f : Fmt) (ulps : Nat) (absE : Option Int) (choice : Nat) (x : Ex) : Nat :=
  let q := max (x.e + bitLen x.m - (f.fbits + 1)) f.qmin
  let e := min (x.e - 1) (min q ((absE.getD q)))
  -- a value that is not exact lies above its magnitude, by less than its last place
  let v : Int := (if x.neg then -1 else 1) * ((2 * x.m + (if x.sticky then 1 else 0)) * 2 ^ (x.e - 1 - e).toNat : Nat)
  let b1 : Nat := ulps * 2 ^ (q - e).toNat
  let b2 : Nat := match absE with | some a => 2 ^ (a - e).toNat | none => 0
  let b : Int := max b1 b2
  let lo := f.ordinal true (decide (v - b < 0)) (v - b).natAbs e
  let hi := f.ordinal false (decide (v + b < 0)) (v + b).natAbs e
  f.ofOrdinal x.neg (lo + (choice % ((hi - lo).toNat + 1) : Nat))

/-- An approximate result: correctly rounded at 16 bits, else within the bound; NX, and UF where tiny; a result that
overflows follows R77 (08 R180). -/
def approx (f : Fmt) (r : Rnd) (fn code bits ulps : Nat) (absE : Option Int) (x : Ex) : Nat × FlagSet :=
  let (b, g) := f.round r x
  if f.fbits ≤ 10 then (b, g ||| fNX)
  else if g.getLsbD 2 then (b, g)
  else (f.withinBound ulps absE (Config.approxChoice fn code bits) x, g ||| fNX)

/-- Whether a magnitude is a power of two. -/
def isPow2 (m : Nat) : Bool := m ≠ 0 && m = 2 ^ Nat.log2 m

/-- The absolute bound of the format: 2^−53 or 2^−24. -/
def absBound (f : Fmt) : Int := if f.fbits = 52 then -53 else -24

/-- FRSQ (08 R180). -/
def fpRsq (f : Fmt) (r : Rnd) (code bits : Nat) (a : Num) : Nat × FlagSet :=
  match a with
  | .nan s => (f.nanBits, flagIf s fIV)
  | .inf n => if n then (f.nanBits, fIV) else (0, noFlags)
  | .fin n m e =>
    if m = 0 then (f.signed n f.infBits, fDZ)
    else if n then (f.nanBits, fIV)
    else
      let x := rsqrtEx m e
      if !x.sticky then f.round r x else approx f r 9 code bits 1 none x

/-- FEX2. -/
def fpEx2 (f : Fmt) (r : Rnd) (code bits : Nat) (a : Num) : Nat × FlagSet :=
  match a with
  | .nan s => (f.nanBits, flagIf s fIV)
  | .inf n => (if n then 0 else f.infBits, noFlags)
  | .fin n m e =>
    let whole := decide (0 ≤ e) || decide (m % 2 ^ (-e).toNat = 0)
    let mag := shiftBy m (min e 40)
    if m = 0 then f.round r ⟨false, 1, 0, false⟩
    else if decide (20 < e + bitLen m) then
      if !n then (f.overflow r false, fOF ||| fNX)
      else if whole then (0, fUF ||| fNX)
      -- any power so small has the same values within the bound
      else approx f r 10 code bits 2 none ⟨false, 1, f.qmin - 64, true⟩
    else if whole then
      let x : Ex := ⟨false, 1, if n then -(mag : Int) else mag, false⟩
      if n && decide (-(mag : Int) < f.qmin) then (0, fUF ||| fNX) else f.round r x
    else approx f r 10 code bits 2 none (exp2Ex n m e)

/-- FLG2. -/
def fpLg2 (f : Fmt) (r : Rnd) (code bits : Nat) (a : Num) : Nat × FlagSet :=
  match a with
  | .nan s => (f.nanBits, flagIf s fIV)
  | .inf n => if n then (f.nanBits, fIV) else (f.infBits, noFlags)
  | .fin n m e =>
    if m = 0 then (f.signed true f.infBits, fDZ)
    else if n then (f.nanBits, fIV)
    else if isPow2 m then
      let k : Int := e + Nat.log2 m
      f.round r ⟨decide (k < 0), k.natAbs, 0, false⟩
    else
      let near := decide (0 ≤ cmpNum a (.fin false 1 (-1))) && decide (cmpNum a (.fin false 2 0) ≤ 0)
      approx f r 11 code bits 2 (if near then some (absBound f) else none) (log2Ex m e)

/-- sin(π a) of a = ±m 2^e given in units of 2^−d modulo 2, for the function number of FSIN or FCOS. -/
def sinUnits (f : Fmt) (r : Rnd) (fn code bits : Nat) (neg : Bool) (n d : Nat) : Nat × FlagSet :=
  let neg' := neg != decide (2 ^ d ≤ n)
  let t := n % 2 ^ d
  let t' := if 2 ^ d < 2 * t then 2 ^ d - t else t
  if t' = 0 then (0, noFlags)
  else if 2 * t' = 2 ^ d then f.round r ⟨neg', 1, 0, false⟩
  else approx f r fn code bits 2 (some (absBound f)) (sinPiEx neg' t' d)

/-- FSIN. -/
def fpSin (f : Fmt) (r : Rnd) (code bits : Nat) (a : Num) : Nat × FlagSet :=
  match a with
  | .nan s => (f.nanBits, flagIf s fIV)
  | .inf _ => (f.nanBits, fIV)
  | .fin n m e =>
    let d := (-e).toNat + 1
    let u := shiftBy m (e + d)
    if u % 2 ^ d = 0 then (f.signed (n && m ≠ 0) 0, noFlags) else sinUnits f r 12 code bits n (u % 2 ^ (d + 1)) d

/-- FCOS: sin(π (a + 1/2)). -/
def fpCos (f : Fmt) (r : Rnd) (code bits : Nat) (a : Num) : Nat × FlagSet :=
  match a with
  | .nan s => (f.nanBits, flagIf s fIV)
  | .inf _ => (f.nanBits, fIV)
  | .fin _ m e =>
    let d := (-e).toNat + 1
    let u := shiftBy m (e + d)
    sinUnits f r 13 code bits false ((u + 2 ^ (d - 1)) % 2 ^ (d + 1)) d

end Sys2Proof.Machine
end

