-- ==== Sys2Proof/Machine/Fp.lean ====
section
/-! DEFINITION. FP (08 R176 to R182): one function per instruction over decoded operands, and one frame for scopes,
widths, modifiers and exact pairs. -/

namespace Sys2Proof.Machine

/-- Format of an FP width code (08 R176). -/
def fpFmt (w : BitVec 2) : Fmt := if w == 0 then fp32 else if w == 1 then fp64 else if w == 2 then fp16 else bf16
/-- TRAPEN group of an FP width code (03 R83). -/
def fpGroup (w : BitVec 2) : Nat := if w == 1 then 0 else if w == 0 then 1 else 2

/-- What an FP function reads: format, width code, rounding, X, operands with their signs flipped by ma and mb, and
operand b as a 32-bit integer, for FSCALE. -/
structure FpArgs where
  f : Fmt
  code : Nat
  r : Rnd
  x : Bool
  a : Num
  b : Num
  c : Num
  aBits : Nat
  n : Int
  deriving DecidableEq, Repr

/-- Value, error term where X asks for one, and flags. -/
structure FpVal where
  bits : Nat
  err : Nat
  flags : FlagSet
  deriving DecidableEq, Repr

/-- A value without error term. -/
def FpVal.of (v : Nat × FlagSet) : FpVal := ⟨v.1, 0, v.2⟩

/-- The error term of a rounded sum or product (03 R85, R86). -/
def errorTerm (f : Fmt) (ovf : Word) (x : Raw) (v : Nat × FlagSet) : Nat × FlagSet :=
  match x, f.decode v.1 with
  | .exact e, .fin n m e2 =>
    if v.2.getLsbD 2 then (f.errBits, fER)
    else
      let d := sumEx 0 e.neg e.m e.e (!n) m e2
      if d.m = 0 then (0, noFlags)
      else
        let (b, g) := f.round (Rnd.rne ovf) d
        (if b = f.signBit then 0 else b, flagIf (g.getLsbD 4) fER)
  | _, _ => (f.errBits, fER)

/-- Rounds a sum or product, with its error term where X asks for one. -/
def FpArgs.paired (q : FpArgs) (x : Raw) : FpVal :=
  let v := q.f.finish q.r x
  if q.x then
    let (e, g) := errorTerm q.f q.r.ovf x v
    ⟨v.1, e, v.2 ||| g⟩
  else FpVal.of v

/-- FADD. -/
def fpFadd (q : FpArgs) : FpVal := q.paired (addRaw q.r.mode q.a q.b)
/-- FSUB. -/
def fpFsub (q : FpArgs) : FpVal := q.paired (addRaw q.r.mode q.a q.b.neg)
/-- FMUL. -/
def fpFmul (q : FpArgs) : FpVal := q.paired (mulRaw q.a q.b)
/-- FFMA. -/
def fpFfma (q : FpArgs) : FpVal := FpVal.of (q.f.finish q.r (fmaRaw q.r.mode q.a q.b q.c))
/-- FMIN. -/
def fpFmin (q : FpArgs) : FpVal :=
  let (n, g) := minMax false q.a q.b
  FpVal.of ((q.f.roundNum q.r n).1, g)
/-- FMAX. -/
def fpFmax (q : FpArgs) : FpVal :=
  let (n, g) := minMax true q.a q.b
  FpVal.of ((q.f.roundNum q.r n).1, g)
/-- FRCP: 1 / a. -/
def fpFrcp (q : FpArgs) : FpVal := FpVal.of (q.f.finish q.r (divRaw (.fin false 1 0) q.a))
/-- FDIV. -/
def fpFdiv (q : FpArgs) : FpVal := FpVal.of (q.f.finish q.r (divRaw q.a q.b))
/-- FSQRT. -/
def fpFsqrt (q : FpArgs) : FpVal := FpVal.of (q.f.finish q.r (sqrtRaw q.a))
/-- FRSQ. -/
def fpFrsq (q : FpArgs) : FpVal := FpVal.of (fpRsq q.f q.r q.code q.aBits q.a)
/-- FEX2. -/
def fpFex2 (q : FpArgs) : FpVal := FpVal.of (fpEx2 q.f q.r q.code q.aBits q.a)
/-- FLG2. -/
def fpFlg2 (q : FpArgs) : FpVal := FpVal.of (fpLg2 q.f q.r q.code q.aBits q.a)
/-- FSIN. -/
def fpFsin (q : FpArgs) : FpVal := FpVal.of (fpSin q.f q.r q.code q.aBits q.a)
/-- FCOS. -/
def fpFcos (q : FpArgs) : FpVal := FpVal.of (fpCos q.f q.r q.code q.aBits q.a)
/-- FSCALE: a x 2^b (08 R181). -/
def fpFscale (q : FpArgs) : FpVal :=
  match q.a with
  | .fin s m e => FpVal.of (q.f.round q.r ⟨s, m, e + q.n, false⟩)
  | _ => FpVal.of (q.f.roundNum q.r q.a)
/-- FCLASS (08 R182): the class mask. -/
def fpFclass (q : FpArgs) : FpVal :=
  let b : Nat :=
    match q.a with
    | .nan s => if s then 256 else 512 + (if q.aBits = q.f.errBits then 1024 else 0)
    | .inf n => if n then 1 else 128
    | .fin n m _ =>
      if m = 0 then (if n then 8 else 16)
      else if m < 2 ^ q.f.fbits then (if n then 4 else 32)
      else if n then 2 else 64
  ⟨b, 0, noFlags⟩

/-- Bits of an operand with its sign flipped. -/
def flipSign (f : Fmt) (c : Bool) (b : Nat) : Nat :=
  if c then (if b < f.signBit then b + f.signBit else b - f.signBit) else b

/-- The immediate of an FP width (04 R97). -/
def fpImm (w : BitVec 2) (imm : BitVec 24) : Nat :=
  if w == 1 then imm.toNat * 2 ^ 40 else if w == 0 then imm.toNat * 256 else imm.toNat % 65536

/-- Operands of an FP instruction as lane `l` reads them (08 R168, R176, R177). -/
def fpArgs (s : State) (w : Nat) (c : Ctx) (fn : Nat) (h : Hdr) (u : Upper) (x : Warp) (l : Nat) : FpArgs :=
  let f := fpFmt h.width
  let wide := h.width == 1
  let cut (v : DWord) : Nat := v.toNat % 2 ^ f.width
  match u with
  | .x g =>
    let ab := flipSign f g.ma (cut (c.opnd x 0 g.ua wide g.va l))
    let bRaw := c.opnd x 2 g.ub (wide && fn != 14) g.vb l
    let bb := flipSign f (g.mb && fn != 3) (cut bRaw)
    let cb := flipSign f g.mb (cut (c.opnd x 4 g.uc wide g.vc l))
    { f := f, code := h.width.toNat, r := laneRnd s w g.rnd h.sat (if c.warpScope then 0 else l) 0, x := h.x,
      a := f.decode ab, b := f.decode bb, c := f.decode cb, aBits := ab, n := (bRaw.setWidth 32).toInt }
  | .xi va imm =>
    let ab := cut (c.opnd x 0 false wide va l)
    { f := f, code := h.width.toNat, r := laneRnd s w 0 h.sat (if c.warpScope then 0 else l) 0, x := h.x,
      a := f.decode ab, b := f.decode (fpImm h.width imm), c := .fin false 0 0, aBits := ab, n := imm.toInt }
  | _ => { f := f, code := 0, r := Rnd.rne 0, x := false, a := .fin false 0 0, b := .fin false 0 0,
           c := .fin false 0 0, aBits := 0, n := 0 }

/-- Registers of a value and its error term (03 R84). -/
def fpWrites (h : Hdr) (fn : Nat) (v : FpVal) : List (Nat × Word) :=
  if fn = 15 then [(h.vd.toNat, BitVec.ofNat 32 v.bits)]
  else
    let wide := h.width == 1
    pairWrites wide h.vd (BitVec.ofNat 64 v.bits)
      ++ (if h.x then pairWrites wide (h.vd + (if wide then 2 else 1)) (BitVec.ofNat 64 v.err) else [])

/-- One lane of an FP instruction. -/
def fpLane (fn : Nat) (g : FpArgs → FpVal) (h : Hdr) (u : Upper) (a : Actor) (s : State) (x : Warp) (l : Nat) :
    LaneOut :=
  let v := g (fpArgs s a.lead (ctxOf a s) fn h u x l)
  ⟨fpWrites h fn v, v.flags, false⟩

/-- An FP instruction in each selected lane. -/
def opFp (fn : Nat) (g : FpArgs → FpVal) (h : Hdr) (u : Upper) (a : Actor) (s : State) : Res :=
  lanewise a s (fpGroup h.width) cIntegerOverflow 0 (fpLane fn g h u a s)

/-- FADD (08 R177). -/
def execFadd (h : Hdr) (u : Upper) (s : State) : Host.Outcome State Fault Refusal :=
  issue (.fadd h u) (opFp 0 fpFadd h u) s
/-- FSUB (08 R177). -/
def execFsub (h : Hdr) (u : Upper) (s : State) : Host.Outcome State Fault Refusal :=
  issue (.fsub h u) (opFp 1 fpFsub h u) s
/-- FMUL (08 R177). -/
def execFmul (h : Hdr) (u : Upper) (s : State) : Host.Outcome State Fault Refusal :=
  issue (.fmul h u) (opFp 2 fpFmul h u) s
/-- FFMA (08 R177). -/
def execFfma (h : Hdr) (u : Upper) (s : State) : Host.Outcome State Fault Refusal :=
  issue (.ffma h u) (opFp 3 fpFfma h u) s
/-- FMIN (08 R177). -/
def execFmin (h : Hdr) (u : Upper) (s : State) : Host.Outcome State Fault Refusal :=
  issue (.fmin h u) (opFp 4 fpFmin h u) s
/-- FMAX (08 R177). -/
def execFmax (h : Hdr) (u : Upper) (s : State) : Host.Outcome State Fault Refusal :=
  issue (.fmax h u) (opFp 5 fpFmax h u) s
/-- FRCP (08 R177). -/
def execFrcp (h : Hdr) (u : Upper) (s : State) : Host.Outcome State Fault Refusal :=
  issue (.frcp h u) (opFp 6 fpFrcp h u) s
/-- FDIV (08 R177). -/
def execFdiv (h : Hdr) (u : Upper) (s : State) : Host.Outcome State Fault Refusal :=
  issue (.fdiv h u) (opFp 7 fpFdiv h u) s
/-- FSQRT (08 R177). -/
def execFsqrt (h : Hdr) (u : Upper) (s : State) : Host.Outcome State Fault Refusal :=
  issue (.fsqrt h u) (opFp 8 fpFsqrt h u) s
/-- FRSQ (08 R177). -/
def execFrsq (h : Hdr) (u : Upper) (s : State) : Host.Outcome State Fault Refusal :=
  issue (.frsq h u) (opFp 9 fpFrsq h u) s
/-- FEX2 (08 R177). -/
def execFex2 (h : Hdr) (u : Upper) (s : State) : Host.Outcome State Fault Refusal :=
  issue (.fex2 h u) (opFp 10 fpFex2 h u) s
/-- FLG2 (08 R177). -/
def execFlg2 (h : Hdr) (u : Upper) (s : State) : Host.Outcome State Fault Refusal :=
  issue (.flg2 h u) (opFp 11 fpFlg2 h u) s
/-- FSIN (08 R177). -/
def execFsin (h : Hdr) (u : Upper) (s : State) : Host.Outcome State Fault Refusal :=
  issue (.fsin h u) (opFp 12 fpFsin h u) s
/-- FCOS (08 R177). -/
def execFcos (h : Hdr) (u : Upper) (s : State) : Host.Outcome State Fault Refusal :=
  issue (.fcos h u) (opFp 13 fpFcos h u) s
/-- FSCALE (08 R177). -/
def execFscale (h : Hdr) (u : Upper) (s : State) : Host.Outcome State Fault Refusal :=
  issue (.fscale h u) (opFp 14 fpFscale h u) s
/-- FCLASS (08 R177). -/
def execFclass (h : Hdr) (u : Upper) (s : State) : Host.Outcome State Fault Refusal :=
  issue (.fclass h u) (opFp 15 fpFclass h u) s

end Sys2Proof.Machine
end

