-- ==== Sys2Proof/Machine/Cvt.lean ====
section
/-! DEFINITION. CVT (09 R199 to R204): conversions between float, tapered and integer formats, register blocks of
tapered elements (03 R71, R72), and packed halves. -/

namespace Sys2Proof.Machine

/-- A format of R199. -/
inductive AnyFmt where
  | float (f : Fmt)
  | tapered (t : TFmt)
  | int (w : Nat) (uns : Bool)
  deriving DecidableEq, Repr

/-- The format of a 4-bit code; code 7 is reserved and stopped by the checks (09 R199). -/
def anyFmt (c : Nat) : AnyFmt :=
  match c with
  | 0 => .float fp32
  | 1 => .float fp64
  | 2 => .float fp16
  | 3 => .float bf16
  | 4 => .tapered t8
  | 5 => .tapered t6
  | 6 => .tapered t4
  | 8 => .int 8 false
  | 9 => .int 16 false
  | 10 => .int 32 false
  | 11 => .int 64 false
  | 12 => .int 8 true
  | 13 => .int 16 true
  | 14 => .int 32 true
  | _ => .int 64 true

/-- TRAPEN group of a format code: FP64 0, FP32 1, 16-bit 2, T 3 (03 R83). -/
def cvtGroup (c : Nat) : Nat := if c = 1 then 0 else if c = 0 then 1 else if c ≤ 3 then 2 else 3

/-- The exact value of a source (09 R200). -/
def AnyFmt.decode (f : AnyFmt) (b : Nat) : Num :=
  match f with
  | .float f => f.decode (b % 2 ^ f.width)
  | .tapered t => t.decode b
  | .int w uns =>
    let i : Int := if uns then (b % 2 ^ w : Nat) else sInt w (b % 2 ^ w)
    .fin (decide (i < 0)) i.natAbs 0

/-- The ends of an integer type's range. -/
def intRange (w : Nat) (uns : Bool) : Int × Int :=
  if uns then (0, 2 ^ w - 1) else (-(2 ^ (w - 1)), 2 ^ (w - 1) - 1)

/-- An integer clamped to a range, and whether it was outside. -/
def clampInt (r : Int × Int) (i : Int) : Int × Bool :=
  if i < r.1 then (r.1, true) else if r.2 < i then (r.2, true) else (i, false)

/-- A value rounded to an integer: its magnitude with the sign, and whether that is exact (09 R200). -/
def roundInt (r : Rnd) (n : Bool) (m : Nat) (e : Int) : Int × Bool :=
  let (b, exact) := roundAt r ⟨n, m, e, false⟩ 0
  (if n then -(b : Int) else b, exact)

/-- A float or T value into an integer type: the value, flags and whether it was out of range (09 R200). -/
def toInt (r : Rnd) (w : Nat) (uns : Bool) (x : Num) : Int × FlagSet × Bool :=
  let rg := intRange w uns
  match x with
  | .nan _ => (0, fIV, true)
  | .inf n => (if n then rg.1 else rg.2, fIV, true)
  | .fin n m e =>
    let (i, exact) := roundInt r n m e
    let (j, out) := clampInt rg i
    (j, if out then fIV else flagIf (!exact) fNX, out)

/-- A float rounded to an integral value of its own format (09 R200). -/
def toIntegral (f : Fmt) (r : Rnd) (x : Num) : Nat × FlagSet :=
  match x with
  | .fin n m e =>
    let (b, exact) := roundAt r ⟨n, m, e, false⟩ 0
    (if e ≥ 0 then (f.roundNum (Rnd.rne 0) x).1 else (f.roundNum (Rnd.rne 0) (.fin n b 0)).1, flagIf (!exact) fNX)
  | _ => f.roundNum r x

/-- CVT on one value: result bits, flags and whether it was out of range (09 R200). -/
def cvtValue (src dst : Nat) (r : Rnd) (b : Nat) : Nat × FlagSet × Bool :=
  let x := (anyFmt src).decode b
  match anyFmt src, anyFmt dst with
  | .float f, .float g => if src = dst then let (v, k) := toIntegral f r x; (v, k, false)
                          else let (v, k) := g.roundNum r x; (v, k, false)
  | .tapered _, .float g => let (v, k) := g.roundNum r x; (v, k, false)
  | .tapered t, .tapered g =>
    if src = dst then (b % 2 ^ t.bits, 0, false) else let (v, k) := g.roundNum r x; (v, k, false)
  | .float _, .tapered g => let (v, k) := g.roundNum r x; (v, k, false)
  | .int _ _, .float g => let (v, k) := g.roundNum r x; (v, k, false)
  | .int _ _, .tapered g => let (v, k) := g.roundNum r x; (v, k, false)
  | .int w uns, .int w2 uns2 =>
    let i : Int := if uns then (b % 2 ^ w : Nat) else sInt w (b % 2 ^ w)
    let (j, out) := clampInt (intRange w2 uns2) i
    (lowBits w2 (if r.sat then j else i), 0, out)
  | _, .int w uns =>
    let (i, k, out) := toInt r w uns x
    (lowBits w i, k, out)

/-- A destination value as its registers hold it (09 R199). -/
def cvtHold (dst : Nat) (v : Nat) : DWord :=
  match anyFmt dst with
  | .int w uns => extendTo w uns v
  | _ => BitVec.ofNat 64 v

/-- Codes held in an even pair: FP64, s64, b64 (09 R199). -/
def codeWide (c : Nat) : Bool := c = 1 || c = 11 || c = 15

/-- One lane of CVT (09 R200). -/
def cvtLane (h : Hdr) (u : Upper) (a : Actor) (s : State) (x : Warp) (l : Nat) : LaneOut :=
  match u with
  | .x f =>
    let c := ctxOf a s
    let src := f.vc.toNat / 16
    let dst := f.vc.toNat % 16
    let r := laneRnd s a.lead f.rnd h.sat (if c.warpScope then 0 else l) 0
    let (v, k, out) := cvtValue src dst r (c.opnd x 0 f.ua (codeWide src) f.va l).toNat
    ⟨pairWrites (codeWide dst) h.vd (cvtHold dst v), k, out && f.mb⟩
  | _ => LaneOut.nothing

/-- Source and destination codes of CVT (09 R200). -/
def cvtCodes (u : Upper) : Nat × Nat := match u with | .x f => (f.vc.toNat / 16, f.vc.toNat % 16) | _ => (0, 0)

/-- TRAPEN group of CVT: the source's where the destination is an integer (03 R83). -/
def cvtTrapGroup (u : Upper) : Nat :=
  if 8 ≤ (cvtCodes u).2 then cvtGroup (cvtCodes u).1 else cvtGroup (cvtCodes u).2

/-- CVT. -/
def opCvt (h : Hdr) (u : Upper) (a : Actor) (s : State) : Res :=
  lanewise a s (cvtTrapGroup u) cConversionRange (cvtCodes u).2 (cvtLane h u a s)

/-- The tapered format of vc bits [3:2] (09 R202). -/
def blkFmt (f : XForm) : TFmt :=
  let c := f.vc.toNat / 4
  if c = 0 then t8 else if c = 1 then t6 else t4

/-- Bits of element j of a lane in a float group at register `r` (09 R202). -/
def groupElem (x : Warp) (k : Nat) (w : BitVec 2) (r l j : Nat) : Nat :=
  if w == 0 then (x.readV k (r + j) l).toNat
  else if w == 1 then (x.readV (k + 1) (r + 2 * j + 1) l ++ x.readV k (r + 2 * j) l).toNat
  else (x.readV k (r + j / 2) l).toNat / 65536 ^ (j % 2) % 65536

/-- The scale of quantised values, and whether the block is a NaN block (03 R72). -/
def blockScale (t : TFmt) (xs : List Num) : Nat × Bool :=
  if xs.any (fun x => x.isNan || x.isInf) then (0xFF, true)
  else
    let lgs : List Int := xs.filterMap (fun x => match x with
      | .fin _ m e => if m = 0 then none else some (e + Nat.log2 m)
      | _ => none)
    match lgs with
    | [] => (0, false)
    | g :: gs => ((min 254 (max 0 (gs.foldl max g - t.emax + 128))).toNat, false)

/-- One element quantised under a scale (03 R72): code and flags. -/
def quantise (t : TFmt) (r : Rnd) (scale : Nat × Bool) (x : Num) : Nat × FlagSet :=
  if scale.2 then (t.nanCode, flagIf (x.isInf || x.isSnan) fIV)
  else
    match x with
    | .fin n m e => if m = 0 then (0, 0) else t.round r ⟨n, m, e + 127 - scale.1, false⟩
    | _ => (t.nanCode, 0)

/-- One element dequantised under a scale byte (03 R69). -/
def dequantise (t : TFmt) (scale code : Nat) : Num :=
  if scale = 0xFF then .nan false
  else
    match t.decode code with
    | .fin n m e => .fin n m (e + scale - 127)
    | x => x

/-- Byte `b` of a word replaced. -/
def setByte (w : Word) (b v : Nat) : Word :=
  (w &&& ~~~(0xFF#32 <<< (8 * b))) ||| (BitVec.ofNat 32 (v % 256) <<< (8 * b))

/-- The values of a block of 8 lanes, those of lanes not selected +0 (09 R203). -/
def blockValues (x : Warp) (k : Nat) (sel : Mask) (h : Hdr) (f : XForm) (blk : Nat) : List Num :=
  (List.range 8).flatMap (fun i =>
    let l := 8 * blk + i
    (List.range 4).map (fun j =>
      if sel.getLsbD l then (fpFmt h.width).decode (groupElem x k h.width f.va.toNat l j) else .fin false 0 0))

/-- One lane of QBLK (09 R203). Where vb = vd the scale is written over the element word's byte b (log 125). -/
def qblkLane (h : Hdr) (u : Upper) (a : Actor) (s : State) (x : Warp) (l : Nat) : LaneOut :=
  match u with
  | .x f =>
    let k := s.draw 0
    let t := blkFmt f
    let b := f.vc.toNat % 4
    let scale := blockScale t (blockValues x k a.self.sel h f (l / 8))
    let es := (List.range 4).map (fun j =>
      quantise t (laneRnd s a.lead f.rnd h.sat l j) scale
        ((fpFmt h.width).decode (groupElem x k h.width f.va.toNat l j)))
    let word := BitVec.ofNat 32 (leNat (es.map (fun e => BitVec.ofNat 8 e.1)))
    let old := if f.vb = h.vd then word else x.readV (k + 2) f.vb.toNat l
    ⟨[(h.vd.toNat, word), (f.vb.toNat, setByte old b scale.1)], es.foldl (fun g e => g ||| e.2) 0, false⟩
  | _ => LaneOut.nothing

/-- QBLK (09 R203). -/
def opQblk (h : Hdr) (u : Upper) (a : Actor) (s : State) : Res :=
  lanewise a s 3 cIntegerOverflow 0 (qblkLane h u a s)

/-- The writes of a lane's four floats to a group (09 R202). -/
def groupWrites (w : BitVec 2) (r : BitVec 8) (vs : List Nat) : List (Nat × Word) :=
  if w == 0 then (List.range 4).map (fun j => (r.toNat + j, BitVec.ofNat 32 (vs.getD j 0)))
  else if w == 1 then
    (List.range 4).flatMap (fun j => pairWrites true (r + BitVec.ofNat 8 (2 * j)) (BitVec.ofNat 64 (vs.getD j 0)))
  else (List.range 2).map (fun i => (r.toNat + i, BitVec.ofNat 32 (vs.getD (2 * i) 0 + 65536 * vs.getD (2 * i + 1) 0)))

/-- One lane of DQ (09 R203). -/
def dqLane (h : Hdr) (u : Upper) (a : Actor) (s : State) (x : Warp) (l : Nat) : LaneOut :=
  match u with
  | .x f =>
    let k := s.draw 0
    let t := blkFmt f
    let b := f.vc.toNat % 4
    let scale := (x.readV (k + 2) f.vb.toNat (l / 8 * 8)).toNat / 256 ^ b % 256
    let word := (x.readV k f.va.toNat l).toNat
    let es := (List.range 4).map (fun j =>
      (fpFmt h.width).roundNum (laneRnd s a.lead f.rnd h.sat l j) (dequantise t scale (word / 256 ^ j % 256)))
    ⟨groupWrites h.width h.vd (es.map (fun e => e.1)), es.foldl (fun g e => g ||| e.2) 0, false⟩
  | _ => LaneOut.nothing

/-- DQ (09 R203). -/
def opDq (h : Hdr) (u : Upper) (a : Actor) (s : State) : Res :=
  lanewise a s (fpGroup h.width) cIntegerOverflow 0 (dqLane h u a s)

/-- One lane of PACKH (09 R204). -/
def packhLane (h : Hdr) (u : Upper) (a : Actor) (s : State) (x : Warp) (l : Nat) : LaneOut :=
  match u with
  | .x f =>
    let c := ctxOf a s
    let g := fpFmt h.width
    let ll := if c.warpScope then 0 else l
    let (lo, k0) := g.roundNum (laneRnd s a.lead f.rnd h.sat ll 0)
      (fp32.decode ((c.opnd x 0 f.ua false f.va l).toNat % 2 ^ 32))
    let (hi, k1) := g.roundNum (laneRnd s a.lead f.rnd h.sat ll 1)
      (fp32.decode ((c.opnd x 2 f.ub false f.vb l).toNat % 2 ^ 32))
    ⟨[(h.vd.toNat, BitVec.ofNat 32 (65536 * hi + lo))], k0 ||| k1, false⟩
  | _ => LaneOut.nothing

/-- PACKH (09 R204). -/
def opPackh (h : Hdr) (u : Upper) (a : Actor) (s : State) : Res :=
  lanewise a s 2 cIntegerOverflow 0 (packhLane h u a s)

/-- One lane of UNPACKH (09 R204). -/
def unpackhLane (h : Hdr) (u : Upper) (a : Actor) (s : State) (x : Warp) (l : Nat) : LaneOut :=
  match u with
  | .x f =>
    let c := ctxOf a s
    let g := fpFmt h.width
    let w := (c.opnd x 0 f.ua false f.va l).toNat
    let (lo, k0) := fp32.roundNum (Rnd.rne 0) (g.decode (w % 65536))
    let (hi, k1) := fp32.roundNum (Rnd.rne 0) (g.decode (w / 65536 % 65536))
    ⟨[(h.vd.toNat, BitVec.ofNat 32 lo), (h.vd.toNat + 1, BitVec.ofNat 32 hi)], k0 ||| k1, false⟩
  | _ => LaneOut.nothing

/-- UNPACKH (09 R204). -/
def opUnpackh (h : Hdr) (u : Upper) (a : Actor) (s : State) : Res :=
  lanewise a s 2 cIntegerOverflow 0 (unpackhLane h u a s)

/-- CVT (09 R200). -/
def execCvt (h : Hdr) (u : Upper) (s : State) : Host.Outcome State Fault Refusal := issue (.cvt h u) (opCvt h u) s
/-- QBLK (09 R203). -/
def execQblk (h : Hdr) (u : Upper) (s : State) : Host.Outcome State Fault Refusal := issue (.qblk h u) (opQblk h u) s
/-- DQ (09 R203). -/
def execDq (h : Hdr) (u : Upper) (s : State) : Host.Outcome State Fault Refusal := issue (.dq h u) (opDq h u) s
/-- PACKH (09 R204). -/
def execPackh (h : Hdr) (u : Upper) (s : State) : Host.Outcome State Fault Refusal := issue (.packh h u) (opPackh h u) s
/-- UNPACKH (09 R204). -/
def execUnpackh (h : Hdr) (u : Upper) (s : State) : Host.Outcome State Fault Refusal := issue (.unpackh h u) (opUnpackh h u) s

end Sys2Proof.Machine
end

