-- ==== Sys2Proof/Machine/Dw.lean ====
section
/-! DEFINITION. DW (09 R186 to R188, 03 R87 to R89): double words by the fixed sequences of R88, every step rounded
RNE, and the path of R89 where a part is not finite or a step overflows. -/

namespace Sys2Proof.Machine

/-- A value with the flags of the steps behind it. -/
structure RnStep where
  v : Num
  g : FlagSet
  deriving DecidableEq, Repr

/-- The exact sum of finite values, for rounding to nearest. -/
def exactAdd (a b : Num) : Ex :=
  match addRaw 0 a b with
  | .exact e => e
  | .special _ _ => ⟨false, 0, 0, false⟩

/-- The exact product of finite values. -/
def exactMul (a b : Num) : Ex :=
  match mulRaw a b with
  | .exact e => e
  | .special _ _ => ⟨false, 0, 0, false⟩

/-- RN(x) in a format (00 R7). -/
def rn (f : Fmt) (ovf : Word) (x : Ex) : RnStep :=
  let (b, g) := f.round (Rnd.rne ovf) x
  ⟨f.decode b, g⟩

/-- RN(a + b). -/
def rnAdd (f : Fmt) (ovf : Word) (a b : Num) : RnStep := rn f ovf (exactAdd a b)
/-- RN(a x b). -/
def rnMul (f : Fmt) (ovf : Word) (a b : Num) : RnStep := rn f ovf (exactMul a b)
/-- FMA(a, b, c). -/
def rnFma (f : Fmt) (ovf : Word) (a b c : Num) : RnStep := rn f ovf (exactAdd (exactMul a b).num c)

/-- TwoSum: RN(a + b) and its exact error (00 R7). No step inside it counts as one that overflows unless RN(a + b) does
(log 26). -/
def twoSum (f : Fmt) (ovf : Word) (a b : Num) : RnStep × RnStep :=
  let t := exactAdd a b
  let s := rn f ovf t
  (s, rnAdd f ovf t.num s.v.neg)

/-- FastTwoSum: s := RN(a + b), RN(b − RN(s − a)) (00 R7). -/
def fastTwoSum (f : Fmt) (ovf : Word) (a b : Num) : RnStep × RnStep × RnStep :=
  let s := rnAdd f ovf a b
  let z := rnAdd f ovf s.v a.neg
  (s, rnAdd f ovf b z.v.neg, z)

/-- TwoProd: p := RN(a x b), FMA(a, b, −p) (00 R7). -/
def twoProd (f : Fmt) (ovf : Word) (a b : Num) : RnStep × RnStep :=
  let p := rnMul f ovf a b
  (p, rnFma f ovf a b p.v.neg)

/-- A double word as computed: its parts and the flags that its steps raised. -/
structure DwVal where
  hi : Num
  lo : Num
  g : FlagSet
  deriving DecidableEq, Repr

/-- Flags of several steps. -/
def orFlags (l : List FlagSet) : FlagSet := l.foldl (fun a b => a ||| b) 0

/-- The steps of DWADD (03 R88). -/
def dwAddSteps (f : Fmt) (ovf : Word) (xh xl yh yl : Num) : DwVal :=
  let (sh, sl) := twoSum f ovf xh yh
  let (th, tl) := twoSum f ovf xl yl
  let c := rnAdd f ovf sl.v th.v
  let (vh, vl, z1) := fastTwoSum f ovf sh.v c.v
  let w := rnAdd f ovf tl.v vl.v
  let (zh, zl, z2) := fastTwoSum f ovf vh.v w.v
  ⟨zh.v, zl.v, orFlags [sh.g, sl.g, th.g, tl.g, c.g, vh.g, vl.g, z1.g, w.g, zh.g, zl.g, z2.g]⟩

/-- The steps of DWMUL (03 R88). -/
def dwMulSteps (f : Fmt) (ovf : Word) (xh xl yh yl : Num) : DwVal :=
  let (ph, pl) := twoProd f ovf xh yh
  let t1 := rnMul f ovf xl yh
  let t2 := rnFma f ovf xh yl t1.v
  let p2 := rnAdd f ovf pl.v t2.v
  let (zh, zl, z) := fastTwoSum f ovf ph.v p2.v
  ⟨zh.v, zl.v, orFlags [ph.g, pl.g, t1.g, t2.g, p2.g, zh.g, zl.g, z.g]⟩

/-- The steps of DWNORM (03 R88). -/
def dwNormSteps (f : Fmt) (ovf : Word) (xh xl : Num) : DwVal :=
  let (zh, zl, z) := fastTwoSum f ovf xh xl
  ⟨zh.v, zl.v, orFlags [zh.g, zl.g, z.g]⟩

/-- A finite value. -/
def Num.isFin (x : Num) : Bool := match x with | .fin _ _ _ => true | _ => false

/-- Whether two finite values differ. -/
def numsDiffer (a b : Num) : Bool := cmpNum a b != 0

/-- The result of a double-word instruction: high bits, low bits and flags. From finite parts without overflow the
steps' own, with NX where hi + lo differs from the exact result; otherwise R89's, from `plain` = RN(xh op yh), with the
OF and the NX of a step that overflowed and without the steps' UF (log 26). -/
def dwResult (f : Fmt) (parts : List Num) (steps : DwVal) (exact : Ex) (plain : Nat × FlagSet) :
    Nat × Nat × FlagSet :=
  let big := steps.g.getLsbD 2
  if parts.all Num.isFin && !big then
    let bits (x : Num) : Nat := (f.roundNum (Rnd.rne 0) x).1
    (bits steps.hi, bits steps.lo,
      (steps.g &&& fUF) ||| flagIf (numsDiffer (exactAdd steps.hi steps.lo).num exact.num) fNX)
  else
    (plain.1, f.errBits,
      plain.2 ||| fER ||| flagIf (parts.all Num.isFin && big) (fOF ||| fNX))

/-- DWADD, and DWSUB with y negated. -/
def dwAdd (f : Fmt) (ovf : Word) (xh xl yh yl : Num) : Nat × Nat × FlagSet :=
  dwResult f [xh, xl, yh, yl] (dwAddSteps f ovf xh xl yh yl)
    (exactAdd (exactAdd xh xl).num (exactAdd yh yl).num) (f.finish (Rnd.rne ovf) (addRaw 0 xh yh))
/-- DWSUB. -/
def dwSub (f : Fmt) (ovf : Word) (xh xl yh yl : Num) : Nat × Nat × FlagSet := dwAdd f ovf xh xl yh.neg yl.neg
/-- DWMUL. -/
def dwMul (f : Fmt) (ovf : Word) (xh xl yh yl : Num) : Nat × Nat × FlagSet :=
  dwResult f [xh, xl, yh, yl] (dwMulSteps f ovf xh xl yh yl)
    (exactMul (exactAdd xh xl).num (exactAdd yh yl).num) (f.finish (Rnd.rne ovf) (mulRaw xh yh))
/-- DWNORM; y is not read. -/
def dwNorm (f : Fmt) (ovf : Word) (xh xl _ _ : Num) : Nat × Nat × FlagSet :=
  dwResult f [xh, xl] (dwNormSteps f ovf xh xl) (exactAdd xh xl) (f.finish (Rnd.rne ovf) (addRaw 0 xh xl))

/-- A part of a double word as lane `l` reads it: high or low (03 R87). -/
def dwPart (f : Fmt) (wide : Bool) (c : Ctx) (x : Warp) (slot : Nat) (u : Bool) (r : BitVec 8) (low neg : Bool)
    (l : Nat) : Num :=
  let q : BitVec 8 := if low then r + (if wide then 2 else 1) else r
  (f.decode ((c.opnd x slot u wide q l).toNat % 2 ^ f.width)).negIf neg

/-- TRAPEN's double-word group (03 R83). -/
def dwGroup : Nat := 4

/-- One lane of DWADD, DWSUB, DWMUL or DWNORM (09 R187). -/
def dwLane (g : Fmt → Word → Num → Num → Num → Num → Nat × Nat × FlagSet) (h : Hdr) (u : Upper) (a : Actor)
    (s : State) (x : Warp) (l : Nat) : LaneOut :=
  let c := ctxOf a s
  let f := fpFmt h.width
  let wide := h.width == 1
  match u with
  | .x q =>
    let (hi, lo, fl) := g f (s.part (s.partOf a.lead)).ovf
      (dwPart f wide c x 0 q.ua q.va false q.ma l) (dwPart f wide c x 2 q.ua q.va true q.ma l)
      (dwPart f wide c x 4 q.ub q.vb false q.mb l) (dwPart f wide c x 6 q.ub q.vb true q.mb l)
    ⟨pairWrites wide h.vd (BitVec.ofNat 64 hi)
      ++ pairWrites wide (h.vd + (if wide then 2 else 1)) (BitVec.ofNat 64 lo), fl, false⟩
  | _ => LaneOut.nothing

/-- DWADD, DWSUB, DWMUL and DWNORM in each selected lane (09 R187). -/
def opDw (g : Fmt → Word → Num → Num → Num → Num → Nat × Nat × FlagSet) (h : Hdr) (u : Upper) (a : Actor)
    (s : State) : Res :=
  lanewise a s dwGroup cIntegerOverflow 0 (dwLane g h u a s)

/-- One lane of DWCVT: the exact sum of the parts, rounded once (09 R188). -/
def dwcvtLane (h : Hdr) (u : Upper) (a : Actor) (s : State) (x : Warp) (l : Nat) : LaneOut :=
  let c := ctxOf a s
  let f := fpFmt h.width
  let wide := h.width == 1
  match u with
  | .x q =>
    let dw : BitVec 2 := q.vc.extractLsb' 0 2
    let r := laneRnd s a.lead q.rnd h.sat (if c.warpScope then 0 else l) 0
    let (b, fl) := (fpFmt dw).finish r (addRaw r.mode
      (dwPart f wide c x 0 q.ua q.va false q.ma l) (dwPart f wide c x 2 q.ua q.va true q.ma l))
    ⟨pairWrites (dw == 1) h.vd (BitVec.ofNat 64 b), fl, false⟩
  | _ => LaneOut.nothing

/-- DWCVT (09 R188). -/
def opDwcvt (h : Hdr) (u : Upper) (a : Actor) (s : State) : Res :=
  lanewise a s dwGroup cIntegerOverflow 0 (dwcvtLane h u a s)

/-- DWADD (09 R187). -/
def execDwadd (h : Hdr) (u : Upper) (s : State) : Host.Outcome State Fault Refusal := issue (.dwadd h u) (opDw dwAdd h u) s
/-- DWSUB (09 R187). -/
def execDwsub (h : Hdr) (u : Upper) (s : State) : Host.Outcome State Fault Refusal := issue (.dwsub h u) (opDw dwSub h u) s
/-- DWMUL (09 R187). -/
def execDwmul (h : Hdr) (u : Upper) (s : State) : Host.Outcome State Fault Refusal := issue (.dwmul h u) (opDw dwMul h u) s
/-- DWNORM (09 R187). -/
def execDwnorm (h : Hdr) (u : Upper) (s : State) : Host.Outcome State Fault Refusal := issue (.dwnorm h u) (opDw dwNorm h u) s
/-- DWCVT (09 R188). -/
def execDwcvt (h : Hdr) (u : Upper) (s : State) : Host.Outcome State Fault Refusal := issue (.dwcvt h u) (opDwcvt h u) s

end Sys2Proof.Machine
end

