-- ==== Sys2Proof/Machine/Int.lean ====
section
/-! DEFINITION. INT (08 R168 to R175): one function per instruction over operands already read, and one frame for
scopes, widths, saturation and the overflow trap. -/

namespace Sys2Proof.Machine

/-- What an INT function reads: the width, signedness (X = 1 unsigned), the modifiers, and the operands: a, b and c of
`w` bits, or whole single registers where R170 says so. -/
structure IntArgs where
  w : Nat
  uns : Bool
  sat : Bool
  ma : Bool
  mb : Bool
  a : Nat
  b : Nat
  c : Nat
  deriving DecidableEq, Repr

/-- The result's low `w` bits, and the overflow mark. -/
abbrev IntVal := Nat × Bool

/-- A plain result. -/
def IntArgs.plain (q : IntArgs) (n : Nat) : IntVal := (n % 2 ^ q.w, false)

/-- An operand of `w` bits as signed or unsigned by X. -/
def IntArgs.num (q : IntArgs) (n : Nat) : Int := if q.uns then (n : Int) else sInt q.w n

/-- Wrap, saturate, or wrap and mark, of an exact result (08 R174). -/
def IntArgs.range (q : IntArgs) (e : Int) : IntVal :=
  let lo : Int := if q.uns then 0 else -(2 ^ (q.w - 1))
  let hi : Int := if q.uns then 2 ^ q.w - 1 else 2 ^ (q.w - 1) - 1
  if lo ≤ e && e ≤ hi then (lowBits q.w e, false)
  else if !q.sat then (lowBits q.w e, false)
  else if q.mb then (lowBits q.w e, true)
  else (lowBits q.w (if e < lo then lo else hi), false)

/-- Bits of an operand, inverted where its modifier says (08 R171). -/
def IntArgs.inv (q : IntArgs) (m : Bool) (n : Nat) : Nat := if m then 2 ^ q.w - 1 - n % 2 ^ q.w else n

/-- A shift count, masked with w − 1 (08 R172). -/
def IntArgs.count (q : IntArgs) (n : Nat) : Nat := n % q.w

/-- MOV: d := a; in the XI form the immediate, which stands in b (08 R172). -/
def intMov (imm : Bool) (q : IntArgs) : IntVal := q.plain (if imm then q.b else q.a)
/-- IADD. -/
def intIadd (q : IntArgs) : IntVal := q.range (q.num q.a + q.num q.b)
/-- ISUB. -/
def intIsub (q : IntArgs) : IntVal := q.range (q.num q.a - q.num q.b)
/-- IMUL. -/
def intImul (q : IntArgs) : IntVal := q.range (q.num q.a * q.num q.b)
/-- IMULHI: the high `w` bits of the product. -/
def intImulhi (q : IntArgs) : IntVal := (lowBits q.w ((q.num q.a * q.num q.b) / 2 ^ q.w), false)
/-- IMAD. -/
def intImad (q : IntArgs) : IntVal := q.range (q.num q.a * q.num q.b + q.num q.c)
/-- IMIN. -/
def intImin (q : IntArgs) : IntVal := q.plain (if q.num q.a ≤ q.num q.b then q.a else q.b)
/-- IMAX. -/
def intImax (q : IntArgs) : IntVal := q.plain (if q.num q.a ≤ q.num q.b then q.b else q.a)
/-- IABS, a signed value always. -/
def intIabs (q : IntArgs) : IntVal := q.range ((sInt q.w q.a).natAbs : Int)
/-- AND. -/
def intAnd (q : IntArgs) : IntVal := q.plain (q.inv q.ma q.a &&& q.inv q.mb q.b)
/-- OR. -/
def intOr (q : IntArgs) : IntVal := q.plain (q.inv q.ma q.a ||| q.inv q.mb q.b)
/-- XOR. -/
def intXor (q : IntArgs) : IntVal := q.plain (q.inv q.ma q.a ^^^ q.inv q.mb q.b)
/-- NOT. -/
def intNot (q : IntArgs) : IntVal := q.plain (q.inv true q.a)
/-- SHL. -/
def intShl (q : IntArgs) : IntVal := q.plain (q.a * 2 ^ q.count q.b)
/-- SHR. -/
def intShr (q : IntArgs) : IntVal := q.plain (q.a / 2 ^ q.count q.b)
/-- SAR. -/
def intSar (q : IntArgs) : IntVal := (lowBits q.w (sInt q.w q.a / 2 ^ q.count q.b), false)
/-- ROTL. -/
def intRotl (q : IntArgs) : IntVal :=
  q.plain (q.a * 2 ^ q.count q.b + q.a / 2 ^ (q.w - q.count q.b))
/-- Number of 1 bits among the low `n` bits. -/
def bitCount (n a : Nat) : Nat := ((List.range n).filter (fun i => a.testBit i)).length
/-- POPC. -/
def intPopc (q : IntArgs) : IntVal := (bitCount q.w q.a, false)
/-- CLZ. -/
def intClz (q : IntArgs) : IntVal := (if q.a = 0 then q.w else q.w - 1 - Nat.log2 q.a, false)
/-- BREV. -/
def intBrev (q : IntArgs) : IntVal :=
  q.plain ((List.range q.w).foldl (fun n i => if q.a.testBit i then n + 2 ^ (q.w - 1 - i) else n) 0)
/-- BFX. -/
def intBfx (q : IntArgs) : IntVal :=
  let pos := q.b % 256
  let len := q.c % 256
  if q.w ≤ pos || len = 0 then (0, false)
  else
    let len := min len (q.w - pos)
    let f := q.a / 2 ^ pos % 2 ^ len
    (lowBits q.w (if q.uns then (f : Int) else sInt len f), false)
/-- BFI. -/
def intBfi (q : IntArgs) : IntVal :=
  let pos := q.b % 256
  let len := q.b / 256 % 256
  if q.w ≤ pos || len = 0 then q.plain q.c
  else
    let len := min len (q.w - pos)
    let m := (2 ^ len - 1) * 2 ^ pos
    q.plain (q.c - (q.c &&& m) + (q.a % 2 ^ len) * 2 ^ pos)
/-- SEL. -/
def intSel (q : IntArgs) : IntVal := q.plain (if q.c ≠ 0 then q.a else q.b)
/-- LEA: b' is the low `w` bits of the 32-bit b below 64, and b extended by X at 64 (08 R170). -/
def intLea (q : IntArgs) : IntVal :=
  let b' := if q.w = 64 then lowBits 64 (if q.uns then (q.b : Int) else sInt 32 q.b) else q.b % 2 ^ q.w
  q.plain (q.a + b' * 2 ^ q.count q.c)

/-- Operands of an INT instruction as lane `l` reads them (08 R168, R170, R171). -/
def intArgs (c : Ctx) (fn : Nat) (h : Hdr) (u : Upper) (x : Warp) (l : Nat) : IntArgs :=
  let w := intWidth h.width
  let wide := h.width == 1
  let cut (single : Bool) (v : DWord) : Nat := if single then v.toNat % 2 ^ 32 else v.toNat % 2 ^ w
  match u with
  | .x f =>
    { w := w, uns := h.x, sat := h.sat, ma := f.ma, mb := f.mb, a := cut false (c.opnd x 0 f.ua wide f.va l),
      b := cut (intSingleB fn) (c.opnd x 2 f.ub (wide && !intSingleB fn) f.vb l),
      c := cut (intSingleC fn) (c.opnd x 4 f.uc (wide && !intSingleC fn) f.vc l) }
  | .xi va imm =>
    { w := w, uns := h.x, sat := h.sat, ma := false, mb := false, a := cut false (c.opnd x 0 false wide va l),
      b := lowBits w imm.toInt, c := 0 }
  | _ => { w := w, uns := h.x, sat := h.sat, ma := false, mb := false, a := 0, b := 0, c := 0 }

/-- One lane of an INT instruction, with its result as R173 lays it into registers; a count is written zero-extended to
one register. -/
def intLane (fn : Nat) (f : IntArgs → IntVal) (h : Hdr) (u : Upper) (a : Actor) (s : State) (x : Warp) (l : Nat) :
    LaneOut :=
  let count := fn = 17 || fn = 18
  let q := intArgs (ctxOf a s) fn h u x l
  let (n, o) := f q
  ⟨pairWrites (h.width == 1 && !count) h.vd (if count then BitVec.ofNat 64 n else extendTo q.w q.uns n), 0, o⟩

/-- An INT instruction in each selected lane. -/
def opInt (fn : Nat) (f : IntArgs → IntVal) (h : Hdr) (u : Upper) (a : Actor) (s : State) : Res :=
  lanewise a s 0 cIntegerOverflow fn (intLane fn f h u a s)

/-- The XI form of MOV. -/
def isXI (u : Upper) : Bool := match u with | .xi _ _ => true | _ => false

/-- MOV (08 R172). -/
def execMov (h : Hdr) (u : Upper) (s : State) : Host.Outcome State Fault Refusal :=
  issue (.mov h u) (opInt 0 (intMov (isXI u)) h u) s
/-- IADD (08 R172). -/
def execIadd (h : Hdr) (u : Upper) (s : State) : Host.Outcome State Fault Refusal :=
  issue (.iadd h u) (opInt 1 intIadd h u) s
/-- ISUB (08 R172). -/
def execIsub (h : Hdr) (u : Upper) (s : State) : Host.Outcome State Fault Refusal :=
  issue (.isub h u) (opInt 2 intIsub h u) s
/-- IMUL (08 R172). -/
def execImul (h : Hdr) (u : Upper) (s : State) : Host.Outcome State Fault Refusal :=
  issue (.imul h u) (opInt 3 intImul h u) s
/-- IMULHI (08 R172). -/
def execImulhi (h : Hdr) (u : Upper) (s : State) : Host.Outcome State Fault Refusal :=
  issue (.imulhi h u) (opInt 4 intImulhi h u) s
/-- IMAD (08 R172). -/
def execImad (h : Hdr) (u : Upper) (s : State) : Host.Outcome State Fault Refusal :=
  issue (.imad h u) (opInt 5 intImad h u) s
/-- IMIN (08 R172). -/
def execImin (h : Hdr) (u : Upper) (s : State) : Host.Outcome State Fault Refusal :=
  issue (.imin h u) (opInt 6 intImin h u) s
/-- IMAX (08 R172). -/
def execImax (h : Hdr) (u : Upper) (s : State) : Host.Outcome State Fault Refusal :=
  issue (.imax h u) (opInt 7 intImax h u) s
/-- IABS (08 R172). -/
def execIabs (h : Hdr) (u : Upper) (s : State) : Host.Outcome State Fault Refusal :=
  issue (.iabs h u) (opInt 8 intIabs h u) s
/-- AND (08 R172). -/
def execAnd (h : Hdr) (u : Upper) (s : State) : Host.Outcome State Fault Refusal :=
  issue (.and h u) (opInt 9 intAnd h u) s
/-- OR (08 R172). -/
def execOr (h : Hdr) (u : Upper) (s : State) : Host.Outcome State Fault Refusal :=
  issue (.or h u) (opInt 10 intOr h u) s
/-- XOR (08 R172). -/
def execXor (h : Hdr) (u : Upper) (s : State) : Host.Outcome State Fault Refusal :=
  issue (.xor h u) (opInt 11 intXor h u) s
/-- NOT (08 R172). -/
def execNot (h : Hdr) (u : Upper) (s : State) : Host.Outcome State Fault Refusal :=
  issue (.not h u) (opInt 12 intNot h u) s
/-- SHL (08 R172). -/
def execShl (h : Hdr) (u : Upper) (s : State) : Host.Outcome State Fault Refusal :=
  issue (.shl h u) (opInt 13 intShl h u) s
/-- SHR (08 R172). -/
def execShr (h : Hdr) (u : Upper) (s : State) : Host.Outcome State Fault Refusal :=
  issue (.shr h u) (opInt 14 intShr h u) s
/-- SAR (08 R172). -/
def execSar (h : Hdr) (u : Upper) (s : State) : Host.Outcome State Fault Refusal :=
  issue (.sar h u) (opInt 15 intSar h u) s
/-- ROTL (08 R172). -/
def execRotl (h : Hdr) (u : Upper) (s : State) : Host.Outcome State Fault Refusal :=
  issue (.rotl h u) (opInt 16 intRotl h u) s
/-- POPC (08 R172). -/
def execPopc (h : Hdr) (u : Upper) (s : State) : Host.Outcome State Fault Refusal :=
  issue (.popc h u) (opInt 17 intPopc h u) s
/-- CLZ (08 R172). -/
def execClz (h : Hdr) (u : Upper) (s : State) : Host.Outcome State Fault Refusal :=
  issue (.clz h u) (opInt 18 intClz h u) s
/-- BREV (08 R172). -/
def execBrev (h : Hdr) (u : Upper) (s : State) : Host.Outcome State Fault Refusal :=
  issue (.brev h u) (opInt 19 intBrev h u) s
/-- BFX (08 R172). -/
def execBfx (h : Hdr) (u : Upper) (s : State) : Host.Outcome State Fault Refusal :=
  issue (.bfx h u) (opInt 20 intBfx h u) s
/-- BFI (08 R172). -/
def execBfi (h : Hdr) (u : Upper) (s : State) : Host.Outcome State Fault Refusal :=
  issue (.bfi h u) (opInt 21 intBfi h u) s
/-- SEL (08 R172). -/
def execSel (h : Hdr) (u : Upper) (s : State) : Host.Outcome State Fault Refusal :=
  issue (.sel h u) (opInt 22 intSel h u) s
/-- LEA (08 R172). -/
def execLea (h : Hdr) (u : Upper) (s : State) : Host.Outcome State Fault Refusal :=
  issue (.lea h u) (opInt 23 intLea h u) s

end Sys2Proof.Machine
end

