-- ==== Sys2Proof/Machine/Pred.lean ====
section
/-! DEFINITION. PRED (06 R146 to R149): comparisons into predicates, predicate logic, and queries over the
participating lanes. -/

namespace Sys2Proof.Machine

/-- All W lanes of a warp: 32, or one on a control core (04 R109). -/
def Warp.width (x : Warp) : Mask := if x.control then 1 else 0xFFFFFFFF

/-- A predicate with some lanes replaced. -/
def withBits (old new lanes : Mask) : Mask := (old &&& ~~~lanes) ||| (new &&& lanes)

/-- A result per selected lane into bits of a predicate, or one result into all W bits at warp scope (06 R147); flags
are merged and may trap. -/
def predResult (pd : BitVec 8) (group : Nat) (f : Warp → Nat → Bool × FlagSet) (a : Actor) (s : State) : Res :=
  let x := s.warp a.lead
  let sel := a.self.sel
  let warp := a.scope == .warp
  let outs := (if warp then [0] else lanesOf sel).map (fun l => (l, f x l))
  let set := maskOf ((outs.filter (fun o => o.2.1)).map (fun o => o.1))
  let p := if warp then (if set == 0 then 0 else x.width) else withBits (x.readP pd.toNat) set sel
  let flags := outs.foldl (fun g o => g ||| o.2.2) (0 : FlagSet)
  let s' := s.setWarp a.lead ((x.writeP pd.toNat p).raise flags)
  match trapOf x.trapen group (outs.map (fun o => (o.1, o.2.2, false))) cIntegerOverflow 0
      (if warp then some sel else none) with
  | some t => .trap s' t
  | none => .ok s'

/-- A condition of ICMPP on the sign of a comparison (06 R147). -/
def condHolds (c : Nat) (o : Int) : Bool :=
  match c with
  | 0 => o = 0
  | 1 => o ≠ 0
  | 2 => o < 0
  | 3 => o ≤ 0
  | 4 => o > 0
  | _ => o ≥ 0

/-- One comparison of ICMPP. -/
def icmppLane (h : Hdr) (u : Upper) (c : Ctx) (x : Warp) (l : Nat) : Bool × FlagSet :=
  match u with
  | .x f =>
    let w := intWidth h.width
    let wide := h.width == 1
    let num (v : DWord) : Int := let n := v.toNat % 2 ^ w; if h.x then (n : Int) else sInt w n
    (condHolds f.vc.toNat (num (c.opnd x 0 false wide f.va l) - num (c.opnd x 2 false wide f.vb l)), 0)
  | _ => (false, 0)

/-- ICMPP. -/
def opIcmpp (h : Hdr) (u : Upper) (a : Actor) (s : State) : Res := predResult h.vd 0 (icmppLane h u (ctxOf a s)) a s

/-- A condition of FCMPP, with IV where R147 says so. -/
def fcmp (c : Nat) (a b : Num) : Bool × FlagSet :=
  let snan := flagIf (a.isSnan || b.isSnan) fIV
  if a.isNan || b.isNan then (c = 1 || c = 7, if 2 ≤ c && c ≤ 5 then fIV else snan)
  else if c = 6 then (true, 0)
  else if c = 7 then (false, 0)
  else (condHolds c (cmpNum a b), 0)

/-- The format that FCMPP compares (06 R146). -/
def fcmpFmt (h : Hdr) : Fmt := if h.width == 2 && h.x then bf16 else fpFmt h.width

/-- One comparison of FCMPP. -/
def fcmppLane (h : Hdr) (u : Upper) (c : Ctx) (x : Warp) (l : Nat) : Bool × FlagSet :=
  match u with
  | .x f =>
    let fm := fcmpFmt h
    let wide := h.width == 1
    let num (v : DWord) : Num := fm.decode (v.toNat % 2 ^ fm.width)
    fcmp f.vc.toNat (num (c.opnd x 0 false wide f.va l)) (num (c.opnd x 2 false wide f.vb l))
  | _ => (false, 0)

/-- FCMPP. -/
def opFcmpp (h : Hdr) (u : Upper) (a : Actor) (s : State) : Res :=
  predResult h.vd (fpGroup h.width) (fcmppLane h u (ctxOf a s)) a s

/-- PBOOL: bit 2a + b of the table (06 R148). -/
def opPbool (h : Hdr) (u : Upper) (a : Actor) (s : State) : Res :=
  match u with
  | .x f =>
    let x := s.warp a.lead
    let p := (if f.ma then ~~~(x.readP f.va.toNat) else x.readP f.va.toNat)
    let q := (if f.mb then ~~~(x.readP f.vb.toNat) else x.readP f.vb.toNat)
    let t (n : Nat) (m : Mask) : Mask := if f.vc.getLsbD n then m else 0
    let r := t 0 (~~~p &&& ~~~q) ||| t 1 (~~~p &&& q) ||| t 2 (p &&& ~~~q) ||| t 3 (p &&& q)
    let lanes := if a.scope == .warp then x.width else a.self.sel
    .ok (s.setWarp a.lead (x.writeP h.vd.toNat (withBits (x.readP h.vd.toNat) r lanes)))
  | _ => .ok s

/-- PMOV, in the direction of X (06 R148). -/
def opPmov (h : Hdr) (u : Upper) (a : Actor) (s : State) : Res :=
  match u with
  | .x f =>
    let x := s.warp a.lead
    let k := s.draw 0
    let sel := a.self.sel
    if h.x then
      let p := x.readP f.va.toNat
      if a.scope == .warp then .ok (s.setWarp a.lead (x.writeS h.vd.toNat (p &&& x.width)))
      else
        .ok (s.setWarp a.lead ((lanesOf sel).foldl (fun y l =>
          y.writeV h.vd.toNat l (if p.getLsbD l then 1 else 0)) x))
    else if a.scope == .warp then
      .ok (s.setWarp a.lead (x.writeP h.vd.toNat (x.readS k f.va.toNat &&& x.width)))
    else
      let set := maskOf ((lanesOf sel).filter (fun l => x.readV k f.va.toNat l != 0))
      .ok (s.setWarp a.lead (x.writeP h.vd.toNat (withBits (x.readP h.vd.toNat) set sel)))
  | _ => .ok s

/-- A uniform result goes to every member that has not exited (06 R130). -/
def State.writeUniform (s : State) (a : Actor) (r : Nat) (v : Word) : State :=
  (s.liveMembers a).foldl (fun s m => s.updWarp m.w (fun x => x.writeS r v)) s

/-- The participating lanes with the bit of a predicate in each, concatenated by rank: index and bit (06 R148). -/
def State.participants (s : State) (a : Actor) (p : Nat) : List (Nat × Bool) :=
  a.members.flatMap (fun m =>
    let off := if a.scope == .flock || a.scope == .block then s.rankIn a.scope m.w * Config.warpWidth else 0
    (lanesOf m.sel).map (fun l => (off + l, ((s.warp m.w).readP p).getLsbD l)))

/-- PCNT. -/
def opPcnt (h : Hdr) (u : Upper) (a : Actor) (s : State) : Res :=
  match u with
  | .x f =>
    let n := ((s.participants a f.va.toNat).filter (fun e => e.2)).length
    .ok (s.writeUniform a h.vd.toNat (BitVec.ofNat 32 n))
  | _ => .ok s

/-- The lowest lane of a mask, as a mask. -/
def lowestLane (m : Mask) : Mask := match (lanesOf m).head? with | some l => maskOf [l] | none => 0

/-- PFIRST. -/
def opPfirst (h : Hdr) (u : Upper) (a : Actor) (s : State) : Res :=
  match u with
  | .x f =>
    let x := s.warp a.lead
    .ok (s.setWarp a.lead (x.writeP h.vd.toNat (lowestLane (x.readP f.va.toNat &&& a.self.sel))))
  | _ => .ok s

/-- PQRY: summary, mask or lowest (06 R148). -/
def opPqry (h : Hdr) (u : Upper) (a : Actor) (s : State) : Res :=
  match u with
  | .x f =>
    let ps := s.participants a f.va.toNat
    let v : Word :=
      if f.vc == 1 then (s.warp a.lead).readP f.va.toNat &&& a.self.sel
      else if f.vc == 2 then
        (match ps.find? (fun e => e.2) with | some e => BitVec.ofNat 32 e.1 | none => 0xFFFFFFFF)
      else (if ps.any (fun e => e.2) then 1 else 0) ||| (if ps.any (fun e => !e.2) then 2 else 0)
    .ok (s.writeUniform a h.vd.toNat v)
  | _ => .ok s

/-- ICMPP (06 R146 to R148). -/
def execIcmpp (h : Hdr) (u : Upper) (s : State) : Host.Outcome State Fault Refusal := issue (.icmpp h u) (opIcmpp h u) s
/-- FCMPP (06 R146 to R148). -/
def execFcmpp (h : Hdr) (u : Upper) (s : State) : Host.Outcome State Fault Refusal := issue (.fcmpp h u) (opFcmpp h u) s
/-- PBOOL (06 R146 to R148). -/
def execPbool (h : Hdr) (u : Upper) (s : State) : Host.Outcome State Fault Refusal := issue (.pbool h u) (opPbool h u) s
/-- PMOV (06 R146 to R148). -/
def execPmov (h : Hdr) (u : Upper) (s : State) : Host.Outcome State Fault Refusal := issue (.pmov h u) (opPmov h u) s
/-- PCNT (06 R146 to R148). -/
def execPcnt (h : Hdr) (u : Upper) (s : State) : Host.Outcome State Fault Refusal := issue (.pcnt h u) (opPcnt h u) s
/-- PFIRST (06 R146 to R148). -/
def execPfirst (h : Hdr) (u : Upper) (s : State) : Host.Outcome State Fault Refusal := issue (.pfirst h u) (opPfirst h u) s
/-- PQRY (06 R146 to R148). -/
def execPqry (h : Hdr) (u : Upper) (s : State) : Host.Outcome State Fault Refusal := issue (.pqry h u) (opPqry h u) s

end Sys2Proof.Machine
end

