-- ==== Sys2Proof/Machine/Xlane.lean ====
section
/-! DEFINITION. XLANE (09 R189 to R198): shuffles, lane reads and writes, reductions, scans and transposes, over the
lanes of one warp or the concatenated lanes of a member set. -/

namespace Sys2Proof.Machine

/-- The warp of a rank: the warp itself at lane and warp scope (09 R190). -/
def State.rankWarp (s : State) (a : Actor) (r : Nat) : Nat :=
  if a.scope == .flock || a.scope == .block then
    ((s.memberSet a.scope a.lead).find? (fun v => s.rankIn a.scope v = r)).getD a.lead
  else a.lead

/-- Rank of a member: 0 at lane and warp scope. -/
def State.actorRank (s : State) (a : Actor) (w : Nat) : Nat :=
  if a.scope == .flock || a.scope == .block then s.rankIn a.scope w else 0

/-- The value that lane `i` of the concatenated lanes holds now (09 R190). -/
def State.laneValue (s : State) (a : Actor) (wide : Bool) (r : BitVec 8) (i : Nat) : DWord :=
  (s.warp (s.rankWarp a (i / Config.warpWidth))).value (s.draw 0) false wide r.toNat (i % Config.warpWidth)

/-- Register writes in one lane of a warp. -/
structure LaneWrite where
  w : Nat
  lane : Nat
  regs : List (Nat × Word)
  deriving DecidableEq, Repr

/-- Performs writes in vector lanes. -/
def State.writeLanes (s : State) (ws : List LaneWrite) : State :=
  ws.foldl (fun s e => s.updWarp e.w (fun x => x.writeLane false e.lane e.regs)) s

/-- The selected lanes of all members, by rank: warp, lane, and index in the concatenated lanes. -/
def State.selectedLanes (s : State) (a : Actor) : List (Nat × Nat × Nat) :=
  a.members.flatMap (fun m => (lanesOf m.sel).map (fun l => (m.w, l, s.actorRank a m.w * Config.warpWidth + l)))

/-- Completes a cross-lane operation with its flags: to every member that arrived with a participating lane, and a
trap where one of them enables a flag; `outs` names the lanes with what their results raised (09 R193, 03 R80, R83,
06 R133). -/
def crossFinish (a : Actor) (s t : State) (group : Nat) (all : FlagSet) (outs : List (Nat × Nat × FlagSet)) : Res :=
  let hit := (s.liveMembers a).filter (fun m => m.sel != 0)
  let t1 := hit.foldl (fun t m => t.updWarp m.w (fun x => x.raise all)) t
  let en := hit.foldl (fun g m => g ||| enabledFlags (s.warp m.w).trapen group all) (0 : FlagSet)
  if en == 0 then .ok t1
  else
    let i := lowestFlag en
    let bad := outs.filter (fun o => o.2.2.getLsbD i)
    let first := (bad.head?.map (fun o => o.1)).getD a.lead
    let lanes := if a.scope == .warp then a.self.sel
      else maskOf ((bad.filter (fun o => o.1 = first)).map (fun o => o.2.1))
    .trap t1 { FaultInfo.of (BitVec.ofNat 8 (0x20 + 6 * group + i)) 0 with lanes := lanes }

/-- Where a shuffle reads: the lane index, or none for the reading lane's own value (09 R191). -/
def shflSource (mode k n idx b : Nat) : Nat :=
  let base := idx / 2 ^ k * 2 ^ k
  let i := idx - base
  let t : Int :=
    if mode = 0 then (b : Int) else if mode = 1 then (i : Int) - b else if mode = 2 then (i : Int) + b
    else ((i ^^^ b : Nat) : Int)
  if 0 ≤ t && t < 2 ^ k && decide (base + t.toNat < n) then base + t.toNat else idx

/-- The smallest k with 2^k at least n, from `k` up. -/
def log2Up (n fuel k : Nat) : Nat :=
  match fuel with
  | 0 => k
  | fuel + 1 => if n ≤ 2 ^ k then k else log2Up n fuel (k + 1)

/-- SHFL and SHFLX; `seg` says that k is a field. A uniform index is the lowest-ranked member's (04 R96). -/
def opShuffle (seg : Bool) (h : Hdr) (u : Upper) (a : Actor) (s : State) : Res :=
  match u with
  | .x f =>
    let wide := h.width == 1
    let n := s.laneCount a.scope a.lead
    let vc := f.vc.toNat
    let k := if seg then vc / 4 else log2Up n 12 0
    let first := ((s.liveMembers a).head?.map (fun m => m.w)).getD a.lead
    .ok (s.writeLanes ((s.selectedLanes a).map (fun (w, l, idx) =>
      let b := ((s.warp (if f.ub then first else w)).reg (s.draw 2) f.ub f.vb.toNat l).toNat
      ⟨w, l, pairWrites wide h.vd (s.laneValue a wide f.va (shflSource (vc % 4) k n idx b))⟩)))
  | _ => .ok s

/-- RFIRST: the value of the lowest participating lane (09 R192). -/
def opRfirst (h : Hdr) (u : Upper) (a : Actor) (s : State) : Res :=
  match u with
  | .x f =>
    let wide := h.width == 1
    match s.selectedLanes a with
    | [] => .ok s
    | (w, l, i) :: t =>
      let ws := pairWrites wide h.vd (s.laneValue a wide f.va i)
      if a.scope == .warp then .ok (s.updWarp a.lead (fun x => x.writeLane true 0 ws))
      else .ok (s.writeLanes (((w, l, i) :: t).map (fun e => ⟨e.1, e.2.1, ws⟩)))
  | _ => .ok s

/-- Lane index of RLANE and WLANE: s(vb) mod W. -/
def laneIndex (x : Warp) (k : Nat) (f : XForm) : Nat := (x.readS k f.vb.toNat).toNat % (popMask x.width)

/-- RLANE (09 R192). -/
def opRlane (h : Hdr) (u : Upper) (a : Actor) (s : State) : Res :=
  match u with
  | .x f =>
    let wide := h.width == 1
    let x := s.warp a.lead
    let v := x.value (s.draw 0) false wide f.va.toNat (laneIndex x (s.draw 4) f)
    .ok (s.setWarp a.lead (x.writeLane true 0 (pairWrites wide h.vd v)))
  | _ => .ok s

/-- WLANE (09 R192). -/
def opWlane (h : Hdr) (u : Upper) (a : Actor) (s : State) : Res :=
  match u with
  | .x f =>
    let wide := h.width == 1
    let x := s.warp a.lead
    let b := laneIndex x (s.draw 4) f
    if a.self.sel.getLsbD b then
      .ok (s.setWarp a.lead (x.writeLane false b
        (pairWrites wide h.vd (x.value (s.draw 0) true wide f.va.toNat 0))))
    else .ok s
  | _ => .ok s

/-! Reductions and scans (09 R193 to R197). -/

/-- Bits of an element of a reduction (09 R189). -/
def redWidth (h : Hdr) : Nat := if h.x then (if h.width == 1 then 64 else 32) else (fpFmt h.width).width

/-- The smaller or larger of two integers by their order. -/
def pickInt (max uns : Bool) (w a b : Nat) : Nat :=
  let le := if uns then decide (a ≤ b) else decide (sInt w a ≤ sInt w b)
  if le != max then a else b

/-- One step a op b, with its flags (09 R193). -/
def redStep (ovf : Word) (h : Hdr) (op a b : Nat) : Nat × FlagSet :=
  if h.x then
    let w := redWidth h
    let v := match op with
      | 0 => (a + b) % 2 ^ w
      | 1 => pickInt false h.sat w a b
      | 2 => pickInt true h.sat w a b
      | 3 => a &&& b
      | 4 => a ||| b
      | _ => a ^^^ b
    (v, 0)
  else
    let f := fpFmt h.width
    let r := Rnd.rne ovf
    if op = 0 then f.finish r (addRaw 0 (f.decode a) (f.decode b))
    else
      let (n, g) := minMax (op = 2) (f.decode a) (f.decode b)
      ((f.roundNum r n).1, g)

/-- The identity of an op (09 R193). -/
def redIdentity (h : Hdr) (op : Nat) : Nat :=
  if h.x then
    let w := redWidth h
    match op with
    | 1 => if h.sat then 2 ^ w - 1 else 2 ^ (w - 1) - 1
    | 2 => if h.sat then 0 else 2 ^ (w - 1)
    | 3 => 2 ^ w - 1
    | _ => 0
  else
    let f := fpFmt h.width
    if op = 0 then f.signBit else if op = 1 then f.infBits else f.signBit + f.infBits

/-- The W lanes of a member, with the identity where a lane does not participate. -/
def redLanes (s : State) (m : Member) (h : Hdr) (f : XForm) (op : Nat) : List Nat :=
  (List.range Config.warpWidth).map (fun l =>
    if m.sel.getLsbD l then
      ((s.warp m.w).value (s.draw 0) false (h.width == 1) f.va.toNat l).toNat % 2 ^ redWidth h
    else redIdentity h op)

/-- One butterfly step at distance d: each lane's value and flags (09 R194, R195). -/
def butterfly (ovf : Word) (h : Hdr) (op : Nat) (y : List Nat) (d : Nat) : List (Nat × FlagSet) :=
  (List.range Config.warpWidth).map (fun l =>
    let p := l ^^^ d
    redStep ovf h op (y.getD (min l p) 0) (y.getD (max l p) 0))

/-- All steps of a member's reduction, for the distances given: the result of lane 0 and the flags (09 R195). -/
def butterflies (ovf : Word) (h : Hdr) (op : Nat) (y : List Nat) (ds : List Nat) (g : FlagSet) : Nat × FlagSet :=
  match ds with
  | [] => (y.getD 0 0, g)
  | d :: t =>
    let z := butterfly ovf h op y d
    butterflies ovf h op (z.map (fun e => e.1)) t (g ||| orFlags (z.map (fun e => e.2)))

/-- The writes of a reduction's value. -/
def redWrites (h : Hdr) (v : Nat) : List (Nat × Word) := pairWrites (h.width == 1) h.vd (BitVec.ofNat 64 v)

/-- TRAPEN group of a reduction's flags. -/
def redGroup (h : Hdr) : Nat := fpGroup h.width

/-- REDSTEP (09 R194). -/
def opRedstep (h : Hdr) (u : Upper) (a : Actor) (s : State) : Res :=
  match u with
  | .x f =>
    let op := f.vc.toNat % 16
    let ovf := (s.part (s.partOf a.lead)).ovf
    let z := butterfly ovf h op (redLanes s a.self h f op) (2 ^ (f.vc.toNat / 16))
    let outs := (lanesOf a.self.sel).map (fun l => (l, z.getD l (0, 0)))
    crossFinish a s (s.writeLanes (outs.map (fun o => ⟨a.lead, o.1, redWrites h o.2.1⟩))) (redGroup h)
      (orFlags (outs.map (fun o => o.2.2))) (outs.map (fun o => (a.lead, o.1, o.2.2)))
  | _ => .ok s

/-- Writes one result to every selected lane of every member, or to a uniform group at warp scope. -/
def State.spread (s : State) (a : Actor) (ws : List (Nat × Word)) : State :=
  if a.scope == .warp then s.updWarp a.lead (fun x => x.writeLane true 0 ws)
  else s.writeLanes ((s.selectedLanes a).map (fun e => ⟨e.1, e.2.1, ws⟩))

/-- RED (09 R195). A member that has exited contributes the identity. -/
def opRed (h : Hdr) (u : Upper) (a : Actor) (s : State) : Res :=
  match u with
  | .x f =>
    let op := f.vc.toNat
    let ovf := (s.part (s.partOf a.lead)).ovf
    let ds := if (s.warp a.lead).control then [] else [16, 8, 4, 2, 1]
    let one (m : Member) := butterflies ovf h op (redLanes s m h f op) ds 0
    let wide := a.scope == .flock || a.scope == .block
    let ranks := if wide then (s.memberSet a.scope a.lead).length else 1
    let q (r : Nat) : Nat × FlagSet := match a.members.find? (fun m => s.actorRank a m.w = r) with
      | some m => one m
      | none => (redIdentity h op, 0)
    let (v, g) := (List.range (ranks - 1)).foldl (fun (acc : Nat × FlagSet) r =>
      let (x, k) := redStep ovf h op acc.1 (q (r + 1)).1
      (x, acc.2 ||| (q (r + 1)).2 ||| k)) (q 0)
    crossFinish a s (s.spread a (redWrites h v)) (redGroup h) g
      ((s.selectedLanes a).map (fun e => (e.1, e.2.1, g)))
  | _ => .ok s

/-- The running pair of REDCMP: sum, compensation and the flags of its steps; ER where a compensation step is
inexact (09 R196). -/
structure CmpAcc where
  s : Num
  c : Num
  g : FlagSet
  er : Bool
  deriving DecidableEq, Repr

/-- The exact sum of a sequence that is not all finite: an infinity or NaN. -/
def specialSum (xs : List Num) : Num :=
  let neg := xs.any (fun x => x.isInf && x.sign)
  let pos := xs.any (fun x => x.isInf && !x.sign)
  if xs.any Num.isNan || (neg && pos) then .nan false else .inf neg

/-- Whether a result differs from an exact sum, NaN being the same as NaN. -/
def sumDiffers (v exact : Num) : Bool :=
  match v, exact with
  | .nan _, .nan _ => false
  | .inf a, .inf b => a != b
  | .fin .., .fin .. => numsDiffer v exact
  | _, _ => true

/-- REDCMP over a sequence: bits of s, bits of c or 0 with fold, and flags (09 R196). -/
def redcmpVal (f : Fmt) (ovf : Word) (fold : Bool) (seq : List Nat) : Nat × Nat × FlagSet :=
  let xs := seq.map f.decode
  match xs with
  | [] => (0, 0, 0)
  | x :: t =>
    let acc := t.foldl (fun (q : CmpAcc) y =>
      let (s, e) := twoSum f ovf q.s y
      let c := rnAdd f ovf q.c e.v
      ⟨s.v, c.v, orFlags [q.g, s.g, e.g, c.g], q.er || c.g.getLsbD 4⟩) ⟨x, .fin false 0 0, 0, false⟩
    let folded := rnAdd f ovf acc.s acc.c
    let steps := if fold then acc.g ||| folded.g else acc.g
    let exact := t.foldl (fun e y => exactAdd e.num y) (exactAdd x (.fin x.sign 0 0))
    if xs.all Num.isFin && !steps.getLsbD 2 then
      let res := if fold then folded.v else (exactAdd acc.s acc.c).num
      let bits (x : Num) : Nat := (f.roundNum (Rnd.rne 0) x).1
      (if fold then bits folded.v else bits acc.s, if fold then 0 else bits acc.c,
        (steps &&& fUF) ||| flagIf acc.er fER ||| flagIf (numsDiffer res exact.num) fNX)
    else
      let (v, g) := t.foldl (fun (q : Nat × FlagSet) y =>
        let (b, k) := f.finish (Rnd.rne ovf) (addRaw 0 (f.decode q.1) y)
        (b, q.2 ||| k)) (f.roundNum (Rnd.rne ovf) x)
      let sum := if xs.all Num.isFin then exact.num else specialSum xs
      (v, if fold then 0 else f.errBits, (g &&& ~~~fNX) ||| fER ||| flagIf (xs.all Num.isFin) fOF
        ||| flagIf (sumDiffers (f.decode v) sum) fNX)

/-- REDCMP (09 R196). -/
def opRedcmp (h : Hdr) (u : Upper) (a : Actor) (s : State) : Res :=
  match u with
  | .x q =>
    let f := fpFmt h.width
    let wide := h.width == 1
    let fold := q.vc == 1
    let seq := (s.selectedLanes a).map (fun e => (s.laneValue a wide q.va e.2.2).toNat % 2 ^ f.width)
    let (v, c, g) := redcmpVal f (s.part (s.partOf a.lead)).ovf fold seq
    let ws := pairWrites wide h.vd (BitVec.ofNat 64 v)
      ++ (if fold then [] else pairWrites wide (h.vd + (if wide then 2 else 1)) (BitVec.ofNat 64 c))
    crossFinish a s (s.spread a ws) (redGroup h) g ((s.selectedLanes a).map (fun e => (e.1, e.2.1, g)))
  | _ => .ok s

/-- SCAN over the participating lanes: what each lane receives, and the flags of its step (09 R197). -/
def scanVals (ovf : Word) (h : Hdr) (op : Nat) (excl : Bool) (first : Bool) (acc : Nat) (vs : List Nat) :
    List (Nat × FlagSet) :=
  match vs with
  | [] => []
  | v :: t =>
    let (new, g) := if first then (v, 0) else redStep ovf h op acc v
    (if excl then acc else new, g) :: scanVals ovf h op excl false new t

/-- SCAN (09 R197). -/
def opScan (h : Hdr) (u : Upper) (a : Actor) (s : State) : Res :=
  match u with
  | .x f =>
    let op := f.vc.toNat % 16
    let ls := s.selectedLanes a
    let vs := ls.map (fun e => (s.laneValue a (h.width == 1) f.va e.2.2).toNat % 2 ^ redWidth h)
    let outs := List.zip ls (scanVals (s.part (s.partOf a.lead)).ovf h op (f.vc.getLsbD 4) true (redIdentity h op) vs)
    crossFinish a s (s.writeLanes (outs.map (fun o => ⟨o.1.1, o.1.2.1, redWrites h o.2.1⟩))) (redGroup h)
      (orFlags (outs.map (fun o => o.2.2))) (outs.map (fun o => (o.1.1, o.1.2.1, o.2.2)))
  | _ => .ok s

/-- TRN: lane l takes, in register i, register l mod n of lane g x n + i (09 R198). -/
def opTrn (h : Hdr) (u : Upper) (a : Actor) (s : State) : Res :=
  match u with
  | .x f =>
    let n := 2 ^ (f.vc.toNat + 1)
    let x := s.warp a.lead
    .ok (s.writeLanes ((lanesOf a.self.sel).map (fun l =>
      ⟨a.lead, l, (List.range n).map (fun i =>
        (h.vd.toNat + i, x.readV (s.draw 0) (f.va.toNat + l % n) (l / n * n + i)))⟩)))
  | _ => .ok s

/-- SHFL (09 R191). -/
def execShfl (h : Hdr) (u : Upper) (s : State) : Host.Outcome State Fault Refusal := issue (.shfl h u) (opShuffle false h u) s
/-- SHFLX (09 R191). -/
def execShflx (h : Hdr) (u : Upper) (s : State) : Host.Outcome State Fault Refusal := issue (.shflx h u) (opShuffle true h u) s
/-- RFIRST (09 R192). -/
def execRfirst (h : Hdr) (u : Upper) (s : State) : Host.Outcome State Fault Refusal := issue (.rfirst h u) (opRfirst h u) s
/-- RLANE (09 R192). -/
def execRlane (h : Hdr) (u : Upper) (s : State) : Host.Outcome State Fault Refusal := issue (.rlane h u) (opRlane h u) s
/-- WLANE (09 R192). -/
def execWlane (h : Hdr) (u : Upper) (s : State) : Host.Outcome State Fault Refusal := issue (.wlane h u) (opWlane h u) s
/-- REDSTEP (09 R194). -/
def execRedstep (h : Hdr) (u : Upper) (s : State) : Host.Outcome State Fault Refusal := issue (.redstep h u) (opRedstep h u) s
/-- RED (09 R195). -/
def execRed (h : Hdr) (u : Upper) (s : State) : Host.Outcome State Fault Refusal := issue (.red h u) (opRed h u) s
/-- REDCMP (09 R196). -/
def execRedcmp (h : Hdr) (u : Upper) (s : State) : Host.Outcome State Fault Refusal := issue (.redcmp h u) (opRedcmp h u) s
/-- SCAN (09 R197). -/
def execScan (h : Hdr) (u : Upper) (s : State) : Host.Outcome State Fault Refusal := issue (.scan h u) (opScan h u) s
/-- TRN (09 R198). -/
def execTrn (h : Hdr) (u : Upper) (s : State) : Host.Outcome State Fault Refusal := issue (.trn h u) (opTrn h u) s

end Sys2Proof.Machine
end

