-- ==== Sys2Proof/Machine/Mem.lean ====
section
/-! DEFINITION. MEM (10 R206 to R222): loads, stores, atomics, fences, prefetches and record transfers. A load reads
memory at issue, or as late as LOAD_DATA_RETURN, by the choices of 02 R53, and its registers receive the values then; a store
and an atomic take their place among the writes at issue (log 6). -/

namespace Sys2Proof.Machine

/-- One access of an instruction: the warp, its lane, and the address formed there (10 R207). -/
structure Item where
  w : Nat
  lane : Nat
  addr : DWord
  deriving DecidableEq, Repr

/-- The member that has not exited and ranks lowest: its base pair serves all (04 R96, 10 R207). -/
def State.firstMember (s : State) (a : Actor) : Nat := ((s.liveMembers a).head?.map (fun m => m.w)).getD a.lead

/-- The address of a lane: base + off x size + imm8 x size, modulo 2^64 (04 R99, 10 R207). -/
def laneAddr (x : Warp) (k : Nat) (warp : Bool) (base : DWord) (f : MForm) (size l : Nat) : DWord :=
  let off : DWord := if f.oe then (x.reg (k + 2) warp f.off.toNat l).signExtend 64 else 0
  base + off * BitVec.ofNat 64 size + f.imm8.signExtend 64 * BitVec.ofNat 64 size

/-- The accesses of an instruction, by rank and lane; one alone at warp scope (10 R207). -/
def State.items (s : State) (a : Actor) (f : MForm) (size : Nat) : List Item :=
  let k := s.draw 0
  let base := (s.warp (s.firstMember a)).readPairS k f.base.toNat
  let warp := a.scope == .warp
  a.members.flatMap (fun m =>
    let ls := if warp then (if m.sel == 0 then [] else [0]) else lanesOf m.sel
    ls.map (fun l => ⟨m.w, l, laneAddr (s.warp m.w) k warp base f size l⟩))

/-- The accesses with where their bytes lie, or the fault of R210: the first cause of the lowest faulting lane, with
every faulting lane of that member. At warp scope every selected lane is named (log 14). -/
def State.resolve (s : State) (a : Actor) (agent fn : Nat) (sp : Space) (r : Rights) (size align : Nat)
    (its : List Item) : Except FaultInfo (List (Item × Target)) :=
  let blk := (s.warp a.lead).blk
  let v := s.via a.lead
  let tried := its.map (fun i => (i, s.checkElem v blk agent sp r (s.draw 8) i.addr size align))
  let bad := tried.filterMap (fun e => match e.2 with | .error c => some (e.1, c) | .ok _ => none)
  match bad with
  | [] => .ok (tried.filterMap (fun e => match e.2 with | .ok t => some (e.1, t) | .error _ => none))
  | (i, c) :: _ =>
    let lanes := if a.scope == .warp then a.self.sel
      else maskOf ((bad.filter (fun e => e.1.w = i.w)).map (fun e => e.1.lane))
    .error { FaultInfo.of c fn with agent := agent, replay := replayable c, addr := i.addr, lanes := lanes }

/-- The TLB after the accesses to global memory (21 R359). -/
def State.fillFor (s : State) (a : Actor) (sp : Space) (its : List Item) : State :=
  match sp with
  | .global =>
    if (s.warp a.lead).fw then s
    else its.foldl (fun s i => s.fillTlb (s.warp a.lead).core (s.partOf a.lead) (s.draw 8) i.addr) s
  | _ => s

/-- Bytes of an element size code (04 R99). -/
def esizeBytes (e : BitVec 3) : Nat := 2 ^ e.toNat

/-- The space of a MEM function (10 R207). -/
def memSpace (fn : Nat) : Space :=
  if fn = 2 || fn = 3 || fn = 7 then .scratch else if fn = 4 || fn = 5 then .window else .global

/-- Registers of a loaded element, with the fill of 1 and 2 bytes (10 R208). -/
def loadWords (bs : List Byte) (sext : Bool) : List Word :=
  match bs with
  | [b] => [if sext then b.signExtend 32 else b.zeroExtend 32]
  | [b, c] => [if sext then (c ++ b).signExtend 32 else (c ++ b).zeroExtend 32]
  | _ => (List.range (bs.length / 4)).map (fun i => BitVec.ofNat 32 (leNat ((bs.drop (4 * i)).take 4)))

/-- The bytes of an element in registers from `r` (10 R208). -/
def storeBytes (x : Warp) (k : Nat) (warp : Bool) (r l size : Nat) : List Byte :=
  ((List.range ((size + 3) / 4)).flatMap (fun i => leBytes 4 (x.reg k warp (r + i) l).toNat)).take size

/-- Whether a member's counter has no room (10 R212). -/
def State.loadsFull (s : State) (a : Actor) : Bool :=
  (s.liveMembers a).any (fun m => decide (Config.counterMax ≤ (s.warp m.w).loads.length))
/-- Whether a member's store counter has no room. -/
def State.storesFull (s : State) (a : Actor) : Bool :=
  (s.liveMembers a).any (fun m => decide (Config.counterMax ≤ (s.warp m.w).stores.length))

/-- The active mask of a member. -/
def Actor.actOf (a : Actor) (w : Nat) : Mask := ((a.members.find? (fun m => m.w = w)).map (fun m => m.act)).getD 0

/-- A member as an agent of memory, at the scope of its access. -/
def State.agentOf (s : State) (a : Actor) (w scope : Nat) : Agent := s.path w (a.actOf w) scope

/-- The agent of one access of an instruction. -/
def State.agentAt (s : State) (a : Actor) (i : Item) (scope : Nat) : Agent := { s.agentOf a i.w scope with lane := i.lane }

/-- An order field acquires (02 R39). -/
def acquires (f : MForm) : Bool := f.order == 1 || f.order == 3
/-- An order field releases (02 R39). -/
def releases (f : MForm) : Bool := f.order == 2 || f.order == 3

/-- The fold members whose scratch an access through a window reaches, each with its core (02 R33). -/
def State.foldsOf (s : State) (fn : Nat) (ts : List Target) : List (Nat × Nat) :=
  if memSpace fn != .window then []
  else (ts.filterMap (fun t => match t with
    | .scr u _ _ => some (u, (s.block u).core)
    | .glob _ => none)).eraseDups

/-- An access that releases by its order field: what each member knows is ordered before whoever acquires it (02 R39, R48). -/
def State.released (s : State) (a : Actor) (f : MForm) : State :=
  if releases f then (s.liveMembers a).foldl (fun s m => s.releaseBy (s.agentOf a m.w f.mscope.toNat)) s else s

/-- The peers that an access names. -/
def peersOf (ts : List Target) : List Nat :=
  (ts.flatMap (fun t => match t with
    | .glob rs => rs.filterMap (fun e => match e.1 with | .peer d _ => some d | _ => none)
    | .scr .. => [])).eraseDups

/-- A peer that an access names can no longer be reached (22 R377). -/
def State.lostPeer (s : State) (ts : List Target) : Bool := (peersOf ts).any (fun d => s.links.contains d)

/-- LINK-DOWN (21 R356). -/
def cLinkDown : Cause := 0xB0

/-- PEER-POISON (21 R356). -/
def cPeerPoison : Cause := 0xB3

/-- Whether an answer of a peer comes as poison: the peer's doing, and free here (22 R377, log 103). -/
def State.peerPoisons (s : State) (ts : List Target) : Bool :=
  !(peersOf ts).isEmpty && Config.freeBit (s.draw 14) 0

/-- What keeps an atomic from memory: a lost peer, or poison (10 R211, 21 R356). -/
def State.badAccess (s : State) (agent : Nat) (ts : List Target) : Option Cause :=
  if s.lostPeer ts then some cLinkDown
  else if ts.any s.poisonedTarget then some (agentCause agent kPoison)
  else none

/-- What keeps a load from its data: as an atomic, or a peer's poison. -/
def State.badLoad (s : State) (ts : List Target) : Option Cause :=
  match s.badAccess 0 ts with
  | some c => some c
  | none => if s.peerPoisons ts then some cPeerPoison else none

/-- Counts a load on every member that has not exited, with the cells that each receives (10 R212). -/
def State.pushLoads (s : State) (a : Actor) (bad : Option Cause) (fn : Nat) (ts : List Target) (atomic : Bool)
    (cells : List (Nat × LoadCell)) (reads : List (Nat × LateRead)) : State :=
  let pc := (s.warp a.lead).pc
  (s.liveMembers a).foldl (fun s m => s.updWarp m.w (fun x =>
    { x with loads := x.loads ++
      [⟨(cells.filter (fun c => c.1 = m.w)).map (fun c => c.2), (reads.filter (fun c => c.1 = m.w)).map (fun c => c.2), bad, peersOf ts, s.foldsOf fn ts, atomic, pc,
        a.iword, false⟩] })) s

/-- Counts a store on every member that has not exited (10 R212). -/
def State.pushStores (s : State) (a : Actor) (bad : Option Cause) (fn : Nat) (ts : List Target) (atomic : Bool) : State :=
  let pc := (s.warp a.lead).pc
  (s.liveMembers a).foldl (fun s m => s.updWarp m.w (fun x =>
    { x with stores := x.stores ++
      [⟨s.freeCtr, bad, peersOf ts, s.foldsOf fn ts, atomic, memSpace fn == .scratch, pc, a.iword, false⟩] })) s

/-- The cells of consecutive registers. -/
def cellsOf (w : Nat) (uniform : Bool) (r l : Nat) (ws : List Word) : List (Nat × LoadCell) :=
  (List.range ws.length).map (fun i => (w, ⟨uniform, r + i, l, ws.getD i 0, 0, false⟩))

/-- What the accesses of a load have read is seen, and the releases that they have read are heard (02 R41, R48). -/
def State.sawAll (s : State) (a : Actor) (f : MForm) (rs : List (Item × Target)) : State :=
  rs.foldl (fun t e => t.readBy s (s.agentAt a e.1 f.mscope.toNat) (s.draw 6) (acquires f) e.2) s

/-- Whether two runs of bytes meet; on-chip storage may be scratch under another name (02 R36). -/
def runsMeet (p q : Place × Nat) : Bool :=
  match p.1, q.1 with
  | .phys a, .phys b => decide (a < b + q.2) && decide (b < a + p.2)
  | .peer d a, .peer e b => d = e && decide (a < b + q.2) && decide (b < a + p.2)
  | .onChip a, .onChip b => decide (a < b + q.2) && decide (b < a + p.2)
  | _, _ => false

/-- Whether two elements share a byte. -/
def targetsMeet (t u : Target) : Bool :=
  match t, u with
  | .glob rs, .glob qs => rs.any (fun p => qs.any (runsMeet p))
  | .scr b o n, .scr c p m => b = c && decide (o < p + m) && decide (p < o + n)
  | _, _ => false

/-- Whether an element is on-chip storage by its physical name, which may be scratch (02 R36). -/
def Target.onChip (t : Target) : Bool :=
  match t with
  | .glob rs => rs.any (fun e => match e.1 with | .onChip _ => true | _ => false)
  | .scr .. => false

/-- Whether two elements may name one location (02 R36). -/
def mayMeet (t u : Target) : Bool := targetsMeet t u || t.onChip || u.onChip

/-- An access of some members to elements: the loads that they have in flight to the same places have read them (02 R41). -/
def State.fixReads (s : State) (a : Actor) (ts : List Target) : State :=
  (s.liveMembers a).foldl (fun s m =>
    if (s.warp m.w).loads.any (fun q => !q.reads.isEmpty) then
      s.updWarp m.w (fun x => x.fixReads (fun _ r => r.act &&& m.act != 0 && ts.any (mayMeet r.target)))
    else s) s

/-- The reads that a load may still make until it returns (02 R43, R53): of memory of the device, and unless it acquires, or
meets what keeps it from its data. -/
def lateReads (a : Actor) (f : MForm) (bad : Option Cause) (fill : Item → Filling) (rs : List (Item × Target)) :
    List (Nat × LateRead) :=
  if acquires f || bad.isSome || !(peersOf (rs.map (fun e => e.2))).isEmpty then []
  else rs.map (fun e => (e.1.w, ⟨e.1.lane, e.2, fill e.1, a.actOf e.1.w, f.mscope.toNat⟩))

/-- LD, LDS and LDF (10 R214). -/
def opLoad (fn : Nat) (h : Hdr) (u : Upper) (a : Actor) (s : State) : Res :=
  match u with
  | .m f =>
    let size := esizeBytes f.esize
    let its := s.items a f size
    if its.isEmpty then .ok s
    else if s.loadsFull a then .hold
    else
      match s.resolve a 0 fn (memSpace fn) (Rights.r (f.mscope == 5)) size (if f.order == 0 then 1 else size) its with
      | .error e => .fault e
      | .ok rs =>
        let warp := a.scope == .warp
        let ts := rs.map (fun e => e.2)
        let cells := rs.flatMap (fun e =>
          cellsOf e.1.w warp h.vd.toNat e.1.lane
            (loadWords (s.see (s.agentAt a e.1 f.mscope.toNat) (s.draw 6) e.2) h.x))
        let t := (((s.fixReads a ts).fillFor a (memSpace fn) its).notePeerReads ts).sawAll a f rs
        .ok (t.pushLoads a (s.badLoad ts) fn ts false cells
          (lateReads a f (s.badLoad ts) (fun _ => .elem warp h.vd.toNat h.x) rs))
  | _ => .ok s

/-- Whether some elements of a list share a byte. -/
def anyMeet (ts : List Target) : Bool :=
  match ts with
  | [] => false
  | t :: r => r.any (targetsMeet t) || anyMeet r

/-- Insertion by key. -/
def insertKeyed {β : Type} (e : Nat × β) (l : List (Nat × β)) : List (Nat × β) :=
  match l with
  | [] => [e]
  | f :: t => if e.1 ≤ f.1 then e :: f :: t else f :: insertKeyed e t

/-- The order in which the lanes of one instruction act: free where elements meet, and without effect where they do
not (02 R40). -/
def State.laneOrder {β : Type} (s : State) (meet : Bool) (l : List β) : List β :=
  if meet then
    ((l.zip (List.range l.length)).foldr (fun e t => insertKeyed (Config.freeNat (s.draw 9) e.2, e.1) t) []).map
      (fun e => e.2)
  else l

/-- Stores elements, each by its agent, then clears the poison of sectors they cover together (10 R211, R214). -/
def State.storeAll (s : State) (p : Put) (es : List (Agent × Target × List Byte)) : State :=
  let ts := es.map (fun e => e.2.1)
  ((s.laneOrder (anyMeet ts) es).foldl (fun t e => t.putBy e.1 (s.draw 13) p e.2.1 e.2.2) s).clearPoison ts

/-- Stores elements by one agent. -/
def State.storeBy (s : State) (g : Agent) (es : List (Target × List Byte)) : State :=
  s.storeAll (Put.store false) (es.map (fun e => (g, e)))

/-- A store to a lost peer traps; nothing else keeps a store from completing (10 R211, 21 R356). -/
def State.badStore (s : State) (ts : List Target) : Option Cause := if s.lostPeer ts then some cLinkDown else none

/-- ST, STS and STF (10 R214). -/
def opStore (fn : Nat) (h : Hdr) (u : Upper) (a : Actor) (s : State) : Res :=
  match u with
  | .m f =>
    let size := esizeBytes f.esize
    let its := s.items a f size
    if its.isEmpty then .ok s
    else if s.storesFull a then .hold
    else
      match s.resolve a 0 fn (memSpace fn) (Rights.w (f.mscope == 5)) size (if f.order == 0 then 1 else size) its with
      | .error e => .fault e
      | .ok rs =>
        let warp := a.scope == .warp
        let es := rs.map (fun e => (s.agentAt a e.1 f.mscope.toNat, e.2,
          storeBytes (s.warp e.1.w) (s.draw 4) warp h.vd.toNat e.1.lane size))
        let ts := rs.map (fun e => e.2)
        .ok (((((s.fixReads a ts).fillFor a (memSpace fn) its).released a f).storeAll (Put.store (releases f)) es).pushStores a
          (s.badStore ts) fn ts false)
  | _ => .ok s

/-! Atomics (10 R218, R219). -/

/-- The new value of m for data v and compare value c (10 R218). -/
def amoNew (ovf : Word) (code size m v c : Nat) : Nat :=
  let w := 8 * size
  let f := if size = 4 then fp32 else fp64
  match code with
  | 0 => v
  | 1 => (m + v) % 2 ^ w
  | 2 => if sInt w m ≤ sInt w v then m else v
  | 3 => min m v
  | 4 => if sInt w v ≤ sInt w m then m else v
  | 5 => max m v
  | 6 => m &&& v
  | 7 => m ||| v
  | 8 => m ^^^ v
  | 9 => if m = c then v else m
  | 10 => (f.finish (Rnd.rne ovf) (addRaw 0 (f.decode m) (f.decode v))).1
  | 11 => (f.roundNum (Rnd.rne ovf) (minMax false (f.decode m) (f.decode v)).1).1
  | 12 => (f.roundNum (Rnd.rne ovf) (minMax true (f.decode m) (f.decode v)).1).1
  | 13 => if v ≤ m then 0 else m + 1
  | _ => if m = 0 || v < m then v else m - 1

/-- One lane's atomic step: the old value and the state after it, which has heard the releases of that value; on a peer, the
operation leaves the device and its answer is free (10 R219, 22 R377). -/
def State.amoStep (s : State) (g : Agent) (acq rel : Bool) (ovf : Word) (code size : Nat) (t : Target) (v c : Nat) :
    Nat × State :=
  match t with
  | .glob [(.peer d a, _)] =>
    (leNat ((List.range size).map (fun i => Config.freeByte (s.draw 10) (a + i + 2 ^ 52 * d + 2 ^ 58 * g.lane))),
      { s with outputs := s.outputs ++ [Output.peerAtomic d code size (BitVec.ofNat 64 a) (BitVec.ofNat 64 v)
        (BitVec.ofNat 64 c)] })
  | _ =>
    let k := s.draw 13
    let m := leNat (s.seeAt g k true t)
    (m, (s.putBy g k (Put.atomic rel) t (leBytes size (amoNew ovf code size m v c))).hear g acq (s.relsRead g k true t))

/-- The atomics of an instruction, one lane after another: the old values by warp and lane, and the state. -/
def State.amoAll (s : State) (g : Item → Agent) (acq rel : Bool) (ovf : Word) (code size : Nat)
    (es : List (Item × Target × Nat × Nat)) : List (Item × Nat) × State :=
  match es with
  | [] => ([], s)
  | (i, t, v, c) :: r =>
    let (old, s1) := s.amoStep (g i) acq rel ovf code size t v c
    let (os, s2) := s1.amoAll g acq rel ovf code size r
    ((i, old) :: os, s2)

/-- ATOM and ATOMS. -/
def opAtomic (fn : Nat) (h : Hdr) (u : Upper) (a : Actor) (s : State) : Res :=
  match u with
  | .m f =>
    let size := esizeBytes f.esize
    let code := hdrTop h
    let its := s.items a f size
    if its.isEmpty then .ok s
    else if (if f.nt then s.storesFull a else s.loadsFull a) then .hold
    else
      match s.resolve a 1 fn (memSpace fn) (Rights.rw (f.mscope == 5)) size size its with
      | .error e => .fault e
      | .ok rs =>
        let warp := a.scope == .warp
        let ts := rs.map (fun e => e.2)
        let n := size / 4
        let val (e : Item) (r : Nat) : Nat := leNat (storeBytes (s.warp e.w) (s.draw 4) warp r e.lane size)
        let es := rs.map (fun e =>
          if code = 9 then (e.1, e.2, val e.1 (h.vd.toNat + n), val e.1 h.vd.toNat)
          else (e.1, e.2, val e.1 h.vd.toNat, 0))
        let s1 := (s.fixReads a ts).fillFor a (memSpace fn) its
        match s.badAccess 1 ts with
        | some c => .ok (if f.nt then s1.pushStores a (some c) fn ts true else s1.pushLoads a (some c) fn ts true [] [])
        | none =>
          let (olds, s2) := (s1.released a f).amoAll (fun i => s.agentAt a i f.mscope.toNat) (acquires f) (releases f)
            (s.part (s.partOf a.lead)).ovf code size (s.laneOrder (anyMeet ts) es)
          let bad := if s.peerPoisons ts then some cPeerPoison else none
          if f.nt then .ok (s2.pushStores a bad fn ts true)
          else
            .ok (s2.pushLoads a bad fn ts true (olds.flatMap (fun o =>
              cellsOf o.1.w warp h.vd.toNat o.1.lane (loadWords (leBytes size o.2) false))) [])
  | _ => .ok s

/-- FENCE, by its kind, for each member (02 R51, 10 R220). -/
def opFence (u : Upper) (a : Actor) (s : State) : Res :=
  match u with
  | .m f => .ok ((s.liveMembers a).foldl (fun s m => s.fence (s.agentOf a m.w f.mscope.toNat) f.order.toNat) s)
  | _ => .ok s

/-- PREF: brings sectors nearer, and changes no register and no memory (10 R221). -/
def opPref (_ : Actor) (s : State) : Res := .ok s

/-! Records (10 R222, 03 R70, R71). -/

/-- The tapered format of a record's code. -/
def recFmtOf (code : BitVec 2) : TFmt := if code == 0 then t8 else if code == 1 then t6 else t4
/-- The tapered format of LDREC and STREC: header bits [31:30]. -/
def recFmt (h : Hdr) : TFmt := recFmtOf h.width
/-- Bytes of a record (03 R70). -/
def TFmt.recBytes (t : TFmt) : Nat := 1 + 4 * t.bits
/-- Element i of a record's bytes after the scale (03 R70). -/
def recElem (t : TFmt) (field i : Nat) : Nat := field / 2 ^ (t.bits * i) % 2 ^ t.bits
/-- A record of a scale and 32 elements (03 R70). -/
def recBytesOf (t : TFmt) (scale : Nat) (es : List Nat) : List Byte :=
  BitVec.ofNat 8 scale ::
    leBytes (4 * t.bits) ((es.zip (List.range es.length)).foldl (fun n e =>
      n + e.1 % 2 ^ t.bits * 2 ^ (t.bits * e.2)) 0)

/-- The blocks that take part, each through its first lane. -/
def State.recItems (s : State) (a : Actor) (f : MForm) (size : Nat) : List Item :=
  let k := s.draw 0
  let x := s.warp a.lead
  let base := x.readPairS k f.base.toNat
  ((List.range 4).filter (fun b => (List.range 8).any (fun i => a.self.sel.getLsbD (8 * b + i)))).map (fun b =>
    ⟨a.lead, 8 * b, laneAddr x k false base f size (8 * b)⟩)

/-- Byte select of LDREC and STREC: header bits [29:28]. -/
def recByte (h : Hdr) : Nat := hdrTop h % 4

/-- The registers of a record's elements, for the lanes of its block that are selected: four elements in vd, and the scale in
a byte of vd + 1 (10 R222). -/
def recWords (code : BitVec 2) (vd byte : Nat) (sel : Mask) (first : Nat) (bs : List Byte) : List LoadCell :=
  let t := recFmtOf code
  let field := leNat bs.tail
  ((List.range 8).filter (fun i => sel.getLsbD (first + i))).flatMap (fun i =>
    let word := leNat ((List.range 4).map (fun j => BitVec.ofNat 8 (recElem t field (4 * i + j))))
    [⟨false, vd, first + i, BitVec.ofNat 32 word, 0, false⟩,
     ⟨false, vd + 1, first + i, (bs.headD 0).zeroExtend 32 <<< (8 * byte), ~~~(0xFF#32 <<< (8 * byte)), false⟩])

/-- LDREC (10 R222). -/
def opLdrec (h : Hdr) (u : Upper) (a : Actor) (s : State) : Res :=
  match u with
  | .m f =>
    let t := recFmt h
    let its := s.recItems a f t.recBytes
    if its.isEmpty then .ok s
    else if s.loadsFull a then .hold
    else
      match s.resolve a 0 10 .global (Rights.r false) t.recBytes 1 its with
      | .error e => .fault e
      | .ok rs =>
        let ts := rs.map (fun e => e.2)
        let fill : Item → Filling := fun _ => .record h.width h.vd.toNat (recByte h) a.self.sel
        let cells := rs.flatMap (fun e =>
          (recWords h.width h.vd.toNat (recByte h) a.self.sel e.1.lane
            (s.see (s.agentAt a e.1 f.mscope.toNat) (s.draw 6) e.2)).map (fun c => (a.lead, c)))
        .ok (((((s.fixReads a ts).fillFor a .global its).notePeerReads ts).sawAll a f rs).pushLoads a (s.badLoad ts) 10 ts false cells
          (lateReads a f (s.badLoad ts) fill rs))
  | _ => .ok s

/-- STREC (10 R222). -/
def opStrec (h : Hdr) (u : Upper) (a : Actor) (s : State) : Res :=
  match u with
  | .m f =>
    let t := recFmt h
    let its := s.recItems a f t.recBytes
    if its.isEmpty then .ok s
    else if s.storesFull a then .hold
    else
      match s.resolve a 0 11 .global (Rights.w false) t.recBytes 1 its with
      | .error e => .fault e
      | .ok rs =>
        let x := s.warp a.lead
        let k := s.draw 4
        let es := rs.map (fun e =>
          let elems := (List.range 32).map (fun i =>
            (x.readV k h.vd.toNat (e.1.lane + i / 4)).toNat / 256 ^ (i % 4) % 256)
          let scale := (x.readV k (h.vd.toNat + 1) e.1.lane).toNat / 256 ^ recByte h % 256
          (s.agentAt a e.1 f.mscope.toNat, e.2, recBytesOf t scale elems))
        let ts := rs.map (fun e => e.2)
        .ok (((((s.fixReads a ts).fillFor a .global its).released a f).storeAll (Put.store (releases f)) es).pushStores a
          (s.badStore ts) 11 ts false)
  | _ => .ok s

/-- LD (10 R214). -/
def execLd (h : Hdr) (u : Upper) (s : State) : Host.Outcome State Fault Refusal := issue (.ld h u) (opLoad 0 h u) s
/-- ST (10 R214). -/
def execSt (h : Hdr) (u : Upper) (s : State) : Host.Outcome State Fault Refusal := issue (.st h u) (opStore 1 h u) s
/-- LDS (10 R214). -/
def execLds (h : Hdr) (u : Upper) (s : State) : Host.Outcome State Fault Refusal := issue (.lds h u) (opLoad 2 h u) s
/-- STS (10 R214). -/
def execSts (h : Hdr) (u : Upper) (s : State) : Host.Outcome State Fault Refusal := issue (.sts h u) (opStore 3 h u) s
/-- LDF (10 R214). -/
def execLdf (h : Hdr) (u : Upper) (s : State) : Host.Outcome State Fault Refusal := issue (.ldf h u) (opLoad 4 h u) s
/-- STF (10 R214). -/
def execStf (h : Hdr) (u : Upper) (s : State) : Host.Outcome State Fault Refusal := issue (.stf h u) (opStore 5 h u) s
/-- ATOM (10 R219). -/
def execAtom (h : Hdr) (u : Upper) (s : State) : Host.Outcome State Fault Refusal := issue (.atom h u) (opAtomic 6 h u) s
/-- ATOMS (10 R219). -/
def execAtoms (h : Hdr) (u : Upper) (s : State) : Host.Outcome State Fault Refusal := issue (.atoms h u) (opAtomic 7 h u) s
/-- FENCE (10 R220). -/
def execFence (h : Hdr) (u : Upper) (s : State) : Host.Outcome State Fault Refusal := issue (.fence h u) (opFence u) s
/-- PREF (10 R221). -/
def execPref (h : Hdr) (u : Upper) (s : State) : Host.Outcome State Fault Refusal := issue (.pref h u) opPref s
/-- LDREC (10 R222). -/
def execLdrec (h : Hdr) (u : Upper) (s : State) : Host.Outcome State Fault Refusal := issue (.ldrec h u) (opLdrec h u) s
/-- STREC (10 R222). -/
def execStrec (h : Hdr) (u : Upper) (s : State) : Host.Outcome State Fault Refusal := issue (.strec h u) (opStrec h u) s

end Sys2Proof.Machine
end

