-- ==== Sys2Proof/Machine/Short.lean ====
section
/-! DEFINITION. The 32-bit L and I forms and the 16-bit forms (04 R102, R104, R105): each performs its 64-bit expansion
(R106); MOVHI, which has none, has its own effect. -/

namespace Sys2Proof.Machine

/-- An INT function in the expansion of a short form. -/
def opIntShort (f : IntArgs → IntVal) (e : Nat × Nat × Hdr × Upper) (a : Actor) (s : State) : Res :=
  opInt e.2.1 f e.2.2.1 e.2.2.2 a s

/-- An FP function in the expansion of a short form. -/
def opFpShort (g : FpArgs → FpVal) (e : Nat × Nat × Hdr × Upper) (a : Actor) (s : State) : Res :=
  opFp e.2.1 g e.2.2.1 e.2.2.2 a s

/-- One lane of MOVHI: bits [31:16] of vd := imm16, the lower half kept (04 R104). -/
def movhiLane (f : IForm) (s : State) (x : Warp) (l : Nat) : LaneOut :=
  ⟨[(f.vd.toNat, f.imm ++ (x.readV (s.draw 0) f.vd.toNat l).extractLsb' 0 16)], 0, false⟩

/-- MOVHI (04 R104). -/
def opMovhi (f : IForm) (a : Actor) (s : State) : Res := lanewise a s 0 cIntegerOverflow 0 (movhiLane f s)

/-- MOV_L: MOV as R102 expands it. -/
def execMovL (f : LForm) (s : State) : Host.Outcome State Fault Refusal :=
  issue (.movL f) (opIntShort (intMov false) (expandL 0 f)) s
/-- IADD_L: IADD as R102 expands it. -/
def execIaddL (f : LForm) (s : State) : Host.Outcome State Fault Refusal :=
  issue (.iaddL f) (opIntShort intIadd (expandL 1 f)) s
/-- ISUB_L: ISUB as R102 expands it. -/
def execIsubL (f : LForm) (s : State) : Host.Outcome State Fault Refusal :=
  issue (.isubL f) (opIntShort intIsub (expandL 2 f)) s
/-- IMUL_L: IMUL as R102 expands it. -/
def execImulL (f : LForm) (s : State) : Host.Outcome State Fault Refusal :=
  issue (.imulL f) (opIntShort intImul (expandL 3 f)) s
/-- IMULHI_L: IMULHI as R102 expands it. -/
def execImulhiL (f : LForm) (s : State) : Host.Outcome State Fault Refusal :=
  issue (.imulhiL f) (opIntShort intImulhi (expandL 4 f)) s
/-- IMAD_L: IMAD as R102 expands it. -/
def execImadL (f : LForm) (s : State) : Host.Outcome State Fault Refusal :=
  issue (.imadL f) (opIntShort intImad (expandL 5 f)) s
/-- IMIN_L: IMIN as R102 expands it. -/
def execIminL (f : LForm) (s : State) : Host.Outcome State Fault Refusal :=
  issue (.iminL f) (opIntShort intImin (expandL 6 f)) s
/-- IMAX_L: IMAX as R102 expands it. -/
def execImaxL (f : LForm) (s : State) : Host.Outcome State Fault Refusal :=
  issue (.imaxL f) (opIntShort intImax (expandL 7 f)) s
/-- IABS_L: IABS as R102 expands it. -/
def execIabsL (f : LForm) (s : State) : Host.Outcome State Fault Refusal :=
  issue (.iabsL f) (opIntShort intIabs (expandL 8 f)) s
/-- AND_L: AND as R102 expands it. -/
def execAndL (f : LForm) (s : State) : Host.Outcome State Fault Refusal :=
  issue (.andL f) (opIntShort intAnd (expandL 9 f)) s
/-- OR_L: OR as R102 expands it. -/
def execOrL (f : LForm) (s : State) : Host.Outcome State Fault Refusal :=
  issue (.orL f) (opIntShort intOr (expandL 10 f)) s
/-- XOR_L: XOR as R102 expands it. -/
def execXorL (f : LForm) (s : State) : Host.Outcome State Fault Refusal :=
  issue (.xorL f) (opIntShort intXor (expandL 11 f)) s
/-- NOT_L: NOT as R102 expands it. -/
def execNotL (f : LForm) (s : State) : Host.Outcome State Fault Refusal :=
  issue (.notL f) (opIntShort intNot (expandL 12 f)) s
/-- SHL_L: SHL as R102 expands it. -/
def execShlL (f : LForm) (s : State) : Host.Outcome State Fault Refusal :=
  issue (.shlL f) (opIntShort intShl (expandL 13 f)) s
/-- SHR_L: SHR as R102 expands it. -/
def execShrL (f : LForm) (s : State) : Host.Outcome State Fault Refusal :=
  issue (.shrL f) (opIntShort intShr (expandL 14 f)) s
/-- SAR_L: SAR as R102 expands it. -/
def execSarL (f : LForm) (s : State) : Host.Outcome State Fault Refusal :=
  issue (.sarL f) (opIntShort intSar (expandL 15 f)) s
/-- ROTL_L: ROTL as R102 expands it. -/
def execRotlL (f : LForm) (s : State) : Host.Outcome State Fault Refusal :=
  issue (.rotlL f) (opIntShort intRotl (expandL 16 f)) s
/-- POPC_L: POPC as R102 expands it. -/
def execPopcL (f : LForm) (s : State) : Host.Outcome State Fault Refusal :=
  issue (.popcL f) (opIntShort intPopc (expandL 17 f)) s
/-- CLZ_L: CLZ as R102 expands it. -/
def execClzL (f : LForm) (s : State) : Host.Outcome State Fault Refusal :=
  issue (.clzL f) (opIntShort intClz (expandL 18 f)) s
/-- BREV_L: BREV as R102 expands it. -/
def execBrevL (f : LForm) (s : State) : Host.Outcome State Fault Refusal :=
  issue (.brevL f) (opIntShort intBrev (expandL 19 f)) s
/-- BFX_L: BFX as R102 expands it. -/
def execBfxL (f : LForm) (s : State) : Host.Outcome State Fault Refusal :=
  issue (.bfxL f) (opIntShort intBfx (expandL 20 f)) s
/-- BFI_L: BFI as R102 expands it. -/
def execBfiL (f : LForm) (s : State) : Host.Outcome State Fault Refusal :=
  issue (.bfiL f) (opIntShort intBfi (expandL 21 f)) s
/-- SEL_L: SEL as R102 expands it. -/
def execSelL (f : LForm) (s : State) : Host.Outcome State Fault Refusal :=
  issue (.selL f) (opIntShort intSel (expandL 22 f)) s
/-- LEA_L: LEA as R102 expands it. -/
def execLeaL (f : LForm) (s : State) : Host.Outcome State Fault Refusal :=
  issue (.leaL f) (opIntShort intLea (expandL 23 f)) s
/-- FADD_L: FADD as R102 expands it. -/
def execFaddL (f : LForm) (s : State) : Host.Outcome State Fault Refusal :=
  issue (.faddL f) (opFpShort fpFadd (expandL 24 f)) s
/-- FSUB_L: FSUB as R102 expands it. -/
def execFsubL (f : LForm) (s : State) : Host.Outcome State Fault Refusal :=
  issue (.fsubL f) (opFpShort fpFsub (expandL 25 f)) s
/-- FMUL_L: FMUL as R102 expands it. -/
def execFmulL (f : LForm) (s : State) : Host.Outcome State Fault Refusal :=
  issue (.fmulL f) (opFpShort fpFmul (expandL 26 f)) s
/-- FFMA_L: FFMA as R102 expands it. -/
def execFfmaL (f : LForm) (s : State) : Host.Outcome State Fault Refusal :=
  issue (.ffmaL f) (opFpShort fpFfma (expandL 27 f)) s
/-- FMIN_L: FMIN as R102 expands it. -/
def execFminL (f : LForm) (s : State) : Host.Outcome State Fault Refusal :=
  issue (.fminL f) (opFpShort fpFmin (expandL 28 f)) s
/-- FMAX_L: FMAX as R102 expands it. -/
def execFmaxL (f : LForm) (s : State) : Host.Outcome State Fault Refusal :=
  issue (.fmaxL f) (opFpShort fpFmax (expandL 29 f)) s
/-- FRCP_L: FRCP as R102 expands it. -/
def execFrcpL (f : LForm) (s : State) : Host.Outcome State Fault Refusal :=
  issue (.frcpL f) (opFpShort fpFrcp (expandL 30 f)) s
/-- FDIV_L: FDIV as R102 expands it. -/
def execFdivL (f : LForm) (s : State) : Host.Outcome State Fault Refusal :=
  issue (.fdivL f) (opFpShort fpFdiv (expandL 31 f)) s
/-- FSQRT_L: FSQRT as R102 expands it. -/
def execFsqrtL (f : LForm) (s : State) : Host.Outcome State Fault Refusal :=
  issue (.fsqrtL f) (opFpShort fpFsqrt (expandL 32 f)) s
/-- FRSQ_L: FRSQ as R102 expands it. -/
def execFrsqL (f : LForm) (s : State) : Host.Outcome State Fault Refusal :=
  issue (.frsqL f) (opFpShort fpFrsq (expandL 33 f)) s
/-- FEX2_L: FEX2 as R102 expands it. -/
def execFex2L (f : LForm) (s : State) : Host.Outcome State Fault Refusal :=
  issue (.fex2L f) (opFpShort fpFex2 (expandL 34 f)) s
/-- FLG2_L: FLG2 as R102 expands it. -/
def execFlg2L (f : LForm) (s : State) : Host.Outcome State Fault Refusal :=
  issue (.flg2L f) (opFpShort fpFlg2 (expandL 35 f)) s
/-- FSIN_L: FSIN as R102 expands it. -/
def execFsinL (f : LForm) (s : State) : Host.Outcome State Fault Refusal :=
  issue (.fsinL f) (opFpShort fpFsin (expandL 36 f)) s
/-- FCOS_L: FCOS as R102 expands it. -/
def execFcosL (f : LForm) (s : State) : Host.Outcome State Fault Refusal :=
  issue (.fcosL f) (opFpShort fpFcos (expandL 37 f)) s
/-- FSCALE_L: FSCALE as R102 expands it. -/
def execFscaleL (f : LForm) (s : State) : Host.Outcome State Fault Refusal :=
  issue (.fscaleL f) (opFpShort fpFscale (expandL 38 f)) s
/-- FCLASS_L: FCLASS as R102 expands it. -/
def execFclassL (f : LForm) (s : State) : Host.Outcome State Fault Refusal :=
  issue (.fclassL f) (opFpShort fpFclass (expandL 39 f)) s
/-- MOVI: MOV with imm16 (04 R104). -/
def execMovi (f : IForm) (s : State) : Host.Outcome State Fault Refusal :=
  issue (.movi f) (opIntShort (intMov true) (expandI 48 f)) s
/-- IADDI: IADD with imm16 (04 R104). -/
def execIaddi (f : IForm) (s : State) : Host.Outcome State Fault Refusal :=
  issue (.iaddi f) (opIntShort intIadd (expandI 50 f)) s
/-- ANDI: AND with imm16 (04 R104). -/
def execAndi (f : IForm) (s : State) : Host.Outcome State Fault Refusal :=
  issue (.andi f) (opIntShort intAnd (expandI 51 f)) s
/-- ORI: OR with imm16 (04 R104). -/
def execOri (f : IForm) (s : State) : Host.Outcome State Fault Refusal :=
  issue (.ori f) (opIntShort intOr (expandI 52 f)) s
/-- XORI: XOR with imm16 (04 R104). -/
def execXori (f : IForm) (s : State) : Host.Outcome State Fault Refusal :=
  issue (.xori f) (opIntShort intXor (expandI 53 f)) s
/-- SHLI: SHL with imm16 (04 R104). -/
def execShli (f : IForm) (s : State) : Host.Outcome State Fault Refusal :=
  issue (.shli f) (opIntShort intShl (expandI 54 f)) s
/-- SHRI: SHR with imm16 (04 R104). -/
def execShri (f : IForm) (s : State) : Host.Outcome State Fault Refusal :=
  issue (.shri f) (opIntShort intShr (expandI 55 f)) s
/-- SARI: SAR with imm16 (04 R104). -/
def execSari (f : IForm) (s : State) : Host.Outcome State Fault Refusal :=
  issue (.sari f) (opIntShort intSar (expandI 56 f)) s
/-- MOVHI (04 R104). -/
def execMovhi (f : IForm) (s : State) : Host.Outcome State Fault Refusal :=
  issue (.movhi f) (opMovhi f) s
/-- MOV_S16: MOV as R105 expands it. -/
def execMovS16 (f : SForm) (s : State) : Host.Outcome State Fault Refusal :=
  issue (.movS16 f) (opIntShort (intMov f.im) (expandS 0 f)) s
/-- IADD_S16: IADD as R105 expands it. -/
def execIaddS16 (f : SForm) (s : State) : Host.Outcome State Fault Refusal :=
  issue (.iaddS16 f) (opIntShort intIadd (expandS 1 f)) s
/-- ISUB_S16: ISUB as R105 expands it. -/
def execIsubS16 (f : SForm) (s : State) : Host.Outcome State Fault Refusal :=
  issue (.isubS16 f) (opIntShort intIsub (expandS 2 f)) s
/-- IMUL_S16: IMUL as R105 expands it. -/
def execImulS16 (f : SForm) (s : State) : Host.Outcome State Fault Refusal :=
  issue (.imulS16 f) (opIntShort intImul (expandS 3 f)) s
/-- AND_S16: AND as R105 expands it. -/
def execAndS16 (f : SForm) (s : State) : Host.Outcome State Fault Refusal :=
  issue (.andS16 f) (opIntShort intAnd (expandS 4 f)) s
/-- OR_S16: OR as R105 expands it. -/
def execOrS16 (f : SForm) (s : State) : Host.Outcome State Fault Refusal :=
  issue (.orS16 f) (opIntShort intOr (expandS 5 f)) s
/-- XOR_S16: XOR as R105 expands it. -/
def execXorS16 (f : SForm) (s : State) : Host.Outcome State Fault Refusal :=
  issue (.xorS16 f) (opIntShort intXor (expandS 6 f)) s
/-- SHL_S16: SHL as R105 expands it. -/
def execShlS16 (f : SForm) (s : State) : Host.Outcome State Fault Refusal :=
  issue (.shlS16 f) (opIntShort intShl (expandS 7 f)) s
/-- SHR_S16: SHR as R105 expands it. -/
def execShrS16 (f : SForm) (s : State) : Host.Outcome State Fault Refusal :=
  issue (.shrS16 f) (opIntShort intShr (expandS 8 f)) s
/-- SAR_S16: SAR as R105 expands it. -/
def execSarS16 (f : SForm) (s : State) : Host.Outcome State Fault Refusal :=
  issue (.sarS16 f) (opIntShort intSar (expandS 9 f)) s
/-- FADD_S16: FADD as R105 expands it. -/
def execFaddS16 (f : SForm) (s : State) : Host.Outcome State Fault Refusal :=
  issue (.faddS16 f) (opFpShort fpFadd (expandS 10 f)) s
/-- FSUB_S16: FSUB as R105 expands it. -/
def execFsubS16 (f : SForm) (s : State) : Host.Outcome State Fault Refusal :=
  issue (.fsubS16 f) (opFpShort fpFsub (expandS 11 f)) s
/-- FMUL_S16: FMUL as R105 expands it. -/
def execFmulS16 (f : SForm) (s : State) : Host.Outcome State Fault Refusal :=
  issue (.fmulS16 f) (opFpShort fpFmul (expandS 12 f)) s
/-- FMIN_S16: FMIN as R105 expands it. -/
def execFminS16 (f : SForm) (s : State) : Host.Outcome State Fault Refusal :=
  issue (.fminS16 f) (opFpShort fpFmin (expandS 13 f)) s
/-- FMAX_S16: FMAX as R105 expands it. -/
def execFmaxS16 (f : SForm) (s : State) : Host.Outcome State Fault Refusal :=
  issue (.fmaxS16 f) (opFpShort fpFmax (expandS 14 f)) s
/-- IMIN_S16: IMIN as R105 expands it. -/
def execIminS16 (f : SForm) (s : State) : Host.Outcome State Fault Refusal :=
  issue (.iminS16 f) (opIntShort intImin (expandS 15 f)) s

end Sys2Proof.Machine
end

