-- ==== Sys2Proof/Machine/Rep.lean ====
section
/-! DEFINITION. REP (06 R144, R145, 04 R103): each issue performs one repeat of the target, as it is stepped. -/

namespace Sys2Proof.Machine

/-- INT functions (08 R172). -/
def intFn (fn : Nat) (u : Upper) : IntArgs → IntVal :=
  match fn with
  | 0 => intMov (isXI u)
  | 1 => intIadd
  | 2 => intIsub
  | 3 => intImul
  | 4 => intImulhi
  | 5 => intImad
  | 6 => intImin
  | 7 => intImax
  | 8 => intIabs
  | 9 => intAnd
  | 10 => intOr
  | 11 => intXor
  | 12 => intNot
  | 13 => intShl
  | 14 => intShr
  | 15 => intSar
  | 16 => intRotl
  | 17 => intPopc
  | 18 => intClz
  | 19 => intBrev
  | 20 => intBfx
  | 21 => intBfi
  | 22 => intSel
  | _ => intLea

/-- FP functions (08 R177). -/
def fpFn (fn : Nat) : FpArgs → FpVal :=
  match fn with
  | 0 => fpFadd
  | 1 => fpFsub
  | 2 => fpFmul
  | 3 => fpFfma
  | 4 => fpFmin
  | 5 => fpFmax
  | 6 => fpFrcp
  | 7 => fpFdiv
  | 8 => fpFsqrt
  | 9 => fpFrsq
  | 10 => fpFex2
  | 11 => fpFlg2
  | 12 => fpFsin
  | 13 => fpFcos
  | 14 => fpFscale
  | _ => fpFclass

/-- The effect of a word that REP may repeat (04 R103). -/
def opTarget (major fn : Nat) (h : Hdr) (u : Upper) (a : Actor) (s : State) : Res :=
  match major, fn with
  | 2, _ => opInt fn (intFn fn u) h u a s
  | 3, _ => opFp fn (fpFn fn) h u a s
  | 4, 0 => opDw dwAdd h u a s
  | 4, 1 => opDw dwSub h u a s
  | 4, 2 => opDw dwMul h u a s
  | 4, 3 => opDw dwNorm h u a s
  | 4, _ => opDwcvt h u a s
  | 6, 0 => opCvt h u a s
  | 6, 1 => opQblk h u a s
  | 6, 2 => opDq h u a s
  | 6, 3 => opPackh h u a s
  | 6, _ => opUnpackh h u a s
  | 8, 0 => opLoad 0 h u a s
  | 8, 1 => opStore 1 h u a s
  | 8, 2 => opLoad 2 h u a s
  | 8, _ => opStore 3 h u a s
  | _, _ => opTrn h u a s

/-- The repeat at REPI of the target (06 R144). -/
def opRep (f : RepForm) (t : Instr) (a : Actor) (s : State) : Res :=
  match stepTarget f (form t) (s.warp a.lead).repi with
  | some (.w64 m fn h u _) => opTarget m fn h u a s
  | some (.movhi g _) => opMovhi g a s
  | none => .ok s

/-- REP (06 R144, R145). -/
def execRep (f : RepForm) (t : Instr) (s : State) : Host.Outcome State Fault Refusal := issue (.rep f t) (opRep f t) s

end Sys2Proof.Machine
end

