-- ==== Sys2Proof/Machine/Sched.lean ====
section
/-! DEFINITION. The string clock, and what the issue selection weighs (07 R155 to R160). -/

namespace Sys2Proof.Machine

/-- Throttle holds back the quarter on this clock: odd CLOCK values issue no warp (07 R161). -/
def Core.heldBack (c : Core) : Bool := (c.throttled || c.pwr) && c.clock % 2 = 1

/-- A block's counters over one string clock: the slice budget, and the clocks outside a region (19 R334, R337). -/
def Block.tick (b : Block) : Block :=
  { b with
    budget := if b.lrec.budget != 0 && !b.lrec.persistent then b.budget - 1 else b.budget,
    gap := if b.lrec.preempt && b.lrec.gap != 0 && !b.inRegion then b.gap + 1 else b.gap }

/-- Sum of two lists of quarters. -/
def addQuarters (a b : List Nat) : List Nat := (List.range 4).map (fun q => a.getD q 0 + b.getD q 0)

/-- The string enters throttle; an entry counts where it was not throttled already; a gated string has none (07 R161, R162,
R167, log 98). -/
def Core.enterThrottle (c : Core) : Core :=
  if c.throttled || c.gated then c
  else { c with throttled := true, entries := if c.pwr then c.entries else (c.entries + 1) % 256 }

/-- The partition's power budget throttles the string for an interval, or lifts its throttle (07 R165, R162, log 98). -/
def Core.setPwr (c : Core) (on : Bool) : Core :=
  { c with pwr := on, entries := if on && !c.pwr && !c.throttled && !c.gated then (c.entries + 1) % 256 else c.entries }

/-- The meter over one clock: what landed enters the window, and occupancies advance unless throttle holds them
(07 R155, R161). -/
def Core.tick (c : Core) : Core :=
  let landed := addQuarters (c.future.headD []) (if c.heldBack then [] else c.matrixFuture.headD [])
  { c with
    clock := (c.clock + 1) % 2 ^ 64, lap := c.lap + 1,
    window := (landed :: c.window).take 64,
    future := c.future.tail,
    matrixFuture := if c.heldBack then c.matrixFuture else c.matrixFuture.tail,
    fillRun := (List.range 4).map (fun q => if c.filledNow.getD q false then c.fillRun.getD q 0 + 1 else 0),
    filledNow := [false, false, false, false], issuedNow := [], readyNow := [], turn := 0 }

/-- A quarter's deficit: prev(q) < max(prev) − F (07 R158). -/
def State.deficit (s : State) (core q : Nat) : Bool :=
  let c := s.core core
  decide (windowOf c q + (s.part (s.partOfCore core)).fillerF < listMax (windows c))

/-- The charge that a warp's next instruction would place at the issue clock (07 R154). -/
def State.nextCharge (s : State) (w : Nat) : Nat :=
  match s.decodeAt w with
  | .error _ => 0
  | .ok i => (s.warp w).issueCount i * weight i

/-- Distance of a charge from the string's mean, times 4; the base counts what earlier issues land on the clock (07
R158). -/
def Core.distance (c : Core) (q charge : Nat) : Nat :=
  let leaving := (c.window.getD 63 []).getD q 0
  let landing := (c.future.headD []).getD q 0 + (if c.heldBack then 0 else (c.matrixFuture.headD []).getD q 0)
  let base : Int := (windowOf c q : Int) - leaving + landing
  (4 * (base + charge) - ((windows c).sum : Int)).natAbs

/-- Whether one candidate, with distance and age, comes before another (07 R158). -/
def better (d1 a1 w1 d2 a2 w2 : Nat) : Bool :=
  decide (d1 < d2) || (d1 = d2 && (decide (a2 < a1) || (a1 = a2 && decide (w1 < w2))))

/-- A filler issue: it charges the meter and has no other effect (07 R160). -/
def State.fill (s : State) (core q : Nat) : State :=
  s.updCore core (fun c =>
    { c.charge 0 q (8 * Config.warpWidth) with filledNow := setNth c.filledNow q true })

end Sys2Proof.Machine
end

