-- ==== Sys2Proof/Machine/Engine.lean ====
section
/-! DEFINITION. What the engines share: barrier objects (12 R244, R245), timelines (14 R270), operations in flight and
the number they take at issue (R267), the boxes of R263, and faults met while an operation is performed (R274, R275). -/

namespace Sys2Proof.Machine

/-- Bytes of an element of a format code; a record for the tapered formats (14 R262). -/
def fmtBytes (c : Nat) : Nat :=
  match c with
  | 0 => 4
  | 1 => 8
  | 2 => 2
  | 3 => 2
  | 4 => 33
  | 5 => 25
  | 6 => 17
  | 8 => 1
  | 9 => 2
  | 10 => 4
  | 11 => 8
  | 12 => 1
  | 13 => 2
  | 14 => 4
  | _ => 8

/-- SHAPE-BOUND of the tile engine. -/
def cShape : Cause := 0x5D
/-- CLAIM-EXCEEDED for ENG. -/
def cClaimEng : Cause := 0x61
/-- MCAST-NONMEMBER. -/
def cMcastNonmember : Cause := 0x78
/-- BARRIER-OVERFLOW. -/
def cBarrierOverflow : Cause := 0x79
/-- BARRIER-MISALIGNED. -/
def cBarrierMisaligned : Cause := 0x7A

/-! Barrier objects. -/

/-- A barrier object (12 R244). -/
structure Bar where
  exp : Nat
  pend : Nat
  phase : Nat
  flags : Nat
  ebytes : Nat
  pbytes : Nat
  last : Nat
  owner : Nat
  deriving DecidableEq, Repr

/-- The fields of an object's bytes; the reserved bits of the flag fields are ignored, and written as zero (00 R6). -/
def Bar.ofBytes (bs : List Byte) : Bar :=
  let f (o n : Nat) : Nat := leNat ((bs.drop o).take n)
  ⟨f 0 2, f 2 2, f 4 2, f 6 2 % 64, f 8 4, f 12 4, f 16 4 % 64, f 20 4⟩

/-- Bytes 0 to 23 of an object. -/
def Bar.bytes (b : Bar) : List Byte :=
  leBytes 2 b.exp ++ leBytes 2 b.pend ++ leBytes 2 b.phase ++ leBytes 2 b.flags ++ leBytes 4 b.ebytes
    ++ leBytes 4 b.pbytes ++ leBytes 4 b.last ++ leBytes 4 b.owner

/-- An arrival of `arr` arrivals and `nb` bytes in one step, with the phase that it may complete; none on overflow
(12 R245). -/
def Bar.step (b : Bar) (arr nb : Nat) : Option Bar :=
  if b.pend < arr || b.pbytes < nb then none
  else
    let c := { b with pend := b.pend - arr, pbytes := b.pbytes - nb }
    if c.pend = 0 && c.pbytes = 0 then
      some { c with phase := (c.phase + 1) % 65536, pend := c.exp, pbytes := c.ebytes, last := c.flags, flags := 0 }
    else some c

/-- A phase after p is complete: (phase − p) mod 65536 lies in 1 to 32,767 (12 R247). -/
def Bar.passed (b : Bar) (p : Nat) : Bool :=
  let d := (b.phase + 65536 - p % 65536) % 65536
  decide (1 ≤ d) && decide (d ≤ 32767)

/-- The first 24 bytes of an element. -/
def Target.head24 (t : Target) : Target :=
  match t with
  | .glob rs => .glob (rs.map (fun e => (e.1, min e.2 24)))
  | .scr u o n => .scr u o (min n 24)

/-- The object at a place. -/
def State.barAt (s : State) (t : Target) : Bar := Bar.ofBytes (s.readTarget (s.draw 7) t)
/-- An agent's change of bytes 0 to 23 of an object that it finds as it stands: one indivisible step (12 R245). -/
def State.setBar (s : State) (g : Agent) (p : Put) (t : Target) (b : Bar) : State :=
  (s.readNewest g false t).putBy { g with words := true } (s.draw 13) p t.head24 b.bytes

/-- An engine's byte-count arrival at an object in a block's scratch, a release; none on overflow (12 R245, R247, 02 R50). -/
def State.barBytes (s : State) (g : Agent) (u off n : Nat) : Option State :=
  let t := Target.scr u off 32
  ((s.barAt t).step 0 n).map ((s.releaseBy g).setBar { g with scope := 3 } Put.arrival t)

/-- Flags that an engine merges into an object's current flags (12 R247). -/
def State.barFlags (s : State) (g : Agent) (u off : Nat) (f : FlagSet) : State :=
  let t := Target.scr u off 32
  let b := s.barAt t
  s.setBar g (Put.step false) t { b with flags := b.flags ||| f.toNat }

/-! Timelines. -/

/-- A timeline of a block. -/
def State.timeline (s : State) (blk tl : Nat) : Timeline := (s.block blk).timelines.getD tl ⟨0, 0, []⟩

/-- Advances a counter over contiguous completed numbers (02 R55). -/
def Timeline.absorb (t : Timeline) (fuel : Nat) : Timeline :=
  match fuel with
  | 0 => t
  | fuel + 1 =>
    if t.doneAhead.contains (t.counter + 1) then
      ({ t with counter := t.counter + 1, doneAhead := t.doneAhead.filter (fun n => n ≠ t.counter + 1) }).absorb fuel
    else t

/-- Completion of a number. -/
def Timeline.complete (t : Timeline) (num : Nat) : Timeline :=
  ({ t with doneAhead := t.doneAhead ++ [num] }).absorb (t.doneAhead.length + 1)

/-- Changes a timeline of a block. -/
def State.updTimeline (s : State) (blk tl : Nat) (f : Timeline → Timeline) : State :=
  s.updBlock blk (fun b => { b with timelines := setNth b.timelines tl (f (b.timelines.getD tl ⟨0, 0, []⟩)) })

/-- Whether an operation belongs to the lane-copy unit. -/
def EngOp.isLane (o : EngOp) : Bool := match o.kind with | .lane .. => true | _ => false

/-- What an operation's completion releases: its number of a timeline, or its transfer (02 R50, R55, R57). -/
def EngOp.msg (o : EngOp) (id : Nat) : Msg := if o.isLane then .copy o.blk o.w id else .work o.blk o.tl o.num

/-- An operation leaves its engine, and a timeline's number completes. -/
def State.finishOp (s : State) (id : Nat) : State :=
  match s.ops.find id with
  | none => s
  | some o =>
    let t := ((({ s with ops := s.ops.drop id } : State).publish (o.agent id) (o.msg id)).updWarp o.w (fun x =>
      { x with tileq := x.tileq.filter (fun q => q ≠ id) })).forget (workKey id)
    if o.isLane || o.counted then t else t.updTimeline o.blk o.tl (fun l => l.complete o.num)

/-- Replaces an operation. -/
def State.setOp (s : State) (id : Nat) (o : EngOp) : State := { s with ops := s.ops.put id o }

/-- The members of a block's fold, each with its rank and core. -/
def State.foldCores (s : State) (blk : Nat) : List (Nat × Nat × Nat) :=
  (s.foldMembers blk).map (fun e => (e.1, e.2, (s.block e.2).core))

/-- The issue of an operation: it takes the next number of its timeline, whose low 32 bits go to s(vd), and joins the
warp's tile counter (14 R267); it has seen what its issuer's path has (02 R54). -/
def State.issueOp (s : State) (a : Actor) (kind : OpKind) (tl handleIx : Nat) (regs : List Word) (vd : Nat) : State :=
  let x := s.warp a.lead
  let num := (s.timeline x.blk tl).last + 1
  let o : EngOp :=
    { w := a.lead, blk := x.blk, kind := kind, tl := tl, num := num, ipc := x.pc, iword := a.iword,
      handleIx := handleIx, regs := regs, members := s.foldCores x.blk, accepted := false, delivered := [],
      counted := false, box := none, fault := none }
  let t := { s with ops := s.ops.put s.nextUid o, nextUid := s.nextUid + 1 }.updTimeline x.blk tl
    (fun l => { l with last := num })
  (t.adopt (s.path a.lead a.self.act 0) (workKey s.nextUid)).updWarp a.lead (fun y =>
    { (y.writeS vd (BitVec.ofNat 32 num)) with tileq := y.tileq ++ [s.nextUid] })

/-- Whether the tile counter has no room (10 R212). -/
def State.tileFull (s : State) (a : Actor) : Bool := decide (Config.counterMax ≤ (s.warp a.lead).tileq.length)

/-- Whether the block holds a timeline. -/
def State.holdsTimeline (s : State) (w tl : Nat) : Bool := decide (tl < (s.blockOf w).timelines.length)

/-- A precise fault of an engine's issue check (14 R266). -/
def engineFault (agent : Nat) (c : Cause) (detail : Nat) (addr : DWord) : Res :=
  .fault { FaultInfo.of c detail with agent := agent, replay := replayable c, addr := addr }

/-- The eight uniform registers of an operand block. -/
def State.operandBlock (s : State) (a : Actor) (va : BitVec 8) : List Word :=
  (List.range 8).map (fun i => (s.warp a.lead).readS (s.draw 0) (va.toNat + i))

/-- A register of an operand block as a number. -/
def regN (rs : List Word) (i : Nat) : Nat := (rs.getD i 0).toNat
/-- Two registers as an address. -/
def regPair (rs : List Word) (i : Nat) : DWord := rs.getD (i + 1) 0 ++ rs.getD i 0

/-! Boxes (14 R263). -/

/-- Elements of a box. -/
def Handle.boxCount (h : Handle) : Nat := (h.boxes.take h.rank).foldl (fun n b => n * b) 1
/-- Bytes of a box. -/
def Handle.boxBytes (h : Handle) : Nat := fmtBytes h.fmt * h.boxCount

/-- The coordinates of box element `idx` from dimension `k` on, by the extents of the box. -/
def boxCoords (boxes : List Nat) (idx : Nat) : List Nat :=
  match boxes with
  | [] => []
  | b :: t => idx % b :: boxCoords t (idx / b)

/-- The global address of a box element that lies inside the array (14 R263). -/
def Handle.cell (h : Handle) (org : List Int) (idx : Nat) : Option DWord :=
  let js := boxCoords (h.boxes.take h.rank) idx
  let is := (List.range h.rank).map (fun k => org.getD k 0 + (js.getD k 0 : Int))
  if (List.range h.rank).all (fun k => decide (0 ≤ is.getD k 0) && decide (is.getD k 0 < (h.extents.getD k 1 : Int))) then
    some (h.base + BitVec.ofInt 64 (is.getD 0 0 * fmtBytes h.fmt
      + ((List.range (h.rank - 1)).map (fun k => is.getD (k + 1) 0 * (h.strides.getD k 0 : Int))).sum))
  else none

/-- The origin of an operand block, signed (14 R265). -/
def originOf (rs : List Word) : List Int := (List.range 5).map (fun k => (rs.getD k 0).toInt)

/-! Accesses of an engine. -/

/-- A place holds poison at a distance. -/
def State.poisonedAt (s : State) (p : Place) (i : Nat) : Bool :=
  match p with
  | .phys a => s.poison.contains ((a + i) / 32)
  | .onChip a => s.chipPoisoned (a + i)
  | .peer .. => false

/-- The first poisoned byte of runs, as a distance from their start. -/
def State.firstPoison (s : State) (rs : List (Place × Nat)) (base : Nat) : Option Nat :=
  match rs with
  | [] => none
  | (p, n) :: t =>
    match (List.range n).find? (s.poisonedAt p) with
    | some i => some (base + i)
    | none => s.firstPoison t (base + n)

/-- Whether runs meet no poison, by the lists of what is poisoned in memory. -/
def State.unpoisoned (s : State) (rs : List (Place × Nat)) : Bool :=
  s.poison.isEmpty && rs.all (fun e => match e.1 with | .onChip _ => false | _ => true)

/-- Whether runs name a peer that can no longer be reached. -/
def State.lostRuns (s : State) (rs : List (Place × Nat)) : Bool := s.lostPeer [.glob rs]

/-- Where an engine's bytes lie, or its fault with the lowest faulting address (14 R268, R275). -/
def State.engineRunsAt (s : State) (v : Via) (agent : Nat) (r : Rights) (a : DWord) (n : Nat) :
    Except (Cause × DWord) (List (Place × Nat)) :=
  match s.longRuns v r (s.draw 8) (n / 4096 + 2) a n with
  | .error (e, x) => .error (agentCause agent e, x)
  | .ok rs =>
    if s.lostRuns rs then .error (cLinkDown, a)
    else
      match (if r.read && !s.unpoisoned rs then s.firstPoison rs 0 else none) with
      | some i => .error (agentCause agent kPoison, a + BitVec.ofNat 64 i)
      | none => .ok rs

/-- The context of a block's engines: a request of firmware context has physical addresses, and reaches the on-chip map
(02 R30). -/
def State.engineVia (s : State) (blk : Nat) : Via :=
  ⟨(s.block blk).core, (s.block blk).part, s.warps.any (fun e => e.2.blk = blk && e.2.fw)⟩

/-- The same for the engines of a block. -/
def State.engineRuns (s : State) (blk agent : Nat) (r : Rights) (a : DWord) (n : Nat) :
    Except (Cause × DWord) (List (Place × Nat)) :=
  s.engineRunsAt (s.engineVia blk) agent r a n

/-- The bytes at runs. -/
def State.runBytes (s : State) (rs : List (Place × Nat)) : List Byte := s.readTarget (s.draw 7) (.glob rs)

/-- An engine's read of global bytes. -/
def State.engineRead (s : State) (blk agent : Nat) (a : DWord) (n : Nat) : Except (Cause × DWord) (List Byte) :=
  match s.engineRuns blk agent (Rights.r false) a n with
  | .error e => .error e
  | .ok rs => .ok (s.runBytes rs)

/-- An engine's read of scratch: poison is met as POISON at the offset. -/
def State.engineScr (s : State) (u agent off n : Nat) : Except (Cause × DWord) (List Byte) :=
  let b := s.block u
  if b.scrPoisoned off n then .error (agentCause agent kPoison, BitVec.ofNat 64 off) else .ok (b.scrRead off n)

/-- An agent's read of scratch that it performs after issue, with the choices of a race (02 R53, R54). -/
def State.seeScr (s : State) (g : Agent) (agent u off n : Nat) : Except (Cause × DWord) (List Byte) :=
  if (s.block u).scrPoisoned off n then .error (agentCause agent kPoison, BitVec.ofNat 64 off)
  else .ok (s.see g (s.draw 6) (.scr u off n))

/-- The bytes at runs as an agent reads them after issue. -/
def State.seeRuns (s : State) (g : Agent) (rs : List (Place × Nat)) : List Byte := s.see g (s.draw 7) (.glob rs)

/-- An agent writes bytes of a block's scratch. -/
def State.scrPut (s : State) (g : Agent) (u off : Nat) (bs : List Byte) : State :=
  s.putBy g (s.draw 13) (Put.store false) (.scr u off bs.length) bs

/-- What failed work leaves of its destination while it awaits its replay: each byte old, or new where its new value
could be read (14 R276). -/
def State.smear (s : State) (g : Agent) (u off : Nat) (new : List (Option Byte)) : State :=
  s.scrPut g u off ((new.zip (List.range new.length)).map (fun e =>
    match e.1 with
    | some b => if Config.freeBit (s.draw 11) (u * 2 ^ 20 + off + e.2) then b else (s.block u).scrByte (off + e.2)
    | none => (s.block u).scrByte (off + e.2)))

/-- The destination of failed work that counts as complete: unspecified bytes (14 R274, R276). -/
def State.scramble (s : State) (g : Agent) (u off n : Nat) : State :=
  s.scrPut g u off ((List.range n).map (fun i => Config.freeByte (s.draw 12) (u * 2 ^ 20 + off + i)))

/-- Records a fault against an operation (14 R274). -/
def State.failOp (s : State) (id : Nat) (e : Cause × DWord) (lanes : Mask) : State :=
  match s.ops.find id with
  | none => s
  | some o => s.setOp id { o with fault := some ⟨e.1, e.2, lanes, false⟩ }

/-- The fault of the lowest address. -/
def lowestFault (es : List (Cause × DWord)) : Option (Cause × DWord) :=
  es.foldl (fun b e => match b with
    | none => some e
    | some f => if e.2.toNat < f.2.toNat then some e else some f) none

/-- Each element of a box: nothing outside the array (R263), else its runs for the rights given or its fault. -/
def State.boxTry (s : State) (blk : Nat) (r : Rights) (h : Handle) (org : List Int) :
    List (Except (Cause × DWord) (Option (List (Place × Nat)))) :=
  (List.range h.boxCount).map (fun i =>
    match h.cell org i with
    | none => .ok none
    | some a =>
      match s.engineRuns blk 3 r a (fmtBytes h.fmt) with
      | .error e => .error e
      | .ok rs => .ok (some rs))

/-- The runs of every element of a box, or the fault of the lowest address (14 R275). -/
def boxAll (tried : List (Except (Cause × DWord) (Option (List (Place × Nat))))) :
    Except (Cause × DWord) (List (Option (List (Place × Nat)))) :=
  match lowestFault (tried.filterMap (fun e => match e with | .error x => some x | .ok _ => none)) with
  | some e => .error e
  | none => .ok (tried.map (fun e => match e with | .ok x => x | .error _ => none))

/-- The elements of a box with their runs, or the fault of the lowest address. -/
def State.boxRuns (s : State) (blk : Nat) (r : Rights) (h : Handle) (org : List Int) :
    Except (Cause × DWord) (List (Option (List (Place × Nat)))) :=
  boxAll (s.boxTry blk r h org)

/-- An element of a box as read: zero bytes where it lies outside (14 R263). -/
def State.cellRead (s : State) (g : Agent) (h : Handle) (c : Option (List (Place × Nat))) : List Byte :=
  match c with
  | none => List.replicate (fmtBytes h.fmt) 0
  | some rs => s.seeRuns g rs

/-- A box as read. -/
def State.boxRead (s : State) (g : Agent) (h : Handle) (cells : List (Option (List (Place × Nat)))) : List Byte :=
  cells.flatMap (s.cellRead g h)

/-- The bytes of a box that can be read. -/
def State.boxSome (s : State) (g : Agent) (blk : Nat) (r : Rights) (h : Handle) (org : List Int) : List (Option Byte) :=
  (s.boxTry blk r h org).flatMap (fun e => match e with
    | .ok c => (s.cellRead g h c).map some
    | .error _ => List.replicate (fmtBytes h.fmt) none)

/-- Elements of packed bytes, one after another. -/
def chunks (e : Nat) (bs : List Byte) (n : Nat) : List (List Byte) :=
  match n with
  | 0 => []
  | n + 1 => bs.take e :: chunks e (bs.drop e) n

/-- The elements that lie inside the array, each with its new bytes. -/
def boxPairs (cells : List (Option (List (Place × Nat)))) (data : List (List Byte)) : List (Target × List Byte) :=
  (cells.zip data).filterMap (fun e => e.1.map (fun rs => (Target.glob rs, e.2)))

end Sys2Proof.Machine
end

