-- ==== Sys2Proof/Machine/Sync.lean ====
section
/-! DEFINITION. SYNC (12 R246 to R249): barrier objects and WAITF. A wait is the same poll made again by its resume
event. -/

namespace Sys2Proof.Machine

/-- WAITF-OWNER-INVALID. -/
def cWaitfOwner : Cause := 0x7B

/-- The space of a SYNC object by its width code (12 R246). -/
def syncSpace (w : BitVec 2) : Space := if w == 0 then .global else if w == 1 then .scratch else .window

/-- The address of an object, from the lowest-ranked member's registers (12 R246, 04 R96). -/
def syncAddr (s : State) (a : Actor) (h : Hdr) (f : XForm) : DWord :=
  let x := s.warp (s.firstMember a)
  if h.width == 0 then x.readPairS (s.draw 0) f.va.toNat else (x.readS (s.draw 0) f.va.toNat).zeroExtend 64

/-- A uniform operand of a SYNC instruction. -/
def syncReg (s : State) (a : Actor) (r : BitVec 8) : Word := (s.warp (s.firstMember a)).readS (s.draw 2) r.toNat

/-- Lanes that a record of an instruction's single access names (log 14). -/
def Actor.recordLanes (a : Actor) : Mask := if a.scope == .warp || a.scope == .lane then a.self.sel else a.firstSel

/-- A fault of a SYNC access: the agent atomic, the function number, the address (12 R246). -/
def syncFault (a : Actor) (fn : Nat) (c : Cause) (addr : DWord) : FaultInfo :=
  { FaultInfo.of c fn with agent := 1, replay := replayable c, addr := addr, lanes := a.recordLanes }

/-- Where an object lies, checked by R210 as the agent atomic, with BARRIER-MISALIGNED for MISALIGNED (12 R246). -/
def syncTarget (s : State) (a : Actor) (fn : Nat) (sp : Space) (addr : DWord) (n : Nat) : Except FaultInfo Target :=
  match s.checkElem (s.via a.lead) (s.warp a.lead).blk 1 sp (Rights.rw false) (s.draw 8) addr n n with
  | .error c => .error (syncFault a fn (if c = agentCause 1 kMisaligned then cBarrierMisaligned else c) addr)
  | .ok t => .ok t

/-- The scope at which an object in a space synchronises: device for memory, else fold (02 R50). -/
def syncScope (sp : Space) : Nat := if sp == .global then 4 else 3

/-- The agent of an instruction on an object: the lowest-ranked member's path, at the object's scope (12 R246, 02 R50). -/
def State.syncAgent (s : State) (a : Actor) (h : Hdr) : Agent :=
  { s.agentOf a (s.firstMember a) (syncScope (syncSpace h.width)) with words := true }

/-- Every member has read an object as it stands; where the instruction acquires, it acquires for each (02 R41, R50). -/
def State.readObject (s : State) (a : Actor) (h : Hdr) (acq : Bool) (t : Target) : State :=
  if s.past.isEmpty then s
  else (s.liveMembers a).foldl (fun s m => s.readNewest (s.agentOf a m.w (syncScope (syncSpace h.width))) acq t) s

/-- An arrival releases what every member knows (02 R50). -/
def State.releaseObject (s : State) (a : Actor) (h : Hdr) : State :=
  (s.liveMembers a).foldl (fun s m =>
    s.publish (s.agentOf a m.w 0) (.access s.freeCtr (s.syncAgent a h).key 0)) s

/-- Meets poison: nothing is read or written, and the trap comes at the next boundary (10 R211). -/
def State.poisonTrap (s : State) (a : Actor) : State :=
  (s.liveMembers a).foldl (fun s m => s.updWarp m.w (fun x =>
    x.trapDue (agentCause 1 kPoison) 1 (s.warp a.lead).pc a.iword)) s

/-- An access to an object, with the poison of R211 before its effect. -/
def syncWith (fn : Nat) (sp : Space) (addr : DWord) (n : Nat) (g : Target → State → Res) (a : Actor) (s : State) :
    Res :=
  match syncTarget s a fn sp addr n with
  | .error f => .fault f
  | .ok t => if s.poisonedTarget t then .ok (s.poisonTrap a) else g t (s.fixReads a [t])

/-- BARINIT (12 R247). -/
def opBarinit (h : Hdr) (u : Upper) (a : Actor) (s : State) : Res :=
  match u with
  | .x f =>
    if a.self.sel == 0 then .ok s
    else
      syncWith 0 (syncSpace h.width) (syncAddr s a h f) 32 (fun t s =>
        let e := (syncReg s a f.vb).toNat % 65536
        let n := (syncReg s a f.vc).toNat
        let i := (s.blockOf a.lead).index
        .ok (s.putBy (s.syncAgent a h) (s.draw 13) Put.init t ((Bar.mk e e 0 0 n n 0 (if i < 2 ^ 30 then (ownerBlock i).toNat else 0)).bytes
          ++ List.replicate 8 0))) a s
  | _ => .ok s

/-- BARARR (12 R247). -/
def opBararr (h : Hdr) (u : Upper) (a : Actor) (s : State) : Res :=
  match u with
  | .x f =>
    let addr := syncAddr s a h f
    syncWith 1 (syncSpace h.width) addr 32 (fun t s =>
      let b := s.barAt t
      let g := if f.mb then
          (s.liveMembers a).foldl (fun g m => g ||| ((s.warp m.w).sticky.extractLsb' 0 6).toNat) 0 else 0
      match ({ b with flags := b.flags ||| g }).step 1 0 with
      | none => .fault (syncFault a 1 cBarrierOverflow addr)
      | some c => 
        .ok (((((s.readObject a h false t).releaseObject a h).setBar (s.syncAgent a h) (Put.step true) t c)).writeUniform a
          h.vd.toNat (BitVec.ofNat 32 b.phase))) a s
  | _ => .ok s

/-- BAREXP (12 R247). -/
def opBarexp (h : Hdr) (u : Upper) (a : Actor) (s : State) : Res :=
  match u with
  | .x f =>
    let addr := syncAddr s a h f
    syncWith 4 (syncSpace h.width) addr 32 (fun t s =>
      let b := s.barAt t
      let n := b.pbytes + (syncReg s a f.vb).toNat
      if 2 ^ 32 ≤ n then .fault (syncFault a 4 cBarrierOverflow addr)
      else
        .ok (((s.readObject a h false t).setBar (s.syncAgent a h) (Put.step false) t { b with pbytes := n }).writeUniform a
          h.vd.toNat (BitVec.ofNat 32 b.phase))) a s
  | _ => .ok s

/-- BARTEST (12 R247). -/
def opBartest (h : Hdr) (u : Upper) (a : Actor) (s : State) : Res :=
  match u with
  | .x f =>
    syncWith 3 (syncSpace h.width) (syncAddr s a h f) 32 (fun t s =>
      let b := s.barAt t
      let done := b.passed (syncReg s a f.vb).toNat
      .ok ((s.readObject a h done t).writeUniform a h.vd.toNat (BitVec.ofNat 32 (if done then 2 ^ 31 ||| b.last else 0)))) a s
  | _ => .ok s

/-- Owner of a barrier wait: the object's, or none while the phase lacks bytes alone (12 R251). -/
def Bar.waitOwner (b : Bar) : Word := if b.pend = 0 && b.pbytes ≠ 0 then 0 else BitVec.ofNat 32 b.owner

/-- Who holds the rank that a fold-window address names, and on which core, as a word of a wait; 0 where no window is named
(02 R33). -/
def State.holder (s : State) (a : Actor) (sp : Space) (addr : DWord) : DWord :=
  match sp with
  | .window =>
    match s.foldMember (s.warp a.lead).blk (addr.toNat / 2 ^ 20) with
    | some u => BitVec.ofNat 64 (256 * (u + 1) + (s.block u).core)
    | none => 0
  | _ => 0

/-- What a waiting access meets whose target has left the fold since the wait began: WINDOW-REVOKED, or GATED-TARGET where its
core has been gated (02 R33). -/
def State.holderLeft (s : State) (a : Actor) (sp : Space) (addr held : DWord) : Option Cause :=
  if held == 0 || s.holder a sp addr == held then none
  else some (agentCause 1 (if (s.core (held.toNat % 256)).gated then kGated else kRevoked))

/-- An access to an object whose wait began while `held` stood for its holder. -/
def syncHeld (fn : Nat) (sp : Space) (addr : DWord) (n : Nat) (held : DWord) (g : Target → State → Res) (a : Actor)
    (s : State) : Res :=
  match s.holderLeft a sp addr held with
  | some c => .fault (syncFault a fn c addr)
  | none => syncWith fn sp addr n g a s

/-- BARWAIT's poll: `args` are the address and p, as read at issue (12 R247, R251). -/
def pollBarwait (h : Hdr) (addr p held : DWord) (a : Actor) (s : State) : Res :=
  syncHeld 2 (syncSpace h.width) addr 32 held (fun t s =>
    let b := s.barAt t
    let done := b.passed p.toNat
    let s := s.readObject a h done t
    if done then .ok (s.writeUniform a h.vd.toNat (BitVec.ofNat 32 b.last))
    else
      .wait (s.blockAll a b.waitOwner 1 ((p.extractLsb' 0 16).zeroExtend 24)) .barrier
        [addr, p, s.holder a (syncSpace h.width) addr]) a s

/-- BARWAIT. -/
def opBarwait (h : Hdr) (u : Upper) (a : Actor) (s : State) : Res :=
  match u with
  | .x f => pollBarwait h (syncAddr s a h f) ((syncReg s a f.vb).zeroExtend 64) 0 a s
  | _ => .ok s

/-- A condition of WAITF (12 R248). -/
def waitfHolds (h : Hdr) (word v : Word) : Bool :=
  if h.sat then (if h.x then word &&& v != 0 else decide (v.toNat ≤ word.toNat))
  else if h.x then word != v else word == v

/-- Every member has read WAITF's word as its first does; where its condition holds, each acquires (02 R41, R50). -/
def State.readWord (s : State) (a : Actor) (h : Hdr) (acq : Bool) (t : Target) : State :=
  let g := s.syncAgent a h
  if s.past.isEmpty then s
  else
    (s.liveMembers a).foldl (fun u m =>
      let g' := s.agentOf a m.w g.scope
      (u.marked s g' (s.cutKeys g (s.draw 7) false t)).hear g' acq (s.relsRead g (s.draw 7) false t)) s

/-- WAITF's poll on its address, the compare value, the owner word and who held the rank named. vd takes each word read (12
R248). -/
def pollWaitf (h : Hdr) (addr v owner held : DWord) (a : Actor) (s : State) : Res :=
  if (owner.extractLsb' 30 2 : BitVec 2) == 3 then .fault (syncFault a 5 cWaitfOwner addr)
  else
    syncHeld 5 (syncSpace h.width) addr 4 held (fun t s =>
      let word := BitVec.ofNat 32 (leNat (s.see (s.syncAgent a h) (s.draw 7) t))
      let holds := waitfHolds h word (v.extractLsb' 0 32)
      let s1 := (s.readWord a h holds t).writeUniform a h.vd.toNat word
      if holds then .ok s1
      else
        .wait (s1.blockAll a (owner.extractLsb' 0 32) 2 (addr.extractLsb' 0 24)) .flag
          [addr, v, owner, s.holder a (syncSpace h.width) addr]) a s

/-- WAITF. -/
def opWaitf (h : Hdr) (u : Upper) (a : Actor) (s : State) : Res :=
  match u with
  | .x f =>
    pollWaitf h (syncAddr s a h f) ((syncReg s a f.vb).zeroExtend 64) ((syncReg s a f.vc).zeroExtend 64) 0 a s
  | _ => .ok s

/-- BARINIT (12 R247). -/
def execBarinit (h : Hdr) (u : Upper) (s : State) : Host.Outcome State Fault Refusal := issue (.barinit h u) (opBarinit h u) s
/-- BARARR (12 R247). -/
def execBararr (h : Hdr) (u : Upper) (s : State) : Host.Outcome State Fault Refusal := issue (.bararr h u) (opBararr h u) s
/-- BARWAIT (12 R247). -/
def execBarwait (h : Hdr) (u : Upper) (s : State) : Host.Outcome State Fault Refusal := issue (.barwait h u) (opBarwait h u) s
/-- BARTEST (12 R247). -/
def execBartest (h : Hdr) (u : Upper) (s : State) : Host.Outcome State Fault Refusal := issue (.bartest h u) (opBartest h u) s
/-- BAREXP (12 R247). -/
def execBarexp (h : Hdr) (u : Upper) (s : State) : Host.Outcome State Fault Refusal := issue (.barexp h u) (opBarexp h u) s
/-- WAITF (12 R248). -/
def execWaitf (h : Hdr) (u : Upper) (s : State) : Host.Outcome State Fault Refusal := issue (.waitf h u) (opWaitf h u) s

end Sys2Proof.Machine
end

