-- ==== Sys2Proof/Machine/Lcopy.lean ====
section
/-! DEFINITION. The lane-copy unit (14 R256 to R261): LCOPY, the transfers in flight, and the batches. A source is read
when its transfer completes (R257), by the choices of 02 R53. -/

namespace Sys2Proof.Machine

/-- Transfers that a core's lane-copy unit holds (14 R258). -/
def State.laneTransfers (s : State) (core : Nat) : Nat :=
  (s.ops.filter (fun e => e.2.isLane && (s.warp e.2.w).core = core)).length

/-- One lane's transfer as read at issue. -/
structure Transfer where
  lane : Nat
  src : DWord
  dst : Nat
  size : Nat
  v : Nat
  deriving DecidableEq, Repr

/-- The transfers of the selected lanes (14 R257). -/
def transfersOf (s : State) (a : Actor) (h : Hdr) (f : MForm) : List Transfer :=
  let x := s.warp a.lead
  let k := s.draw 0
  let size := esizeBytes f.esize
  let base := x.readPairS k f.base.toNat
  let g := if h.sat then { f with imm8 := 0 } else f
  (lanesOf a.self.sel).map (fun l =>
    { lane := l, src := laneAddr x k false base g size l, dst := (x.readV (k + 4) h.vd.toNat l).toNat, size := size,
      v := if h.sat then (x.readV (k + 6) f.imm8.toNat l).toNat else size })

/-- The first failing check of a transfer, with the record's address (14 R258). -/
def transferFault (granted : Nat) (t : Transfer) : Option (Cause × DWord) :=
  let d := BitVec.ofNat 64 t.dst
  if t.size < t.v then some (agentCause 2 kShape, d)
  else if t.v ≠ 0 && !(isCanonical t.src && isCanonical (t.src + BitVec.ofNat 64 (t.v - 1))) then
    some (agentCause 2 kNonCanonical, t.src)
  else if t.dst % (if 16 ≤ t.size then 16 else 4) ≠ 0 then some (agentCause 2 kMisaligned, d)
  else if granted < t.dst + t.size then some (cScratchBound, d)
  else none

/-- Starts the transfers of one LCOPY; `first`, its first transfer's id, marks them as one instruction's. -/
def State.startTransfers (s : State) (w : Nat) (iword : DWord) (nt : Bool) (first : Nat) (ts : List Transfer) : State :=
  match ts with
  | [] => s
  | t :: r =>
    let x := s.warp w
    let o : EngOp :=
      { w := w, blk := x.blk, kind := .lane t.lane t.src t.dst t.size t.v nt, tl := 0, num := first, ipc := x.pc,
        iword := iword, handleIx := 0, regs := [], members := [], accepted := true, delivered := [], counted := false,
        box := none, fault := none }
    (((({ s with ops := s.ops.put s.nextUid o, nextUid := s.nextUid + 1 } : State).adopt (s.path w x.active 0)
      (workKey s.nextUid)).setWarp w { x with openBatch := x.openBatch ++ [s.nextUid] }).startTransfers w iword nt first r)

/-- LCOPY (14 R257, R258). -/
def opLcopy (h : Hdr) (u : Upper) (a : Actor) (s : State) : Res :=
  match u with
  | .m f =>
    let ts := transfersOf s a h f
    if ts.isEmpty then .ok s
    else if Config.laneCopyQueue ≤ s.laneTransfers (s.warp a.lead).core then .hold
    else
      let granted := (s.blockOf a.lead).scrBytes
      let bad := ts.filterMap (fun t => (transferFault granted t).map (fun e => (t.lane, e)))
      match bad with
      | (_, c, addr) :: _ =>
        .fault { FaultInfo.of c 0 with agent := 2, addr := addr, lanes := maskOf (bad.map (fun e => e.1)) }
      | [] => .ok (s.startTransfers a.lead a.iword f.nt s.nextUid ts)
  | _ => .ok s

/-! Batches (14 R259 to R261). -/

/-- Transfers of a batch still in flight; each batch counts its own (log 129). -/
def State.batchLeft (s : State) (b : Batch) : List (Nat × EngOp) := s.ops.filter (fun e => b.ops.contains e.1)

/-- Sealed batches that are not complete, oldest first (14 R259). -/
def State.outstanding (s : State) (w : Nat) : List Batch :=
  (s.warp w).sealedBatches.filter (fun b => !(s.batchLeft b).isEmpty)

/-- A fault is pending in a batch (14 R274). -/
def State.batchFailed (s : State) (b : Batch) : Bool := (s.batchLeft b).any (fun e => e.2.failed)

/-- Batch a is earlier than batch b (14 R259). -/
def earlier (a b : BitVec 16) : Bool := decide (1 ≤ (b - a).toNat) && decide ((b - a).toNat ≤ 32767)

/-- The failed transfers of a batch that one LCOPY issued, and their lowest fault; `op` is the transfer that met it, whose
service serves the batch (14 R275, R276). -/
def State.batchInfo (s : State) (num : BitVec 16) (ops : List Nat) (wpc : DWord) : Option FaultInfo :=
  let bad := s.ops.filter (fun e => ops.contains e.1 && e.2.failed)
  match bad with
  | [] => none
  | (first, o) :: _ =>
    let here := bad.filter (fun p => p.2.num = o.num)
    let mine := here.filterMap (fun p => p.2.fault)
    (lowestFault (mine.map (fun f => (f.cause, f.addr)))).map (fun e =>
      { FaultInfo.of e.1 (num.toNat % 8 + 32) with
        agent := 2, async := true, replay := replayable e.1, addr := e.2,
        lanes := mine.foldl (fun m f => m ||| f.lanes) 0, timeline := num.zeroExtend 64, ipc := some o.ipc, wpc := wpc,
        iword := some o.iword, members := some 0xFFFFFFFF,
        op := some (((here.find? (fun p => p.2.fault.any (fun f => f.cause = e.1 && f.addr = e.2))).map Prod.fst).getD first) })

/-- The trap of a waiter on the oldest of some batches that has failed (14 R274). -/
def State.batchTrap (s : State) (a : Actor) (bs : List Batch) : Option Res :=
  match bs.find? s.batchFailed with
  | some b => (s.batchInfo b.num b.ops (s.warp a.lead).pc).map Res.fault
  | none => none

/-- BSEAL, and the poll of one that is held (14 R261). -/
def pollBseal (h : Hdr) (a : Actor) (s : State) : Res :=
  let out := s.outstanding a.lead
  if 8 ≤ out.length then (s.batchTrap a (out.take 1)).getD (.wait s .bseal [])
  else
    let x := s.warp a.lead
    let n := x.lastBatch + 1
    .ok (s.setWarp a.lead { (x.writeS h.vd.toNat (n.zeroExtend 32)) with
      openBatch := [], lastBatch := n, sealedBatches := out ++ [⟨n, x.openBatch⟩] })

/-- What a wait on batches makes known: the warp's lane copies of the batches that are complete (02 R50, R57). -/
def State.ofCopies (s : State) (w : Nat) (r : Past) : Bool :=
  let left := (s.warp w).openBatch ++ (s.outstanding w).flatMap (fun b => b.ops)
  r.sent.any (fun m => match m with
    | .copy b v id => b = (s.warp w).blk && v = w && !left.contains id
    | _ => false)

/-- BWAITN, and its poll (14 R261, R274). -/
def pollBwaitn (u : Upper) (a : Actor) (s : State) : Res :=
  match u with
  | .m f =>
    let out := s.outstanding a.lead
    let bad := out.filter s.batchFailed
    let wait := Res.wait (s.blockAll a 0 6 (((out.headD ⟨0, []⟩).num).zeroExtend 24)) .batchN []
    if out.length ≤ f.imm8.toNat then .ok (s.learnAll a s.ofCopies)
    else if f.imm8.toNat < bad.length then (s.batchTrap a bad).getD wait
    else wait
  | _ => .ok s

/-- Outstanding batches up to a number. -/
def State.batchesTo (s : State) (w : Nat) (b : BitVec 16) : List Batch :=
  (s.outstanding w).filter (fun c => c.num = b || earlier c.num b)

/-- BWAITS on a number read at issue, and its poll (14 R261, R274). -/
def pollBwaits (b : DWord) (a : Actor) (s : State) : Res :=
  let n : BitVec 16 := b.extractLsb' 0 16
  let out := s.batchesTo a.lead n
  let later := earlier (s.warp a.lead).lastBatch n
  if out.isEmpty && !later then .ok (s.learnAll a s.ofCopies)
  else
    (s.batchTrap a out).getD
      (.wait (s.blockAll a (if later then ownerBlock (s.blockOf a.lead).index else 0) 6 (n.zeroExtend 24)) .batchS [b])

/-- The register that names a batch. -/
def batchReg (s : State) (a : Actor) (f : MForm) : Word := (s.warp a.lead).readS (s.draw 0) f.off.toNat

/-- BWAITS. -/
def opBwaits (u : Upper) (a : Actor) (s : State) : Res :=
  match u with
  | .m f => pollBwaits ((batchReg s a f).zeroExtend 64) a s
  | _ => .ok s

/-- BTEST (14 R261). -/
def opBtest (h : Hdr) (u : Upper) (a : Actor) (s : State) : Res :=
  match u with
  | .m f =>
    let n : BitVec 16 := (batchReg s a f).extractLsb' 0 16
    let x := s.warp a.lead
    let out := s.batchesTo a.lead n
    let done := out.isEmpty && !earlier x.lastBatch n
    let v : Word := (if done then 0x80000000 else 0) ||| (if out.any s.batchFailed then 0x40000000 else 0)
      ||| (BitVec.ofNat 32 (s.outstanding a.lead).length <<< 16) ||| x.lastBatch.zeroExtend 32
    .ok ((if done then s.learnAll a s.ofCopies else s).setWarp a.lead (x.writeS h.vd.toNat v))
  | _ => .ok s

/-- The source bytes of a transfer. -/
def State.transferSource (s : State) (id : Nat) (o : EngOp) : Except (Cause × DWord) (List Byte) :=
  match o.kind with
  | .lane _ src _ size v _ =>
    match (if v = 0 then .ok [] else s.engineRuns o.blk 2 (Rights.r false) src v) with
    | .error e => .error e
    | .ok rs => .ok (s.seeRuns (o.agent id) rs ++ List.replicate (size - v) 0)
  | _ => .ok []

/-- A transfer as its engine performs it: the state with its bytes in scratch, or its fault (14 R257). -/
def State.runTransfer (s : State) (id : Nat) (o : EngOp) : Except (Cause × DWord) State :=
  match o.kind with
  | .lane _ _ dst _ _ _ => (s.transferSource id o).map (fun bs => s.scrPut (o.agent id) o.blk dst bs)
  | _ => .ok s

/-- LCOPY (14 R257). -/
def execLcopy (h : Hdr) (u : Upper) (s : State) : Host.Outcome State Fault Refusal := issue (.lcopy h u) (opLcopy h u) s
/-- BSEAL (14 R261). -/
def execBseal (h : Hdr) (u : Upper) (s : State) : Host.Outcome State Fault Refusal := issue (.bseal h u) (pollBseal h) s
/-- BWAITN (14 R261). -/
def execBwaitn (h : Hdr) (u : Upper) (s : State) : Host.Outcome State Fault Refusal := issue (.bwaitn h u) (pollBwaitn u) s
/-- BWAITS (14 R261). -/
def execBwaits (h : Hdr) (u : Upper) (s : State) : Host.Outcome State Fault Refusal := issue (.bwaits h u) (opBwaits u) s
/-- BTEST (14 R261). -/
def execBtest (h : Hdr) (u : Upper) (s : State) : Host.Outcome State Fault Refusal := issue (.btest h u) (opBtest h u) s

end Sys2Proof.Machine
end

