-- ==== Sys2Proof/Machine/Tile.lean ====
section
/-! DEFINITION. The tile engine (14 R262 to R269): shape records and handles, the issue of a tile operation, and what
the engine does as it performs one. Sources are read and destinations written when the operation completes. -/

namespace Sys2Proof.Machine

/-- A tapered format code: T8, T6 or T4 (09 R199). -/
def isTapered (c : Nat) : Bool := c = 4 || c = 5 || c = 6

/-- A shape record's bytes as a handle, with the flags word (14 R262). -/
def shapeOf (bs : List Byte) : Handle × Nat :=
  let f (o n : Nat) : Nat := leNat ((bs.drop o).take n)
  let rank := f 9 1
  let below (k : Nat) (x : Nat) : Nat := if k < rank then x else 1
  ({ base := BitVec.ofNat 64 (f 0 8), fmt := f 8 1, rank := rank, nt := f 10 2 % 2 = 1,
     extents := (List.range 5).map (fun k => below k (f (12 + 4 * k) 4)),
     strides := (List.range 4).map (fun k => f (32 + 8 * k) 8),
     boxes := (List.range 5).map (fun k => below k (f (64 + 2 * k) 2)) }, f 10 2)

/-- Checks 2 to 8 of R264: cause, detail and address. -/
def shapeFault (rec : DWord) (h : Handle) (flags : Nat) : Option (Cause × Nat × DWord) :=
  let e := fmtBytes h.fmt
  let t := isTapered h.fmt
  let strides := (h.strides.take (h.rank - 1))
  if h.fmt = 7 || 16 ≤ h.fmt then some (cShape, 1, rec)
  else if h.rank = 0 || 5 < h.rank then some (cShape, 2, rec)
  else if h.extents.any (fun x => x = 0) then some (cShape, 3, rec)
  else if h.boxes.any (fun b => b = 0 || decide (256 < b)) || decide (2 ^ 20 < h.boxBytes) then some (cShape, 4, rec)
  else if 2 ≤ flags then some (cShape, 5, rec)
  else if !isCanonical h.base then some (agentCause 3 kNonCanonical, 0, h.base)
  else if h.base.toNat % (if t then 1 else e) ≠ 0 || strides.any (fun x => x % (if t then e else 16) ≠ 0)
      || e * h.boxes.headD 1 % 16 ≠ 0 then some (agentCause 3 kMisaligned, 0, h.base)
  else none

/-- TDEF (14 R264). -/
def opTdef (h : Hdr) (u : Upper) (a : Actor) (s : State) : Res :=
  match u with
  | .x f =>
    let x := s.warp a.lead
    let addr := x.readPairS (s.draw 0) f.va.toNat
    if !(isCanonical addr && isCanonical (addr + 95)) then engineFault 3 (agentCause 3 kNonCanonical) 0 addr
    else if addr.toNat % 8 ≠ 0 then engineFault 3 (agentCause 3 kMisaligned) 0 addr
    else
      match s.engineRead x.blk 3 addr 96 with
      | .error (c, b) => engineFault 3 c 0 b
      | .ok bs =>
        let (g, flags) := shapeOf bs
        match shapeFault addr g flags with
        | some (c, d, b) => engineFault 3 c d b
        | none => .ok ((s.fillTlb x.core (s.partOf a.lead) (s.draw 8) addr).updBlock x.blk
            (fun b => { b with handles := b.handles.put h.vd.toNat g }))
  | _ => .ok s

/-- Ranks that a member mask names (14 R265). -/
def ranksOf (m : Nat) : List Nat := (List.range 8).filter (fun r => m.testBit r)

/-- TRED's op matches the format (14 R266). -/
def tredMatches (op fmt : Nat) : Bool :=
  if op = 0 then fmt = 0 else if op = 1 then fmt = 1 else if op = 2 then fmt = 10 || fmt = 14 else fmt = 11 || fmt = 15

/-- Bits of s(va+6) and s(va+7) that must be zero (14 R265). -/
def reservedBits (fn s6 s7 : Nat) : Bool :=
  match fn with
  | 3 => 256 ≤ s6
  | 4 => 4 ≤ s6 || s7 ≠ 0
  | 5 => 2 ≤ s6 || s7 ≠ 0
  | _ => s6 ≠ 0 || s7 ≠ 0

/-- Whether a range of a block's scratch passes its grant. -/
def State.scrBeyond (s : State) (u off n : Nat) : Bool := decide ((s.block u).scrBytes < off + n)

/-- Blocks whose scratch a tile operation checks: its own, or the members that a mask names (14 R266). -/
def State.tileBlocks (s : State) (blk fn s6 : Nat) : List Nat :=
  if fn = 3 then (ranksOf s6).filterMap (s.foldMember blk) else [blk]

/-- The first failing check of R266 after the first two. -/
def State.tileCheck (s : State) (blk fn : Nat) (h : Handle) (rs : List Word) : Option Res :=
  let off := regN rs 5
  let s6 := regN rs 6
  let s7 := regN rs 7
  let us := s.tileBlocks blk fn s6
  let bound (o : Nat) : Res := engineFault 3 cScratchBound 0 (BitVec.ofNat 64 o)
  if reservedBits fn s6 s7 || (fn = 4 && !tredMatches s6 h.fmt) then some (engineFault 3 cShape 6 0)
  else if fn = 3 && (s.block blk).fold.isNone then some (engineFault 3 cFoldNotMember 0 0)
  else if fn = 3 && (s6 = 0 || us.length ≠ (ranksOf s6).length) then some (engineFault 3 cMcastNonmember 0 0)
  else if off % 16 ≠ 0 then some (engineFault 3 (agentCause 3 kMisaligned) 0 (BitVec.ofNat 64 off))
  else if us.any (fun u => s.scrBeyond u off h.boxBytes) then some (bound off)
  else if fn = 3 && s7 % 32 ≠ 0 then some (engineFault 3 cBarrierMisaligned 0 (BitVec.ofNat 64 s7))
  else if fn = 3 && us.any (fun u => s.scrBeyond u s7 32) then some (bound s7)
  else none

/-- TLOAD, TSTORE, TMCAST, TRED and TPEER at issue (14 R265 to R267); a timeline not held gives agent 0xFF (log 53). -/
def opTile (fn : Nat) (h : Hdr) (u : Upper) (a : Actor) (s : State) : Res :=
  match u with
  | .x f =>
    let x := s.warp a.lead
    if s.tileFull a then .hold
    else if !s.holdsTimeline a.lead f.vc.toNat then .fault (FaultInfo.of cClaimEng fn)
    else
      match (s.block x.blk).handles.find f.vb.toNat with
      | none => engineFault 3 cShape 7 0
      | some g =>
        let rs := s.operandBlock a f.va
        match s.tileCheck x.blk fn g rs with
        | some r => r
        | none => .ok (s.issueOp a (.tile fn g) f.vc.toNat f.vb.toNat rs h.vd.toNat)
  | _ => .ok s

/-! Performing an operation (14 R268). -/

/-- Rights on the global array: read, write or both; TPEER needs a peer's pages and no other may have them. -/
def tileRights (fn s6 : Nat) : Rights :=
  match fn with
  | 1 => Rights.r false
  | 2 => Rights.w false
  | 3 => Rights.r false
  | 4 => Rights.rw false
  | _ => if s6 % 2 = 0 then ⟨false, true, false, true, true⟩ else ⟨true, false, false, true, true⟩

/-- Whether the operation writes the array (rather than scratch). -/
def tileOut (fn s6 : Nat) : Bool := fn = 2 || fn = 4 || (fn = 5 && s6 % 2 = 0)

/-- One element of TRED: an indivisible add (14 R268). -/
def State.tredStep (s : State) (g : Agent) (ovf : Word) (op : Nat) (e : Target × List Byte) : State :=
  let size := if op % 2 = 0 then 4 else 8
  let g := { g with scope := 4 }
  let m := leNat (s.seeAt g (s.draw 13) true e.1)
  s.putBy g (s.draw 13) (Put.atomic false) e.1 (leBytes size (amoNew ovf (if op ≤ 1 then 10 else 1) size m (leNat e.2) 0))

/-- Elements of an array take their new bytes, in no fixed order (14 R268). -/
def State.tileWrite (s : State) (g : Agent) (part fn s6 : Nat) (es : List (Target × List Byte)) : State :=
  if fn = 4 then
    (s.laneOrder (anyMeet (es.map (fun e => e.1))) es).foldl (fun s e => s.tredStep g (s.part part).ovf s6 e) s
  else s.storeBy g es

/-- A tile operation performed whole: the next state, or its fault (14 R268). -/
def State.runTile (s : State) (id fn : Nat) (h : Handle) (o : EngOp) : Except (Cause × DWord) State :=
  let s6 := regN o.regs 6
  let off := regN o.regs 5
  let g := o.agent id
  match s.boxRuns o.blk (tileRights fn s6) h (originOf o.regs) with
  | .error e => .error e
  | .ok cells =>
    if tileOut fn s6 then
      match s.seeScr g 3 o.blk off h.boxBytes with
      | .error e => .error e
      | .ok bs => .ok (s.tileWrite g (s.block o.blk).part fn s6 (boxPairs cells (chunks (fmtBytes h.fmt) bs h.boxCount)))
    else
      let ts := cells.filterMap (fun c => c.map Target.glob)
      if s.peerPoisons ts then .error (cPeerPoison, ((List.range h.boxCount).findSome? (h.cell (originOf o.regs))).getD h.base)
      else .ok ((s.scrPut g o.blk off (s.boxRead g h cells)).notePeerReads ts)

/-- The destination of a tile operation that failed: any mixture of old and new (14 R276). -/
def State.smearTile (s : State) (id fn : Nat) (h : Handle) (o : EngOp) : State :=
  let s6 := regN o.regs 6
  let off := regN o.regs 5
  let g := o.agent id
  if tileOut fn s6 then
    let cells := (s.boxTry o.blk (tileRights fn s6) h (originOf o.regs)).map
      (fun e => match e with | .ok c => c | .error _ => none)
    let es := boxPairs cells (chunks (fmtBytes h.fmt) ((s.block o.blk).scrRead off h.boxBytes) h.boxCount)
    let some' := (es.zip (List.range es.length)).filter (fun e => Config.freeBit (s.draw 11) e.2)
    if fn = 4 then s.tileWrite g (s.block o.blk).part fn s6 (some'.map (fun e => e.1))
    else
      s.storeBy g (es.map (fun e =>
        let old := s.readTarget (s.draw 10) e.1
        (e.1, ((old.zip e.2).zip (List.range old.length)).map (fun b =>
          if Config.freeBit (s.draw 11) b.2 then b.1.2 else b.1.1))))
  else s.smear g o.blk off (s.boxSome g o.blk (tileRights fn s6) h (originOf o.regs))

/-! TMCAST (14 R269). -/

/-- The box of a TMCAST: read once. -/
def State.castBox (s : State) (id : Nat) (h : Handle) (o : EngOp) : Except (Cause × DWord) (List Byte) :=
  match o.box with
  | some bs => .ok bs
  | none =>
    match s.boxRuns o.blk (Rights.r false) h (originOf o.regs) with
    | .error e => .error e
    | .ok cells => .ok (s.boxRead (o.agent id) h cells)

/-- The block that held a rank when an operation issued, if it holds it still; else the fault of an access in flight
(02 R33). -/
def State.memberNow (s : State) (o : EngOp) (rank : Nat) : Except Cause Nat :=
  match o.members.find? (fun m => m.1 = rank) with
  | none => .error (agentCause 3 kRevoked)
  | some (_, u, core) =>
    if s.foldMember o.blk rank = some u then .ok u
    else .error (agentCause 3 (if (s.core core).gated then kGated else kRevoked))

/-- The member of a rank, if the delivery can be made there (14 R269). -/
def State.castTarget (s : State) (h : Handle) (o : EngOp) (rank : Nat) : Except (Cause × DWord) Nat :=
  let off := BitVec.ofNat 64 (regN o.regs 5)
  match s.memberNow o rank with
  | .error c => .error (c, off)
  | .ok u =>
    if s.scrBeyond u (regN o.regs 5) h.boxBytes then .error (cScratchBound, off)
    else if s.scrBeyond u (regN o.regs 7) 32 then .error (cScratchBound, BitVec.ofNat 64 (regN o.regs 7))
    else .ok u

/-- A delivery: the box, then the byte count (14 R269). The second component is the fault of an overflow, met after the
bytes have landed: the arrival is not applied, and the member has had its delivery. -/
def State.castDeliver (s : State) (id : Nat) (h : Handle) (o : EngOp) (rank u : Nat) (bs : List Byte) :
    State × Option (Cause × DWord) :=
  let s1 := s.scrPut (o.agent id) u (regN o.regs 5) bs
  match s1.barBytes (o.agent id) u (regN o.regs 7) h.boxBytes with
  | some t => (t.setOp id { o with box := some bs, delivered := rank :: o.delivered }, none)
  | none => (s1.setOp id { o with box := some bs, delivered := rank :: o.delivered }, some (cBarrierOverflow, BitVec.ofNat 64 (regN o.regs 7)))

/-- Ranks that still await their delivery. -/
def castLeft (o : EngOp) : List Nat := (ranksOf (regN o.regs 6)).filter (fun r => !o.delivered.contains r)

/-- The first fault that a TMCAST meets: in reading the box, or at the lowest rank left. -/
def State.castFault (s : State) (id : Nat) (h : Handle) (o : EngOp) : Option (Cause × DWord) :=
  match s.castBox id h o with
  | .error e => some e
  | .ok _ => (castLeft o).findSome? (fun r => match s.castTarget h o r with | .error e => some e | .ok _ => none)

/-- TDEF (14 R264). -/
def execTdef (h : Hdr) (u : Upper) (s : State) : Host.Outcome State Fault Refusal := issue (.tdef h u) (opTdef h u) s
/-- TLOAD (14 R268). -/
def execTload (h : Hdr) (u : Upper) (s : State) : Host.Outcome State Fault Refusal := issue (.tload h u) (opTile 1 h u) s
/-- TSTORE (14 R268). -/
def execTstore (h : Hdr) (u : Upper) (s : State) : Host.Outcome State Fault Refusal := issue (.tstore h u) (opTile 2 h u) s
/-- TMCAST (14 R269). -/
def execTmcast (h : Hdr) (u : Upper) (s : State) : Host.Outcome State Fault Refusal := issue (.tmcast h u) (opTile 3 h u) s
/-- TRED (14 R268). -/
def execTred (h : Hdr) (u : Upper) (s : State) : Host.Outcome State Fault Refusal := issue (.tred h u) (opTile 4 h u) s
/-- TPEER (14 R268). -/
def execTpeer (h : Hdr) (u : Upper) (s : State) : Host.Outcome State Fault Refusal := issue (.tpeer h u) (opTile 5 h u) s

end Sys2Proof.Machine
end

