-- ==== Sys2Proof/Machine/Wait.lean ====
section
/-! DEFINITION. TIMELINE (10 R223, 14 R270 to R273, 08 R184, R185): WAITC, WAITT, TLARM, TLRD and FLAGRD, with what a
waiter on the matrix counter meets (03 R81, 16 R302). -/

namespace Sys2Proof.Machine

/-- TIMELINE-ARM-INVALID. -/
def cArmInvalid : Cause := 0x8E
/-- USER-INTERRUPT-OVERRUN. -/
def cArmOverrun : Cause := 0x8F

/-- Tile or slot that a matrix operation names (16 R302). -/
def MatKind.index (k : MatKind) : Nat :=
  match k with
  | .mma _ t _ _ => t
  | .accz f _ => f
  | .accld _ t _ _ => t
  | .wbload s _ _ _ _ => s
  | .drain d => d.tile

/-- The record of a matrix operation's late fault at a waiter (16 R302). -/
def MatOp.info (o : MatOp) (f : Cause × DWord) (wpc : DWord) : FaultInfo :=
  { FaultInfo.of f.1 o.fn with
    agent := 0, async := true, addr := f.2, ipc := some o.ipc, wpc := wpc, iword := some o.iword,
    members := some (BitVec.ofNat 32 (o.kind.index % 256)), matrix := true }

/-- The oldest faulted operation that a limit on the matrix counter requires to have left (16 R302). -/
def Warp.matrixFault (x : Warp) (limit : Nat) : Option FaultInfo :=
  ((x.matrix.take (x.matrix.length - limit)).find? (fun o => o.fault.isSome)).bind (fun o =>
    o.fault.map (fun f => o.info f x.pc))

/-- The four limits of WAITC: loads, stores, matrix operations and tile issues (10 R223). -/
def waitcLimits (u : Upper) : List Nat :=
  match u with
  | .xi _ imm => (List.range 4).map (fun i => imm.toNat / 64 ^ i % 64)
  | _ => [63, 63, 63, 63]

/-- What keeps a warp at a WAITC with given limits: a late fault, or counters above them (10 R223). -/
def counterGate (lims : List Nat) (w : Nat) (s : State) : Option Res :=
  let x := s.warp w
  let lim (i : Nat) : Nat := lims.getD i 63
  match x.matrixFault (lim 2) with
  | some f => some (.fault f)
  | none =>
    if x.loads.length ≤ lim 0 && x.stores.length ≤ lim 1 && x.matrix.length ≤ lim 2 && x.tileq.length ≤ lim 3 then none
    else some (.wait s .waitc [])

/-- The flags of drains that a matrix limit covers, by TRAPEN's layout (03 R81). -/
def Warp.coveredFlags (x : Warp) (limit : Nat) : Word :=
  (x.drainFlags.filter (fun e => decide (limit ≤ e.1))).foldl (fun f e => f ||| e.2) 0

/-- Flags of every group together. -/
def anyGroup (f : Word) : FlagSet := (List.range 5).foldl (fun g i => g ||| f.extractLsb' (6 * i) 6) (0 : FlagSet)

/-- Adds the covered drains' flags to STICKY (03 R81). -/
def Warp.takeDrainFlags (x : Warp) (limit : Nat) : Warp :=
  { x.raise (anyGroup (x.coveredFlags limit)) with
    drainFlags := x.drainFlags.filter (fun e => !decide (limit ≤ e.1)) }

/-- The trap that drain flags newly in STICKY raise, asynchronous (03 R83, 08 R184). -/
def State.drainTrap (s : State) (a : Actor) (limit : Nat) : Option FaultInfo :=
  let en := (s.liveMembers a).foldl (fun e m =>
    e ||| ((s.warp m.w).coveredFlags limit &&& (s.warp m.w).trapen)) (0 : Word)
  match (List.range 30).find? (fun i => en.getLsbD i) with
  | some i => some { FaultInfo.of (BitVec.ofNat 8 (0x20 + i)) 0 with async := true, wpc := (s.warp a.lead).pc }
  | none => none

/-- Every member takes its covered drains' flags. -/
def State.mergeDrains (s : State) (a : Actor) (limit : Nat) : State :=
  (s.liveMembers a).foldl (fun s m => s.updWarp m.w (fun x => x.takeDrainFlags limit)) s

/-- Completes, and traps if a trap is due. -/
def okOrTrap (t : State) (f : Option FaultInfo) : Res :=
  match f with
  | some i => .trap t i
  | none => .ok t

/-- What a wait for the matrix counter at `limit` makes known: what the warp's unit has written for the operations that the
wait covers, all but the last `limit` issued (02 R58, 03 R81). -/
def State.ofUnit (s : State) (limit w : Nat) (r : Past) : Bool :=
  match (s.warp w).matrixLog[limit]? with
  | none => false
  | some last => r.sent.any (fun m => match m with
    | .unit b v id => b = (s.warp w).blk && v = w && decide (id ≤ last)
    | _ => false)

/-- WAITC's completion: no value, and the drains' flags (10 R223, 03 R81). -/
def doneWaitc (u : Upper) (a : Actor) (s : State) : Res :=
  let m := (waitcLimits u).getD 2 63
  okOrTrap ((s.learnAll a (s.ofUnit m)).mergeDrains a m) (s.drainTrap a m)

/-- An effect behind a gate, for one warp alone; at wider scopes each member has passed it before it arrived. -/
def gated (gate : Nat → State → Option Res) (op : Actor → State → Res) (a : Actor) (s : State) : Res :=
  if a.scope == .warp then (gate a.lead s).getD (op a s) else op a s

/-- WAITC's gate. -/
def gateWaitc (u : Upper) : Nat → State → Option Res := counterGate (waitcLimits u)
/-- WAITC. -/
def opWaitc (u : Upper) : Actor → State → Res := gated (gateWaitc u) (doneWaitc u)

/-- FLAGRD's gate: the matrix counter at 0 (08 R184). -/
def gateFlagrd (w : Nat) (s : State) : Option Res :=
  match (s.warp w).matrixFault 0 with
  | some f => some (.fault f)
  | none => if (s.warp w).matrix = [] then none else some (.wait s .flagrd [])

/-- FLAGRD's completion: the OR over the members, and the clear (08 R184, R185). -/
def doneFlagrd (h : Hdr) (u : Upper) (a : Actor) (s : State) : Res :=
  match u with
  | .xi _ imm =>
    let t := (s.learnAll a (s.ofUnit 0)).mergeDrains a 0
    let f := (t.liveMembers a).foldl (fun f m => f ||| (t.warp m.w).sticky) (0 : Word)
    let cm : Word := (imm.extractLsb' 0 6 : BitVec 6).zeroExtend 32
    okOrTrap ((t.liveMembers a).foldl (fun s m => s.updWarp m.w (fun x =>
      { (x.writeS h.vd.toNat f) with sticky := x.sticky &&& ~~~cm })) t) (s.drainTrap a 0)
  | _ => .ok s

/-- FLAGRD. -/
def opFlagrd (h : Hdr) (u : Upper) : Actor → State → Res := gated gateFlagrd (doneFlagrd h u)

/-- A WAITC or FLAGRD whose wait ends: at warp scope it completes; a member of a wider scope arrives (10 R223). None
where it still waits. -/
def State.passGate (s : State) (w : Nat) (q : Wait) (gate : Nat → State → Option Res) (op : Actor → State → Res) :
    Option State :=
  match gate w s with
  | some (.wait ..) => none
  | some r => settle s q.actor q.instr r
  | none =>
    let sc := scopeOfInstr q.instr
    if sc == .flock || sc == .block then s.join sc w q.instr else settle s q.actor q.instr (op q.actor s)

/-- WAITT on a value read at issue, and its poll (14 R271, R274). -/
def pollWaitt (u : Upper) (n : DWord) (a : Actor) (s : State) : Res :=
  match u with
  | .x f =>
    let tl := f.vc.toNat
    let v : Word := n.extractLsb' 0 32
    let x := s.warp a.lead
    let t := s.timeline x.blk tl
    if !s.holdsTimeline a.lead tl then Res.cause cClaimEng
    else if reached t.counter v then .ok (s.learnAll a (fun _ => ofTimeline x.blk tl v))
    else
      match s.failedNext x.blk tl with
      | some (id, o) => .fault (asyncInfo id o x.pc)
      | none =>
        let owner := if reached t.last v then 0 else ownerBlock (s.block x.blk).index
        .wait (s.blockAll a owner 5 (BitVec.ofNat 24 tl)) .timeline [n]
  | _ => .ok s

/-- WAITT. -/
def opWaitt (u : Upper) (a : Actor) (s : State) : Res :=
  match u with
  | .x f => pollWaitt u (((s.warp a.lead).readS (s.draw 0) f.va.toNat).zeroExtend 64) a s
  | _ => .ok s

/-- TLARM (14 R270, R273). -/
def opTlarm (u : Upper) (a : Actor) (s : State) : Res :=
  match u with
  | .x f =>
    let x := s.warp a.lead
    if !s.holdsTimeline a.lead f.vc.toNat then Res.cause cArmInvalid
    else if x.arming.isSome || x.held then Res.cause cArmOverrun
    else
      .ok (s.setWarp a.lead { x with
        arming := some ⟨f.vc.toNat, x.readS (s.draw 0) f.va.toNat, x.readPairS (s.draw 2) f.vb.toNat, x.pc⟩ })
  | _ => .ok s

/-- TLRD (14 R272). -/
def opTlrd (h : Hdr) (u : Upper) (a : Actor) (s : State) : Res :=
  match u with
  | .x f =>
    let tl := f.vc.toNat
    let x := s.warp a.lead
    let t := s.timeline x.blk tl
    if !s.holdsTimeline a.lead tl then Res.cause cClaimEng
    else
      let v : DWord :=
        if h.x then BitVec.ofNat 64 t.last
        else BitVec.ofNat 64 (t.counter % 2 ^ 63) ||| (if (s.failedNext x.blk tl).isSome then 1 <<< 63 else 0)
      .ok (s.setWarp a.lead (x.writePairS h.vd.toNat v))
  | _ => .ok s

/-- WAITC (10 R223). -/
def execWaitc (h : Hdr) (u : Upper) (s : State) : Host.Outcome State Fault Refusal :=
  issueWith (gateWaitc u) (.waitc h u) (opWaitc u) s
/-- WAITT (14 R271). -/
def execWaitt (h : Hdr) (u : Upper) (s : State) : Host.Outcome State Fault Refusal := issue (.waitt h u) (opWaitt u) s
/-- TLARM (14 R273). -/
def execTlarm (h : Hdr) (u : Upper) (s : State) : Host.Outcome State Fault Refusal := issue (.tlarm h u) (opTlarm u) s
/-- TLRD (14 R272). -/
def execTlrd (h : Hdr) (u : Upper) (s : State) : Host.Outcome State Fault Refusal := issue (.tlrd h u) (opTlrd h u) s
/-- FLAGRD (08 R184, R185). -/
def execFlagrd (h : Hdr) (u : Upper) (s : State) : Host.Outcome State Fault Refusal :=
  issueWith gateFlagrd (.flagrd h u) (opFlagrd h u) s

end Sys2Proof.Machine
end

