-- ==== Sys2Proof/Machine/Mma.lean ====
section
/-! DEFINITION. The matrix engine (16 R280 to R302): operand maps, weight slots, tiles and their flags, the issue of each
instruction of the MMA group, and what each does as its unit performs it. -/

namespace Sys2Proof.Machine

/-- ACC-BOUND. -/
def cAccBound : Cause := 0x7F

/-- K of a format (16 R289). -/
def mmaK (c : Nat) : Nat := if c = 0 then 8 else if c = 1 then 4 else if c ≤ 3 then 32 else if c = 6 then 128 else 64
/-- Clocks of occupancy of a format (16 R289). -/
def mmaClocks (c : Nat) : Nat := if c = 0 then 4 else if c = 1 then 8 else 2
/-- Bytes of one column of B, or of one row of A (16 R286, R289). -/
def rowBytes (c : Nat) : Nat := if isTapered c then fmtBytes c * (mmaK c / 32) else fmtBytes c * mmaK c
/-- Tiles that a result takes: an even pair for FP64 (16 R281). -/
def tileCount (c : Nat) : Nat := if c = 1 then 2 else 1

/-- Whether tiles from `t` pass a warp's range (16 R282). -/
def Warp.tileBeyond (x : Warp) (t n : Nat) : Bool := decide (8 * x.accEpochs.length < t + n)
/-- Whether a slot passes a warp's range. -/
def Warp.slotBeyond (x : Warp) (k : Nat) : Bool := decide (x.accEpochs.length ≤ k)

/-- A fault of the matrix unit (16 R283). -/
def matrixRes (c : Cause) (detail : Nat) (addr : Nat) : Res := engineFault 0 c detail (BitVec.ofNat 64 addr)
/-- ACC-BOUND. -/
def accBound : Res := matrixRes cAccBound 0 0
/-- MISALIGNED of a function. -/
def matrixMisaligned (fn addr : Nat) : Res := matrixRes (agentCause 0 kMisaligned) fn addr
/-- SHAPE-BOUND with a reason. -/
def matrixShape (detail : Nat) : Res := matrixRes (agentCause 0 kShape) detail 0
/-- SCRATCH-BOUND. -/
def matrixScratch (addr : Nat) : Res := matrixRes cScratchBound 0 addr

/-- The first of some ranges that passes a block's granted scratch. -/
def State.firstBeyond (s : State) (u : Nat) (rs : List (Nat × Nat)) : Option Nat :=
  (rs.find? (fun r => s.scrBeyond u r.1 r.2)).map (fun r => r.1)

/-! Tiles (16 R281). -/

/-- Element `idx` of a tile, or of a pair (16 R281). -/
def Warp.tileElem (x : Warp) (wide : Bool) (t idx : Nat) : Nat :=
  if wide then (x.tileWord t (2 * idx + 1) ++ x.tileWord t (2 * idx)).toNat else (x.tileWord t idx).toNat

/-- Writes words of a tile from word `i` on. -/
def putWords (m : AMap Word) (k : Nat) (ws : List Word) : AMap Word :=
  match ws with
  | [] => m
  | b :: t => putWords (m.put k b) (k + 1) t

/-- Writes the 256 elements of a tile or pair. -/
def Warp.setTile (x : Warp) (wide : Bool) (t : Nat) (es : List Nat) : Warp :=
  { x with acc := putWords x.acc (256 * t) (es.flatMap (fun e =>
      if wide then [BitVec.ofNat 32 e, BitVec.ofNat 32 (e / 2 ^ 32)] else [BitVec.ofNat 32 e])),
           accPoison := x.accPoison.filter (fun p => p != t && !(wide && p = t + 1)) }

/-- FLG of a tile: what was written, else the unspecified content at the grant, never with ER (16 R281). -/
def Warp.tileFlags (x : Warp) (t : Nat) : FlagSet :=
  match x.flg.find t with
  | some f => f
  | none => (Config.freeWord (x.accEpochs.getD (t / 8) 0) (2 ^ 21 + t)).extractLsb' 0 6 &&& 0x1F

/-- Sets FLG. -/
def Warp.setFlags (x : Warp) (t : Nat) (f : FlagSet) : Warp := { x with flg := x.flg.put t (f &&& 0x1F) }

/-! Operands. -/

/-- The elements of 16 rows, or columns, of stored bytes, scales included (16 R291). -/
def operandRows (c : Nat) (bs : List Byte) : List (List Num) :=
  (chunks (rowBytes c) bs 16).map (fun row =>
    match anyFmt c with
    | .float f => (chunks (fmtBytes c) row (mmaK c)).map (fun e => f.decode (leNat e))
    | .tapered t =>
      (chunks (fmtBytes c) row (mmaK c / 32)).flatMap (fun r =>
        let field := leNat r.tail
        (List.range 32).map (fun i => dequantise t (r.headD 0).toNat (recElem t field i)))
    | .int .. => [])

/-- Places of A's elements, or records, by row (16 R290). -/
def aPlaces (c : Nat) (m : OMap) (origin : Word) : List (Nat × Nat) :=
  let e := fmtBytes c
  let row0 := origin.toNat % 65536
  let col0 := origin.toNat / 65536
  (List.range 16).flatMap (fun i =>
    if isTapered c then
      (List.range (mmaK c / 32)).map (fun g => (m.base + (row0 + i) * m.stride + (col0 / 32 + g) * e, e))
    else
      (List.range (mmaK c)).map (fun k =>
        if m.tr then (m.base + (col0 + k) * m.stride + (row0 + i) * e, e)
        else (m.base + (row0 + i) * m.stride + (col0 + k) * e, e)))

/-- Places of B's elements, or records, by column, for the scratch form (16 R287). -/
def bPlaces (c off cs : Nat) (kmaj : Bool) : List (Nat × Nat) :=
  let e := fmtBytes c
  (List.range 16).flatMap (fun n =>
    if isTapered c then (List.range (mmaK c / 32)).map (fun g => (off + n * cs + g * e, e))
    else (List.range (mmaK c)).map (fun k => (if kmaj then off + k * cs + n * e else off + n * cs + k * e, e)))

/-- The bytes of consecutive ranges of scratch. -/
def State.gatherScr (s : State) (u : Nat) (rs : List (Nat × Nat)) : List Byte :=
  rs.flatMap (fun r => (s.block u).scrRead r.1 r.2)

/-! The matrix counter (16 R301). -/

/-- Whether a matrix counter has no room (10 R212). -/
def State.matrixFull (s : State) (a : Actor) : Bool :=
  (s.liveMembers a).any (fun m => decide (Config.counterMax ≤ (s.warp m.w).matrix.length))

/-- An operation joins a warp's matrix counter, and each drain before it counts one more behind it (03 R81); it has seen
what its issuer's path has (02 R54). -/
def State.pushMatrix (s : State) (w : Nat) (k : MatKind) (fn : Nat) (pc iword : DWord) : State :=
  (({ s with nextUid := s.nextUid + 1 } : State).adopt (s.path w (s.warp w).active 0) (workKey s.nextUid)).updWarp w (fun x =>
    { x with
      matrixLog := (s.nextUid :: x.matrixLog).take (Config.counterMax + 1),
      matrix := x.matrix ++ [⟨s.nextUid, k, fn, pc, iword, false, none⟩],
      drainFlags := x.drainFlags.map (fun e => (e.1 + 1, e.2)) })

/-- Operations leave the counter in issue order once they are done (10 R212). -/
def Warp.retireMatrix (x : Warp) : Warp := { x with matrix := x.matrix.dropWhile (fun o => o.done) }

/-- The operation that a warp's unit performs next: the oldest that is neither done nor faulted (16 R301). -/
def Warp.nextMatrix (x : Warp) : Option (Nat × MatOp) :=
  ((List.range x.matrix.length).zip x.matrix).find? (fun e => !e.2.done && e.2.fault.isNone)

/-- Marks an operation done. -/
def Warp.doneMatrix (x : Warp) (i : Nat) : Warp :=
  match x.matrix[i]? with
  | some o => { x with matrix := setNth x.matrix i { o with done := true } }.retireMatrix
  | none => x

/-! OMAP (16 R284, R285). -/

/-- OMAP. -/
def opOmap (h : Hdr) (u : Upper) (a : Actor) (s : State) : Res :=
  match u with
  | .x f =>
    let x := s.warp a.lead
    let c := hdrTop h
    let base := (x.readS (s.draw 0) f.va.toNat).toNat
    let stride := (x.readS (s.draw 2) f.vb.toNat).toNat
    let e := fmtBytes c
    if 2 ^ 20 ≤ base || 2 ^ 20 ≤ stride then matrixScratch base
    else if !isTapered c && (base % e ≠ 0 || stride % e ≠ 0) then matrixMisaligned 0 base
    else if f.ma && isTapered c then Res.cause cReserved
    else .ok (s.updBlock x.blk (fun b => { b with omaps := b.omaps.put h.vd.toNat ⟨f.ma, c, stride, base⟩ }))
  | _ => .ok s

/-! WBLOAD (16 R286 to R288). -/

/-- Loads of a slot still to land. -/
def State.slotLoads (s : State) (w k : Nat) : Nat :=
  ((s.warp w).matrix.filter (fun o => match o.kind with
    | .wbload j _ _ _ _ => j = k && !o.done && o.fault.isNone
    | _ => false)).length
  + (s.ops.filter (fun e => e.2.w = w && (match e.2.kind with | .wbload j _ _ => j = k | _ => false))).length

/-- An earlier load of a slot is still to land before the load of an id: the unit performs them in issue order, and has stopped one
that has faulted (16 R301 to R303, log 104). -/
def State.slotBehind (s : State) (w k id : Nat) : Bool :=
  (s.warp w).matrix.any (fun o => !o.done && o.fault.isNone && decide (o.id < id) && (match o.kind with
    | .wbload j _ _ _ _ => j = k
    | _ => false))
  || s.ops.any (fun e => e.2.w = w && decide (e.1 < id) && (match e.2.kind with
    | .wbload j _ _ => j = k
    | _ => false))

/-- A slot takes a format's tag at issue and is not filled until its data lands (16 R286). -/
def State.tagSlot (s : State) (w k c : Nat) : State :=
  s.updWarp w (fun x => { x with wslots := x.wslots.put k ⟨some c, false, []⟩ })

/-- Data lands in a slot; the slot is filled once no load of it is left. -/
def State.landSlot (s : State) (w k : Nat) (bs : List Byte) : State :=
  s.updWarp w (fun x => match x.wslots.find k with
    | some l => { x with wslots := x.wslots.put k { l with bytes := bs, filled := s.slotLoads w k = 0 },
                           wPoison := x.wPoison.filter (fun t => t != k) }
    | none => x)

/-- WBLOAD. A timeline not held gives agent 0xFF (log 53). -/
def opWbload (h : Hdr) (u : Upper) (a : Actor) (s : State) : Res :=
  match u with
  | .x f =>
    let x := s.warp a.lead
    let c := hdrTop h
    let k := h.vd.toNat
    let e := fmtBytes c
    if x.slotBeyond k then accBound
    else if f.ma then
      if s.tileFull a then .hold
      else if !s.holdsTimeline a.lead f.vc.toNat then .fault (FaultInfo.of cClaimEng 1)
      else
        match (s.block x.blk).handles.find f.vb.toNat with
        | none => engineFault 3 cShape 7 0
        | some g =>
          let rs := s.operandBlock a f.va
          let box0 := if isTapered c then mmaK c / 32 else mmaK c
          if regN rs 5 ≠ 0 || regN rs 6 ≠ 0 then engineFault 3 cShape 6 0
          else if g.fmt ≠ c then engineFault 3 cShape 8 0
          else if g.boxes ≠ [box0, 16, 1, 1, 1] then engineFault 3 cShape 11 0
          else
            .ok ((s.issueOp a (.wbload k c g) f.vc.toNat f.vb.toNat rs (f.va.toNat + 7)).tagSlot a.lead k c)
    else
      let off := (x.readS (s.draw 0) f.va.toNat).toNat
      let cs := (x.readS (s.draw 2) f.vb.toNat).toNat
      if s.matrixFull a then .hold
      else if f.mb && isTapered c then Res.cause cReserved
      else if !isTapered c && (off % e ≠ 0 || cs % e ≠ 0) then matrixMisaligned 1 off
      else
        match s.firstBeyond x.blk (bPlaces c off cs f.mb) with
        | some o => matrixScratch o
        | none => .ok ((s.pushMatrix a.lead (.wbload k c off cs f.mb) 1 x.pc a.iword).tagSlot a.lead k c)
  | _ => .ok s

/-! MMA (16 R289 to R294). -/

/-- Members that take part: not exited, and arrived with an active lane (16 R294). -/
def State.mmaMembers (s : State) (a : Actor) : List Nat :=
  ((s.liveMembers a).filter (fun m => m.act != 0)).map (fun m => m.w)

/-- A member's origin word (16 R290). -/
def State.originWord (s : State) (w : Nat) (f : XForm) : Word := (s.warp w).readS (s.draw 0) f.vc.toNat

/-- The handle-form copy into a slot whose fault is pending (16 R293). -/
def State.slotFailed (s : State) (w k : Nat) : Option (Nat × EngOp) :=
  s.ops.find? (fun e => e.2.w = w && e.2.failed && (match e.2.kind with | .wbload j _ _ => j = k | _ => false))

/-- The issue checks of R293, in order. -/
def State.mmaCheck (s : State) (a : Actor) (h : Hdr) (f : XForm) : Option Res :=
  let c := hdrTop h
  let ms := s.mmaMembers a
  let b := s.firstMember a
  let blk := (s.warp a.lead).blk
  let k := f.vb.toNat
  if ms.any (fun w => (s.warp w).tileBeyond h.vd.toNat (tileCount c)) then some accBound
  else if (s.warp b).slotBeyond k then some accBound
  else
    match (s.block blk).omaps.find f.va.toNat with
    | none => some (matrixShape 8)
    | some m =>
      if m.fmt ≠ c then some (matrixShape 8)
      else if ((s.warp b).wslots.find k).all (fun l => l.fmt != some c) then some (matrixShape 9)
      else if isTapered c && ms.any (fun w => (s.originWord w f).toNat / 65536 % 32 ≠ 0) then some (matrixShape 10)
      else
        match ms.findSome? (fun w => s.firstBeyond blk (aPlaces c m (s.originWord w f))) with
        | some o => some (matrixScratch o)
        | none =>
          match s.slotFailed b k with
          | some (id, o) =>
            let i := asyncInfo id o (s.warp a.lead).pc
            some (.fault (if a.scope == .flock then { i with members := none } else i))
          | none => none

/-- What keeps an MMA from being ready: a unit at work, an operand not fetched through the map as it stands, a slot not
filled, or a full counter (16 R284, R293, 10 R212). -/
def State.mmaReady (s : State) (a : Actor) (f : XForm) : Bool :=
  (s.mmaMembers a).all (fun w =>
      let x := s.warp w
      !(s.core x.core).unitBusy x.quarter && x.abuf.any (fun b => (s.block x.blk).omaps.find f.va.toNat = some b.1))
    && ((s.warp (s.firstMember a)).wslots.find f.vb.toNat).any (fun l => l.filled)
    && !s.matrixFull a

/-- Charges the units of the members' quarters, one member after another on a quarter (16 R294, 07 R154). -/
def State.chargeMma (s : State) (ms : List Nat) (c weight : Nat) : State :=
  match ms with
  | [] => s
  | w :: _ =>
    let n (q : Nat) : Nat := (ms.filter (fun v => (s.warp v).quarter = q)).length
    s.updCore (s.warp w).core (fun k =>
      (List.range 4).foldl (fun k q => k.chargeMatrix q (Config.warpWidth * weight) (n q * mmaClocks c)) k)

/-- Weight of an MMA by its format (07 R153). -/
def mmaWeight (c : Nat) : Nat := if c = 0 then 10 else if c = 1 then 15 else if c ≤ 3 then 12 else 14

/-- MMA; its checks come before its readiness (log 130). -/
def opMma (h : Hdr) (u : Upper) (a : Actor) (s : State) : Res :=
  match u with
  | .x f =>
    let c := hdrTop h
    match s.mmaCheck a h f with
    | some r => r
    | none =>
      let ms := s.mmaMembers a
      let pc := (s.warp a.lead).pc
      if !s.mmaReady a f then .hold
      else
        if ms.any (fun w => (s.warp w).abuf.any (fun b => b.2.1))
            || (s.warp (s.firstMember a)).wPoison.contains f.vb.toNat then matrixRes (agentCause 0 kPoison) 2 0
        else
          let b := (((s.warp (s.firstMember a)).wslots.find f.vb.toNat).map (fun l => l.bytes)).getD []
          let t := (s.liveMembers a).foldl (fun s m =>
            let x := s.warp m.w
            let aop := if ms.contains m.w then (x.abuf.map (fun q => q.2.2)).getD [] else []
            (s.pushMatrix m.w (.mma c h.vd.toNat aop (if ms.contains m.w then b else [])) 2 pc a.iword).updWarp m.w
              (fun x => { x with abuf := none })) s
          .ok (t.chargeMma ms c (mmaWeight c))
  | _ => .ok s

/-- The exact sum of products of one group, with IV (16 R291, R292). -/
def groupSum (xs ys : List Num) : Num × FlagSet :=
  let ps := xs.zip ys
  let nan := ps.any (fun p => p.1.isNan || p.2.isNan)
  let bad := ps.any (fun p => (p.1.isInf && p.2.isZero) || (p.1.isZero && p.2.isInf))
  let sig := ps.any (fun p => p.1.isSnan || p.2.isSnan)
  let infs := (ps.filter (fun p => (p.1.isInf || p.2.isInf) && !p.1.isZero && !p.2.isZero && !p.1.isNan
    && !p.2.isNan)).map (fun p => p.1.sign != p.2.sign)
  let both := infs.contains true && infs.contains false
  if nan || bad || both then (.nan false, flagIf (bad || both || sig) fIV)
  else
    match infs with
    | n :: _ => (.inf n, 0)
    | [] =>
      let fs := ps.filterMap (fun p => match p with
        | (.fin n1 m1 e1, .fin n2 m2 e2) => some (n1 != n2, m1 * m2, e1 + e2)
        | _ => none)
      if fs.all (fun t => t.2.1 = 0 && t.1) && !fs.isEmpty then (.fin true 0 0, 0)
      else
        let e := fs.foldl (fun e t => if t.2.1 = 0 then e else min e t.2.2) (0 : Int)
        let v : Int := (fs.map (fun t =>
          let w : Int := t.2.1 * 2 ^ (t.2.2 - e).toNat
          if t.1 then -w else w)).sum
        (.fin (decide (v < 0)) v.natAbs e, 0)

/-- One element of the accumulator through its K-groups (16 R291). -/
def accumulate (f : Fmt) (ovf : Word) (group fuel : Nat) (xs ys : List Num) (acc : Nat) : Nat × FlagSet :=
  match fuel with
  | 0 => (acc, 0)
  | fuel + 1 =>
    if xs.isEmpty then (acc, 0)
    else
      let (g, k) := groupSum (xs.take group) (ys.take group)
      let (v, j) := f.finish (Rnd.rne ovf) (addRaw 0 (f.decode acc) g)
      let (r, i) := accumulate f ovf group fuel (xs.drop group) (ys.drop group) v
      (r, k ||| j ||| i)

/-- MMA into a tile (16 R291). -/
def Warp.runMma (x : Warp) (ovf : Word) (c t : Nat) (a b : List Byte) : Warp :=
  if a.isEmpty then x
  else
    let wide := c = 1
    let rows := operandRows c a
    let cols := operandRows c b
    let group := if isTapered c then 32 else mmaK c
    let out := (List.range 256).map (fun i =>
      accumulate (if wide then fp64 else fp32) ovf group 4 (rows.getD (i / 16) []) (cols.getD (i % 16) [])
        (x.tileElem wide t i))
    (x.setTile wide t (out.map (fun e => e.1))).setFlags t
      (x.tileFlags t ||| out.foldl (fun f e => f ||| e.2) 0)

/-! ACCZ and ACCLD (16 R295, R296). -/

/-- ACCZ. -/
def opAccz (h : Hdr) (u : Upper) (a : Actor) (s : State) : Res :=
  match u with
  | .x f =>
    let ms := s.liveMembers a
    let pc := (s.warp a.lead).pc
    if s.matrixFull a then .hold
    else if ms.any (fun m => (s.warp m.w).tileBeyond h.vd.toNat f.vc.toNat) then accBound
    else .ok (ms.foldl (fun s m => s.pushMatrix m.w (.accz h.vd.toNat f.vc.toNat) 3 pc a.iword) s)
  | _ => .ok s

/-- Rows of a loaded tile. -/
def ldPlaces (c off stride : Nat) : List (Nat × Nat) := (List.range 16).map (fun i => (off + i * stride, 16 * fmtBytes c))

/-- ACCLD. -/
def opAccld (h : Hdr) (u : Upper) (a : Actor) (s : State) : Res :=
  match u with
  | .x f =>
    let x := s.warp a.lead
    let c := hdrTop h
    let off := (x.readS (s.draw 0) f.va.toNat).toNat
    let stride := (x.readS (s.draw 2) f.vb.toNat).toNat
    if s.matrixFull a then .hold
    else if x.tileBeyond h.vd.toNat (tileCount c) then accBound
    else if off % fmtBytes c ≠ 0 || stride % fmtBytes c ≠ 0 then matrixMisaligned 4 off
    else
      match s.firstBeyond x.blk (ldPlaces c off stride) with
      | some o => matrixScratch o
      | none => .ok (s.pushMatrix a.lead (.accld c h.vd.toNat off stride) 4 x.pc a.iword)
  | _ => .ok s

/-- A loaded tile: FP32 and FP64 bit for bit, FP16 and BF16 widened (16 R296). -/
def Warp.runAccld (x : Warp) (c t : Nat) (bs : List Byte) : Warp :=
  let raw := (chunks (fmtBytes c) bs 256).map leNat
  if c ≤ 1 then (x.setTile (c = 1) t raw).setFlags t 0
  else
    let out := raw.map (fun v => fp32.roundNum (Rnd.rne 0) ((if c = 2 then fp16 else bf16).decode v))
    (x.setTile false t (out.map (fun e => e.1))).setFlags t (out.foldl (fun f e => f ||| e.2) 0 &&& fIV)

/-! ACCDRAIN (16 R297 to R300). -/

/-- No bias row, and STICKY as flag target. -/
def noValue : Nat := 0xFFFFFFFF

/-- Bytes that a destination spans (16 R300). -/
def drainSpan (dfmt stride : Nat) : Nat :=
  if isTapered dfmt then 7 * stride + fmtBytes dfmt else 15 * stride + 16 * fmtBytes dfmt

/-- Where each element, or record, of a destination lies, with its bytes (16 R298, R299). -/
def drainPlaces (dfmt : Nat) (dest : DWord) (stride : Nat) : List (DWord × Nat) :=
  let e := fmtBytes dfmt
  if isTapered dfmt then (List.range 8).map (fun p => (dest + BitVec.ofNat 64 (p * stride), e))
  else (List.range 256).map (fun i => (dest + BitVec.ofNat 64 (i / 16 * stride + i % 16 * e), e))

/-- Scratch that a drain names: destination, bias row and barrier object. -/
def drainScratch (d : Drain) : List (Nat × Nat) :=
  (if d.runs.isSome then [] else [(d.dest.toNat, drainSpan d.dfmt d.stride)])
    ++ (if d.bias.toNat = noValue then [] else [(d.bias.toNat, if d.pairTile then 128 else 64)])
    ++ (if d.flagTarget.toNat = noValue then [] else [(d.flagTarget.toNat, 32)])

/-- Runs of each element of a global destination. -/
def State.drainRuns (s : State) (blk : Nat) (ps : List (DWord × Nat)) : List (List (Place × Nat)) :=
  ps.map (fun p => match s.engineRuns blk 0 (Rights.w false) p.1 p.2 with | .ok rs => rs | .error _ => [])

/-- ACCDRAIN. -/
def opAccdrain (h : Hdr) (u : Upper) (a : Actor) (s : State) : Res :=
  match u with
  | .x f =>
    let x := s.warp a.lead
    let wide := hdrTop h = 1
    let te := if wide then 8 else 4
    let rs := s.operandBlock a f.va
    let ctl := regN rs 7
    let glob := ctl / 64 % 2 = 1
    let act := ctl / 16 % 4
    let dfmt := ctl % 16
    let e := fmtBytes dfmt
    let dest := if glob then regPair rs 0 else (rs.getD 0 0).zeroExtend 64
    let stride := regN rs 2
    let bias := regN rs 5
    let target := regN rs 6
    let d : Drain :=
      { tile := h.vd.toNat, pairTile := wide, rnd := f.rnd.toNat, dest := dest, runs := none, stride := stride,
        scale := rs.getD 3 0, bound := rs.getD 4 0, bias := rs.getD 5 0, flagTarget := rs.getD 6 0, act := act,
        dfmt := dfmt, dctr := x.dctr }
    let ps := drainPlaces dfmt dest stride
    if s.matrixFull a then .hold
    else if x.tileBeyond h.vd.toNat (if wide then 2 else 1) then accBound
    else if 128 ≤ ctl || 7 ≤ dfmt || act = 3 || (!glob && regN rs 1 ≠ 0) then matrixShape 6
    else if !isTapered dfmt && (dest.toNat % e ≠ 0 || stride % e ≠ 0) then
      engineFault 0 (agentCause 0 kMisaligned) 5 dest
    else if bias ≠ noValue && bias % te ≠ 0 then matrixMisaligned 5 bias
    else if target ≠ noValue && target % 32 ≠ 0 then matrixRes cBarrierMisaligned 0 target
    else
      let d' := { d with runs := if glob then some [] else none }
      match s.firstBeyond x.blk (drainScratch d') with
      | some o => matrixScratch o
      | none =>
        if glob then
          match s.engineRuns x.blk 0 (Rights.w false) dest (drainSpan dfmt stride) with
          | .error (c, b) => engineFault 0 c 5 b
          | .ok _ =>
            .ok (s.pushMatrix a.lead (.drain { d with runs := some (s.drainRuns x.blk ps) }) 5 x.pc a.iword)
        else .ok (s.pushMatrix a.lead (.drain d) 5 x.pc a.iword)
  | _ => .ok s

/-- A result before its rounding, as a number. -/
def Raw.num (r : Raw) : Num :=
  match r with
  | .special x _ => x
  | .exact e => e.num
/-- Its flags. -/
def Raw.flags (r : Raw) : FlagSet :=
  match r with
  | .special _ f => f
  | .exact _ => 0

/-- An element scaled, biased and activated, exactly (16 R298). -/
def drainValue (mode act : Nat) (a scale bound : Num) (bias : Option Num) : Num × FlagSet :=
  let r := match bias with
    | some b => fmaRaw mode a scale b
    | none => mulRaw a scale
  let v := r.num
  if act = 2 && bound.isNan then (.nan false, r.flags ||| flagIf bound.isSnan fIV)
  else if v.isNan then (.nan false, r.flags)
  else if act = 1 then (if v.sign || v.isZero then .fin false 0 0 else v, r.flags)
  else if act = 2 && !bound.isInf then
    let hi := bound.negIf bound.sign
    (if cmpNum v hi.neg < 0 then hi.neg else if 0 < cmpNum v hi then hi else v, r.flags)
  else (v, r.flags)

/-- Rounding of element `idx` of a drain: under dither LANEID is idx mod W and the index within the lane idx / W
(16 R298). -/
def drainRnd (s : State) (w : Nat) (d : Drain) (idx : Nat) : Rnd :=
  let b := s.blockOf w
  { mode := d.rnd, sat := false, ovf := (s.part b.part).ovf,
    dither := if d.rnd = 4 then
        ditherWord (ditherG b.index (s.warp w).widx (idx % Config.warpWidth))
          (d.dctr ^^^ (BitVec.ofNat 32 (idx / Config.warpWidth) <<< 24)) else 0 }

/-- The bytes of each element, or record, of a drain, and its conversion flags (16 R298, R299). -/
def drainData (s : State) (w : Nat) (d : Drain) (bias : List Byte) : List (List Byte) × FlagSet :=
  let x := s.warp w
  let tf := if d.pairTile then fp64 else fp32
  let te := if d.pairTile then 8 else 4
  let row := (chunks te bias (bias.length / te)).map (fun e => tf.decode (leNat e))
  let vs := (List.range 256).map (fun i =>
    drainValue d.rnd d.act (tf.decode (x.tileElem d.pairTile d.tile i)) (fp32.decode d.scale.toNat)
      (fp32.decode d.bound.toNat) (row[i % 16]?))
  let pre := vs.foldl (fun f v => f ||| v.2) (0 : FlagSet)
  match anyFmt d.dfmt with
  | .float f =>
    let out := (List.range 256).map (fun i => f.roundNum (drainRnd s w d i) ((vs.getD i (.nan false, 0)).1))
    (out.map (fun e => leBytes (fmtBytes d.dfmt) e.1), out.foldl (fun g e => g ||| e.2) pre)
  | .tapered t =>
    let out := (List.range 8).map (fun p =>
      let xs := (List.range 32).map (fun i => (vs.getD (32 * p + i) (.nan false, 0)).1)
      let sc := blockScale t xs
      let es := (List.range 32).map (fun i => quantise t (drainRnd s w d (32 * p + i)) sc (xs.getD i (.nan false)))
      (recBytesOf t sc.1 (es.map (fun e => e.1)), es.foldl (fun g e => g ||| e.2) (0 : FlagSet)))
    (out.map (fun e => e.1), out.foldl (fun g e => g ||| e.2) pre)
  | .int .. => ([], pre)

/-- Where a drain's elements or records lie. -/
def drainTargets (blk : Nat) (d : Drain) : List Target :=
  match d.runs with
  | some rs => rs.map Target.glob
  | none => (drainPlaces d.dfmt d.dest d.stride).map (fun p => Target.scr blk p.1.toNat p.2)

/-- A drain performed: its bytes, with respect to every agent of the device or of the fold, then its flags into the barrier, or kept for the covering wait (16 R300, R301, 03 R81). -/
def State.runDrain (s : State) (w i : Nat) (d : Drain) (bias : List Byte) : State :=
  let x := s.warp w
  let (bs, conv) := drainData s w d bias
  let tile := x.tileFlags d.tile
  let id := ((x.matrix[i]?).map (fun o => o.id)).getD 0
  let g := { s.unitAgent w id with scope := if d.runs.isSome then 4 else 3 }
  let t := (s.storeBy g ((drainTargets x.blk d).zip bs)).performed s.freeCtr g.key
  if d.flagTarget.toNat = noValue then
    let word : Word := (conv.zeroExtend 32 <<< (6 * cvtGroup d.dfmt))
      ||| (tile.zeroExtend 32 <<< (if d.pairTile then 0 else 6))
    t.updWarp w (fun x => { x with drainFlags := x.drainFlags ++ [(x.matrix.length - i - 1, word)] })
  else t.barFlags (s.unitAgent w id) x.blk d.flagTarget.toNat (conv ||| tile)

/-! What a unit performs after issue (16 R301, R302). -/

/-- Scratch that an operation touches after issue, and that it reads. -/
def MatKind.touches (k : MatKind) : List (Nat × Nat) × List (Nat × Nat) :=
  match k with
  | .mma .. => ([], [])
  | .accz .. => ([], [])
  | .accld c _ off stride => (ldPlaces c off stride, ldPlaces c off stride)
  | .wbload _ c off cs kmaj => (bPlaces c off cs kmaj, bPlaces c off cs kmaj)
  | .drain d =>
    let all := drainScratch d
    (all, if d.runs.isSome then all else all.drop 1)

/-- Tiles that an operation reads. -/
def MatKind.tilesRead (k : MatKind) : List Nat :=
  match k with
  | .mma c t a _ => if a.isEmpty then [] else if c = 1 then [t, t + 1] else [t]
  | .drain d => if d.pairTile then [d.tile, d.tile + 1] else [d.tile]
  | _ => []

/-- The late fault of an operation: a released unit, else poison in a tile or in scratch (16 R302, 21 R357). -/
def State.lateFault (s : State) (w : Nat) (k : MatKind) : Option (Cause × DWord) :=
  let blk := (s.warp w).blk
  match s.firstBeyond blk k.touches.1 with
  | some o => some (cScratchBound, BitVec.ofNat 64 o)
  | none =>
    if k.tilesRead.any (fun t => (s.warp w).accPoison.contains t) then some (agentCause 0 kPoison, 0)
    else
      (k.touches.2.find? (fun r => (s.block blk).scrPoisoned r.1 r.2)).map (fun r =>
        (agentCause 0 kPoison, BitVec.ofNat 64 r.1))

/-- The bytes of consecutive ranges of scratch as a matrix operation reads them after issue (02 R54, 16 R303). -/
def State.unitScr (s : State) (w id : Nat) (rs : List (Nat × Nat)) : List Byte :=
  rs.flatMap (fun r => s.see (s.unitAgent w id) (s.draw 6) (.scr (s.warp w).blk r.1 r.2))

/-- Performs operation `i` of a warp. -/
def State.runMatrix (s : State) (w i : Nat) (k : MatKind) : State :=
  let x := s.warp w
  let id := ((x.matrix[i]?).map (fun o => o.id)).getD 0
  let t := match k with
    | .mma c t a b => s.setWarp w (x.runMma (s.part (s.partOf w)).ovf c t a b)
    | .accz t n =>
      s.setWarp w ((List.range n).foldl (fun x j =>
        (x.setTile false (t + j) (List.replicate 256 0)).setFlags (t + j) 0) x)
    | .accld c t off stride => s.setWarp w (x.runAccld c t (s.unitScr w id (ldPlaces c off stride)))
    | .wbload _ _ _ _ _ => s
    | .drain d =>
      s.runDrain w i d (if d.bias.toNat = noValue then []
        else s.unitScr w id [(d.bias.toNat, if d.pairTile then 128 else 64)])
  let u := ((t.publish (s.unitAgent w id) (.unit x.blk w id)).updWarp w (fun x => x.doneMatrix i)).forget (workKey id)
  match k with
  | .wbload j c off cs kmaj => u.landSlot w j (s.unitScr w id (bPlaces c off cs kmaj))
  | _ => u

/-- Free bytes of the step. -/
def State.freeBytes (s : State) (slot n : Nat) : List Byte := (List.range n).map (fun i => Config.freeByte (s.draw slot) i)

/-- What a faulted operation leaves in its destination: tiles, slot or bytes unspecified (16 R302); the slot counts as filled
(log 131). -/
def State.spoilMatrix (s : State) (w id : Nat) (k : MatKind) : State :=
  let x := s.warp w
  match k with
  | .accld c t _ _ =>
    s.setWarp w ((x.setTile (c = 1) t ((List.range 256).map (fun i =>
      (Config.freeWord (s.draw 11) i ++ Config.freeWord (s.draw 12) i).toNat))).setFlags t
        ((Config.freeWord (s.draw 13) 0).extractLsb' 0 6))
  | .wbload j c _ _ _ => s.landSlot w j (s.freeBytes 11 (16 * rowBytes c))
  | .drain d =>
    s.storeBy (s.unitAgent w id) ((((drainTargets x.blk d).zip (List.range 256)).filter (fun e => match e.1 with
      | .scr u o n => !s.scrBeyond u o n
      | .glob _ => true)).map (fun e =>
        (e.1, (List.range (fmtBytes d.dfmt)).map (fun i => Config.freeByte (s.draw 11) (64 * e.2 + i)))))
  | _ => s

/-- Marks operation `i` faulted (16 R302). -/
def State.failMatrix (s : State) (w i : Nat) (o : MatOp) (f : Cause × DWord) : State :=
  (s.updWarp w (fun x => { x with matrix := setNth x.matrix i { o with fault := some f } })).spoilMatrix w o.id o.kind

/-- The faulted operation that a waiter has trapped on counts as complete when it resumes (16 R302). -/
def Warp.serveMatrix (x : Warp) : Warp :=
  match ((List.range x.matrix.length).zip x.matrix).find? (fun e => e.2.fault.isSome) with
  | some (i, o) => { x with matrix := setNth x.matrix i { o with done := true, fault := none } }.retireMatrix
  | none => x

/-- OMAP (16 R284). -/
def execOmap (h : Hdr) (u : Upper) (s : State) : Host.Outcome State Fault Refusal := issue (.omap h u) (opOmap h u) s
/-- WBLOAD (16 R286). -/
def execWbload (h : Hdr) (u : Upper) (s : State) : Host.Outcome State Fault Refusal := issue (.wbload h u) (opWbload h u) s
/-- MMA (16 R291). -/
def execMma (h : Hdr) (u : Upper) (s : State) : Host.Outcome State Fault Refusal := issue (.mma h u) (opMma h u) s
/-- ACCZ (16 R295). -/
def execAccz (h : Hdr) (u : Upper) (s : State) : Host.Outcome State Fault Refusal := issue (.accz h u) (opAccz h u) s
/-- ACCLD (16 R296). -/
def execAccld (h : Hdr) (u : Upper) (s : State) : Host.Outcome State Fault Refusal := issue (.accld h u) (opAccld h u) s
/-- ACCDRAIN (16 R298). -/
def execAccdrain (h : Hdr) (u : Upper) (s : State) : Host.Outcome State Fault Refusal := issue (.accdrain h u) (opAccdrain h u) s

end Sys2Proof.Machine
end

