-- ==== Sys2Proof/Machine/Kv.lean ====
section
/-! DEFINITION. The KV unit and the fold reduction unit (17): pools, nodes and descriptors, KVWALK, KVTRUNC and KVFORK as
one step each (R307), the issue of KVGATHER, KVAPPEND and SMERGE, what the unit does as it performs them, and the
pager's moves (R308). -/

namespace Sys2Proof.Machine

/-- An error of the unit: cause, detail and address (17 R311). -/
structure KvErr where
  cause : Cause
  detail : Nat
  addr : DWord
  deriving DecidableEq, Repr

/-- SHAPE-BOUND with a detail. -/
def kvShape (d : Nat) (a : DWord) : KvErr := ⟨cShape, d, a⟩
/-- MISALIGNED. -/
def kvMisaligned (a : DWord) : KvErr := ⟨agentCause 3 kMisaligned, 0, a⟩

/-- A pool header (17 R304). -/
structure KvPool where
  base : DWord
  rb : Nat
  cap : Nat
  free : Nat
  free2 : Nat
  stack : DWord
  stack2 : DWord
  base2 : DWord
  mark : Nat
  deriving DecidableEq, Repr

/-- A tree node (17 R305). -/
structure KvNode where
  addr : DWord
  start : Nat
  count : Nat
  refs : Nat
  ents : List Word
  deriving DecidableEq, Repr

/-- A sequence descriptor with its path's nodes, root first (17 R306). -/
structure KvDesc where
  addr : DWord
  path : List KvNode
  len : Nat
  win : Nat
  pool : DWord
  deriving DecidableEq, Repr

/-- A byte address and an offset from it. -/
def atOff (a : DWord) (n : Nat) : DWord := a + BitVec.ofNat 64 n

/-- A number of `n` bytes at an offset. -/
def fieldAt (bs : List Byte) (o n : Nat) : Nat := leNat ((bs.drop o).take n)

/-! Reading (17 R311). -/

/-- A read of the unit, checked as the tile engine's. -/
def State.kvRead (s : State) (v : Via) (a : DWord) (n : Nat) : Except KvErr (List Byte) :=
  match s.engineRunsAt v 3 (Rights.r false) a n with
  | .error (c, b) => .error ⟨c, 0, b⟩
  | .ok rs => .ok (s.runBytes rs)

/-- A read of a structure that lies at a multiple of its alignment: NON-CANONICAL, then MISALIGNED, then the rest
(17 R311, 10 R210). -/
def State.kvAligned (s : State) (v : Via) (a : DWord) (align n : Nat) : Except KvErr (List Byte) :=
  if !v.fw && !(isCanonical a && isCanonical (atOff a (n - 1))) then .error ⟨agentCause 3 kNonCanonical, 0, a⟩
  else if a.toNat % align ≠ 0 then .error (kvMisaligned a)
  else s.kvRead v a n

/-- A node. -/
def State.kvNode (s : State) (v : Via) (a : DWord) : Except KvErr KvNode :=
  match s.kvAligned v a 64 64 with
    | .error e => .error e
    | .ok bs =>
      let n : KvNode :=
        { addr := a, start := fieldAt bs 8 4, count := fieldAt bs 12 2, refs := fieldAt bs 14 2,
          ents := (List.range 8).map (fun i => BitVec.ofNat 32 (fieldAt bs (16 + 4 * i) 4)) }
      if n.start % 16 ≠ 0 || 128 < n.count then .error (kvShape 12 a) else .ok n

/-- Nodes of some addresses. -/
def State.kvNodes (s : State) (v : Via) (as : List DWord) : Except KvErr (List KvNode) :=
  match as with
  | [] => .ok []
  | a :: t =>
    match s.kvNode v a with
    | .error e => .error e
    | .ok n =>
      match s.kvNodes v t with
      | .error e => .error e
      | .ok ns => .ok (n :: ns)

/-- Starts rise, and leave no gap (17 R306). -/
def pathJoined (ns : List KvNode) : Bool :=
  match ns with
  | a :: b :: t => decide (a.start < b.start) && decide (b.start ≤ a.start + a.count) && pathJoined (b :: t)
  | _ => true

/-- The path index that serves a position: the last whose node's start does not pass it (17 R312). -/
def chooseNode (ns : List KvNode) (x : Nat) : Option (Nat × KvNode) :=
  (((List.range ns.length).zip ns).filter (fun e => decide (e.2.start ≤ x))).getLast?

/-- Every position from the window to the length lies within the node chosen for it (17 R306). -/
def pathCovers (ns : List KvNode) (win len : Nat) : Bool :=
  win = len
    || ((ns.head?.any (fun n => decide (n.start ≤ win)))
      && ((List.range ns.length).zip ns).all (fun e =>
        let hi := min len ((ns[e.1 + 1]?).elim len (fun n => n.start))
        decide (hi ≤ max e.2.start win) || decide (hi ≤ e.2.start + e.2.count)))

/-- A descriptor. -/
def State.kvDesc (s : State) (v : Via) (a : DWord) : Except KvErr KvDesc :=
  match s.kvAligned v a 64 256 with
    | .error e => .error e
    | .ok bs =>
      let as := (((List.range 16).map (fun i => BitVec.ofNat 64 (fieldAt bs (8 * i) 8))).takeWhile
        (fun x => x != 0) : List DWord)
      match s.kvNodes v as with
      | .error e => .error e
      | .ok ns =>
        let d : KvDesc :=
          { addr := a, path := ns, len := fieldAt bs 128 4, win := fieldAt bs 132 4,
            pool := BitVec.ofNat 64 (fieldAt bs 136 8) }
        if d.len < d.win || !pathJoined ns || !pathCovers ns d.win d.len then .error (kvShape 12 a) else .ok d

/-- A pool header. -/
def State.kvPool (s : State) (v : Via) (a : DWord) : Except KvErr KvPool :=
  match s.kvAligned v a 4096 64 with
    | .error e => .error e
    | .ok bs =>
      let w (o : Nat) : DWord := BitVec.ofNat 64 (fieldAt bs o 8)
      let p : KvPool :=
        { base := a, rb := fieldAt bs 0 4, cap := fieldAt bs 4 4, free := fieldAt bs 8 4, free2 := fieldAt bs 12 4,
          stack := w 16, stack2 := w 24, base2 := w 32, mark := fieldAt bs 40 4 }
      if p.rb % 16 ≠ 0 || p.rb < 16 || 4096 < p.rb || p.cap < p.mark || (bs.drop 44).any (fun b => b != 0) then
        .error (kvShape 14 a)
      else .ok p

/-- PR and ST of a page entry (17 R305). -/
def entPresent (e : Word) : Bool := e.getLsbD 30 && !e.getLsbD 31
/-- A second-tier page. -/
def entTier (e : Word) : Bool := e.getLsbD 31 && !e.getLsbD 30
/-- Page index. -/
def entIndex (e : Word) : Nat := (e.extractLsb' 0 24).toNat
/-- An entry that R311 detail 13 refuses. -/
def entBad (cap : Nat) (e : Word) : Bool :=
  e.extractLsb' 24 6 != 0 || (e.getLsbD 30 && e.getLsbD 31) || (entPresent e && decide (cap ≤ entIndex e))
/-- A pool page's entry. -/
def poolEntry (i : Nat) : Word := 0x40000000 ||| BitVec.ofNat 32 (i % 2 ^ 24)
/-- A second-tier page's entry. -/
def tierEntry (i : Nat) : Word := 0x80000000 ||| BitVec.ofNat 32 (i % 2 ^ 24)

/-- Where page entry `e` of a node lies. -/
def entAddr (node : DWord) (e : Nat) : DWord := atOff node (16 + 4 * e)
/-- Address of a pool page (17 R304). -/
def KvPool.page (p : KvPool) (i : Nat) : DWord := atOff p.base (4096 + i * 32 * p.rb)
/-- Address of a second-tier page. -/
def KvPool.page2 (p : KvPool) (i : Nat) : DWord := atOff p.base2 (i * 32 * p.rb)
/-- Where an entry's page lies; none where it is not resident. -/
def KvPool.pageOf (p : KvPool) (e : Word) : Option DWord :=
  if entPresent e then some (p.page (entIndex e)) else if entTier e then some (p.page2 (entIndex e)) else none

/-! Writing: every write of a step is checked before any is made (17 R307, R311). -/

/-- A write: address and bytes. -/
abbrev KvWrite := DWord × List Byte

/-- The runs of some writes, or the first error. -/
def State.kvRuns (s : State) (v : Via) (ws : List KvWrite) : Except KvErr (List (List (Place × Nat) × List Byte)) :=
  match ws with
  | [] => .ok []
  | (a, bs) :: t =>
    match s.engineRunsAt v 3 (Rights.w false) a bs.length with
    | .error (c, b) => .error ⟨c, 0, b⟩
    | .ok rs =>
      match s.kvRuns v t with
      | .error e => .error e
      | .ok r => .ok ((rs, bs) :: r)

/-- Where structures lie: the objects that a step acquires and releases (17 R307), by their places, as two names may reach one
(02 R36). -/
def State.kvObjects (s : State) (v : Via) (as : List DWord) : List Nat :=
  as.filterMap (fun a => match s.engineRunsAt v 3 (Rights.r false) a 1 with
    | .ok ((.phys p, _) :: _) => some p
    | _ => none)

/-- The objects of a step on a descriptor: itself, its path's nodes and its pool. -/
def State.kvTouched (s : State) (v : Via) (d : KvDesc) : List Nat :=
  s.kvObjects v (d.addr :: d.pool :: d.path.map (fun n => n.addr))

/-- All the writes of a step by an agent, in order, between its acquire and its release of some objects; or none of them (17
R307, R311). -/
def State.kvCommit (s : State) (g : Agent) (objs : List Nat) (v : Via) (ws : List KvWrite) : Except KvErr State :=
  let g := { g with scope := 4 }
  match s.kvRuns v ws with
  | .error e => .error e
  | .ok rs => .ok ((rs.foldl (fun s r => s.putBy g (s.draw 13) (Put.step false) (.glob r.1) r.2)
      (s.kvEnter g objs)).kvLeave g objs)

/-- A step that writes nothing: its acquire and its release (17 R307). -/
def State.kvVisit (s : State) (g : Agent) (objs : List Nat) : State := (s.kvEnter g objs).kvLeave g objs

/-- A word to write. -/
def w4 (a : DWord) (n : Nat) : KvWrite := (a, leBytes 4 n)
/-- The counts of a node: tokens and references. -/
def KvNode.countsAt (n : KvNode) (count refs : Nat) : KvWrite := (atOff n.addr 12, leBytes 2 count ++ leBytes 2 refs)

/-- A step names its path's nodes to the pager, and asks for a demotion where the free count stands below the mark
(17 R308). -/
def State.kvNote (s : State) (part : Nat) (nodes : List DWord) (pool : DWord) (free mark : Nat) : State :=
  s.updPart part (fun p =>
    { p with
      named := p.named ++ ((nodes.map (fun n => (pool, n))).filter (fun e => !p.named.contains e)),
      demoteReqs := if mark ≠ 0 && decide (free < mark) && !p.demoteReqs.contains pool then p.demoteReqs ++ [pool]
        else p.demoteReqs })

/-- A discard notice for a page that is not resident (17 R317). -/
def State.kvDiscards (s : State) (part : Nat) (ds : List (DWord × Nat)) : State :=
  { s with outputs := s.outputs ++ ds.map (fun d => Output.discard part d.1 d.2) }

/-- A precise error of the unit. -/
def kvRes (e : KvErr) : Res := engineFault 3 e.cause e.detail e.addr

/-- An operation whose step of R307 is still to come, on a descriptor; a fault that is not replayable ends it (14 R276,
log 50). -/
def EngOp.kvDue (o : EngOp) (d : DWord) : Bool :=
  o.fault.all (fun f => replayable f.cause) && regPair o.regs 0 == d && (match o.kind with
    | .append => true
    | .gather _ none => true
    | _ => false)

/-- An earlier KV operation of a warp, issued before `id`, has not taken effect on a descriptor (17 R307). -/
def State.kvEarlier (s : State) (w id : Nat) (d : DWord) : Bool :=
  s.ops.any (fun e => decide (e.1 < id) && e.2.w = w && e.2.kvDue d)

/-! KVWALK (17 R312). -/

/-- The node of a path that holds a page entry which R311 refuses (17 R311 detail 13, R312). -/
def badEntry (cap : Nat) (ns : List KvNode) : Option KvNode := ns.find? (fun n => n.ents.any (entBad cap))

/-- What KVWALK writes: the entry, or the masked code, and the status word. -/
def walkResult (d : KvDesc) (p : KvPool) (x : Nat) : Except KvErr (Word × Word) :=
  match badEntry p.cap d.path with
  | some n => .error (kvShape 13 n.addr)
  | none =>
  if d.len ≤ x then .ok (0xFFFFFFFF, 0x10000000)
  else if x < d.win then .ok (0xFFFFFFFF, 0x20000000)
  else
    match chooseNode d.path x with
    | none => .error (kvShape 12 d.addr)
    | some (k, n) =>
      if n.start + n.count ≤ x then .error (kvShape 12 d.addr)
      else
        let e := (x - n.start) / 16
        .ok (n.ents.getD e 0, BitVec.ofNat 32 (k * 2 ^ 24 + e * 256 + (x - n.start) % 16))

/-- KVWALK. -/
def opKvwalk (h : Hdr) (u : Upper) (a : Actor) (s : State) : Res :=
  match u with
  | .x f =>
    let rs := s.operandBlock a f.va
    let blk := (s.warp a.lead).blk
    let v := s.engineVia blk
    if (rs.drop 3).any (fun r => r != 0) then engineFault 3 cShape 6 0
    else if s.kvEarlier a.lead s.nextUid (regPair rs 0) then .hold
    else
      match s.kvDesc v (regPair rs 0) with
      | .error e => kvRes e
      | .ok d =>
        match s.kvPool v d.pool with
        | .error e => kvRes e
        | .ok p =>
          match walkResult d p (regN rs 2) with
          | .error e => kvRes e
          | .ok (lo, hi) =>
            .ok (((s.kvVisit (s.agentOf a a.lead 4) (s.kvTouched v d)).kvNote v.part (d.path.map (fun n => n.addr)) d.pool p.free p.mark).updWarp a.lead
              (fun x => (x.writeS h.vd.toNat lo).writeS (h.vd.toNat + 1) hi))
  | _ => .ok s

/-! KVTRUNC (17 R317). -/

/-- Entries of a node that hold its pages. -/
def KvNode.pageCount (n : KvNode) : Nat := (n.count + 15) / 16

/-- A page entry to free: the node, the entry's number and the entry. -/
structure FreeEnt where
  node : KvNode
  e : Nat
  word : Word
  deriving DecidableEq, Repr

/-- The pages of a node that a test picks; one that a window advance has freed already is none (log 40). -/
def KvNode.freeing (n : KvNode) (win : Nat) (pick : Nat → Bool) : List FreeEnt :=
  ((List.range n.pageCount).filter (fun e =>
    pick e && !(n.ents.getD e 0 == 0 && decide (n.start + 16 * e + 16 ≤ win)))).map (fun e => ⟨n, e, n.ents.getD e 0⟩)

/-- What a truncation does to the path: the nodes kept, those dropped, the pages freed, and the straddling node's new
token count. -/
structure Trunc where
  kept : List KvNode
  dropped : List KvNode
  freed : List FreeEnt
  recount : Option (KvNode × Nat)
  deriving DecidableEq, Repr

/-- The pages of dropped nodes whose count reaches 0. -/
def droppedFree (win : Nat) (ns : List KvNode) : List FreeEnt :=
  ns.flatMap (fun n => if n.refs ≤ 1 then n.freeing win (fun _ => true) else [])

/-- The straddling node: the one chosen for position p − 1. -/
def straddler (ns : List KvNode) (p : Nat) : Option KvNode :=
  if p = 0 then none else (chooseNode ns (p - 1)).map (fun e => e.2)

/-- Rollback, from the leaf up. -/
def truncBack (d : KvDesc) (p : Nat) : Trunc :=
  let kept := d.path.filter (fun n => decide (n.start < p))
  let dropped := (d.path.filter (fun n => decide (p ≤ n.start))).reverse
  match straddler kept p with
  | some n =>
    if n.refs = 1 then
      ⟨kept, dropped, droppedFree d.win dropped ++ n.freeing d.win (fun e => decide (p ≤ n.start + 16 * e)),
        some (n, p - n.start)⟩
    else ⟨kept, dropped, droppedFree d.win dropped, none⟩
  | none => ⟨kept, dropped, droppedFree d.win dropped, none⟩

/-- Whether path node `k` lies wholly below p in its visible extent (17 R306). -/
def extentBelow (ns : List KvNode) (k p : Nat) : Bool :=
  match ns[k]?, ns[k + 1]? with
  | some _, some m => decide (m.start ≤ p)
  | some n, none => decide (n.start + n.count ≤ p)
  | none, _ => false

/-- Window advance. -/
def truncWindow (d : KvDesc) (p : Nat) : Trunc :=
  let n := ((List.range d.path.length).takeWhile (fun k => extentBelow d.path k p)).length
  let kept := d.path.drop n
  let dropped := d.path.take n
  match straddler kept p with
  | some m =>
    ⟨kept, dropped, droppedFree d.win dropped ++ (if m.refs = 1 then
      m.freeing d.win (fun e => decide (m.start + 16 * e + 16 ≤ p)) else []), none⟩
  | none => ⟨kept, dropped, droppedFree d.win dropped, none⟩

/-- The writes of freed pages: pushes on the stacks from their counts on, and the entries set to 0. -/
def freeWrites (p : KvPool) (free free2 : Nat) (fs : List FreeEnt) : List KvWrite × Nat × Nat :=
  match fs with
  | [] => ([], free, free2)
  | f :: t =>
    let z := w4 (entAddr f.node.addr f.e) 0
    if entPresent f.word then
      let (ws, a, b) := freeWrites p (free + 1) free2 t
      (w4 (atOff p.stack (4 * free)) (entIndex f.word) :: z :: ws, a, b)
    else if entTier f.word then
      let (ws, a, b) := freeWrites p free (free2 + 1) t
      (w4 (atOff p.stack2 (4 * free2)) (entIndex f.word) :: z :: ws, a, b)
    else
      let (ws, a, b) := freeWrites p free free2 t
      (z :: ws, a, b)

/-- Every write of a truncation. -/
def truncWrites (d : KvDesc) (p : KvPool) (t : Trunc) (len win : Nat) : List KvWrite × Nat × Nat :=
  let (ws, free, free2) := freeWrites p p.free p.free2 t.freed
  (ws
    ++ t.dropped.map (fun n => if n.refs ≤ 1 then n.countsAt 0 0 else n.countsAt n.count (n.refs - 1))
    ++ (t.recount.toList.map (fun r => r.1.countsAt r.2 r.1.refs))
    ++ [(d.addr, (List.range 16).flatMap (fun i => leBytes 8 (((t.kept[i]?).elim 0 (fun n => n.addr.toNat))))),
        (atOff d.addr 128, leBytes 4 len ++ leBytes 4 win),
        (atOff p.base 8, leBytes 4 free ++ leBytes 4 free2)], free, free2)

/-- KVTRUNC; bit 62 selects the window advance. -/
def opKvtrunc (h : Hdr) (u : Upper) (a : Actor) (s : State) : Res :=
  match u with
  | .x f =>
    let rs := s.operandBlock a f.va
    let v := s.engineVia (s.warp a.lead).blk
    let pos := regN rs 2
    if (rs.drop 3).any (fun r => r != 0) then engineFault 3 cShape 6 0
    else if s.kvEarlier a.lead s.nextUid (regPair rs 0) then .hold
    else
      match s.kvDesc v (regPair rs 0) with
      | .error e => kvRes e
      | .ok d =>
        match s.kvPool v d.pool with
        | .error e => kvRes e
        | .ok p =>
          if d.len < pos || (f.ma && pos < d.win) then engineFault 3 cShape 15 d.addr
          else
            let t := if f.ma then truncWindow d pos else truncBack d pos
            match t.freed.find? (fun e => entBad p.cap e.word) with
            | some e => kvRes (kvShape 13 e.node.addr)
            | none =>
              let (ws, free, _) := truncWrites d p t (if f.ma then d.len else pos) (if f.ma then pos else min d.win pos)
              match s.kvCommit (s.agentOf a a.lead 4) (s.kvTouched v d) v ws with
              | .error e => kvRes e
              | .ok r =>
                let lost := (t.freed.filter (fun e => !entPresent e.word && !entTier e.word)).map
                  (fun e => (e.node.addr, e.e))
                .ok (((r.kvNote v.part (d.path.map (fun n => n.addr)) d.pool free p.mark).kvDiscards v.part lost).updWarp
                  a.lead (fun x => (x.writeS h.vd.toNat (BitVec.ofNat 32 t.freed.length)).writeS (h.vd.toNat + 1)
                    (BitVec.ofNat 32 (t.dropped.filter (fun n => decide (n.refs ≤ 1))).length)))
  | _ => .ok s

/-! KVFORK (17 R318). -/

/-- KVFORK. -/
def opKvfork (u : Upper) (a : Actor) (s : State) : Res :=
  match u with
  | .x f =>
    let rs := s.operandBlock a f.va
    let v := s.engineVia (s.warp a.lead).blk
    let pos := regN rs 4
    let new := regPair rs 2
    if (rs.drop 5).any (fun r => r != 0) then engineFault 3 cShape 6 0
    else if s.kvEarlier a.lead s.nextUid (regPair rs 0) || s.kvEarlier a.lead s.nextUid new then .hold
    else
      match s.kvDesc v (regPair rs 0) with
      | .error e => kvRes e
      | .ok d =>
        match s.kvPool v d.pool with
        | .error e => kvRes e
        | .ok p =>
        if d.len < pos || pos < d.win then engineFault 3 cShape 15 d.addr
        else if !v.fw && !(isCanonical new && isCanonical (atOff new 255)) then
          kvRes ⟨agentCause 3 kNonCanonical, 0, new⟩
        else if new.toNat % 64 ≠ 0 then kvRes (kvMisaligned new)
        else
          let ns := d.path.filter (fun n => decide (n.start < pos))
          match ns.find? (fun n => decide (65535 ≤ n.refs)) with
          | some n => kvRes (kvShape 17 n.addr)
          | none =>
            let bytes := ((List.range 16).flatMap (fun i => leBytes 8 ((ns[i]?).elim 0 (fun n => n.addr.toNat))))
              ++ leBytes 4 pos ++ leBytes 4 d.win ++ leBytes 8 d.pool.toNat ++ List.replicate 112 0
            match s.kvCommit (s.agentOf a a.lead 4) (s.kvTouched v d ++ s.kvObjects v [new]) v
                (ns.map (fun n => n.countsAt n.count (n.refs + 1)) ++ [(new, bytes)]) with
            | .error e => kvRes e
            | .ok t => .ok (t.kvNote v.part (d.path.map (fun n => n.addr)) d.pool p.free p.mark)
  | _ => .ok s

/-! Issue of the operations on a timeline (17 R310). -/

/-- The checks of R310 for KVGATHER, after the timeline's. -/
def State.gatherCheck (s : State) (blk : Nat) (rs : List Word) : Option Res :=
  let dst := regN rs 4
  let rec' := regN rs 5
  let bar := regN rs 6
  let addr (o : Nat) : DWord := BitVec.ofNat 64 o
  if 256 ≤ regN rs 3 || regN rs 7 ≠ 0 then some (engineFault 3 cShape 6 0)
  else if regN rs 3 = 0 || 32 < regN rs 3 || regN rs 2 % 16 ≠ 0 then some (engineFault 3 cShape 15 0)
  else if dst % 16 ≠ 0 then some (engineFault 3 (agentCause 3 kMisaligned) 0 (addr dst))
  else if rec' ≠ noValue && rec' % 16 ≠ 0 then some (engineFault 3 (agentCause 3 kMisaligned) 0 (addr rec'))
  else if rec' ≠ noValue && s.scrBeyond blk rec' 16 then some (engineFault 3 cScratchBound 0 (addr rec'))
  else if bar ≠ noValue && s.scrBeyond blk bar 32 then some (engineFault 3 cScratchBound 0 (addr bar))
  else if bar ≠ noValue && bar % 32 ≠ 0 then some (engineFault 3 cBarrierMisaligned 0 (addr bar))
  else none

/-- The checks for KVAPPEND. Its rows' size is known only to the step (log 41). -/
def appendCheck (rs : List Word) : Option Res :=
  let addr (o : Nat) : DWord := BitVec.ofNat 64 o
  if regN rs 7 ≠ 0 then some (engineFault 3 cShape 6 0)
  else if regN rs 2 = 0 || 16 < regN rs 2 then some (engineFault 3 cShape 15 0)
  else if regN rs 3 % 16 ≠ 0 then some (engineFault 3 (agentCause 3 kMisaligned) 0 (addr (regN rs 3)))
  else if regN rs 4 % 16 ≠ 0 then some (engineFault 3 (agentCause 3 kMisaligned) 0 (addr (regN rs 4)))
  else none

/-- Bytes of a merge's rows (17 R319). -/
def mergeBytes (rs : List Word) : Nat := regN rs 1 * (2 + regN rs 2) * 4
/-- Destination rank. -/
def mergeDest (rs : List Word) : Nat := regN rs 0 / 256 % 8

/-- The checks for SMERGE. -/
def State.mergeCheck (s : State) (blk : Nat) (rs : List Word) : Option Res :=
  let m := regN rs 0 % 256
  let src := regN rs 3
  let dst := regN rs 4
  let bar := regN rs 5
  let n := mergeBytes rs
  let us := (ranksOf m).map (s.foldMember blk)
  let du := s.foldMember blk (mergeDest rs)
  let addr (o : Nat) : DWord := BitVec.ofNat 64 o
  if 2048 ≤ regN rs 0 || regN rs 6 ≠ 0 || regN rs 7 ≠ 0 then some (engineFault 3 cShape 6 0)
  else if m = 0 || regN rs 1 = 0 || 64 < regN rs 1 || regN rs 2 = 0 || 256 < regN rs 2 then
    some (engineFault 3 cShape 15 0)
  else if (s.block blk).fold.isNone then some (engineFault 3 cFoldNotMember 0 0)
  else if us.any (fun u => u.isNone) || du.isNone then some (engineFault 3 cMcastNonmember 0 0)
  else if src % 4 ≠ 0 then some (engineFault 3 (agentCause 3 kMisaligned) 0 (addr src))
  else if dst % 4 ≠ 0 then some (engineFault 3 (agentCause 3 kMisaligned) 0 (addr dst))
  else if us.any (fun u => u.any (fun b => s.scrBeyond b src n)) then some (engineFault 3 cScratchBound 0 (addr src))
  else if du.any (fun b => s.scrBeyond b dst n) then some (engineFault 3 cScratchBound 0 (addr dst))
  else if bar ≠ noValue && du.any (fun b => s.scrBeyond b bar 32) then some (engineFault 3 cScratchBound 0 (addr bar))
  else if bar ≠ noValue && bar % 32 ≠ 0 then some (engineFault 3 cBarrierMisaligned 0 (addr bar))
  else none

/-- The issue of an operation of the KV unit, with its own checks (17 R310); a timeline not held gives agent 0xFF (log 53). -/
def opKvIssue (fn : Nat) (kind : OpKind) (check' : State → Nat → List Word → Option Res) (h : Hdr) (u : Upper)
    (a : Actor) (s : State) : Res :=
  match u with
  | .x f =>
    let rs := s.operandBlock a f.va
    if s.tileFull a then .hold
    else if !s.holdsTimeline a.lead f.vc.toNat then .fault (FaultInfo.of cClaimEng fn)
    else
      match check' s (s.warp a.lead).blk rs with
      | some r => r
      | none => .ok (s.issueOp a kind f.vc.toNat 0 rs h.vd.toNat)
  | _ => .ok s

/-- Rows K or V by bit 62 (17 R309). -/
def vRowsOf (u : Upper) : Bool := match u with | .x f => f.ma | _ => false

/-! Performing a KVGATHER (17 R314). -/

/-- The first page of a list that an error stops. -/
def exceptAll {β : Type} (l : List (Except KvErr β)) : Except KvErr (List β) :=
  match l with
  | [] => .ok []
  | .error e :: _ => .error e
  | .ok b :: t =>
    match exceptAll t with
    | .error e => .error e
    | .ok bs => .ok (b :: bs)

/-- A range page as the walk finds it. -/
def walkPage (d : KvDesc) (p : KvPool) (x : Nat) : Except KvErr GatherPage :=
  if min (x + 16) d.len ≤ max x d.win then .ok .masked
  else
    match chooseNode d.path x with
    | none => .error (kvShape 12 d.addr)
    | some (_, n) =>
      if n.start + n.count ≤ x then .error (kvShape 12 d.addr)
      else
        let e := (x - n.start) / 16
        let w := n.ents.getD e 0
        if entBad p.cap w then .error (kvShape 13 n.addr) else .ok (.entry n.addr e w)

/-- Whether a page is delivered in the present pass. -/
def GatherPage.present (g : GatherPage) : Bool :=
  match g with
  | .masked => true
  | .entry _ _ w => entPresent w

/-- The walk: its record, or its error; with the nodes named and the pool's counts. -/
def State.gatherWalk (s : State) (o : EngOp) : Except KvErr (Gather × KvDesc × KvPool) :=
  let v := s.engineVia o.blk
  match s.kvDesc v (regPair o.regs 0) with
  | .error e => .error e
  | .ok d =>
    match s.kvPool v d.pool with
    | .error e => .error e
    | .ok p =>
      let n := regN o.regs 3
      if s.scrBeyond o.blk (regN o.regs 4) (n * 16 * p.rb) then
        .error ⟨cScratchBound, 0, BitVec.ofNat 64 (regN o.regs 4)⟩
      else
        match exceptAll ((List.range n).map (fun j => walkPage d p (regN o.regs 2 + 16 * j))) with
        | .error e => .error e
        | .ok pages => .ok (⟨p.rb, d.pool, d.len, d.win, pages, []⟩, d, p)

/-- Range pages that are neither present nor delivered, in order. -/
def gatherAbsent (g : Gather) (done : List Nat) : List Nat :=
  (List.range g.pages.length).filter (fun j => !(g.pages.getD j .masked).present && !done.contains j)

/-- The arrival mask of pages delivered. -/
def arrivalMask (done : List Nat) : Nat := (maskOf done).toNat

/-- The walk's effects: the arrival record, the page-in requests, and what the pager is told. -/
def State.walked (s : State) (id : Nat) (o : EngOp) (g : Gather) (d : KvDesc) (p : KvPool) (vRows : Bool) : State :=
  let part := (s.block o.blk).part
  let abs := gatherAbsent g o.delivered
  let rec' := regN o.regs 5
  let s1 := if rec' = noValue then s else
    s.scrPut (o.agent id) o.blk rec' (leBytes 4 (arrivalMask o.delivered) ++ leBytes 4 g.len ++ leBytes 4 g.win
      ++ leBytes 4 abs.length)
  let reqs := abs.filterMap (fun j => match g.pages.getD j .masked with
    | .entry n e _ => some (⟨id, j, n, e, g.pool⟩ : PageReq)
    | .masked => none)
  let s2 := ((s1.setOp id { o with kind := .gather vRows (some g) }).kvVisit (o.agent id)
    (s.kvTouched (s.engineVia o.blk) d)).kvNote part (d.path.map (fun n => n.addr)) g.pool
    p.free p.mark
  s2.updPart part (fun q => { q with pageReqs := q.pageReqs ++ reqs })

/-- A row of a pool page as the unit reads it (17 R315). -/
def State.gatherRow (s : State) (id : Nat) (o : EngOp) (a : DWord) (n : Nat) : Except KvErr (List Byte) :=
  match s.engineRuns o.blk 3 (Rights.r false) a n with
  | .error (c, b) => .error ⟨c, 0, b⟩
  | .ok rs => .ok (s.seeRuns (o.agent id) rs)

/-- The rows of range page `j` from pool page address `pa`; masked positions are zero rows. -/
def State.gatherRows (s : State) (id : Nat) (o : EngOp) (g : Gather) (vRows : Bool) (j : Nat) (pa : Option DWord) :
    Except KvErr (List Byte) :=
  match exceptAll ((List.range 16).map (fun t =>
    let x := regN o.regs 2 + 16 * j + t
    match pa with
    | some a =>
      if decide (g.win ≤ x) && decide (x < g.len) then
        s.gatherRow id o (atOff a ((if vRows then t + 16 else t) * g.rb)) g.rb
      else .ok (List.replicate g.rb 0)
    | none => .ok (List.replicate g.rb 0))) with
  | .error e => .error e
  | .ok rows => .ok rows.flatten

/-- The entry that a delivery uses: the walk's, or that of an absent page reread, checked as the walk's (17 R311, R315). -/
def State.gatherEntry (s : State) (o : EngOp) (g : Gather) (j : Nat) : Except KvErr (Option Word) :=
  match g.pages.getD j .masked with
  | .masked => .ok none
  | .entry n e w =>
    if entPresent w then .ok (some w)
    else
      match s.kvRead (s.engineVia o.blk) (entAddr n e) 4, s.kvPool (s.engineVia o.blk) g.pool with
      | .error e, _ => .error e
      | _, .error e => .error e
      | .ok bs, .ok p =>
        let w : Word := BitVec.ofNat 32 (leNat bs)
        if entBad p.cap w then .error (kvShape 13 n) else .ok (some w)

/-- A page's rows, or the error in reading them; none while the page is not present. -/
def State.gatherPage (s : State) (id : Nat) (o : EngOp) (g : Gather) (vRows : Bool) (j : Nat) : Except KvErr (Option (List Byte)) :=
  match s.gatherEntry o g j with
  | .error e => .error e
  | .ok none => (s.gatherRows id o g vRows j none).map some
  | .ok (some w) =>
    if entPresent w then
      (s.gatherRows id o g vRows j (some (atOff g.pool (4096 + entIndex w * 32 * g.rb)))).map some
    else .ok none

/-- The reread of an absent page's entry is a KV step of its own on the node and the pool, after which the pool's free count is
judged as after any (17 R307, R308, R315). -/
def State.reread (s : State) (id : Nat) (o : EngOp) (g : Gather) (j : Nat) : State :=
  let v := s.engineVia o.blk
  match g.pages.getD j .masked with
  | .masked => s
  | .entry n _ w =>
    if entPresent w then s
    else
      match s.kvPool v g.pool with
      | .error _ => s
      | .ok p => (s.kvVisit (o.agent id) (s.kvObjects v [n, g.pool])).kvNote v.part [n] g.pool p.free p.mark

/-- A page is delivered: rows, arrival bit, byte count (17 R314). The second component is the overflow of the barrier,
met after the rows have landed. -/
def State.deliverPage (s : State) (id : Nat) (o : EngOp) (g : Gather) (j : Nat) (rows : List Byte) (idx : Option Nat) :
    State × Option (Cause × DWord) :=
  let rec' := regN o.regs 5
  let bar := regN o.regs 6
  let part := (s.block o.blk).part
  let s1 := s.scrPut (o.agent id) o.blk (regN o.regs 4 + 16 * j * g.rb) rows
  let s2 := if rec' = noValue then s1 else
    (s1.releaseBy (o.agent id)).putBy (o.agent id) (s.draw 13) (Put.step true) (.scr o.blk rec' 4)
      (leBytes 4 (leNat ((s1.block o.blk).scrRead rec' 4) ||| 2 ^ j))
  let s3 := (s2.setOp id { o with delivered := j :: o.delivered }).updPart part (fun p => match idx with
    | some i => { p with delivered := (g.pool, i, s.timeNs) :: p.delivered.filter (fun e => !(e.1 = g.pool && e.2.1 = i)) }
    | none => p)
  if bar = noValue then (s3, none)
  else
    match s3.barBytes (o.agent id) o.blk bar (16 * g.rb) with
    | some t => (t, none)
    | none => (s3, some (cBarrierOverflow, BitVec.ofNat 64 bar))

/-- The pool index that an entry names, for the pager's memory of deliveries. -/
def State.gatherIndex (s : State) (o : EngOp) (g : Gather) (j : Nat) : Option Nat :=
  match s.gatherEntry o g j with
  | .ok (some w) => some (entIndex w)
  | _ => none

/-- Pages of the present pass still to deliver. -/
def presentLeft (g : Gather) (done : List Nat) : List Nat :=
  (List.range g.pages.length).filter (fun j => (g.pages.getD j .masked).present && !done.contains j)

/-- The fault that a gather meets next: in its walk, in a present page, or at the next absent page. -/
def State.gatherFault (s : State) (id : Nat) (o : EngOp) (vRows : Bool) (g? : Option Gather) : Option KvErr :=
  match g? with
  | none => match s.gatherWalk o with | .error e => some e | .ok _ => none
  | some g =>
    let left := presentLeft g o.delivered
    match left.findSome? (fun j => match s.gatherPage id o g vRows j with | .error e => some e | .ok _ => none) with
    | some e => some e
    | none =>
      if !left.isEmpty then none
      else
        match gatherAbsent g o.delivered with
        | [] => none
        | j :: _ =>
          if g.refused.contains j then
            match g.pages.getD j .masked with
            | .entry n e _ => some ⟨agentCause 3 kNotPresent, 0, entAddr n e⟩
            | .masked => none
          else match s.gatherPage id o g vRows j with | .error e => some e | .ok _ => none

/-! Performing a KVAPPEND (17 R316). -/

/-- The plan of an append: tokens to the last node, the new node's start, and the pages to pop. -/
structure AppendPlan where
  f : Option KvNode
  toF : Nat
  gStart : Nat
  popsF : List Nat
  popsG : Nat
  deriving DecidableEq, Repr

/-- The plan for `c` tokens. -/
def appendPlan (d : KvDesc) (c : Nat) : AppendPlan :=
  let len := d.len
  match d.path.getLast? with
  | none => ⟨none, 0, len, [], (c + 15) / 16⟩
  | some f =>
    let room := f.refs = 1 && f.start + f.count = len && decide (f.count < 128)
    let n := if room then min c (128 - (len - f.start)) else 0
    let shared := decide (1 < f.refs) && len % 16 ≠ 0
    let g := if shared then len - len % 16 else len + n
    let popsF := ((List.range n).filter (fun i => (len + i - f.start) % 16 = 0)).map (fun i => (len + i - f.start) / 16)
    ⟨some f, n, g, popsF, if n = c then 0 else (len + c - g + 15) / 16⟩

/-- The pages that an append pops, from the top of the free stack down. -/
def State.kvPops (s : State) (v : Via) (p : KvPool) (n : Nat) : Except KvErr (List Nat) :=
  if p.free < n then .error (kvShape 16 p.base)
  else
    exceptAll ((List.range n).map (fun i =>
      match s.kvRead v (atOff p.stack (4 * (p.free - 1 - i))) 4 with
      | .error e => .error e
      | .ok bs => if p.cap ≤ leNat bs then .error (kvShape 13 p.base) else .ok (leNat bs)))

/-- Where a page of an entry lies for the append, which needs it at hand (log 42). -/
def needPage (p : KvPool) (n : KvNode) (e : Nat) : Except KvErr DWord :=
  let w := n.ents.getD e 0
  if entBad p.cap w then .error (kvShape 13 n.addr)
  else
    match p.pageOf w with
    | some a => .ok a
    | none => .error ⟨agentCause 3 kNotPresent, 0, entAddr n.addr e⟩

/-- The writes of one row pair into a page. -/
def rowWrites (p : KvPool) (page : DWord) (t : Nat) (k v : List Byte) : List KvWrite :=
  [(atOff page (t * p.rb), k), (atOff page ((16 + t) * p.rb), v)]

/-- Rows of a page, K and V, for the copy into a new node. -/
def State.copyRows (s : State) (v : Via) (p : KvPool) (src dst : DWord) (ts : List Nat) : Except KvErr (List KvWrite) :=
  (exceptAll (ts.map (fun t =>
    match s.kvRead v (atOff src (t * p.rb)) p.rb with
    | .error e => .error e
    | .ok k =>
      match s.kvRead v (atOff src ((16 + t) * p.rb)) p.rb with
      | .error e => .error e
      | .ok r => .ok (rowWrites p dst t k r)))).map List.flatten

/-- The page of each token and its row: in the last node, or in the new one. -/
def tokenPage (p : KvPool) (d : KvDesc) (q : AppendPlan) (pops : List Nat) (i : Nat) : Except KvErr (DWord × Nat) :=
  let x := d.len + i
  match (if i < q.toF then q.f else none) with
  | some f =>
    let e := (x - f.start) / 16
    let j := q.popsF.findIdx (fun k => k = e)
    if j < q.popsF.length then .ok (p.page (pops.getD j 0), (x - f.start) % 16)
    else
      match needPage p f e with
      | .ok a => .ok (a, (x - f.start) % 16)
      | .error e => .error e
  | none => .ok (p.page (pops.getD (q.popsF.length + (x - q.gStart) / 16) 0), (x - q.gStart) % 16)

/-- The writes that a new node takes, whole (17 R316). -/
def newNode (q : AppendPlan) (spare : DWord) (pops : List Nat) (count : Nat) : KvWrite :=
  (spare, leBytes 8 ((q.f.map (fun f => f.addr.toNat)).getD 0) ++ leBytes 4 q.gStart ++ leBytes 2 count ++ leBytes 2 1
    ++ (List.range 8).flatMap (fun i => leBytes 4 (if i < q.popsG then (poolEntry (pops.getD (q.popsF.length + i) 0)).toNat
      else 0)) ++ List.replicate 16 0)

/-- The step of a KVAPPEND: the next state, or its error. -/
def State.runAppend (s : State) (id : Nat) (o : EngOp) : Except KvErr State :=
  let v := s.engineVia o.blk
  let c := regN o.regs 2
  let spare := regPair o.regs 5
  match s.kvDesc v (regPair o.regs 0) with
  | .error e => .error e
  | .ok d =>
    match s.kvPool v d.pool with
    | .error e => .error e
    | .ok p =>
      let q := appendPlan d c
      let useG := decide (q.toF < c)
      let off (r : Nat) : Nat := regN o.regs r
      match (if s.scrBeyond o.blk (off 3) (c * p.rb) then some (off 3)
          else if s.scrBeyond o.blk (off 4) (c * p.rb) then some (off 4) else none) with
      | some x => .error ⟨cScratchBound, 0, BitVec.ofNat 64 x⟩
      | none =>
        if useG && spare == 0 then .error (kvShape 16 d.addr)
        else if useG && d.path.length = 16 then .error (kvShape 13 d.addr)
        else if useG && !v.fw && !(isCanonical spare && isCanonical (atOff spare 63)) then
          .error ⟨agentCause 3 kNonCanonical, 0, spare⟩
        else if useG && spare.toNat % 64 ≠ 0 then .error (kvMisaligned spare)
        else
          match s.seeScr (o.agent id) 3 o.blk (off 3) (c * p.rb), s.seeScr (o.agent id) 3 o.blk (off 4) (c * p.rb) with
          | .error e, _ => .error ⟨e.1, 0, e.2⟩
          | _, .error e => .error ⟨e.1, 0, e.2⟩
          | .ok ks, .ok vs =>
            match s.kvPops v p (q.popsF.length + q.popsG) with
            | .error e => .error e
            | .ok pops =>
              let copied := (List.range 16).filter (fun t =>
                useG && decide (q.gStart + t < d.len) && decide (d.win ≤ q.gStart + t))
              let copy : Except KvErr (List KvWrite) := match q.f with
                | some f =>
                  if copied.isEmpty then .ok []
                  else
                    match needPage p f ((q.gStart - f.start) / 16) with
                    | .error e => .error e
                    | .ok a => s.copyRows v p a (p.page (pops.getD q.popsF.length 0)) copied
                | none => .ok []
              match copy, exceptAll ((List.range c).map (tokenPage p d q pops)) with
              | .error e, _ => .error e
              | _, .error e => .error e
              | .ok cw, .ok places =>
                let rows := ((List.range c).zip places).flatMap (fun e =>
                  rowWrites p e.2.1 e.2.2 ((ks.drop (e.1 * p.rb)).take p.rb) ((vs.drop (e.1 * p.rb)).take p.rb))
                let fw := match q.f with
                  | some f =>
                    if q.toF = 0 then []
                    else
                      ((List.range q.popsF.length).map (fun j =>
                        w4 (entAddr f.addr (q.popsF.getD j 0)) (poolEntry (pops.getD j 0)).toNat))
                      ++ [f.countsAt (f.count + q.toF) f.refs]
                  | none => []
                let gw := if useG then [newNode q spare pops (d.len + c - q.gStart),
                    (atOff d.addr (8 * d.path.length), leBytes 8 spare.toNat)] else []
                match s.kvCommit (o.agent id) (s.kvTouched v d ++ (if useG then s.kvObjects v [spare] else [])) v (cw ++ rows ++ fw ++ gw
                    ++ [w4 (atOff p.base 8) (p.free - pops.length), w4 (atOff d.addr 128) (d.len + c)]) with
                | .error e => .error e
                | .ok t =>
                  .ok (t.kvNote v.part (d.path.map (fun n => n.addr) ++ (if useG then [spare] else [])) d.pool
                    (p.free - pops.length) p.mark)

/-! Performing an SMERGE (17 R320). -/

/-- 2^y correctly rounded to FP32: the fold reduction unit's own exponential. -/
def foldExp2 (ovf : Word) (bits : Nat) : Nat :=
  match fp32.decode bits with
  | .nan _ => fp32.nanBits
  | .inf n => if n then 0 else fp32.infBits
  | .fin n m e =>
    if m = 0 then (fp32.round (Rnd.rne ovf) ⟨false, 1, 0, false⟩).1
    else if decide (20 < e + bitLen m) then (if n then 0 else fp32.overflow (Rnd.rne ovf) false)
    else if decide (0 ≤ e) || decide (m % 2 ^ (-e).toNat = 0) then
      let mag := shiftBy m (min e 40)
      if n && decide (200 < mag) then 0
      else (fp32.round (Rnd.rne ovf) ⟨false, 1, if n then -(mag : Int) else mag, false⟩).1
    else (fp32.round (Rnd.rne ovf) (exp2Ex n m e)).1

/-- An FP32 operation under RNE. -/
def f32op (ovf : Word) (r : Raw) : Nat := (fp32.finish (Rnd.rne ovf) r).1

/-- The weight of a record's maximum against the merged one. -/
def mergeWeight (ovf : Word) (m mn : Nat) : Nat :=
  match fp32.decode m with
  | .inf _ => 0
  | x => foldExp2 ovf (f32op ovf (addRaw 0 x (fp32.decode mn).neg))

/-- RN(RN(x w1) + RN(y w2)). -/
def mergeMad (ovf : Word) (x w1 y w2 : Nat) : Nat :=
  let p := f32op ovf (mulRaw (fp32.decode x) (fp32.decode w1))
  let q := f32op ovf (mulRaw (fp32.decode y) (fp32.decode w2))
  f32op ovf (addRaw 0 (fp32.decode p) (fp32.decode q))

/-- Two records merged, the lower rank first. -/
def mergeTwo (ovf : Word) (a b : List Nat) : List Nat :=
  let m := a.headD 0
  let m2 := b.headD 0
  let mn := (fp32.roundNum (Rnd.rne ovf) (minMax true (fp32.decode m) (fp32.decode m2)).1).1
  let w1 := mergeWeight ovf m mn
  let w2 := mergeWeight ovf m2 mn
  mn :: (a.tail.zip b.tail).map (fun e => mergeMad ovf e.1 w1 e.2 w2)

/-- A row from its records by rank (17 R320). -/
def mergeRow (ovf : Word) (rows : List (List Nat)) : List Nat :=
  match rows with
  | [] => []
  | r :: t =>
    if rows.any (fun r => match fp32.decode (r.headD 0) with | .nan _ => true | .inf n => !n | _ => false) then
      r.map (fun _ => fp32.nanBits)
    else t.foldl (mergeTwo ovf) r

/-- A member's scratch through its window, at fold scope: the member's at issue (02 R33). -/
def State.mergeMember (s : State) (o : EngOp) (rank off n : Nat) : Except (Cause × DWord) Nat :=
  match s.memberNow o rank with
  | .error c => .error (c, BitVec.ofNat 64 off)
  | .ok u =>
    if s.scrBeyond u off n then .error (cScratchBound, BitVec.ofNat 64 off)
    else .ok u

/-- The records of the ranks of a mask. -/
def State.mergeSources (s : State) (id : Nat) (o : EngOp) (ranks : List Nat) : Except (Cause × DWord) (List (List Byte)) :=
  match ranks with
  | [] => .ok []
  | r :: t =>
    match s.mergeMember o r (regN o.regs 3) (mergeBytes o.regs) with
    | .error e => .error e
    | .ok u =>
      match s.seeScr (o.agent id) 3 u (regN o.regs 3) (mergeBytes o.regs) with
      | .error e => .error e
      | .ok bs =>
        match s.mergeSources id o t with
        | .error e => .error e
        | .ok rs => .ok (bs :: rs)

/-- The merged rows' bytes. -/
def mergeAll (ovf : Word) (rows d : Nat) (srcs : List (List Byte)) : List Byte :=
  (List.range rows).flatMap (fun i =>
    (mergeRow ovf (srcs.map (fun bs => (chunks 4 (bs.drop (i * (2 + d) * 4)) (2 + d)).map leNat))).flatMap (leBytes 4))

/-- SMERGE performed: the next state with its byte count added, and the overflow where it does not fit. -/
def State.runMerge (s : State) (id : Nat) (o : EngOp) : Except (Cause × DWord) (State × Option (Cause × DWord)) :=
  let ranks := ranksOf (regN o.regs 0 % 256)
  let n := mergeBytes o.regs
  let src := regN o.regs 3
  let dst := regN o.regs 4
  let bar := regN o.regs 5
  match s.mergeSources id o ranks with
  | .error e => .error e
  | .ok srcs =>
    match s.mergeMember o (mergeDest o.regs) dst n with
    | .error e => .error e
    | .ok u =>
      let data := mergeAll (s.part (s.block o.blk).part).ovf (regN o.regs 1) (regN o.regs 2) srcs
      let own := ranks.contains (mergeDest o.regs) && src ≠ dst
      let bs := (data.zip (List.range n)).map (fun e =>
        if own && decide (src ≤ dst + e.2) && decide (dst + e.2 < src + n) then Config.freeByte (s.draw 11) e.2 else e.1)
      let t := s.scrPut (o.agent id) u dst bs
      if bar = noValue then .ok (t, none)
      else
        match t.barBytes (o.agent id) u bar n with
        | some r => .ok (r, none)
        | none => .ok (t, some (cBarrierOverflow, BitVec.ofNat 64 bar))

/-! The pager (17 R307, R308, 18 R322): firmware, which walks the partition's tables afresh. -/

/-- The pager's accesses go through no core's TLB (log 43). -/
def pagerVia (part : Nat) : Via := ⟨Config.coreCount, part, false⟩

/-- Whether a gather in flight of a partition has walked an entry. -/
def State.isWalked (s : State) (part : Nat) (node : DWord) (e : Nat) : Bool :=
  s.ops.any (fun o => (s.block o.2.blk).part = part && match o.2.kind with
    | .gather _ (some g) => g.pages.any (fun q => match q with | .entry n i _ => n == node && i = e | .masked => false)
    | _ => false)

/-- Device time of a page's last delivery; pages never delivered come first (17 R308). -/
def Part.lastDelivered (p : Part) (pool : DWord) (i : Nat) : Nat :=
  ((p.delivered.find? (fun e => e.1 == pool && e.2.1 = i)).map (fun e => e.2.2 + 1)).getD 0

/-- The pages that qualify for demotion: last delivery, pool index, node and entry (17 R308). -/
def State.demotable (s : State) (part : Nat) (p : KvPool) : List (Nat × Nat × DWord × Nat) :=
  let q := s.part part
  (q.named.filter (fun e => e.1 == p.base)).flatMap (fun e =>
    match s.kvNode (pagerVia part) e.2 with
    | .error _ => []
    | .ok n =>
      if n.refs = 0 then []
      else
        (List.range 8).filterMap (fun i =>
          let w := n.ents.getD i 0
          if entPresent w && !s.isWalked part n.addr i then
            some (q.lastDelivered p.base (entIndex w), entIndex w, n.addr, i)
          else none))

/-- The page that the pager takes: the oldest delivery, then the lowest pool index. -/
def oldestPage (l : List (Nat × Nat × DWord × Nat)) : Option (Nat × Nat × DWord × Nat) :=
  l.foldl (fun b e => match b with
    | none => some e
    | some f => if e.1 < f.1 || (e.1 = f.1 && e.2.1 < f.2.1) then some e else some f) none

/-- A word that the pager reads. -/
def State.pagerWord (s : State) (part : Nat) (a : DWord) : Except KvErr Nat :=
  (s.kvRead (pagerVia part) a 4).map leNat

/-- One demotion: the page is copied into the second tier, its entry and both stacks rewritten (17 R308). None where the
second-tier stack is empty or no page qualifies. A page's last delivery is kept by its index (log 132). -/
def State.demoteOne (s : State) (part : Nat) (p : KvPool) : Option State :=
  if p.free2 = 0 then none
  else
    match oldestPage (s.demotable part p), s.pagerWord part (atOff p.stack2 (4 * (p.free2 - 1))) with
    | some (_, i, node, e), .ok t =>
      match s.kvRead (pagerVia part) (p.page i) (32 * p.rb) with
      | .error _ => none
      | .ok bs =>
        match s.kvCommit (deviceAgent part) (s.kvObjects (pagerVia part) [node, p.base]) (pagerVia part) [(p.page2 t, bs), w4 (entAddr node e) (tierEntry t).toNat,
            w4 (atOff p.stack (4 * p.free)) i, (atOff p.base 8, leBytes 4 (p.free + 1) ++ leBytes 4 (p.free2 - 1))] with
        | .error _ => none
        | .ok r => some (r.updPart part (fun q =>
            { q with delivered := q.delivered.filter (fun d => !(d.1 == p.base && d.2.1 = i)) }))
    | _, _ => none

/-- A page-in's move: into a page popped from the pool, from the second tier, or from the host with contents that the
model leaves free (log 44). -/
def State.pageInMove (s : State) (part : Nat) (p : KvPool) (r : PageReq) (w : Word) : Option State :=
  match s.pagerWord part (atOff p.stack (4 * (p.free - 1))) with
  | .error _ => none
  | .ok i =>
    let data : Except KvErr (List Byte) :=
      if entTier w then s.kvRead (pagerVia part) (p.page2 (entIndex w)) (32 * p.rb)
      else .ok ((List.range (32 * p.rb)).map (fun k => Config.freeByte (s.draw 0) k))
    match data with
    | .error _ => none
    | .ok bs =>
      match s.kvCommit (deviceAgent part) (s.kvObjects (pagerVia part) [r.node, p.base]) (pagerVia part) ([(p.page i, bs), w4 (entAddr r.node r.entry) (poolEntry i).toNat,
          (atOff p.base 8, leBytes 4 (p.free - 1) ++ leBytes 4 (if entTier w then p.free2 + 1 else p.free2))]
          ++ (if entTier w then [w4 (atOff p.stack2 (4 * p.free2)) (entIndex w)] else [])) with
      | .error _ => none
      | .ok t =>
        let t := if entTier w then t else { t with outputs := t.outputs ++ [Output.pagerFetch part r.node r.entry] }
        some (t.kvNote part [r.node] p.base (p.free - 1) p.mark)

/-- KVWALK (17 R312). -/
def execKvwalk (h : Hdr) (u : Upper) (s : State) : Host.Outcome State Fault Refusal := issue (.kvwalk h u) (opKvwalk h u) s
/-- KVGATHER (17 R314). -/
def execKvgather (h : Hdr) (u : Upper) (s : State) : Host.Outcome State Fault Refusal :=
  issue (.kvgather h u) (opKvIssue 1 (.gather (vRowsOf u) none) State.gatherCheck h u) s
/-- KVAPPEND (17 R316). -/
def execKvappend (h : Hdr) (u : Upper) (s : State) : Host.Outcome State Fault Refusal :=
  issue (.kvappend h u) (opKvIssue 2 .append (fun _ _ rs => appendCheck rs) h u) s
/-- KVTRUNC (17 R317). -/
def execKvtrunc (h : Hdr) (u : Upper) (s : State) : Host.Outcome State Fault Refusal := issue (.kvtrunc h u) (opKvtrunc h u) s
/-- KVFORK (17 R318). -/
def execKvfork (h : Hdr) (u : Upper) (s : State) : Host.Outcome State Fault Refusal := issue (.kvfork h u) (opKvfork u) s
/-- SMERGE (17 R320). -/
def execSmerge (h : Hdr) (u : Upper) (s : State) : Host.Outcome State Fault Refusal :=
  issue (.smerge h u) (opKvIssue 5 .smerge State.mergeCheck h u) s

end Sys2Proof.Machine
end

