-- ==== Sys2Proof/Machine/Grant.lean ====
section
/-! DEFINITION. The Shepherd (12 R227 to R243): claims, the safe-state test and the age rule, grants, releases, CLAIMQ,
and the fold and flock instructions. -/

namespace Sys2Proof.Machine

/-! The resource vector (12 R227). -/

/-- Capacities of a core. -/
def capacities : Vec := [128, 32, 256, 256, 256, 256, 16, 16, 16, 16]
/-- Sum of two vectors. -/
def vecAdd (a b : Vec) : Vec := (List.range 10).map (fun i => a.getD i 0 + b.getD i 0)
/-- Difference of two vectors, no component below 0. -/
def vecSub (a b : Vec) : Vec := (List.range 10).map (fun i => a.getD i 0 - b.getD i 0)
/-- Every component at most the other's. -/
def vecLe (a b : Vec) : Bool := (List.range 10).all (fun i => decide (a.getD i 0 ≤ b.getD i 0))
/-- A vector with one component. -/
def unitVec (i n : Nat) : Vec := (List.range 10).map (fun j => if j = i then n else 0)
/-- The component of a class for a quarter. -/
def classIndex (cls q : Nat) : Nat := if cls < 2 then cls else if cls = 2 then 2 + q else 6 + q

/-- A resident block as the test sees it: uid, claim and allocation (12 R229). -/
structure Side where
  uid : Nat
  claim : Vec
  alloc : Vec
  deriving DecidableEq, Repr

/-- Need of a block. -/
def Side.need (d : Side) : Vec := vecSub d.claim d.alloc

/-- The resident blocks of a core. -/
def State.sides (s : State) (core : Nat) : List Side :=
  (s.blocks.filter (fun e => e.2.core = core)).map (fun e => ⟨e.1, e.2.claim, e.2.alloc⟩)

/-- The available vector V for given residents. -/
def available (ds : List Side) : Vec := ds.foldl (fun v d => vecSub v d.alloc) capacities

/-- The rounds of R229: whether every block of `left` can finish from `work`; each round but the last adds a block. -/
def finishes (fuel : Nat) (work : Vec) (left : List Side) : Bool :=
  match fuel with
  | 0 => left.isEmpty
  | fuel + 1 =>
    let added := left.filter (fun d => vecLe d.need work)
    if added.isEmpty then left.isEmpty
    else finishes fuel (added.foldl (fun v d => vecAdd v d.alloc) work) (left.filter (fun d => !added.contains d))

/-- The safe-state test of request `q` by block `b` for the residents before it, and the age rule against the oldest
deferred request, unless it is that request itself (12 R229, R230). -/
def testPasses (ds : List Side) (oldest : Option Vec) (b : Nat) (q : Vec) : Bool :=
  let v := available ds
  let after := ds.map (fun d => if d.uid = b then { d with alloc := vecAdd d.alloc q } else d)
  let w := vecSub v q
  vecLe q v && finishes (after.length + 1) w after
    && (match oldest with
      | none => true
      | some o =>
        after.any (fun d => d.uid = b && vecLe d.need w)
          || (List.range 10).all (fun i => q.getD i 0 = 0 || decide (o.getD i 0 ≤ w.getD i 0)))

/-! Requests. -/

/-- Cause of a class and kind: CLAIM-EXCEEDED 0, RELEASE-UNDERFLOW 1, BAD-AMOUNT 2, DEFER-LIMIT 3, ROLE-MISMATCH 4
(21 R356). -/
def grantCause (kind cls : Nat) : Cause := BitVec.ofNat 8 (0x60 + 4 * kind + cls)

/-- Largest amount of a request (12 R237). -/
def amountMax (cls : Nat) : Nat := if cls = 0 then 128 else if cls = 3 then 16 else 32

/-- Units of a class that a warp holds of its own, or its block (12 R234). -/
def State.held (s : State) (w cls : Nat) : Nat :=
  let x := s.warp w
  let b := s.blockOf w
  if cls = 0 then b.scrEpochs.length else if cls = 1 then b.timelines.length
  else if cls = 2 then x.regEpochs.length else x.accEpochs.length

/-- A warp's own maximum of REG or ACC units (12 R228). -/
def State.warpMax (s : State) (w cls : Nat) : Nat :=
  let r := (s.blockOf w).lrec
  let x := s.warp w
  if x.control then 0 else (if cls = 2 then r.regMax else r.accMax).getD x.role 0

/-- A block's claim as the warp's instruction meets it: zero in control mode (12 R236). -/
def State.claimOf (s : State) (w : Nat) : Vec := if (s.warp w).control then unitVec 0 0 else (s.blockOf w).claim

/-- The members whose units an instruction names: every member that has not exited, or the warp (12 R237). -/
def State.grantees (s : State) (a : Actor) : List Nat := (s.liveMembers a).map (fun m => m.w)

/-- The vector of a request or release of `n` units (12 R237). -/
def State.grantVec (s : State) (a : Actor) (cls n : Nat) : Vec :=
  if cls < 2 then unitVec cls n
  else (s.grantees a).foldl (fun v w => vecAdd v (unitVec (classIndex cls (s.warp w).quarter) n)) (unitVec 0 0)

/-- The checks of an amount, and of the roles of the members that have not exited (12 R237, log 127). -/
def State.amountCause (s : State) (a : Actor) (cls n : Nat) : Option Cause :=
  if n = 0 || amountMax cls < n then some (grantCause 2 cls)
  else if 2 ≤ cls && decide (1 < ((s.grantees a).map (fun w => (s.warp w).role)).eraseDups.length) then
    some (grantCause 4 cls)
  else none

/-- The amount of ACQ, ACQT or REL: an immediate or s(va) of the first member (12 R236). -/
def grantAmount (u : Upper) (a : Actor) (s : State) : Nat :=
  match u with
  | .xi _ imm => (imm.extractLsb' 0 8).toNat
  | .x f => ((s.warp (s.firstMember a)).readS (s.draw 0) f.va.toNat).toNat
  | _ => 0

/-! The Shepherd's queue (01 R18). -/

/-- Order of what reaches the queue in one clock: releases and retirements, requests by quarter and slot, and the
dispatcher's admission (01 R18). -/
def State.needRank (s : State) (n : Need) : Nat :=
  match n with
  | .release _ | .retire _ => 0
  | .acq r => 1 + (s.warp r.w).quarter * 128 + (s.warp r.w).slot
  | .admission _ => 1024

/-- Insertion of an entry behind those of earlier clocks, in order among those of its own, before those of later ones. -/
def State.insertEntry (s : State) (e : Entry) (l : List Entry) : List Entry :=
  match l with
  | [] => [e]
  | f :: t =>
    if e.stamp < f.stamp || (f.stamp = e.stamp && s.needRank e.need < s.needRank f.need) then e :: f :: t
    else f :: s.insertEntry e t

/-- Something reaches the queue of a core. -/
def State.enterNeed (s : State) (core : Nat) (n : Need) : State :=
  s.updCore core (fun c => { c with reqs := s.insertEntry ⟨c.clock, n⟩ c.reqs })

/-- The queue of a core is full (12 R232). -/
def State.requestsFull (s : State) (core : Nat) : Bool := decide (Config.requestQueue ≤ (s.core core).reqs.length)

/-- What heads the queue of a core, once the clock on which it came has passed, so that its place is settled. -/
def State.headNeed (s : State) (core : Nat) : Option Need :=
  match (s.core core).reqs with
  | e :: _ => if e.stamp = (s.core core).clock then none else some e.need
  | [] => none

/-- A release or retirement that came now would head the queue of a core. -/
def State.releaseFirst (s : State) (core : Nat) : Bool :=
  (s.core core).reqs.all (fun e => e.stamp = (s.core core).clock && decide (0 < s.needRank e.need))

/-- The head of the queue leaves it. -/
def State.popNeed (s : State) (core : Nat) : State := s.updCore core (fun c => { c with reqs := c.reqs.tail })

/-- ACQ and ACQT: the request goes to the Shepherd, and the warps wait for its decision (12 R232, R237, R238). -/
def opAcq (try' : Bool) (h : Hdr) (u : Upper) (a : Actor) (s : State) : Res :=
  let cls := h.width.toNat
  let n := grantAmount u a s
  let x := s.warp a.lead
  match s.amountCause a cls n with
  | some c => Res.cause c
  | none =>
    if s.requestsFull x.core then .hold
    else
      let r : Request := ⟨a.lead, x.blk, cls, n, s.grantVec a cls n, try'⟩
      .wait ((s.enterNeed x.core (.acq r)).blockAll a 0 0 0) .shepherd [BitVec.ofNat 64 n]

/-! Grants and releases (12 R234, R235). -/

/-- Adds units to a block or warp; `e` marks their contents, and draws the units that hold them. -/
def State.addUnits (s : State) (w cls n e : Nat) : State :=
  let b := (s.warp w).blk
  let c := (s.warp w).core
  let q := (s.warp w).quarter
  match cls with
  | 0 => s.updBlock b (fun b =>
      { b with scrEpochs := b.scrEpochs ++ List.replicate n e, scrUnits := b.scrUnits ++ pickUnits e n (s.freeScrUnits c) })
  | 1 => s.updBlock b (fun b => { b with timelines := b.timelines ++ List.replicate n ⟨0, 0, []⟩ })
  | 2 => s.updWarp w (fun x =>
      { x with regEpochs := x.regEpochs ++ List.replicate n (some e),
               regUnits := x.regUnits ++ pickUnits e n (s.freeRegUnits c q) })
  | _ => s.updWarp w (fun x =>
      { x with accEpochs := x.accEpochs ++ List.replicate n e,
               accUnits := x.accUnits ++ pickUnits e n (s.freeAccUnits c q) })

/-- The value of a grant: where the new units begin (12 R234). -/
def grantValue (cls held : Nat) : Nat := if cls = 0 then 8192 * held else if cls = 2 then 8 * held else held

/-- One member's part of a grant: the units, its result, and an epoch of its own for their contents. -/
def State.grantOne (s : State) (w cls n vd : Nat) : State :=
  let v := grantValue cls (s.held w cls)
  { s.addUnits w cls n s.epoch with nextUid := s.nextUid + 1 }.updWarp w (fun x => x.writeS vd (BitVec.ofNat 32 v))

/-- A grant (12 R234): the block's allocation, the units, and vd of every member. For SCR and ENG the block's units grow
once and each member reads the same value. -/
def State.grant (s : State) (r : Request) (a : Actor) (vd : Nat) : State :=
  let ws := s.grantees a
  let t := s.updBlock r.blk (fun b => { b with alloc := vecAdd b.alloc r.vec })
  if r.cls < 2 then
    let v := BitVec.ofNat 32 (grantValue r.cls (s.held a.lead r.cls))
    let g := { t.addUnits a.lead r.cls r.amount s.epoch with nextUid := s.nextUid + 1 }
    ws.foldl (fun s w => s.updWarp w (fun x => x.writeS vd v)) g
  else ws.foldl (fun s w => s.grantOne w r.cls r.amount vd) t

/-- The deferred waits of a core carry their position, amount and class (12 R251). -/
def State.renumber (s : State) (core : Nat) : State :=
  let ds := (s.core core).deferred
  ((List.range ds.length).zip ds).foldl (fun s e =>
    match (s.warp e.2.w).wait with
    | some q =>
      s.blockAll q.actor 0 3 (BitVec.ofNat 24 (e.1 % 256 * 65536 + e.2.amount % 256 * 256 + e.2.cls))
    | none => s) s

/-- What the Shepherd decides (12 R229). -/
inductive Decision where
  | exceeded | passes | fails
  deriving DecidableEq, Repr

/-- The test of a request. -/
def State.judge (s : State) (core : Nat) (r : Request) (a : Actor) : Decision :=
  let b := s.block r.blk
  let past := (s.grantees a).any (fun w => 2 ≤ r.cls && decide (s.warpMax w r.cls < s.held w r.cls + r.amount))
  let oldest := match (s.core core).deferred with
    | [] => none
    | o :: _ => if o = r then none else some o.vec
  if past || !vecLe (vecAdd b.alloc r.vec) (s.claimOf r.w) then .exceeded
  else if testPasses (s.sides core) oldest r.blk r.vec then .passes
  else .fails

/-- The result register of a request's instruction. -/
def resultReg (i : Instr) : Nat :=
  match headWord i with
  | some (_, _, h, _) => h.vd.toNat
  | none => 0

/-- Takes a request off the deferred list. -/
def State.undefer (s : State) (core : Nat) (r : Request) : State :=
  s.updCore core (fun c => { c with deferred := c.deferred.filter (fun o => o ≠ r) })

/-- The wait that a decision on a request ends. -/
def State.decides (s : State) (r : Request) : Option Wait :=
  (s.warp r.w).wait.filter (fun q => q.kind == .shepherd || q.kind == .deferred)

/-- A warp that waits is suspended, and can take no record (21 R355). -/
def State.waitSuspended (s : State) (q : Wait) : Bool := (s.liveMembers q.actor).any (fun m => (s.warp m.w).susp.isSome)

/-- The retest of some deferred requests, in age order (12 R231). One whose fault cannot be recorded stays on the list. -/
def State.retestPass (s : State) (core : Nat) (rs : List Request) : State :=
  match rs with
  | [] => s.renumber core
  | r :: t =>
    match s.decides r with
    | none => (s.undefer core r).retestPass core t
    | some q =>
      let u := s.undefer core r
      match s.judge core r q.actor with
      | .exceeded =>
        (if s.waitSuspended q then s else (u.finishWait q (Res.cause (grantCause 0 r.cls))).getD s).retestPass core t
      | .passes => ((u.finishWait q (.ok (u.grant r q.actor (resultReg q.instr)))).getD s).retestPass core t
      | .fails => s.retestPass core t

/-- The retest of R231. -/
def State.retest (s : State) (core : Nat) : State := s.retestPass core (s.core core).deferred

/-- The head of the queue goes to its end, as its warp is suspended and can take no record (21 R355, log 105). -/
def State.rotateNeed (s : State) (core : Nat) (n : Need) : State := (s.popNeed core).enterNeed core n

/-- A release heads the queue whose warp no longer waits for it, or cannot while it is suspended. -/
def State.passRelease (s : State) (core w : Nat) : Option State :=
  if !(s.warp w).wait.any (fun q => q.kind == .release) then some (s.popNeed core)
  else if (s.warp w).susp.isSome then some (s.rotateNeed core (.release w))
  else none

/-- SHEPHERD_TEST (12 R229, R230, R232): the request at the head of the queue is granted, refused or deferred. -/
def State.shepherdTest (s : State) (core : Nat) : Option State :=
  match s.headNeed core with
  | some (.release w) => s.passRelease core w
  | some (.acq r) =>
    let s0 := s.popNeed core
    match s.decides r with
    | none => some s0
    | some q =>
      let refuse (kind : Nat) : Option State :=
        if s.waitSuspended q then some (s.rotateNeed core (.acq r)) else s0.finishWait q (Res.cause (grantCause kind r.cls))
      match s0.judge core r q.actor with
      | .exceeded => refuse 0
      | .passes => s0.finishWait q (.ok (s0.grant r q.actor (resultReg q.instr)))
      | .fails =>
        if r.try' then
          s0.finishWait q (.ok ((s0.grantees q.actor).foldl (fun s w =>
            s.updWarp w (fun x => x.writeS (resultReg q.instr) 0xFFFFFFFF)) s0))
        else if Config.deferredMax ≤ (s0.core core).deferred.length then refuse 3
        else
          some (((s0.updCore core (fun c => { c with deferred := c.deferred ++ [r] })).waitAll q.actor .deferred q.instr
            q.args).renumber core)
  | _ => none

/-- Keys below a bound. -/
def AMap.below {β : Type} (m : AMap β) (k : Nat) : AMap β := List.filter (fun e => decide (e.1 < k)) m

/-- Removes the highest units of a class, with what they held, and what is kept of writes to them; TLARMs on removed timelines
are disarmed (12 R234, R239, 02 R50). -/
def State.removeUnits (s : State) (w cls n : Nat) : State :=
  let u := (s.warp w).blk
  let c := (s.warp w).core
  let q := (s.warp w).quarter
  match cls with
  | 0 =>
    let k := (s.block u).scrEpochs.length - n
    ((s.updBlock u (fun b =>
      { b with scrEpochs := b.scrEpochs.take k, scrUnits := b.scrUnits.take k, scr := b.scr.below (8192 * k),
               scrPoison := b.scrPoison.filter (fun q => decide (q < 256 * k)) })).dropScratch u (8192 * k)).freeStorage c
      (scrKibs ((s.block u).scrUnits.drop k))
  | 1 =>
    let k := (s.block u).timelines.length - n
    { s with warps := s.warps.mapVal (fun _ x =>
        if x.blk = u && x.arming.any (fun (a : Arming) => decide (k ≤ a.tl)) then { x with arming := none } else x) }.updBlock u
      (fun b => { b with timelines := b.timelines.take k })
  | 2 =>
    let k := (s.warp w).regEpochs.length - n
    (s.updWarp w (fun x =>
      { x with regEpochs := x.regEpochs.take k, regUnits := x.regUnits.take k, v := x.v.below (256 * k),
               vPoison := x.vPoison.filter (fun r => decide (r < 8 * k)) })).freeStorage c
      (regKibs q ((s.warp w).regUnits.drop k))
  | _ =>
    let k := (s.warp w).accEpochs.length - n
    (s.updWarp w (fun x =>
      { x with accEpochs := x.accEpochs.take k, accUnits := x.accUnits.take k, acc := x.acc.below (2048 * k),
               flg := x.flg.below (8 * k), wslots := x.wslots.below k,
               accPoison := x.accPoison.filter (fun t => decide (t < 8 * k)),
               wPoison := x.wPoison.filter (fun t => decide (t < k)) })).freeStorage c
      (accKibs q ((s.warp w).accUnits.drop k))

/-- Scratch that an engine operation still touches: block, offset, length; and whether it writes it (12 R239). -/
def State.opScratch (s : State) (o : EngOp) : List (Nat × Nat × Nat × Bool) :=
  let reg (i : Nat) : Nat := regN o.regs i
  let bar (u i : Nat) : List (Nat × Nat × Nat × Bool) := if reg i = noValue then [] else [(u, reg i, 32, true)]
  match o.kind with
  | .lane _ _ dst size _ _ => [(o.blk, dst, size, true)]
  | .tile fn h =>
    if fn = 3 then
      ((castLeft o).filterMap (fun r => (s.memberNow o r).toOption)).flatMap (fun u =>
        [(u, reg 5, h.boxBytes, true), (u, reg 7, 32, true)])
    else [(o.blk, reg 5, h.boxBytes, !tileOut fn (reg 6))]
  | .wbload .. => []
  | .gather _ g =>
    let rb := match g with
      | some g => g.rb
      | none => match s.gatherWalk o with | .ok (g, _) => g.rb | .error _ => 0
    (o.blk, reg 4, reg 3 * 16 * rb, true) :: (if reg 5 = noValue then [] else [(o.blk, reg 5, 16, true)]) ++ bar o.blk 6
  | .append =>
    let v := s.engineVia o.blk
    let rb := match s.kvDesc v (regPair o.regs 0) with
      | .ok d => (match s.kvPool v d.pool with | .ok p => p.rb | .error _ => 0)
      | .error _ => 0
    [(o.blk, reg 3, reg 2 * rb, false), (o.blk, reg 4, reg 2 * rb, false)]
  | .smerge =>
    let n := mergeBytes o.regs
    ((ranksOf (reg 0 % 256)).filterMap (fun r => (s.memberNow o r).toOption)).map (fun u => (u, reg 3, n, false))
      ++ (match s.memberNow o (mergeDest o.regs) with
        | .ok u => (u, reg 4, n, true) :: bar u 5
        | .error _ => [])

/-- An operation can still touch a block's scratch at or above an offset: its own block's in any way, another member's
by its deliveries and writes (12 R239). -/
def State.touchesScratch (s : State) (u lo : Nat) (o : EngOp) : Bool :=
  (s.opScratch o).any (fun e => e.1 = u && decide (lo < e.2.1 + e.2.2.1) && decide (0 < e.2.2.1) && (o.blk = u || e.2.2.2))

/-- The batch of a lane transfer: its number and members; number 0 while it is open (14 R259; log 74). -/
def State.batchOf (s : State) (id : Nat) (o : EngOp) : BitVec 16 × List Nat :=
  match (s.warp o.w).sealedBatches.find? (fun b => b.ops.contains id) with
  | some b => (b.num, b.ops)
  | none => (0, (s.warp o.w).openBatch)

/-- The record of a failed operation at a waiter (14 R275). -/
def State.opInfo (s : State) (id : Nat) (o : EngOp) (wpc : DWord) : FaultInfo :=
  if o.isLane then
    let b := s.batchOf id o
    (s.batchInfo b.1 b.2 wpc).getD (asyncInfo id o wpc)
  else asyncInfo id o wpc

/-- The engine operations that a release of `n` units waits for (12 R239). -/
def State.releaseOps (s : State) (a : Actor) (cls n : Nat) : List (Nat × EngOp) :=
  let u := (s.warp a.lead).blk
  let b := s.block u
  s.ops.filter (fun e =>
    match cls with
    | 0 => s.touchesScratch u (8192 * (b.scrEpochs.length - n)) e.2
    | 1 => e.2.blk = u && !e.2.isLane && decide (b.timelines.length - n ≤ e.2.tl)
    | 2 => false
    | _ => (s.grantees a).contains e.2.w
        && (match e.2.kind with
          | .wbload k _ _ => decide ((s.warp e.2.w).accEpochs.length - n ≤ k)
          | _ => false))

/-- A release's wait on the warps' own counters (12 R239). -/
def State.releaseBusy (s : State) (a : Actor) (cls : Nat) : Bool :=
  (s.grantees a).any (fun w =>
    if cls = 2 then !(s.warp w).loads.isEmpty else cls = 3 && !(s.warp w).matrix.isEmpty)

/-- A release with the retest of R231 (12 R234, R239). -/
def State.releaseNow (s : State) (a : Actor) (cls n : Nat) : State :=
  let ws := if cls < 2 then [a.lead] else s.grantees a
  let vec := s.grantVec a cls n
  ((ws.foldl (fun s w => s.removeUnits w cls n) s).updBlock (s.warp a.lead).blk (fun b =>
    { b with alloc := vecSub b.alloc vec })).retest (s.warp a.lead).core

/-- Units that a release would take below what the class keeps (12 R239). -/
def State.underflows (s : State) (a : Actor) (cls n : Nat) : Bool :=
  if cls < 2 then decide (s.held a.lead cls < n)
  else (s.grantees a).any (fun w => decide (s.held w cls < (if cls = 2 then n + 1 else n)))

/-- What keeps REL from releasing now: a check, failed work, or the wait for work that still uses the units (12 R239). In
control mode every valid amount exceeds the claim of zero (R236, log 101). -/
def State.relHeld (s : State) (a : Actor) (cls n : Nat) : Option Res :=
  let x := s.warp a.lead
  match s.amountCause a cls n with
  | some c => some (Res.cause c)
  | none =>
    if x.control then some (Res.cause (grantCause 0 cls))
    else if s.underflows a cls n then some (Res.cause (grantCause 1 cls))
    else
      let ops := s.releaseOps a cls n
      match ops.find? (fun e => e.2.failed) with
      | some (id, o) => some (.fault (s.opInfo id o x.pc))
      | none =>
        match (if cls = 3 then (s.grantees a).findSome? (fun w => (s.warp w).matrixFault 0) else none) with
        | some f => some (.fault { f with wpc := x.pc })
        | none =>
          if !ops.isEmpty || s.releaseBusy a cls then some (.wait (s.blockAll a 0 0 0) .rel [BitVec.ofNat 64 n]) else none

/-- REL (12 R239), and its poll: what holds it, then the release in its turn among what reaches the Shepherd (01 R18). -/
def pollRel (h : Hdr) (amount : DWord) (a : Actor) (s : State) : Res :=
  let core := (s.warp a.lead).core
  match s.relHeld a h.width.toNat amount.toNat with
  | some r => r
  | none =>
    if s.releaseFirst core then .ok (s.releaseNow a h.width.toNat amount.toNat)
    else if s.requestsFull core then .hold
    else .wait ((s.enterNeed core (.release a.lead)).blockAll a 0 0 0) .release [amount]

/-- The poll of a release that waits for its turn, where what earlier ones have left is checked anew. -/
def pollRelease (h : Hdr) (amount : DWord) (a : Actor) (s : State) : Res :=
  let core := (s.warp a.lead).core
  if s.headNeed core == some (.release a.lead) then
    ((s.popNeed core).relHeld a h.width.toNat amount.toNat).getD
      (.ok ((s.popNeed core).releaseNow a h.width.toNat amount.toNat))
  else .wait s .release [amount]

/-- REL. -/
def opRel (h : Hdr) (u : Upper) (a : Actor) (s : State) : Res := pollRel h (BitVec.ofNat 64 (grantAmount u a s)) a s

/-- CLAIMQ (12 R240). -/
def opClaimq (h : Hdr) (u : Upper) (a : Actor) (s : State) : Res :=
  match u with
  | .x f =>
    let cls := h.width.toNat
    let w := a.lead
    let x := s.warp w
    let i := classIndex cls x.quarter
    let own := if cls < 2 then (s.blockOf w).alloc.getD i 0 else s.held w cls
    let top := if cls < 2 then (s.claimOf w).getD i 0 else s.warpMax w cls
    let v := match f.vc.toNat with
      | 0 => own
      | 1 => top
      | 2 => top - own
      | 3 => (available (s.sides x.core)).getD i 0
      | _ => (s.core x.core).deferred.length
    .ok (s.setWarp w (x.writeS h.vd.toNat (if x.control then 0 else BitVec.ofNat 32 v)))
  | _ => .ok s

/-! Folds and flocks (12 R241 to R243). -/

/-- FOLD-ID-INVALID. -/
def cFoldId : Cause := 0x74
/-- FOLD-FULL. -/
def cFoldFull : Cause := 0x75
/-- FOLD-LEAVE-PENDING. -/
def cFoldPending : Cause := 0x77
/-- FLOCKSET-MISMATCH. -/
def cFlocksetMismatch : Cause := 0x7C
/-- FLOCKSET-SIZE. -/
def cFlocksetSize : Cause := 0x7D

/-- Members of the fold of a key among the blocks of a grid in a region (12 R241). -/
def State.keyMembers (s : State) (grid region : Nat) (id : Word) : List (Nat × Nat × Nat) :=
  (s.blocks.filter (fun e => e.2.grid = grid && e.2.core / 8 = region
    && e.2.fold.any (fun f => f.id = id && f.gang.isNone))).map (fun e =>
      (e.1, e.2.core, (e.2.fold.map (fun f => f.rank)).getD 0))

/-- A FLEAVE of a block is in progress. -/
def State.leaving (s : State) (u : Nat) : Bool :=
  (s.warpsOfBlock u).any (fun w => (s.warp w).wait.any (fun q => q.kind == .fleave))

/-- FJOIN on a key read at issue, and its poll (12 R241). -/
def pollFjoin (h : Hdr) (key : DWord) (a : Actor) (s : State) : Res :=
  let u := (s.warp a.lead).blk
  let b := s.block u
  let region := b.core / 8
  let id : Word := BitVec.ofNat 32 (region * 65536 + key.toNat)
  if 0x8000 ≤ key.toNat then Res.cause cFoldId
  else if b.fold.isSome then .fault (FaultInfo.of cFoldId 1)
  else
    let ms := s.keyMembers b.grid region id
    if ms.any (fun m => s.leaving m.1) then .wait (s.blockAll a 0 0 0) .fjoin [key]
    else if 8 ≤ ms.length then Res.cause cFoldFull
    else if ms.any (fun m => m.2.1 = b.core) then .fault (FaultInfo.of cFoldFull 1)
    else
      let rank := ((List.range 8).find? (fun r => !ms.any (fun m => m.2.2 = r))).getD 0
      .ok ((s.updBlock u (fun b => { b with fold := some ⟨id, rank, none⟩ })).writeUniform a h.vd.toNat
        (BitVec.ofNat 32 rank))

/-- FJOIN. -/
def opFjoin (h : Hdr) (u : Upper) (a : Actor) (s : State) : Res :=
  match u with
  | .x f => pollFjoin h ((syncReg s a f.va).zeroExtend 64) a s
  | _ => .ok s

/-- An operation names fold members (12 R242): TMCAST and SMERGE do. -/
def EngOp.namesFold (o : EngOp) : Bool :=
  match o.kind with
  | .tile fn _ => fn = 3
  | .smerge => true
  | _ => false

/-- The block leaves its fold (12 R242). -/
def State.leaveFold (s : State) (u : Nat) : State :=
  s.updBlock u (fun b => { b with leftGang := b.leftGang || b.fold.any (fun f => f.gang.isSome), fold := none })

/-- FLEAVE, and its poll (12 R242). -/
def pollFleave (a : Actor) (s : State) : Res :=
  let u := (s.warp a.lead).blk
  if s.ops.any (fun e => e.2.blk = u && e.2.namesFold) then Res.cause cFoldPending
  else if (s.block u).fold.isNone then Res.cause cFoldNotMember
  else if (s.warpsOfBlock u).any (fun w => !(s.warp w).loads.isEmpty || !(s.warp w).stores.isEmpty) then
    .wait (s.blockAll a 0 0 0) .fleave []
  else .ok (s.leaveFold u)

/-- FLOCKSET (12 R243). -/
def opFlockset (u : Upper) (a : Actor) (s : State) : Res :=
  match u with
  | .xi _ imm =>
    let n := (imm.extractLsb' 0 5).toNat
    let blk := (s.warp a.lead).blk
    let b := s.block blk
    if !(n = 1 || n = 2 || n = 4 || n = 8 || n = 16) || b.lrec.warps < n then Res.cause cFlocksetSize
    else if b.insts.any (fun e => e.scope == .flock && !e.arrivals.isEmpty) then Res.cause cFlocksetMismatch
    else .ok (s.updBlock blk (fun b => { b with flockSize := n }))
  | _ => .ok s

/-- ACQ (12 R237). -/
def execAcq (h : Hdr) (u : Upper) (s : State) : Host.Outcome State Fault Refusal := issue (.acq h u) (opAcq false h u) s
/-- ACQT (12 R238). -/
def execAcqt (h : Hdr) (u : Upper) (s : State) : Host.Outcome State Fault Refusal := issue (.acqt h u) (opAcq true h u) s
/-- REL (12 R239). -/
def execRel (h : Hdr) (u : Upper) (s : State) : Host.Outcome State Fault Refusal := issue (.rel h u) (opRel h u) s
/-- CLAIMQ (12 R240). -/
def execClaimq (h : Hdr) (u : Upper) (s : State) : Host.Outcome State Fault Refusal := issue (.claimq h u) (opClaimq h u) s
/-- FJOIN (12 R241). -/
def execFjoin (h : Hdr) (u : Upper) (s : State) : Host.Outcome State Fault Refusal := issue (.fjoin h u) (opFjoin h u) s
/-- FLEAVE (12 R242). -/
def execFleave (h : Hdr) (u : Upper) (s : State) : Host.Outcome State Fault Refusal := issue (.fleave h u) pollFleave s
/-- FLOCKSET (12 R243). -/
def execFlockset (h : Hdr) (u : Upper) (s : State) : Host.Outcome State Fault Refusal := issue (.flockset h u) (opFlockset u) s

end Sys2Proof.Machine
end

