-- ==== Sys2Proof/Machine/Serve.lean ====
section
/-! DEFINITION. Performing engine operations, and what their faults leave: the destination of failed work, the service
of a fault when its waiter resumes, and the replay (14 R274, R276). -/

namespace Sys2Proof.Machine

/-- Where failed work was to write scratch: block, offset, and the new bytes so far as they can be read (14 R276). -/
def State.scratchNew (s : State) (id : Nat) (o : EngOp) : List (Nat × Nat × List (Option Byte)) :=
  let g := o.agent id
  match o.kind with
  | .lane _ _ dst size v _ =>
    [(o.blk, dst, match s.transferSource id o with
      | .ok bs => bs.map some
      | .error _ => List.replicate v none ++ List.replicate (size - v) (some 0))]
  | .tile fn h =>
    let new := match o.box with
      | some bs => bs.map some
      | none => s.boxSome g o.blk (tileRights fn (regN o.regs 6)) h (originOf o.regs)
    if fn = 3 then
      (castLeft o).filterMap (fun r => match s.castTarget h o r with
        | .ok u => some (u, regN o.regs 5, new)
        | .error _ => none)
    else if tileOut fn (regN o.regs 6) then [] else [(o.blk, regN o.regs 5, new)]
  | .gather v (some d) =>
    ((List.range d.pages.length).filter (fun j => !o.delivered.contains j)).map (fun j =>
      (o.blk, regN o.regs 4 + 16 * j * d.rb, match s.gatherPage id o d v j with
        | .ok (some rows) => rows.map some
        | _ => List.replicate (16 * d.rb) none))
  | .smerge =>
    match s.memberNow o (mergeDest o.regs) with
    | .ok u =>
      if s.scrBeyond u (regN o.regs 4) (mergeBytes o.regs) then []
      else [(u, regN o.regs 4, List.replicate (mergeBytes o.regs) none)]
    | .error _ => []
  | _ => []

/-- A fault of one delivery of a TMCAST, which concerns no other member: WINDOW-REVOKED, GATED-TARGET, SCRATCH-BOUND or
BARRIER-OVERFLOW (14 R269, log 108). -/
def EngOp.castsOn (o : EngOp) (c : Cause) : Bool :=
  (match o.kind with | .tile fn _ => fn = 3 | _ => false)
    && (c = agentCause 3 kRevoked || c = agentCause 3 kGated || c = cScratchBound || c = cBarrierOverflow)

/-- What failed work leaves in its destination until it is served: any mixture of old and new (14 R276). -/
def State.smearOp (s : State) (id : Nat) (o : EngOp) : State :=
  match o.kind with
  | .tile fn h =>
    if fn ≠ 3 && tileOut fn (regN o.regs 6) then s.smearTile id fn h o
    else (s.scratchNew id o).foldl (fun t e => t.smear (o.agent id) e.1 e.2.1 e.2.2) s
  | _ => (s.scratchNew id o).foldl (fun t e => t.smear (o.agent id) e.1 e.2.1 e.2.2) s

/-- What failed work that counts as complete leaves in its destination: unspecified bytes (14 R274, R276). -/
def State.scrambleOp (s : State) (id : Nat) (o : EngOp) : State :=
  let t := (s.scratchNew id o).foldl (fun t e => t.scramble (o.agent id) e.1 e.2.1 e.2.2.length) s
  match o.kind with
  | .tile fn h =>
    if fn ≠ 3 && tileOut fn (regN o.regs 6) then
      let cells := (t.boxTry o.blk (tileRights fn (regN o.regs 6)) h (originOf o.regs)).map
        (fun e => match e with | .ok c => c | .error _ => none)
      t.storeBy (o.agent id) (boxPairs cells (chunks (fmtBytes h.fmt) (t.freeBytes 11 h.boxBytes) h.boxCount))
    else t
  | _ => t

/-- An operation fails: the record against its batch or timeline, and its destination (14 R274, R276). -/
def State.opFails (s : State) (id : Nat) (o : EngOp) (e : Cause × DWord) : State :=
  (if o.castsOn e.1 then s else s.smearOp id o).failOp id e (match o.kind with | .lane l .. => maskOf [l] | _ => 0)

/-- The box of a handle-form WBLOAD (16 R287). -/
def State.slotBox (s : State) (id : Nat) (o : EngOp) (h : Handle) : Except (Cause × DWord) (List Byte) :=
  match s.boxRuns o.blk (Rights.r false) h (originOf o.regs) with
  | .error e => .error e
  | .ok cells => .ok (s.boxRead (o.agent id) h cells)

/-- A handle-form WBLOAD waits for an earlier load of its slot (16 R301, log 104). -/
def State.opBehind (s : State) (id : Nat) (o : EngOp) : Bool :=
  match o.kind with
  | .wbload k _ _ => s.slotBehind o.w k id
  | _ => false

/-- An operation that is performed in one step: the state after it has left its engine, or its fault. None for those that
take several (TMCAST and the KV unit's). -/
def State.perform (s : State) (id : Nat) (o : EngOp) : Option (Except (Cause × DWord) State) :=
  match o.kind with
  | .lane .. => some ((s.runTransfer id o).map (fun t => t.finishOp id))
  | .tile fn h => if fn = 3 then none else some ((s.runTile id fn h o).map (fun t => t.finishOp id))
  | .wbload k _ h => some ((s.slotBox id o h).map (fun bs => (s.finishOp id).landSlot o.w k bs))
  | _ => none

/-- Failed work counts as complete: its bytes unspecified, its number or transfer done (14 R276). -/
def State.countDone (s : State) (id : Nat) (o : EngOp) : State :=
  let t := (s.scrambleOp id o).finishOp id
  match o.kind with
  | .wbload k _ h => t.landSlot o.w k (t.freeBytes 13 h.boxBytes)
  | _ => t

/-- A TMCAST whose delivery to some members has failed counts as complete, and goes on for the others (14 R269, R276). -/
def State.castOn (s : State) (id : Nat) (o : EngOp) (h : Handle) : State :=
  let lost := (castLeft o).filter (fun r => match s.castTarget h o r with | .ok _ => false | .error _ => true)
  let p := { o with fault := none, counted := true, delivered := lost ++ o.delivered }
  if (castLeft p).isEmpty then s.finishOp id
  else
    (((s.publish (o.agent id) (o.msg id)).setOp id p).updWarp o.w (fun x => { x with tileq := x.tileq.filter (fun q => q ≠ id) })).updTimeline o.blk o.tl
      (fun l => l.complete o.num)

/-- A transfer of a batch that counts as complete: its bytes land as the warp resumes, unspecified if its work has
failed (14 R276). -/
def State.settleOp (s : State) (id : Nat) : State :=
  match s.ops.find id with
  | none => s
  | some o =>
    match o.fault, o.kind with
    | some f, .tile _ h => if o.castsOn f.cause then s.castOn id o h else s.countDone id o
    | some _, _ => s.countDone id o
    | none, _ =>
      match s.perform id o with
      | some (.ok t) => t
      | _ => s.countDone id o

/-- A failed transfer awaits its replay (14 R276). -/
def State.awaitReplay (s : State) (id : Nat) : State :=
  match s.ops.find id with
  | none => s
  | some o => if o.failed then s.setOp id { o with fault := o.fault.map (fun f => { f with served := true }) } else s

/-- The service of a fault as its waiter resumes, by the cause that the record named: a replayable fault awaits the replay
of the operation, or of every failed transfer of the batch; at any other the operation or the batch counts as complete
(14 R276). -/
def State.serveOp (s : State) (id : Nat) : State :=
  match s.ops.find id with
  | none => s
  | some o =>
    match o.fault with
    | none => s
    | some f =>
      let all := if o.isLane then (s.batchOf id o).2 else [id]
      if f.served then s
      else if replayable f.cause then all.foldl (fun s i => s.awaitReplay i) s
      else all.foldl (fun s i => s.settleOp i) s

/-- The service of the matrix operation that a waiter met (16 R302). -/
def State.serveUnit (s : State) (w : Nat) : State :=
  match (s.warp w).matrix.find? (fun o => o.fault.isSome) with
  | some o => ((s.publish (s.unitAgent w o.id) (.unit (s.warp w).blk w o.id)).updWarp w (fun x => x.serveMatrix)).forget
      (workKey o.id)
  | none => s

/-- The service of what a suspension waited on: engine work, or the matrix operation that a waiter met (16 R302). -/
def State.serve (s : State) (u : Susp) : State :=
  let t := match u.op with
    | some id => s.serveOp id
    | none => s
  if u.matrix then
    match u.group.find? (fun v => ((t.warp v).matrixFault 0).isSome) with
    | some v => t.serveUnit v
    | none => t
  else t

/-- The replay of a served fault: performed again in full, or again from where it takes several steps; a TMCAST repeats
only the deliveries that were not counted (14 R276). -/
def State.replayOp (s : State) (id : Nat) (o : EngOp) : State :=
  let o' := { o with fault := none, box := none }
  if s.opBehind id o then s.setOp id o'
  else
    match s.perform id o' with
    | some (.ok t) => t
    | some (.error e) => (s.setOp id o').opFails id o' e
    | none =>
      match o.kind with
      | .gather v _ => s.setOp id { o' with kind := .gather v none }
      | _ => s.setOp id o'

end Sys2Proof.Machine
end

