-- ==== Sys2Proof/Machine/Dispatcher.lean ====
section
/-! DEFINITION. The dispatcher (19 R323 to R331, R338 to R342, 20 R350, R351): launch records, queue entries, placement,
retirement, completion and task control blocks, and pre-emption. -/

namespace Sys2Proof.Machine

/-! Launch records (19 R323, R324). -/

/-- QUEUE-DESTROYED. -/
def cQueueDestroyed : Cause := 0x84
/-- LAUNCH-INVALID. -/
def cLaunchInvalid : Cause := 0x85
/-- TCB-INVALID. -/
def cTcbInvalid : Cause := 0x86

/-- The fields of a record's bytes. -/
def launchOf (bs : List Byte) : LaunchRec :=
  let f (o n : Nat) : Nat := fieldAt bs o n
  { entry := BitVec.ofNat 64 (f 0 8), arg := BitVec.ofNat 64 (f 8 8), gx := f 16 4, gy := f 20 4, gz := f 24 4,
    warps := f 28 1, flock := f 29 1, fold := f 30 1, roles := f 31 1, roleMap := BitVec.ofNat 64 (f 32 8),
    regStart := (List.range 4).map (fun r => f (40 + r) 1), regMax := (List.range 4).map (fun r => f (44 + r) 1),
    scrStart := f 48 2, scrMax := f 50 2, engStart := f 52 1, engMax := f 53 1,
    accStart := [f 54 1, f 92 1, f 93 1, f 94 1], accMax := [f 55 1, f 95 1, f 96 1, f 97 1],
    deadline := BitVec.ofNat 64 (f 56 8), budget := BitVec.ofNat 32 (f 64 4), dither := BitVec.ofNat 32 (f 68 4),
    done := BitVec.ofNat 64 (f 72 8), table := BitVec.ofNat 64 (f 80 8), prio := f 88 1,
    persistent := f 89 1 % 2 = 1, gang := f 89 1 / 2 % 2 = 1, preempt := f 89 1 / 4 % 2 = 1, gap := f 90 2 }

/-- Role of warp i (19 R323). -/
def LaunchRec.role (r : LaunchRec) (i : Nat) : Nat := r.roleMap.toNat / 4 ^ i % 4
/-- Blocks of the grid. -/
def LaunchRec.blocks (r : LaunchRec) : Nat := r.gx * r.gy * r.gz
/-- Blocks of one placement unit (19 R325). -/
def LaunchRec.unit (r : LaunchRec) : Nat := if r.gang then r.fold else 1

/-- The claim or start vector for start quarter q0 (12 R228, 01 R20). -/
def LaunchRec.vec (r : LaunchRec) (start : Bool) (q0 : Nat) : Vec :=
  (List.range r.warps).foldl (fun v i =>
    let q := (i + q0) % 4
    vecAdd (vecAdd v (unitVec (2 + q) ((if start then r.regStart else r.regMax).getD (r.role i) 0)))
      (unitVec (6 + q) ((if start then r.accStart else r.accMax).getD (r.role i) 0)))
    (vecAdd (unitVec 0 (if start then r.scrStart else r.scrMax)) (unitVec 1 (if start then r.engStart else r.engMax)))

/-- The limits of R323 and R324, each with its offset and whether it is broken, over the record's bytes. -/
def launchLimits (bs : List Byte) (r : LaunchRec) : List (Nat × Bool) :=
  let roles := List.range (min r.roles 4)
  let top := min r.roles 4 - 1
  let claim := r.vec false 0
  let beyond (o : Nat) : Bool := (List.range 4).any (fun q => decide (capacities.getD (o + q) 0 < claim.getD (o + q) 0))
  [(0, r.entry.getLsbD 0 || !isCanonical r.entry),
   (16, r.gx = 0), (20, r.gy = 0), (24, r.gz = 0 || decide (2 ^ 32 ≤ r.blocks)),
   (28, r.warps = 0 || decide (32 < r.warps) || decide (4 * Config.slotsPerQuarter < r.warps)),
   (29, !(r.flock = 1 || r.flock = 2 || r.flock = 4 || r.flock = 8 || r.flock = 16) || decide (r.warps < r.flock)),
   (30, r.fold = 0 || decide (8 < r.fold)),
   (31, r.roles = 0 || decide (4 < r.roles)),
   (32 + (r.warps - 1) / 4, (List.range (min r.warps 32)).any (fun i => decide (r.roles ≤ r.role i))
      || decide (4 ^ r.warps ≤ r.roleMap.toNat)),
   (50, decide (r.scrMax < r.scrStart) || decide (128 < r.scrMax)),
   (53, decide (r.engMax < r.engStart) || decide (32 < r.engMax)),
   (72, decide (r.done.toNat % 64 ≠ 0)), (80, decide (r.table.toNat % 64 ≠ 0)), (88, decide (3 < r.prio)),
   (89, decide (8 ≤ fieldAt bs 89 1) || (r.gang && (r.fold = 1 || (r.fold ≠ 0 && r.blocks % r.fold ≠ 0)))),
   (98, (bs.drop 98).any (fun b => b != 0)),
   (44 + top, r.warps ≤ 32 && beyond 2), (if top = 0 then 55 else 94 + top, r.warps ≤ 32 && beyond 6)]
  ++ roles.flatMap (fun k =>
    let s := r.regStart.getD k 0
    let m := r.regMax.getD k 0
    let a := r.accStart.getD k 0
    let b := r.accMax.getD k 0
    [(40 + k, s = 0 || decide (32 < s)), (44 + k, decide (m < s) || decide (32 < m)),
     (91 + k, k ≠ 0 && decide (16 < a)), (if k = 0 then 55 else 94 + k, decide (b < a) || decide (16 < b))])

/-- The detail of LAUNCH-INVALID for a record, none where it is valid (19 R324). -/
def launchFault (addr : DWord) (bs : List Byte) : Option Nat :=
  if addr.toNat % 64 ≠ 0 then some 0xFF
  else
    ((launchLimits bs (launchOf bs)).filterMap (fun e => if e.2 then some e.1 else none)).foldl (fun m o =>
      match m with
      | none => some o
      | some p => some (min p o)) none

/-! Jobs, grids and queue entries (19 R327, R333). -/

/-- The key of a job (19 R333: ids count in each partition). -/
def jobKey (part id : Nat) : Nat := part * 2 ^ 32 + id
/-- A job. -/
def State.job? (s : State) (part id : Nat) : Option Job := s.jobs.find (jobKey part id)
/-- Replaces a grid. -/
def State.setGrid (s : State) (g : Nat) (x : Grid) : State := { s with grids := s.grids.put g x }

/-- Entries of a queue, by uid of the grid, the oldest first (19 R327, R329). -/
def State.queueOf (s : State) (part queue : Nat) : List (Nat × Grid) :=
  s.grids.filter (fun e => e.2.part = part && e.2.queue = queue && e.2.queued)

/-- Whether a queue holds 32 entries. -/
def State.queueFull (s : State) (part queue : Nat) : Bool :=
  decide (Config.launchQueueMax ≤ (s.queueOf part queue).length)

/-- A new job of a partition: its id counts on, and wraps without taking 0 (19 R333). -/
def State.newJob (s : State) (part : Nat) (table : DWord) : State × Nat :=
  let p := s.part part
  let id := p.nextJob
  ({ s with jobs := s.jobs.put (jobKey part id) ⟨part, id, table, false, []⟩ }.setPart part
    { p with nextJob := if id + 1 = 2 ^ 32 then 1 else id + 1 }, id)

/-! Candidates (19 R329, R340, 20 R350). -/

/-- One block of a unit: its index, and for a restart its region carry and entry. -/
abbrev UnitBlock := Nat × Option (List Word × DWord)

/-- The next unit of a grid: blocks waiting to restart first, a gang's together, else the next of the grid
(19 R325, R340). -/
def Grid.nextUnit (g : Grid) : List UnitBlock :=
  match g.restarts with
  | r :: t =>
    if g.lrec.gang then
      (r :: t).filterMap (fun e =>
        if e.index / g.lrec.fold = r.index / g.lrec.fold then some (e.index, some (e.carry, e.pc)) else none)
    else [(r.index, some (r.carry, r.pc))]
  | [] => if g.lrec.blocks ≤ g.next then [] else (List.range g.lrec.unit).map (fun j => (g.next + j, none))

/-- The number of a unit within its grid: that of its first block, or its gang's. -/
def Grid.unitNumber (g : Grid) : Nat := (g.nextUnit.headD (0, none)).1 / g.lrec.unit

/-- The bypass count of a grid's next unit (20 R350). -/
def Grid.bypassed (g : Grid) : Nat := (g.bypass.find g.unitNumber).getD 0

/-- Order of candidates: deadline, none last; priority class; age of the entry (19 R329). -/
def Grid.before (a b : Grid) : Bool :=
  let d (g : Grid) : Nat := if g.lrec.deadline == 0 then 2 ^ 64 else g.lrec.deadline.toNat
  decide (d a < d b) || (d a = d b && (decide (a.lrec.prio < b.lrec.prio)
    || (a.lrec.prio = b.lrec.prio && decide (a.entryNo < b.entryNo))))

/-- Insertion in that order. -/
def insertCand (e : Nat × Grid) (l : List (Nat × Grid)) : List (Nat × Grid) :=
  match l with
  | [] => [e]
  | f :: t => if e.2.before f.2 then e :: f :: t else f :: insertCand e t

/-- The candidates: the oldest entry of each queue, and grids with blocks to restart (19 R329, R340). -/
def State.candidates (s : State) (part : Nat) : List (Nat × Grid) :=
  (s.grids.filter (fun e =>
    let g := e.2
    g.part = part && !g.nextUnit.isEmpty && !g.stopped && !(s.part part).destroying.contains g.queue
      && (!g.restarts.isEmpty
        || (g.queued && !s.grids.any (fun f => f.2.part = part && f.2.queue = g.queue && f.2.queued
          && decide (f.2.entryNo < g.entryNo)))))).foldl (fun l e => insertCand e l) []

/-- The head of the candidates: its grid and unit number. -/
def State.headUnit (s : State) (part : Nat) : Option (Nat × Nat) :=
  (s.candidates part).head?.map (fun e => (e.1, e.2.unitNumber))

/-- The bypass count of the head of the last decision stands at the ageing limit (20 R350). -/
def State.headAged (s : State) (part : Nat) : Bool :=
  match (s.part part).head with
  | some h => (s.grids.find h.1).any (fun g => decide ((s.part part).ageLim ≤ (g.bypass.find h.2).getD 0))
  | none => false

/-- Reservations end in the step in which their unit stops being the head, or its count standing at the limit (20 R350). -/
def State.rehead (s : State) (part : Nat) : State :=
  if (s.part part).head = none then s
  else if s.headUnit part ≠ (s.part part).head then s.updPart part (fun p => { p with head := none, reserved := [] })
  else if s.headAged part then s
  else s.updPart part (fun p => { p with reserved := [] })

/-! String clocks of a partition (01 R26, 20 R351): the cores with a resident block keep in step. -/

/-- The powered cores of a partition on which a block is resident: those whose Shepherds have other work before an admission
(01 R18). -/
def State.busyCores (s : State) (part : Nat) : List Nat :=
  (((s.blocks.filter (fun e => e.2.part = part)).map (fun e => e.2.core)).filter (fun c => !(s.core c).gated)).eraseDups

/-- The string clock of a partition: that of the busy core furthest behind; none without a busy core. -/
def State.level (s : State) (part : Nat) : Option Nat := ((s.busyCores part).map (fun c => (s.core c).lap)).min?

/-- The events of a string clock have all come, and the dispatcher has still to decide on them (20 R351). -/
def State.decisionDue (s : State) (part : Nat) : Bool :=
  (s.part part).configured && (s.part part).pstate == .running && (match (s.part part).events, s.level part with
    | some n, some m => decide (n < m)
    | _, _ => false)

/-- A core keeps in step: it goes on once no busy core of its partition is behind it and no decision is due (20 R351). -/
def State.abreast (s : State) (core : Nat) : Bool :=
  s.parts.all (fun e => !(s.busyCores e.1).contains core || (!s.decisionDue e.1
    && (s.busyCores e.1).all (fun c => decide ((s.core core).lap ≤ (s.core c).lap))))

/-- The number of a new entry: the partition numbers its entries as they are made, and those made on one clock in increasing
queue number (19 R329). -/
def State.entryNumber (s : State) (part queue : Nat) : Nat :=
  let made := s.level part
  s.grids.foldl (fun n e =>
    if e.2.part = part && made.isSome && e.2.made == made && decide (queue < e.2.queue) then min n e.2.entryNo else n)
    (s.part part).nextEntry

/-- Entries numbered from a place on move behind a new entry. -/
def State.makePlace (s : State) (part n : Nat) : State :=
  { s with grids := s.grids.mapVal (fun _ g =>
      if g.part = part && decide (n ≤ g.entryNo) then { g with entryNo := g.entryNo + 1 } else g) }

/-- An event for the dispatcher, on the present clock or with those that it has still to decide on: a retirement, a placement
or an entry (19 R329, 20 R351). -/
def State.noteEvent (s : State) (part : Nat) : State :=
  s.updPart part (fun p => { p with events := p.events <|> s.level part })

/-- A new entry's grid. -/
def newGrid (part job queue n : Nat) (addr : DWord) (r : LaunchRec) (tcb : Option (Nat × Option Nat)) (ring : Bool)
    (made : Option Nat) : Grid :=
  { part := part, job := job, lrec := r, recAddr := addr, queue := queue, entryNo := n, made := made, next := 0, live := 0,
    status := 0, stopped := false, dropStatus := 0, queued := true, tcb := tcb, hostRing := ring, deadlineSent := false,
    bypass := [], code := [], restarts := [] }

/-- An entry for a grid of a job, with the writes that are ordered before its blocks (19 R327, R349). -/
def State.enqueue (s : State) (part job queue : Nat) (addr : DWord) (r : LaunchRec) (tcb : Option (Nat × Option Nat))
    (ring : Bool) (before : Past → Bool) : State :=
  let n := s.entryNumber part queue
  let t := (s.adoptOf before (gridKey s.nextUid)).makePlace part n
  ({ t with
      grids := t.grids.put t.nextUid (newGrid part job queue n addr r tcb ring (s.level part)), nextUid := t.nextUid + 1 }.updPart
    part (fun p => { p with nextEntry := p.nextEntry + 1 })).noteEvent part |>.rehead part

/-! Records of the dispatcher (19 R387). -/

/-- The half whose slice makes a partition's dispatcher records: that of its first region. -/
def State.sliceHalf (s : State) (part : Nat) : Nat := (s.part part).regions.headD 0 / 12

/-- A record that names no warp, with the fields of R387. -/
def State.taskRecord (s : State) (part : Nat) (cause : Cause) (agent detail : Nat) (addr : DWord) (job : Nat)
    (lane member : Nat) : State :=
  s.deviceRecord (s.sliceHalf part) part
    { FaultInfo.of cause detail with
      agent := agent, async := true, addr := addr, lanes := BitVec.ofNat 32 lane,
      timeline := BitVec.ofNat 64 job, members := some (BitVec.ofNat 32 member) }

/-! Completion objects (19 R326). -/

/-- The status and the arrival on a completion object, each one indivisible step of the dispatcher's, the arrival a release
at device scope: the state, and whether the arrival was made; or the cause that its page gives. -/
def State.touchObject (s : State) (g : Agent) (part : Nat) (obj : DWord) (status : Nat) : Except Cause (State × Bool) :=
  match s.engineRunsAt (pagerVia part) 3 (Rights.w false) obj 64,
      s.engineRunsAt (pagerVia part) 3 (Rights.w false) (atOff obj 32) 4 with
  | .ok rs, .ok ws =>
    let t := (s.readNewest g false (.glob ws)).putBy g (s.draw 13) (Put.step false) (.glob ws)
      (leBytes 4 (max (leNat (s.runBytes ws)) status))
    match (t.barAt (.glob rs)).step 1 0 with
    | some b => .ok ((t.releaseBy g).setBar g (Put.step true) (.glob rs) b, true)
    | none => .ok (t, false)
  | .error e, _ => .error e.1
  | _, .error e => .error e.1

/-- Completion's part on the object: status raised, then one arrival; a record where either cannot be made. -/
def State.signalObject (s : State) (g : Agent) (part job : Nat) (obj : DWord) (status : Nat) : State :=
  if obj == 0 then s
  else
    match s.touchObject g part obj status with
    | .error c => s.taskRecord part c 3 0 obj job 0 0
    | .ok (t, ok) => if ok then t else t.taskRecord part cBarrierOverflow 3 0 obj job 0 0

/-! Task control blocks (19 R341, R342). -/

/-- A TCB as read: its bytes. -/
def State.tcbBytes (s : State) (part : Nat) (addr : DWord) : Option (List Byte) :=
  match s.kvRead (pagerVia part) addr 64 with
  | .ok bs => some bs
  | .error _ => none

/-- The address of a TCB. -/
def tcbAddr (table : DWord) (i : Nat) : DWord := atOff table (64 * i)
/-- State of a TCB. -/
def tcbState (bs : List Byte) : Nat := fieldAt bs 4 4

/-- A write by the dispatcher, where the page lets it. -/
def State.tcbPut (s : State) (part : Nat) (addr : DWord) (n : Nat) : State :=
  match s.kvCommit (deviceAgent part) [] (pagerVia part) [w4 addr n] with
  | .ok t => t
  | .error _ => s

/-- A node's successors, in index order (19 R341). -/
def State.successors (s : State) (part : Nat) (bs : List Byte) : List Nat :=
  let n := fieldAt bs 16 4
  let list := BitVec.ofNat 64 (fieldAt bs 44 8)
  let more := if n ≤ 6 || list == 0 then [] else
    match s.kvRead (pagerVia part) list 8 with
    | .error _ => []
    | .ok hd =>
      match s.kvRead (pagerVia part) (atOff list 8) (4 * min (n - 6) (fieldAt hd 0 4)) with
      | .error _ => []
      | .ok es => (List.range (es.length / 4)).map (fun j => fieldAt es (4 * j) 4)
  (List.range (min n 6)).map (fun j => fieldAt bs (20 + 4 * j) 4) ++ more

/-- The mask of successors that a node's condition word selects, none without one; the word is read as an acquire at device
scope (19 R342). -/
def State.takenMask (s : State) (g : Agent) (part : Nat) (bs : List Byte) : State × Option Nat :=
  let c := BitVec.ofNat 64 (fieldAt bs 52 8)
  if c == 0 then (s, none)
  else
    match s.engineRunsAt (pagerVia part) 3 (Rights.r false) c 4 with
    | .ok rs =>
      if s.poisonedTarget (.glob rs) then (s, some (fieldAt bs 60 2))
      else
        (s.readBy s g (s.draw 6) true (.glob rs),
          some (if leNat (s.see g (s.draw 6) (.glob rs)) = 0 then fieldAt bs 60 2 else fieldAt bs 62 2))
    | .error _ => (s, some (fieldAt bs 60 2))

/-- What the dispatcher does next in a task graph. -/
inductive TaskStep where
  /-- A TCB becomes ready. -/
  | ready (i : Nat)
  /-- A TCB retires, with its taken mask; `key` is what its work is kept under. -/
  | retire (i : Nat) (taken : Option Nat) (key : Nat)
  /-- A successor's count falls, as its predecessor at the address retires. -/
  | dec (pred : DWord) (i : Nat) (key : Nat)
  deriving DecidableEq, Repr

/-- Adds a TCB to its job's list. -/
def State.listTcb (s : State) (part job i : Nat) : State :=
  match s.job? part job with
  | some j =>
    if j.tcbs.contains i then s else { s with jobs := s.jobs.put (jobKey part job) { j with tcbs := j.tcbs ++ [i] } }
  | none => s

/-- A TCB that is ready enters its queue, or waits for room in it (19 R327, R342, log 60). -/
def State.enterTcb (s : State) (part : Nat) (t : ReadyTcb) : State :=
  if s.queueFull part t.queue then s.updPart part (fun p => { p with readyTcbs := p.readyTcbs ++ [t] })
  else
    let key := tcbKey part t.job t.tcb
    (s.enqueue part t.job t.queue t.recAddr t.lrec (some (t.tcb, t.taken)) false
      (fun r => r.knownBy (agentFor part key))).forget key

/-- TCBs that wait for room enter a queue, the oldest first; `n` bounds their number. -/
def State.admitQueue (s : State) (part queue n : Nat) : State :=
  match n with
  | 0 => s
  | n + 1 =>
    match (s.part part).readyTcbs.find? (fun t => t.queue = queue) with
    | none => s
    | some t =>
      if s.queueFull part queue then s
      else
        ((s.updPart part (fun p => { p with readyTcbs := p.readyTcbs.erase t })).enterTcb part t).admitQueue part queue n

/-- TCBs that wait for room enter their queues. -/
def State.admitTcbs (s : State) (part : Nat) : State :=
  let n := (s.part part).readyTcbs.length
  if n = 0 then s else (List.range 64).foldl (fun s q => s.admitQueue part q n) s

/-- One step of a task graph: the state, and the steps that follow from it (19 R342). The entry of a TCB in a queue under
QDESTROY is dropped at once, and its grid completes with status 2 (R347, log 106). -/
def State.taskStep (s : State) (part job queue : Nat) (j : Job) (e : TaskStep) : State × List TaskStep :=
  match e with
  | .ready i =>
    let a := tcbAddr j.table i
    let key := tcbKey part job i
    match s.tcbBytes part a with
    | none => (s, [])
    | some bs =>
      let s1 := (s.listTcb part job i).adopt (agentFor part key) key
      let recAddr := BitVec.ofNat 64 (fieldAt bs 8 8)
      if j.cancel then (s1.tcbPut part (atOff a 4) 4, [])
      else
        let (sm, taken) := s1.takenMask (agentFor part key) part bs
        let s2 := sm.tcbPut part (atOff a 4) 1
        if recAddr == 0 then (s2, [.retire i taken key])
        else
          match s2.kvRead (pagerVia part) recAddr 128 with
          | .error _ => (s2.taskRecord part cTcbInvalid 0xFF 3 a job i 0, [])
          | .ok rb =>
            match launchFault recAddr rb with
            | some d => (s2.taskRecord part cLaunchInvalid 0xFF d recAddr job 0 0, [])
            | none =>
              if (s2.part part).destroying.contains queue then
                (s2.signalObject (agentFor part key) part job (launchOf rb).done 2, [.retire i taken key])
              else (s2.enterTcb part ⟨job, queue, i, taken, recAddr, launchOf rb⟩, [])
  | .retire i taken key =>
    let a := tcbAddr j.table i
    match s.tcbBytes part a with
    | none => (s, [])
    | some bs =>
      let ss := s.successors part bs
      let go := ((List.range ss.length).zip ss).filter (fun e => taken.all (fun m => m.testBit e.1))
      (s.tcbPut part (atOff a 4) 3, go.map (fun e => .dec a e.2 key))
  | .dec pred i key =>
    let a := tcbAddr j.table i
    let skip := s.taskRecord part cTcbInvalid 0xFF 0 pred job i 0
    match (if i < 2 ^ 24 then s.tcbBytes part a else none) with
    | none => (skip, [])
    | some bs =>
      if tcbState bs ≠ 0 then (skip, [])
      else
        let n := (fieldAt bs 0 4 + 2 ^ 32 - 1) % 2 ^ 32
        ((s.tell (fun r => r.knownBy (agentFor part key)) [(tcbKey part job i, 1)]).tcbPut part a n,
          if n = 0 then [.ready i] else [])

/-- The steps of a task graph, each before those that were waiting; `fuel` bounds their number. -/
def State.runTasks (s : State) (part job queue : Nat) (fuel : Nat) (es : List TaskStep) : State :=
  match fuel, es with
  | fuel + 1, e :: t =>
    match s.job? part job with
    | none => s
    | some j =>
      let (u, more) := s.taskStep part job queue j e
      u.runTasks part job queue fuel (more ++ t)
  | _, _ => s

/-- A job ends once it has no ready or running TCB and no grid that is not done (19 R342). -/
def State.endJob (s : State) (part job : Nat) : State :=
  if s.grids.any (fun e => e.2.part = part && e.2.job = job) || (s.part part).readyTcbs.any (fun t => t.job = job) then s
  else { s with jobs := s.jobs.drop (jobKey part job) }

/-! Completion of a grid (19 R326). -/

/-- Every block of a grid has retired or has been dropped. -/
def Grid.over (g : Grid) : Bool :=
  g.live = 0 && g.restarts.isEmpty && (g.stopped || decide (g.lrec.blocks ≤ g.next))

/-- A grid completes: object, message to the host, its TCB's retirement, and the end of its job (19 R326, R342,
22 R367). A queue under QDESTROY is released once none of its entries' grids is left (R347). -/
def State.completeGrid (s : State) (id : Nat) (g : Grid) : State :=
  let s1 := (s.tell (ofGrid id) [(gridKey id, 1)]).signalObject (agentFor g.part (gridKey id)) g.part g.job g.lrec.done g.status
  let s2 := if g.hostRing then { s1 with outputs := s1.outputs ++ [.msix g.part 1] } else s1
  let s3 := { s2 with grids := s2.grids.drop id }
  let s4 := match g.tcb, s3.job? g.part g.job with
    | some (i, taken), some j =>
      match s3.tcbBytes g.part (tcbAddr j.table i) with
      | some bs => if tcbState bs = 4 then s3 else s3.runTasks g.part g.job g.queue (2 ^ 32) [.retire i taken (gridKey id)]
      | none => s3
    | _, _ => s3
  let s5 := s4.updPart g.part (fun p =>
    { p with destroying := p.destroying.filter (fun q =>
        s4.grids.any (fun e => e.2.part = g.part && e.2.queue = q && e.2.dropStatus = 2)) })
  ((s5.forget (gridKey id)).endJob g.part g.job).rehead g.part

/-- A grid that is over completes. -/
def State.checkGrid (s : State) (id : Nat) : State :=
  match s.grids.find id with
  | some g => if g.over then s.completeGrid id g else s
  | none => s

/-- A grid places no more units; what waited to be placed is dropped, and its status rises (19 R326, R345, R347). -/
def State.stopGrid (s : State) (id : Nat) (status : Nat) : State :=
  match s.grids.find id with
  | none => s
  | some g =>
    let drops := !(decide (g.lrec.blocks ≤ g.next) && g.restarts.isEmpty)
    (s.setGrid id { g with
      stopped := true, dropStatus := max g.dropStatus status, queued := false, restarts := [],
      status := if drops then max g.status status else g.status }).rehead g.part

/-! A block leaves its core. -/

/-- An entry of the Shepherd's queue is a block's. -/
def State.needOf (s : State) (u : Nat) (n : Need) : Bool :=
  match n with
  | .release w => (s.warp w).blk = u
  | .retire b => b = u
  | .acq r => r.blk = u
  | .admission _ => false

/-- The storage that a block's units and its warps' hold, by KiB of the core's window (02 R35). -/
def State.kibsOf (s : State) (u : Nat) : List Nat :=
  scrKibs (s.block u).scrUnits ++ (s.warpsOfBlock u).flatMap (fun w =>
    regKibs (s.warp w).quarter (s.warp w).regUnits ++ accKibs (s.warp w).quarter (s.warp w).accUnits)

/-- Releases all that a block holds: its warps, operations and requests, but not its page-in requests (17 R315); its
core's deferred list is retested (12 R231, R239). -/
def State.removeBlock (s : State) (u : Nat) : State :=
  let b := s.block u
  let t := { (s.blockGone u).freeStorage b.core (s.kibsOf u) with
    warps := List.filter (fun e => e.2.blk != u) s.warps,
    ops := List.filter (fun e => e.2.blk != u) s.ops,
    blocks := s.blocks.drop u }
  (t.updCore b.core (fun c =>
    { c with
      reqs := c.reqs.filter (fun r => !s.needOf u r.need),
      deferred := c.deferred.filter (fun r => r.blk != u) })).retest b.core

/-- Counts a block out of its grid. -/
def State.gridLeft (s : State) (id : Nat) : State :=
  match s.grids.find id with
  | some g => s.setGrid id { g with live := g.live - 1 }
  | none => s

/-- The record of failed work that no warp waits for (12 R239, 14 R274, 16 R302). -/
def State.orphanRecord (s : State) (u : Nat) (f : FaultInfo) : State :=
  s.deviceRecord (halfOfCore (s.block u).core) (s.block u).part { f with wpc := 0 }

/-- A failed transfer counts as complete. -/
def State.settleFailed (s : State) (id : Nat) : State := if (s.ops.find id).any EngOp.failed then s.settleOp id else s

/-- One record of failed work that a block leaves at its retirement, and that work counted as complete, its destination
unspecified (14 R274, R276): a batch of lane transfers, an engine operation, or a warp's matrix work. A TMCAST goes on for the
members that it can still reach (14 R269). None where no failed work is left. -/
def State.orphan (s : State) (u : Nat) : Option State :=
  match s.ops.find? (fun e => e.2.blk = u && e.2.failed) with
  | some (id, o) =>
    if o.isLane then
      let b := s.batchOf id o
      let t := match s.batchInfo b.1 b.2 0 with
        | some f => s.orphanRecord u f
        | none => s
      some ((id :: b.2).foldl (fun s i => s.settleFailed i) t)
    else some ((s.orphanRecord u (asyncInfo id o 0)).settleOp id)
  | none =>
    (s.warpsOfBlock u).findSome? (fun w =>
      ((s.warp w).matrix.find? (fun o => o.fault.isSome)).map (fun o =>
        (match o.fault with | some f => s.orphanRecord u (o.info f 0) | none => s).updWarp w (fun x =>
          { x with matrix := x.matrix.filter (fun p => p.id != o.id) })))

/-- Work that retirement waits for: loads, stores and matrix operations that have not met a fault, the block's engine
operations, and what other members still bring into its scratch (12 R239, R242). -/
def State.retireBusy (s : State) (u : Nat) : Bool :=
  (s.warpsOfBlock u).any (fun w =>
    let x := s.warp w
    !x.loads.isEmpty || !x.stores.isEmpty || x.matrix.any (fun o => !o.done && o.fault.isNone))
  || s.ops.any (fun e => !e.2.failed && (e.2.blk = u || s.touchesScratch u 0 e.2))

/-- Retirement, once failed work has its records: the fold left, every unit released, and the grid's count (12 R239). -/
def State.retireBlock (s : State) (u : Nat) : State :=
  let b := s.block u
  (((s.leaveFold u).noteEvent b.part).removeBlock u |>.gridLeft b.grid).checkGrid b.grid

/-! Pre-emption (19 R338, R339). -/

/-- PREEMPTED. -/
def cPreempted : Cause := 0x82

/-- Blocks of a block's gang, itself among them; itself alone outside a gang. -/
def State.gangOf (s : State) (u : Nat) : List Nat :=
  let b := s.block u
  if b.lrec.gang then
    s.blocks.keysWhere (fun _ c => c.grid = b.grid && c.index / b.lrec.fold = b.index / b.lrec.fold)
  else [u]

/-- A block, with its gang, may be pre-empted now (19 R338). -/
def State.preemptible (s : State) (u : Nat) : Bool :=
  (s.gangOf u).all (fun v => (s.block v).lrec.preempt && (s.block v).inRegion && !(s.block v).lrec.persistent)

/-- A block is discarded from its core and waits to be placed again (19 R338, R340); one of a stopped grid is dropped
(R345, log 107). -/
def State.discard (s : State) (u : Nat) (migrate : Bool) : State :=
  let b := s.block u
  let t := (((s.leaveFold u).noteEvent b.part).removeBlock u).adopt (agentFor b.part (gridKey b.grid)) (gridKey b.grid)
  match t.grids.find b.grid with
  | some g =>
    (t.setGrid b.grid (if g.stopped then { g with live := g.live - 1, status := max g.status g.dropStatus }
      else { g with
        live := g.live - 1,
        restarts := g.restarts ++ [⟨b.index, b.carry, b.regionPc, if migrate then some b.core else none⟩] })).rehead b.part
  | none => t

/-- The record of a pre-emption, or of a migration (19 R339, 07 R166). -/
def State.preemptRecord (s : State) (u : Nat) (cause : Cause) (reason : Nat) : State :=
  let b := s.block u
  s.postRecord (halfOfCore b.core) b.part
    { cause := cause, detail := BitVec.ofNat 8 reason, agent := 0xFF, flags := 5, slot := 0xFFFF, flock := 0, count := 0,
      pc := b.regionPc, iword := 0, addr := BitVec.ofNat 64 b.index, laneMask := 0,
      memberMask := maskOf ((s.warpsOfBlock u).map (fun w => (s.warp w).widx)),
      timeline := BitVec.ofNat 64 (((s.grids.find b.grid).map (fun g => g.job)).getD 0), ipc := 0, wpc := 0 } none

/-- A block and its gang are pre-empted, one record each; the others of the gang have reason 2. -/
def State.preemptAll (s : State) (u : Nat) (cause : Cause) (reason : Nat) : State :=
  let b := s.block u
  ((s.gangOf u).foldl (fun s v => (s.preemptRecord v cause (if v = u then reason else 2)).discard v (cause = 0xAD)) s).checkGrid
    b.grid

/-- A block of a gang whose pre-emption was asked for and waits for the gang's REGIONs, with its reason (19 R338,
R339). -/
def State.requested (s : State) (u : Nat) : Option (Nat × Nat) :=
  (s.gangOf u).findSome? (fun v => (s.block v).preemptReq.map (fun r => (v, r)))

/-! Placement (01 R20, R21, 19 R325, R329, R330). -/

/-- Free warp slots of a quarter; slot 32 q + i is slot i of quarter q. -/
def State.freeSlots (s : State) (core q : Nat) : List Nat :=
  (List.range Config.slotsPerQuarter).filterMap (fun i =>
    let n := Config.slotsPerQuarter * q + i
    if (s.warps.find (warpId core n)).isNone then some n else none)

/-- Warps of a record on a quarter for start quarter q0. -/
def LaunchRec.onQuarter (r : LaunchRec) (q0 q : Nat) : List Nat := (List.range r.warps).filter (fun i => (i + q0) % 4 = q)

/-- The start quarter of R20: the candidate whose smallest remainder of register units is largest, the lowest on a tie. -/
def State.startQuarter (s : State) (core : Nat) (r : LaunchRec) (start : Nat → Vec) : Option Nat :=
  let v := available (s.sides core)
  let cands := (List.range 4).filter (fun q0 =>
    (List.range 4).all (fun q => decide ((r.onQuarter q0 q).length ≤ (s.freeSlots core q).length)))
  let least (q0 : Nat) : Int :=
    (List.range 4).foldl (fun m q => min m ((v.getD (2 + q) 0 : Int) - (start q0).getD (2 + q) 0)) (2 ^ 32 : Int)
  (cands.foldl (fun b q0 => match b with
    | none => some (q0, least q0)
    | some (p, m) => if m < least q0 then some (q0, least q0) else some (p, m)) none).map (fun e => e.1)

/-- The admission test of a block (12 R233): start as the request, full claim. -/
def State.admits (s : State) (core : Nat) (claim start : Vec) : Bool :=
  testPasses (s.sides core ++ [⟨s.nextUid, claim, unitVec 0 0⟩]) ((s.core core).deferred.head?.map (fun r => r.vec))
    s.nextUid start

/-- A core meets R21 for a block: the start quarter that it would take. -/
def State.meets (s : State) (core : Nat) (r : LaunchRec) : Option Nat :=
  match s.startQuarter core r (r.vec true) with
  | none => none
  | some q0 => if s.admits core (r.vec false q0) (r.vec true q0) then some q0 else none

/-- A core lies within the interval after its last admission (12 R233). -/
def State.pacing (s : State) (core : Nat) : Bool :=
  (s.core core).lastAdmit.any (fun t => decide ((s.core core).clock < t + Config.admitInterval))

/-- Cores of a region. -/
def coresOf (region : Nat) : List Nat := (List.range 8).map (fun i => 8 * region + i)

/-- The cores that a unit of k blocks would take, with start quarters: for one block the lowest powered core, else the
lowest gated one; for a gang the lowest region with k cores (19 R330). -/
def State.findCores (s : State) (r : LaunchRec) (k : Nat) (regions banned : List Nat) : Option (List (Nat × Nat)) :=
  let fit (c : Nat) : Option (Nat × Nat) := if banned.contains c then none else (s.meets c r).map (fun q => (c, q))
  if k = 1 then
    let fits := (regions.flatMap coresOf).filterMap fit
    match fits.find? (fun e => !(s.core e.1).gated) with
    | some e => some [e]
    | none => fits.head?.map (fun e => [e])
  else
    regions.findSome? (fun g =>
      let fits := (coresOf g).filterMap fit
      if k ≤ fits.length then some (fits.take k) else none)

/-- A warp as launched (06 R126), or restarted (19 R340). -/
def launchWarp (u core slot q i : Nat) (r : LaunchRec) (epoch : Nat) (back : Option (List Word × DWord)) : Warp :=
  let x : Warp :=
    { Warp.blank with
      blk := u, core := core, slot := slot, quarter := q, widx := i, role := r.role i, pc := canon57 r.entry,
      dctr := r.dither, regEpochs := List.replicate (r.regStart.getD (r.role i) 0) none,
      accEpochs := List.replicate (r.accStart.getD (r.role i) 0) epoch }
  match back with
  | none => x
  | some (carry, pc) =>
    { x with pc := pc, s := ((List.range 8).zip carry).foldl (fun m e => m.put e.1 e.2) x.s }

/-- Places the warps of a block on the lowest free slots of their quarters, each with an epoch of its own for its
accumulators, and with units of its quarter (02 R35). -/
def State.placeWarps (s : State) (u gid core q0 : Nat) (r : LaunchRec) (back : Option (List Word × DWord)) : State :=
  (List.range r.warps).foldl (fun s i =>
    let q := (i + q0) % 4
    let n := (s.freeSlots core q).headD 0
    let x := launchWarp u core n q i r s.epoch back
    { s.inherit gid (warpId core n) with
      warps := s.warps.put (warpId core n) { x with
        regUnits := pickUnits (s.epoch + 2) x.regEpochs.length (s.freeRegUnits core q),
        accUnits := pickUnits s.epoch x.accEpochs.length (s.freeAccUnits core q) },
      nextUid := s.nextUid + 2 }) s

/-- Places one block of a grid on a core (19 R330, 12 R228, R233). -/
def State.placeBlock (s : State) (gid : Nat) (g : Grid) (gangCore : Option (Nat × Nat)) (core q0 : Nat) (e : UnitBlock) :
    State :=
  let r := g.lrec
  let u := s.nextUid
  let b : Block :=
    { Block.blank with
      core := core, part := g.part, grid := gid, index := e.1, q0 := q0, lrec := r, flockSize := r.flock,
      claim := r.vec false q0, alloc := r.vec true q0, scrEpochs := List.replicate r.scrStart s.epoch,
      scrUnits := pickUnits s.epoch r.scrStart (s.freeScrUnits core),
      timelines := List.replicate r.engStart ⟨0, 0, []⟩, budget := r.budget.toNat,
      fold := gangCore.map (fun p => ⟨BitVec.ofNat 32 (core / 8 * 65536 + (0x8000 + p.1 % 0x8000)), p.2, some p.1⟩),
      inRegion := e.2.isSome, carry := (e.2.map (fun b => b.1)).getD [], regionPc := (e.2.map (fun b => b.2)).getD 0 }
  let idle := !(s.busyCores g.part).contains core
  ({ s with blocks := s.blocks.put u b, nextUid := u + 1 }.placeWarps u gid core q0 r e.2).updCore core
    (fun c => { c with lastAdmit := some c.clock, lap := if idle then (s.level g.part).getD c.lap else c.lap })

/-- A TCB's state becomes 2 once the first block of its grid is placed (19 R342). -/
def State.markRunning (s : State) (g : Grid) : State :=
  match g.tcb, s.job? g.part g.job with
  | some (i, _), some j => if g.next = 0 then s.tcbPut g.part (atOff (tcbAddr j.table i) 4) 2 else s
  | _, _ => s

/-- Places a unit on cores: rank r of a gang on the r-th of them. Its entry leaves the queue with its last unit, and
the unit's bypass count starts again; the placement is an event for the dispatcher (19 R325, R327, R329, 20 R351). -/
def State.placeUnit (s : State) (gid : Nat) (g : Grid) (cores : List (Nat × Nat)) : State :=
  let us := g.nextUnit
  let t := (us.zip cores).foldl (fun s e =>
    s.placeBlock gid g (if g.lrec.gang then some (e.1.1 / g.lrec.fold, e.1.1 % g.lrec.fold) else none) e.2.1 e.2.2 e.1)
    (s.markRunning g)
  let fresh := g.restarts.isEmpty
  let h := { g with
    next := if fresh then g.next + us.length else g.next,
    restarts := g.restarts.filter (fun r => !us.any (fun e => e.1 = r.index)), live := g.live + us.length,
    bypass := g.bypass.drop g.unitNumber }
  (((t.setGrid gid { h with queued := g.queued && decide (h.next < h.lrec.blocks) }).admitTcbs g.part).noteEvent g.part).rehead
    g.part

/-- A candidate passes placement: its cores, or that one of them lies within its interval. -/
inductive Fit where
  | none | paced
  | cores (l : List (Nat × Nat))
  deriving DecidableEq, Repr

/-- Whether a unit passes placement (19 R330). -/
def State.fit (s : State) (g : Grid) (regions banned : List Nat) : Fit :=
  let left := ((g.restarts.filter (fun r => g.nextUnit.any (fun e => e.1 = r.index))).filterMap (fun r => r.avoid))
  match s.findCores g.lrec g.nextUnit.length regions (left ++ banned) with
  | none => .none
  | some l => if l.any (fun e => s.pacing e.1) then .paced else .cores l

/-- A region has k cores that hold no persistent block (19 R329). -/
def State.couldHold (s : State) (k region : Nat) : Bool :=
  decide (k ≤ ((coresOf region).filter (fun c => !s.blocks.any (fun e => e.2.core = c && e.2.lrec.persistent))).length)

/-- Back-fill before the limit: each candidate after the head in order, counted against the head, which stops at the
limit (19 R329). -/
def State.backfill (s : State) (h limit : Nat) (regions : List Nat) (cs : List (Nat × Grid)) : State :=
  match cs with
  | [] => s
  | (id, g) :: t =>
    match s.fit g regions (s.part g.part).reserved with
    | .cores l =>
      let u := s.placeUnit id g l
      match u.grids.find h with
      | some x =>
        let n := x.bypassed + 1
        let v := u.setGrid h { x with bypass := x.bypass.put x.unitNumber n }
        if limit ≤ n then v else v.backfill h limit regions t
      | none => u
    | _ => s.backfill h limit regions t

/-- Back-fill where the head could not go, which counts nothing (19 R329). -/
def State.backfillElsewhere (s : State) (regions : List Nat) (cs : List (Nat × Grid)) : State :=
  match cs with
  | [] => s
  | (id, g) :: t =>
    match s.fit g regions (s.part g.part).reserved with
    | .cores l => (s.placeUnit id g l).backfillElsewhere regions t
    | _ => s.backfillElsewhere regions t

/-- The reservations for a head whose bypass count stands at the limit: each core that meets R21 for one of its blocks, in
the regions that could hold it (20 R350). -/
def State.reserve (s : State) (part : Nat) (h : Grid) : State :=
  let p := s.part part
  if h.bypassed < p.ageLim then s
  else
    let hold := p.regions.filter (s.couldHold h.nextUnit.length)
    let more := (hold.flatMap coresOf).filter (fun c => !p.reserved.contains c && (s.meets c h.lrec).isSome)
    s.setPart part { p with reserved := p.reserved ++ more }

/-- One decision (19 R329, 20 R350). -/
def State.dispatch (s : State) (part : Nat) : State :=
  match s.candidates part with
  | [] => s.updPart part (fun p => { p with head := none, reserved := [] })
  | (id, h) :: rest =>
    let key := some (id, h.unitNumber)
    let s0 := (s.updPart part (fun p =>
      { p with head := key, reserved := if p.head = key then p.reserved else [] })).reserve part h
    let p := s0.part part
    match s0.fit h p.regions [] with
    | .cores l => (s0.placeUnit id h l).updPart part (fun q => { q with head := none, reserved := [] })
    | .paced => s0
    | .none =>
      if h.bypassed < p.ageLim then s0.backfill id p.ageLim p.regions rest
      else
        s0.backfillElsewhere (p.regions.filter (fun g => !s0.couldHold h.nextUnit.length g)) rest

end Sys2Proof.Machine
end

