-- ==== Sys2Proof/Machine/Task.lean ====
section
/-! DEFINITION. The TASK group (19 R332 to R346): launches, task control blocks, cancellation, slices, regions and
stiles. -/

namespace Sys2Proof.Machine

/-- TCB-OVERFLOW. -/
def cTcbOverflow : Cause := 0x87
/-- REGION-NESTED. -/
def cRegionNested : Cause := 0x89
/-- SPAWN-CANCELLED. -/
def cSpawnCancelled : Cause := 0x8B
/-- LAUNCH-QUEUE-FULL. -/
def cQueueFull : Cause := 0x8C
/-- STILE-INVALID. -/
def cStileInvalid : Cause := 0x8D
/-- CANCELLED. -/
def cCancelled : Cause := 0x83
/-- STILE-PEER-RESET. -/
def cStilePeer : Cause := 0xB7

/-- A uniform register of a TASK instruction. -/
def taskReg (s : State) (a : Actor) (r : BitVec 8) : Word := (s.warp a.lead).readS (s.draw 0) r.toNat
/-- A uniform pair. -/
def taskPair (s : State) (a : Actor) (r : BitVec 8) : DWord := (s.warp a.lead).readPairS (s.draw 0) r.toNat

/-- A read of program data by a TASK instruction, as a warp load (19 R333): the bytes, or its answer. -/
def taskRead (fn : Nat) (addr : DWord) (n : Nat) (a : Actor) (s : State) : Except Res (List Byte) :=
  let lanes := a.recordLanes
  match s.runs (s.via a.lead) (Rights.r false) (s.draw 8) addr n with
  | .error e =>
    let c := agentCause 0 e
    .error (.fault { FaultInfo.of c fn with agent := 0, replay := replayable c, addr := addr, lanes := lanes })
  | .ok rs =>
    if s.poisonedTarget (.glob rs) then
      .error (.ok (s.updWarp a.lead (fun x => x.trapDue (agentCause 0 kPoison) 0 x.pc a.iword)))
    else .ok (s.runBytes rs)

/-! LAUNCH (19 R333). -/

/-- The job and the entry of a launch, with the writes that are ordered before its grid; with a task table, its root TCB is
ready (19 R341, R349). -/
def State.launch (s : State) (part queue : Nat) (addr : DWord) (r : LaunchRec) (ring : Bool) (before : Past → Bool) :
    State × Nat :=
  let (t, id) := s.newJob part r.table
  if r.table == 0 then (t.enqueue part id queue addr r none ring before, id)
  else
    let key := tcbKey part id 0
    let g := agentFor part key
    let (u, taken) := match t.tcbBytes part r.table with
      | some bs => (t.adoptOf before key).takenMask g part bs
      | none => (t.adoptOf before key, none)
    ((((u.listTcb part id 0).tcbPut part (atOff r.table 4) 1).enqueue part id queue addr r (some (0, taken)) ring
      (fun r => r.knownBy g)).forget key, id)

/-- What LAUNCH reads of its record, as a warp load at device scope, and the state after the read. -/
def taskLoad (fn : Nat) (addr : DWord) (n : Nat) (a : Actor) (s : State) : Except Res (List Byte × State) :=
  match taskRead fn addr n a s, s.runs (s.via a.lead) (Rights.r false) (s.draw 8) addr n with
  | .error r, _ => .error r
  | .ok _, .ok rs =>
    let g := s.agentOf a a.lead 4
    .ok (s.see g (s.draw 6) (.glob rs), s.readBy s g (s.draw 6) false (.glob rs))
  | .ok bs, .error _ => .ok (bs, s)

/-- LAUNCH on a record's address and a queue read at issue, and its poll; `ended` marks a wait that QDESTROY ends (19
R347). -/
def pollLaunch (h : Hdr) (addr queue ended : DWord) (a : Actor) (s : State) : Res :=
  let part := s.partOf a.lead
  let q := queue.toNat
  if 64 ≤ q then Res.cause cReserved
  else if ended != 0 then Res.cause cQueueDestroyed
  else
    match taskLoad 0 addr 128 a s with
    | .error r => r
    | .ok (bs, s1) =>
      match launchFault addr bs with
      | some d => .fault (FaultInfo.of cLaunchInvalid d)
      | none =>
        if (s.part part).destroying.contains q then Res.cause cQueueDestroyed
        else if s.queueFull part q then
          if h.x then Res.cause cQueueFull
          else .wait (s1.blockAll a (ownerQueue (part * 64 + q)) 8 (BitVec.ofNat 24 q)) .launchQueue [addr, queue]
        else
          let (t, id) := s1.launch part q addr (launchOf bs) false (fun r => r.knownBy (s.agentOf a a.lead 4))
          .ok (t.updWarp a.lead (fun x => x.writeS h.vd.toNat (BitVec.ofNat 32 id)))

/-- LAUNCH. -/
def opLaunch (h : Hdr) (u : Upper) (a : Actor) (s : State) : Res :=
  match u with
  | .x f => pollLaunch h (taskPair s a f.va) ((taskReg s a f.vb).zeroExtend 64) 0 a s
  | _ => .ok s

/-! Task control blocks (19 R343 to R345). -/

/-- The job of a warp's block. -/
def State.jobOf (s : State) (w : Nat) : Option Job :=
  (s.grids.find (s.blockOf w).grid).bind (fun g => s.job? g.part g.job)

/-- The index of a TCB in a job's table. -/
def tcbIndex (j : Job) (addr : DWord) : Option Nat :=
  let d := (addr - j.table).toNat
  if j.table != 0 && d % 64 = 0 && decide (d / 64 < 2 ^ 24) then some (d / 64) else none

/-- TCB-INVALID with a detail. -/
def tcbInvalid (d : Nat) : Res := .fault (FaultInfo.of cTcbInvalid d)

/-- The checks of SPAWN on a TCB's bytes (19 R343). -/
def spawnCheck (s : State) (a : Actor) (bs : List Byte) : Option Res :=
  let n := fieldAt bs 16 4
  let rec' := BitVec.ofNat 64 (fieldAt bs 8 8)
  if tcbState bs ≠ 0 then some (tcbInvalid 1)
  else if (6 < n && fieldAt bs 44 8 = 0) || (16 < n && fieldAt bs 52 8 ≠ 0) then some (tcbInvalid 2)
  else if rec' == 0 then none
  else
    match taskRead 1 rec' 128 a s with
    | .error (.ok t) => some (.ok t)
    | .error _ => some (tcbInvalid 3)
    | .ok rb => (launchFault rec' rb).map (fun d => .fault (FaultInfo.of cLaunchInvalid d))

/-- SPAWN (19 R343). -/
def opSpawn (h : Hdr) (u : Upper) (a : Actor) (s : State) : Res :=
  match u with
  | .x f =>
    let addr := taskPair s a f.va
    let q := (taskReg s a f.vb).toNat
    if 64 ≤ q then Res.cause cReserved
    else
      match s.jobOf a.lead with
      | none => tcbInvalid 1
      | some j =>
        match tcbIndex j addr with
        | none => tcbInvalid 1
        | some i =>
          match taskRead 1 addr 64 a s with
          | .error r => r
          | .ok bs =>
            match spawnCheck s a bs with
            | some r => r
            | none =>
              if j.cancel then Res.cause cSpawnCancelled
              else
                let t := (s.tell (fun r => r.knownBy (s.agentOf a a.lead 4)) [(tcbKey j.part j.id i, 1)]).listTcb j.part j.id i
                let t2 := if fieldAt bs 0 4 = 0 then t.runTasks j.part j.id q (2 ^ 32) [.ready i] else t
                if !t2.recordsFit j.part then .hold
                else .ok (t2.updWarp a.lead (fun x => x.writeS h.vd.toNat (BitVec.ofNat 32 i)))
  | _ => .ok s

/-- The writes that append a successor to a predecessor's slots or list; none where there is no room (19 R344). -/
def appendSuccessor (s : State) (part : Nat) (pred : DWord) (pb : List Byte) (i : Nat) : Option (List KvWrite) :=
  let n := fieldAt pb 16 4
  let list := BitVec.ofNat 64 (fieldAt pb 44 8)
  if fieldAt pb 52 8 ≠ 0 && 16 ≤ n then none
  else if n < 6 then some [w4 (atOff pred (20 + 4 * n)) i, w4 (atOff pred 16) (n + 1)]
  else if list == 0 then none
  else
    match s.kvRead (pagerVia part) list 8 with
    | .error _ => none
    | .ok hd =>
      let c := fieldAt hd 0 4
      if fieldAt hd 4 4 ≤ c then none
      else some [w4 (atOff list (8 + 4 * c)) i, w4 list (c + 1), w4 (atOff pred 16) (n + 1)]

/-- TDEP (19 R344). -/
def opTdep (h : Hdr) (u : Upper) (a : Actor) (s : State) : Res :=
  match u with
  | .x f =>
    let pred := taskPair s a f.va
    let succ := taskPair s a f.vb
    let result (t : State) (n : Nat) : Res := .ok (t.updWarp a.lead (fun x => x.writeS h.vd.toNat (BitVec.ofNat 32 n)))
    match s.jobOf a.lead with
    | none => tcbInvalid 1
    | some j =>
      match tcbIndex j pred, tcbIndex j succ with
      | some _, some i =>
        match taskRead 2 pred 64 a s, taskRead 2 succ 64 a s with
        | .error r, _ => r
        | _, .error r => r
        | .ok pb, .ok sb =>
          if tcbState pb = 3 then result s 1
          else if tcbState sb ≠ 0 then tcbInvalid 1
          else
            match appendSuccessor s j.part pred pb i with
            | none => Res.cause cTcbOverflow
            | some ws =>
              match s.kvCommit (s.agentOf a a.lead 4) [] (pagerVia j.part) (ws ++ [w4 succ ((fieldAt sb 0 4 + 1) % 2 ^ 32)]) with
              | .ok t => result t 0
              | .error e => kvRes e
      | _, _ => tcbInvalid 1
  | _ => .ok s

/-- A block-wide trap between instructions: every warp that has not exited and is not suspended, under one record that
names the lowest of them (19 R334, R345). -/
def State.trapBlock (s : State) (u : Nat) (c : Cause) : State :=
  let live := (s.warpsOfBlock u).filter (fun w => !(s.warp w).exited)
  let free := live.filter (fun w => (s.warp w).susp.isNone)
  let sorted := (List.range 32).flatMap (fun i => free.filter (fun w => (s.warp w).widx = i))
  match sorted.head? with
  | none => s
  | some w =>
    s.takeException
      { scope := .block, members := sorted.map (fun v => ⟨v, (s.warp v).active, 0⟩), lead := w, iword := 0, len := 0,
        rep := none, inst := none } (s.warp w).pc (FaultInfo.of c 0) false

/-- The TCBs of a job: those entered, and their successors, and theirs in turn; `fuel` bounds the number (19 R345, log
61). -/
def State.tcbsFrom (s : State) (j : Job) (fuel : Nat) (todo seen : List Nat) : List Nat :=
  match fuel, todo with
  | fuel + 1, i :: t =>
    if seen.contains i || decide (2 ^ 24 ≤ i) then s.tcbsFrom j fuel t seen
    else
      match s.tcbBytes j.part (tcbAddr j.table i) with
      | some bs => s.tcbsFrom j fuel (t ++ s.successors j.part bs) (seen ++ [i])
      | none => s.tcbsFrom j fuel t seen
  | _, _ => seen

/-- The sweep of a job's TCBs: states 0 and 1 become 4, and one that waits for room in its queue enters none (19 R345). -/
def State.sweepTcbs (s : State) (j : Job) : State :=
  ((s.tcbsFrom j (2 ^ 32) j.tcbs []).foldl (fun s i =>
    let a := tcbAddr j.table i
    match s.tcbBytes j.part a with
    | some bs => if tcbState bs ≤ 1 then s.tcbPut j.part (atOff a 4) 4 else s
    | none => s) s).updPart j.part (fun p => { p with readyTcbs := p.readyTcbs.filter (fun t => t.job ≠ j.id) })

/-- Grids of a job. -/
def State.gridsOf (s : State) (part job : Nat) : List Nat :=
  s.grids.keysWhere (fun _ g => g.part = part && g.job = job)

/-- A block traps with CANCELLED: at once, or as soon as its record can be held, and until then its core issues nothing (19
R345, 21 R353). -/
def State.killBlock (s : State) (u : Nat) : State :=
  let b := s.block u
  if s.canRecord (halfOfCore b.core) b.part then (s.updBlock u (fun b => { b with killReq := false })).trapBlock u cCancelled
  else (s.updBlock u (fun b => { b with killReq := true })).updCore b.core (fun c => { c with recWait := true })

/-- Blocks of a core that are still to trap do so. -/
def State.killPending (s : State) (core : Nat) : State :=
  (s.blocks.keysWhere (fun _ b => b.core = core && b.killReq)).foldl (fun s u => s.killBlock u) s

/-- TCANCEL on a live job (19 R345). -/
def State.cancelJob (s : State) (j : Job) (kill : Bool) (except : Nat) : State :=
  let gs := s.gridsOf j.part j.id
  let s1 := { s with jobs := s.jobs.put (jobKey j.part j.id) { j with cancel := true } }.sweepTcbs j
  let s2 := gs.foldl (fun s g => s.stopGrid g 1) s1
  let s3 := if kill then
      (s2.blocks.keysWhere (fun u b => gs.contains b.grid && u != except)).foldl (fun s u => s.killBlock u) s2
    else s2
  ((gs.foldl (fun s g => s.checkGrid g) s3).admitTcbs j.part).endJob j.part j.id

/-- TCANCEL. -/
def opTcancel (h : Hdr) (u : Upper) (a : Actor) (s : State) : Res :=
  match u with
  | .x f =>
    match s.job? (s.partOf a.lead) (taskReg s a f.va).toNat with
    | none => .ok s
    | some j =>
      let t := s.cancelJob j h.x (s.warp a.lead).blk
      if t.recordsFit j.part then .ok t else .hold
  | _ => .ok s

/-! Slices and regions (19 R334 to R338). -/

/-- A unit ordered before the block's grid cannot be placed for want of this core (19 R335). -/
def State.coreWanted (s : State) (u : Nat) : Bool :=
  let b := s.block u
  let part := b.part
  let regions := (s.part part).regions
  match s.grids.find b.grid with
  | none => false
  | some g =>
    (s.candidates part).any (fun e =>
      e.2.before g && s.fit e.2 regions [] == .none && (s.removeBlock u).fit e.2 regions [] != .none)

/-- A pre-emption within an instruction, once all its records can be held (21 R353). -/
def goneIf (part : Nat) (t : State) : Res := if t.recordsFit part then .gone t else .hold

/-- SLICEYIELD (19 R335). -/
def opSliceyield (a : Actor) (s : State) : Res :=
  let u := (s.warp a.lead).blk
  if s.preemptible u && s.coreWanted u then goneIf (s.block u).part (s.preemptAll u cPreempted 0)
  else .ok (s.updBlock u (fun b => { b with budget := b.lrec.budget.toNat }))

/-- REGION (19 R336), and a pre-emption that waited for it (R338). -/
def opRegion (a : Actor) (s : State) : Res :=
  let u := (s.warp a.lead).blk
  let b := s.block u
  if b.inRegion then Res.cause cRegionNested
  else
    let x := s.warp (s.firstMember a)
    let t := s.updBlock u (fun b =>
      { b with
        inRegion := true, carry := (List.range 8).map (fun i => x.readS (s.draw 0) i),
        regionPc := canon57 ((s.warp a.lead).pc + BitVec.ofNat 64 a.len) })
    match t.requested u with
    | some (v, reason) => if t.preemptible u then goneIf b.part (t.preemptAll v cPreempted reason) else .ok t
    | none => .ok t

/-- REGIONEND (19 R336, R337). -/
def opRegionend (a : Actor) (s : State) : Res :=
  let u := (s.warp a.lead).blk
  if (s.block u).inRegion then .ok (s.updBlock u (fun b => { b with inRegion := false, gap := 0 }))
  else .fault (FaultInfo.of cRegionNested 1)

/-! Stiles (19 R346, 22 R375, R376). -/

/-- A stile that a partition maps in a direction, or the cause that a STENQ or STDEQ meets. -/
def State.stileFor (s : State) (part number : Nat) (enq : Bool) : Except Cause Stile :=
  match s.stiles.find number with
  | none => .error cStileInvalid
  | some t =>
    if (if enq then t.producer else t.consumer) ≠ part then .error cStileInvalid
    else if (s.part t.producer).pstate = .resetting || (s.part t.consumer).pstate = .resetting then .error cStilePeer
    else .ok t

/-- Owner word of a stile (19 R346). -/
def ownerStile (n : Nat) : Word := ownerQueue (2 ^ 29 + n)

/-- Notes that the block has issued STENQ or STDEQ on a stile (19 R348). -/
def State.noteStile (s : State) (w number : Nat) (enq : Bool) : State :=
  s.updBlock (s.warp w).blk (fun b =>
    if b.stqUsed.contains (number, enq) then b else { b with stqUsed := b.stqUsed ++ [(number, enq)] })

/-- The cause that ends a stile's wait: that of a reset or a destruction (22 R375, R376), kept until its record can be held. -/
def endedBy (d : DWord) : Cause := d.extractLsb' 0 8

/-- STENQ on a stile and a slot read at issue, and its poll (19 R346); an eighteenth argument is the cause that ends it. -/
def pollStenq (args : List DWord) (a : Actor) (s : State) : Res :=
  let n := (args.headD 0).toNat
  let ended := args.getD 17 0
  if ended != 0 then Res.cause (endedBy ended)
  else
    match s.stileFor (s.partOf a.lead) n true with
    | .error c => Res.cause c
    | .ok t =>
      let s1 := s.noteStile a.lead n true
      if t.capacity ≤ t.slots.length then
        .wait (s1.blockAll a (ownerStile n) 7 (BitVec.ofNat 24 (n + 2 ^ 16))) .stenq args
      else
        let g := s.agentOf a a.lead 4
        .ok { s1.releaseBy g with
          stiles := s1.stiles.put n { t with
            slots := t.slots ++ [(args.tail.take 16).map (fun d => d.extractLsb' 0 32)],
            sent := t.sent ++ [⟨.access s.freeCtr g.key 0, s.origin g, true⟩] } }

/-- STENQ. -/
def opStenq (u : Upper) (a : Actor) (s : State) : Res :=
  match u with
  | .x f =>
    let x := s.warp a.lead
    pollStenq ((taskReg s a f.va).zeroExtend 64
      :: (List.range 16).map (fun i => (x.readS (s.draw 0) (f.vb.toNat + i)).zeroExtend 64)) a s
  | _ => .ok s

/-- STDEQ on a stile, and its poll (19 R346): an acquire at device scope. -/
def pollStdeq (h : Hdr) (number ended : DWord) (a : Actor) (s : State) : Res :=
  let n := number.toNat
  if ended != 0 then Res.cause (endedBy ended)
  else
    match s.stileFor (s.partOf a.lead) n false with
    | .error c => Res.cause c
    | .ok t =>
      let s1 := s.noteStile a.lead n false
      match t.slots with
      | [] => .wait (s1.blockAll a (ownerStile n) 7 (BitVec.ofNat 24 n)) .stdeq [number]
      | d :: r =>
        let u := { s1 with stiles := s1.stiles.put n { t with slots := r, sent := t.sent.tail } }
        .ok ((u.hear (s.agentOf a a.lead 4) true (t.sent.take 1)).updWarp a.lead (fun x =>
          ((List.range 16).zip d).foldl (fun (y : Warp) (e : Nat × Word) => y.writeS (h.vd.toNat + e.1) e.2) x))

/-- STDEQ. -/
def opStdeq (h : Hdr) (u : Upper) (a : Actor) (s : State) : Res :=
  match u with
  | .x f => pollStdeq h ((taskReg s a f.va).zeroExtend 64) 0 a s
  | _ => .ok s

/-- LAUNCH (19 R333). -/
def execLaunch (h : Hdr) (u : Upper) (s : State) : Host.Outcome State Fault Refusal := issue (.launch h u) (opLaunch h u) s
/-- SPAWN (19 R343). -/
def execSpawn (h : Hdr) (u : Upper) (s : State) : Host.Outcome State Fault Refusal := issue (.spawn h u) (opSpawn h u) s
/-- TDEP (19 R344). -/
def execTdep (h : Hdr) (u : Upper) (s : State) : Host.Outcome State Fault Refusal := issue (.tdep h u) (opTdep h u) s
/-- TCANCEL (19 R345). -/
def execTcancel (h : Hdr) (u : Upper) (s : State) : Host.Outcome State Fault Refusal := issue (.tcancel h u) (opTcancel h u) s
/-- SLICEYIELD (19 R335). -/
def execSliceyield (h : Hdr) (u : Upper) (s : State) : Host.Outcome State Fault Refusal :=
  issue (.sliceyield h u) opSliceyield s
/-- REGION (19 R336). -/
def execRegion (h : Hdr) (u : Upper) (s : State) : Host.Outcome State Fault Refusal := issue (.region h u) opRegion s
/-- REGIONEND (19 R336). -/
def execRegionend (h : Hdr) (u : Upper) (s : State) : Host.Outcome State Fault Refusal :=
  issue (.regionend h u) opRegionend s
/-- STENQ (19 R346). -/
def execStenq (h : Hdr) (u : Upper) (s : State) : Host.Outcome State Fault Refusal := issue (.stenq h u) (opStenq u) s
/-- STDEQ (19 R346). -/
def execStdeq (h : Hdr) (u : Upper) (s : State) : Host.Outcome State Fault Refusal := issue (.stdeq h u) (opStdeq h u) s

end Sys2Proof.Machine
end

