-- ==== Sys2Proof/Machine/Poll.lean ====
section
/-! DEFINITION. The polls of waits: what each waiting instruction's effect answers as its condition stands (12 R247, R248,
14 R261, R271, 12 R239 to R242, 19 R333, R346), and the blocked-state registers that follow it (12 R251). -/

namespace Sys2Proof.Machine

/-- The poll of a wait: its instruction's effect on the operands read at issue. -/
def pollOf (q : Wait) : Option (Actor → State → Res) :=
  let arg (i : Nat) : DWord := q.args.getD i 0
  match q.kind, q.instr with
  | .barrier, .barwait h _ => some (pollBarwait h (arg 0) (arg 1) (arg 2))
  | .flag, .waitf h _ => some (pollWaitf h (arg 0) (arg 1) (arg 2) (arg 3))
  | .timeline, .waitt _ u => some (pollWaitt u (arg 0))
  | .batchN, .bwaitn _ u => some (pollBwaitn u)
  | .batchS, .bwaits _ _ => some (pollBwaits (arg 0))
  | .bseal, .bseal h _ => some (pollBseal h)
  | .rel, .rel h _ => some (pollRel h (arg 0))
  | .release, .rel h _ => some (pollRelease h (arg 0))
  | .fleave, .fleave _ _ => some pollFleave
  | .fjoin, .fjoin h _ => some (pollFjoin h (arg 0))
  | .stdeq, .stdeq h _ => some (pollStdeq h (arg 0) (arg 1))
  | .stenq, .stenq _ _ => some (pollStenq q.args)
  | .launchQueue, .launch h _ => some (pollLaunch h (arg 0) (arg 1) (arg 2))
  | _, _ => none

/-- The wait of a warp that has neither exited nor been suspended, and of no suspended member. -/
def State.openWait (s : State) (w : Nat) : Option Wait :=
  match (s.warp w).wait with
  | none => none
  | some q =>
    if (s.warp w).exited || (s.liveMembers q.actor).any (fun m => (s.warp m.w).susp.isSome) then none else some q

/-- What the poll of an open wait of some kinds answers. -/
def State.pollWait (s : State) (kinds : List WaitKind) (w : Nat) : Option (Wait × Res) :=
  match s.openWait w with
  | none => none
  | some q => if kinds.contains q.kind then (pollOf q).map (fun op => (q, op q.actor s)) else none

/-- The blocked-state register of a waiting warp as its condition stands now (12 R251): the poll's own. -/
def State.refreshBlocked (s : State) (w : Nat) : State :=
  match (s.warp w).wait with
  | none => s
  | some q =>
    if (s.warp w).exited || !(q.kind == .barrier || q.kind == .timeline || q.kind == .batchN) then s
    else
      match ((pollOf q).map (fun op => op q.actor s) : Option Res) with
      | some (.wait t _ _) => s.updWarp w (fun x => { x with blocked := (t.warp w).blocked })
      | _ => s

/-- The blocked-state registers of some warps. -/
def State.refreshAll (s : State) (ws : List Nat) : State := ws.foldl (fun s w => s.refreshBlocked w) s

end Sys2Proof.Machine
end

