-- ==== Sys2Proof/Machine/Sys.lean ====
section
/-! DEFINITION. SYS (21 R360 to R366, 19 R347): the privileged instructions of firmware, and with them the return from an
exception. -/

namespace Sys2Proof.Machine

/-- CONTEXT-LOST. -/
def cContextLost : Cause := 0xBD

/-- The fields of a target word (21 R360). -/
structure TargetWord where
  mode : Nat
  block : Bool
  slot : Nat
  core : Nat
  deriving DecidableEq, Repr

/-- A target word read from a register; none where it breaks the limits of R360. Only ERET has a mode. -/
def targetWord (eret : Bool) (v : Word) : Option TargetWord :=
  let t : TargetWord :=
    ⟨(v.extractLsb' 16 2).toNat, v.getLsbD 15, (v.extractLsb' 8 7).toNat, (v.extractLsb' 0 8).toNat⟩
  if v.extractLsb' 18 14 != 0 || Config.coreCount ≤ t.core || (if eret then t.mode = 3 else t.mode ≠ 0) then none
  else some t

/-- The warp that a target word names. -/
def TargetWord.warp (t : TargetWord) : Nat := warpId t.core t.slot

/-- Completes with a result in s(vd). -/
def sysResult (h : Hdr) (a : Actor) (v : Word) (s : State) : Res :=
  .ok (s.updWarp a.lead (fun x => x.writeS h.vd.toNat v))

/-! OVFLD, TLBINV and SWRP (21 R361, R362, R366). -/

/-- An overflow table without a reserved entry or bit (03 R76). -/
def ovfValid (v : Word) : Bool :=
  v.extractLsb' 14 18 == 0 && (List.range 7).all (fun i => v.extractLsb' (2 * i) 2 != (3 : BitVec 2))

/-- OVFLD. -/
def opOvfld (h : Hdr) (u : Upper) (a : Actor) (s : State) : Res :=
  match u with
  | .x f =>
    let v := taskReg s a f.va
    let p := (taskReg s a f.vb).toNat
    if 8 ≤ p || !ovfValid v then Res.cause cReserved
    else sysResult h a (s.part p).ovf (s.updPart p (fun q => { q with ovf := v }))
  | _ => .ok s

/-- The page that holds an address, as the partition's tables stand: its base and size. -/
def State.pageAt (s : State) (part va : Nat) : Nat × Nat :=
  let p := s.part part
  match (walk s.mem [] [] p.share 0 part va 4 p.root.toNat).1 with
  | .ok l => (l.base, l.size)
  | .error _ => (va / 4096 * 4096, 4096)

/-- Whether a TLBINV leaves an entry standing: kind 00 takes every leaf that holds the address or a part of its page
(21 R362). -/
def keepsEntry (part kind va : Nat) (page : Nat × Nat) (e : TlbEntry) : Bool :=
  let meets (b n : Nat) : Bool := decide (e.base < b + n) && decide (b < e.base + e.size)
  !(e.part = part && (match kind with
    | 0 => pteLeaf e.entry && (meets va 1 || meets page.1 page.2)
    | 1 => true
    | _ => !pteLeaf e.entry))

/-- The table words on an address's path that translate its page, or did: the leaf with its group, and each word that is no
pointer, or was a leaf (21 R362). -/
def pathWords (m : List Host.Cell) (old : AMap Byte) (va level table : Nat) : List Nat :=
  let i := va / levelSpan level % 512
  let now := memWord64 m (table + 8 * i)
  let was : DWord := BitVec.ofNat 64 (leNat (oldBytes m old (table + 8 * i) 8))
  let n := max (coalCount (pteCoal now)) (coalCount (pteCoal was))
  let group := (List.range n).map (fun j => table + 8 * (i / n * n + j))
  match level with
  | 0 => group
  | l + 1 =>
    if pteV now && !pteLeaf now then
      (if pteLeaf was then group else []) ++ pathWords m old va l (pteFrame now)
    else group

/-- Whether a TLBINV leaves a byte of what the tables held standing: kind 00 covers the words of the page, 10 the pointers
(21 R362). -/
def keepsOld (m : List Host.Cell) (p : Part) (kind va a : Nat) : Bool :=
  let w := a / 8 * 8
  match kind with
  | 0 => !(pathWords m p.tables va 4 p.root.toNat).contains w
  | 1 => false
  | _ => pteLeaf (memWord64 m w) || pteLeaf (BitVec.ofNat 64 (leNat (oldBytes m p.tables w 8)))

/-- Drains in flight to global memory hold translations made before (16 R300). -/
def State.drainsInFlight (s : State) (part : Nat) : Bool :=
  s.warps.any (fun e => s.partOf e.1 = part && e.2.matrix.any (fun o => !o.done && o.fault.isNone
    && (match o.kind with | .drain d => d.runs.isSome | _ => false)))

/-- TLBINV: held until every access that an invalidated entry translated has been performed (21 R362). -/
def opTlbinv (u : Upper) (a : Actor) (s : State) : Res :=
  match u with
  | .x f =>
    let c := taskReg s a f.vb
    let va := vaBits (taskPair s a f.va)
    let part := (c.extractLsb' 0 3).toNat
    let kind := (c.extractLsb' 4 2).toNat
    if c.extractLsb' 6 26 != 0 || c.getLsbD 3 || kind = 3 then Res.cause cReserved
    else if s.drainsInFlight part then .hold
    else
      .ok ({ s with cores := s.cores.mapVal (fun _ k => { k with tlb := k.tlb.filter (keepsEntry part kind va (s.pageAt part va)) }) }.updPart
        part (fun p => { p with tables := List.filter (fun e => keepsOld s.mem p kind va e.1) p.tables }))
  | _ => .ok s

/-- A power of two in a range. -/
def powerIn (lo hi n : Nat) : Bool := decide (lo ≤ n) && decide (n ≤ hi) && decide (2 ^ n.log2 = n)

/-- A partition register written: its old value and the new settings; none out of range (21 R366). -/
def Part.swrp (p : Part) (index : Nat) (v : Word) : Option (Word × Part) :=
  let n := v.toNat
  let page := v.extractLsb' 0 12 == 0
  match index with
  | 0 => if page then some (p.root.extractLsb' 0 32, { p with root := p.root.extractLsb' 32 32 ++ v }) else none
  | 1 => some (p.root.extractLsb' 32 32, { p with root := v ++ p.root.extractLsb' 0 32 })
  | 2 => if 256 ≤ n && n ≤ 16384 && n % 256 = 0 then some (w32 p.fillerF, { p with fillerF := n }) else none
  | 3 => if p.fillerF + 1024 ≤ n && n ≤ 65536 then some (w32 p.throtT, { p with throtT := n }) else none
  | 4 => if 1 ≤ n && n ≤ 255 then some (w32 p.ageLim, { p with ageLim := n }) else none
  | 5 => if n ≤ 1680 then some (w32 p.pwrShare, { p with pwrShare := n }) else none
  | 6 => if page then some (p.frBase.extractLsb' 0 32, { p with frBase := p.frBase.extractLsb' 32 32 ++ v }) else none
  | 7 => some (p.frBase.extractLsb' 32 32, { p with frBase := v ++ p.frBase.extractLsb' 0 32 })
  | 8 => if powerIn 16 65536 n then some (w32 p.frSize, { p with frSize := n }) else none
  | 9 => if (p.frTail - v).toNat ≤ p.frSize then some (p.frHead, { p with frHead := v }) else none
  | 10 => if v == 0 then some (p.frTail, p) else none
  | _ => none

/-- SWRP: slots that free take the records held for them (21 R353). -/
def opSwrp (h : Hdr) (u : Upper) (a : Actor) (s : State) : Res :=
  match u with
  | .x f =>
    let sel := taskReg s a f.vb
    let part := (sel.extractLsb' 8 3).toNat
    if sel.extractLsb' 11 21 != 0 then Res.cause cReserved
    else
      match (s.part part).swrp (sel.extractLsb' 0 8).toNat (taskReg s a f.va) with
      | none => Res.cause cReserved
      | some (old, p) => sysResult h a old (((s.setPart part p).flushHeld part p.heldRecs.length).rehead part)
  | _ => .ok s

/-! Context images (21 R363). -/

/-- The version that an image's header gives (log 109). -/
def imageVersion : Nat := 1

/-- The length of a section of an image: firmware's own (21 R363). -/
def sectionBytes (k i : Nat) : Nat := 4 * (Config.freeNat k (1000 + i) % 2 ^ 20)

/-- The offset of a section, behind the header and the sections before it. -/
def sectionOffset (k i : Nat) : Nat := 256 + ((List.range i).map (sectionBytes k)).sum

/-- The header of an image: version, size and the offsets of the five sections (21 R363, log 109). -/
def Image.header (g : Image) : List Byte :=
  leBytes 4 imageVersion ++ leBytes 4 g.size ++ (List.range 5).flatMap (fun i => leBytes 4 (sectionOffset g.draw i))
    ++ List.replicate 228 0

/-- The bytes of an image: its header, and sections whose layout is firmware's own. -/
def Image.bytes (g : Image) : List Byte :=
  g.header ++ (List.range (g.size - 256)).map (fun i => Config.freeByte g.draw i)

/-- The image of a block as it stands. -/
def State.imageOf (s : State) (u : Nat) : Image :=
  let t := s.refreshAll (s.warpsOfBlock u)
  { size := sectionOffset (s.draw 9) 5, draw := s.draw 9, blk := t.block u,
    warps := List.filter (fun e => e.2.blk == u) t.warps, ops := List.filter (fun e => e.2.blk == u) t.ops }

/-- Every warp of a block that has not exited is suspended, and some warp is there. -/
def State.allSuspended (s : State) (u : Nat) : Bool :=
  !(s.warpsOfBlock u).isEmpty && (s.warpsOfBlock u).all (fun w => (s.warp w).exited || (s.warp w).susp.isSome)

/-- Work of a block that a CTXSAVE waits for: engine and matrix operations neither complete nor faulted. -/
def State.contextBusy (s : State) (u : Nat) : Bool :=
  s.ops.any (fun e => e.2.blk = u && e.2.fault.isNone)
    || (s.warpsOfBlock u).any (fun w => (s.warp w).matrix.any (fun o => !o.done && o.fault.isNone))

/-- The fault of an image's address: a warp access's (10 R210). -/
def imageFault (a : Actor) (kind : Nat) (x : DWord) : FaultInfo :=
  let c := agentCause 0 kind
  { FaultInfo.of c 0 with agent := 0, replay := replayable c, addr := x, lanes := a.recordLanes }

/-- CTXSAVE. -/
def opCtxsave (h : Hdr) (u : Upper) (a : Actor) (s : State) : Res :=
  match u with
  | .x f =>
    let addr := taskPair s a f.vb
    match targetWord false (taskReg s a f.va) with
    | none => Res.cause cReserved
    | some t =>
      let blk := (s.warp t.warp).blk
      if !t.block || (s.warps.find t.warp).isNone || !s.allSuspended blk then sysResult h a 0 s
      else if s.contextBusy blk then .hold
      else if addr.toNat % 4096 ≠ 0 then .fault { FaultInfo.of (agentCause 0 kMisaligned) 0 with agent := 0, addr := addr, lanes := a.recordLanes }
      else
        let g := s.imageOf blk
        match s.longRuns (s.via a.lead) (Rights.w false) (s.draw 8) (g.size / 4096 + 2) addr g.size with
        | .error (e, x) => .fault (imageFault a e x)
        | .ok rs =>
          let t := s.putBy (s.agentOf a a.lead 4) (s.draw 13) (Put.store false) (.glob rs) g.bytes
          sysResult h a (w32 g.size) { t with images := s.images ++ [g] }
  | _ => .ok s

/-- The bytes of an image's last section: its claim and allocation (21 R363). -/
def Image.claimBytes (g : Image) (bs : List Byte) : List Byte := bs.drop (sectionOffset g.draw 4)

/-- The saved image that stands at an address; or the detail of CONTEXT-LOST: 1 another version, 2 a size or offsets of no
image, 3 a claim that is not as it was saved, or is none (21 R363); or the fault of the address. What an edit inside another
section does is firmware's own: the context is loaded as it was saved, a DESIGN CHOICE (log 109). -/
def State.imageAt (s : State) (a : Actor) (addr : DWord) : Except FaultInfo Image :=
  let read (n : Nat) : Except FaultInfo (List Byte) :=
    match s.longRuns (s.via a.lead) (Rights.r false) (s.draw 8) (n / 4096 + 2) addr n with
    | .error (e, x) => .error (imageFault a e x)
    | .ok rs => .ok (s.runBytes rs)
  match read 256 with
  | .error f => .error f
  | .ok hd =>
    if fieldAt hd 0 4 ≠ imageVersion then .error (FaultInfo.of cContextLost 1)
    else
      let gs := s.images.filter (fun g => g.header == hd)
      match gs with
      | [] => .error (FaultInfo.of cContextLost 2)
      | g :: _ =>
        match read g.size with
        | .error f => .error f
        | .ok bs =>
          match (gs.find? (fun g => g.bytes == bs)) <|> (gs.find? (fun g => g.claimBytes g.bytes == g.claimBytes bs)) with
          | some g =>
            if vecLe g.blk.claim capacities && vecLe g.blk.alloc g.blk.claim then .ok g
            else .error (FaultInfo.of cContextLost 3)
          | none => .error (FaultInfo.of cContextLost 3)

/-- Slots on a core for an image's warps, each on its own quarter; none where a quarter has too few. -/
def State.imageSlots (s : State) (core : Nat) (g : Image) : Option (List (Nat × Nat)) :=
  let place (q : Nat) : List (Nat × Nat) :=
    ((g.warps.filter (fun e => e.2.quarter = q)).map (fun e => e.1)).zip (s.freeSlots core q)
  let all := (List.range 4).flatMap place
  if all.length = g.warps.length then some all else none

/-- An id of the saved context as the loaded one's: ids made before are shifted past all in use. -/
def State.newId (s : State) (n : Nat) : Nat := s.nextUid + n

/-- A saved warp as it is loaded. -/
def State.loadWarp (s : State) (u core slot : Nat) (id : Nat → Nat) (x : Warp) : Warp :=
  let actor (a : Actor) : Actor := { a with lead := id a.lead, members := a.members.map (fun m => { m with w := id m.w }) }
  { x with
    blk := u, core := core, slot := slot, tileq := x.tileq.map s.newId, openBatch := x.openBatch.map s.newId,
    sealedBatches := x.sealedBatches.map (fun b => { b with ops := b.ops.map s.newId }),
    matrix := x.matrix.map (fun o => { o with id := s.newId o.id }), matrixLog := x.matrixLog.map s.newId,
    loads := x.loads.map (fun q => { q with reads := [] }),
    wait := x.wait.map (fun q => { q with actor := actor q.actor }),
    susp := x.susp.map (fun q => { q with group := q.group.map id, op := q.op.map s.newId }) }

/-- One warp of an image joins a loaded block, in units of its quarter (02 R35). -/
def State.addWarp (s : State) (u core slot : Nat) (v : Nat) (x : Warp) : State :=
  { s with
    nextUid := s.nextUid + 2,
    warps := s.warps.put v { x with
      regUnits := pickUnits (s.epoch + 2) x.regEpochs.length (s.freeRegUnits core x.quarter),
      accUnits := pickUnits s.epoch x.accEpochs.length (s.freeAccUnits core x.quarter), blk := u, core := core, slot := slot } }

/-- A warp leads a wait on the Shepherd. -/
def Warp.leadsNeed (x : Warp) (w : Nat) : Bool :=
  x.wait.any (fun q => q.actor.lead = w && (q.kind == .shepherd || q.kind == .deferred || q.kind == .release))

/-- What a loaded warp waits for in the Shepherd is asked of the new core's: a request or a release in its queue, a deferred
request on its list where there is room (12 R232, 21 R363). -/
def State.reenter (s : State) (core w : Nat) : State :=
  let x := s.warp w
  match x.wait with
  | none => s
  | some q =>
    if !x.leadsNeed w then s
    else if q.kind == .release then s.enterNeed core (.release w)
    else
      let (cls, again) := match q.instr with
        | .acq h _ => (h.width.toNat, false)
        | .acqt h _ => (h.width.toNat, true)
        | _ => (0, false)
      let n := (q.args.headD 0).toNat
      let r : Request := ⟨w, x.blk, cls, n, s.grantVec q.actor cls n, again⟩
      if q.kind == .deferred && decide ((s.core core).deferred.length < Config.deferredMax) then
        (s.updCore core (fun c => { c with deferred := c.deferred ++ [r] })).renumber core
      else ((s.waitAll q.actor .shepherd q.instr q.args).blockAll q.actor 0 0 0).enterNeed core (.acq r)

/-- A loaded block: every warp suspended as saved (21 R363). -/
def State.loadImage (s : State) (core : Nat) (g : Image) (slots : List (Nat × Nat)) : State :=
  let u := 2 * s.nextUid
  let id (w : Nat) : Nat := ((slots.find? (fun e => e.1 = w)).map (fun e => warpId core e.2)).getD w
  let slotOf (w : Nat) : Nat := ((slots.find? (fun e => e.1 = w)).map (fun e => e.2)).getD 0
  let b := { g.blk with
    core := core, fold := if core / 8 = g.blk.core / 8 then g.blk.fold else none,
    scrUnits := pickUnits (2 * u + 1) g.blk.scrEpochs.length (s.freeScrUnits core),
    insts := g.blk.insts.map (fun e =>
      { e with arrivals := e.arrivals.map (fun m => { m with w := id m.w }), bell := e.bell.map (fun b => (id b.1, b.2)) }) }
  let op (o : EngOp) : EngOp :=
    { o with blk := u, w := id o.w, members := o.members.map (fun m => if m.2.1 = o.blk then (m.1, u, core) else m) }
  let t := { s with
    nextUid := u + 1, blocks := s.blocks.put u b,
    ops := g.ops.foldl (fun (m : AMap EngOp) (e : Nat × EngOp) => m.put (s.newId e.1) (op e.2)) s.ops }
  let t := g.warps.foldl (fun t e => t.addWarp u core (slotOf e.1) (id e.1) (s.loadWarp u core (slotOf e.1) id e.2)) t
  let idle := !(s.busyCores b.part).contains core
  let t := (match t.grids.find b.grid with
    | some x => t.setGrid b.grid { x with live := x.live + 1 }
    | none => t).updCore core (fun c =>
      { c with lastAdmit := some c.clock, lap := if idle then (s.level b.part).getD c.lap else c.lap })
  slots.foldl (fun t e => t.reenter core (warpId core e.2)) t

/-- CTXLOAD. -/
def opCtxload (h : Hdr) (u : Upper) (a : Actor) (s : State) : Res :=
  match u with
  | .x f =>
    match targetWord false (taskReg s a f.va) with
    | none => Res.cause cReserved
    | some t =>
      if t.block || t.slot ≠ 0 then Res.cause cReserved
      else
        match s.imageAt a (taskPair s a f.vb) with
        | .error f => .fault f
        | .ok g =>
          match s.imageSlots t.core g with
          | none => sysResult h a 2 s
          | some slots =>
            if s.pacing t.core || !s.admits t.core g.blk.claim g.blk.alloc then sysResult h a 1 s
            else if Config.requestQueue < (s.core t.core).reqs.length + (g.warps.filter (fun e => e.2.leadsNeed e.1)).length then
              .hold
            else
              sysResult h a 0 ((s.loadImage t.core g slots).tell (fun r => r.knownBy (s.agentOf a a.lead 4))
                (slots.map (fun e => (warpId t.core e.2, 0xFFFFFFFF))))
  | _ => .ok s

/-! QDESTROY (19 R347). -/

/-- Warps that wait in a LAUNCH to a queue. -/
def State.launchWaiters (s : State) (part queue : Nat) : List Nat :=
  s.warps.keysWhere (fun w x => s.partOf w = part
    && x.wait.any (fun q => q.kind == .launchQueue && (q.args.getD 1 0).toNat = queue))

/-- A waiting LAUNCH is ended by QDESTROY: it faults at once, or, where its warp is suspended or its record cannot be held,
as soon as it can (19 R347, 21 R353, R355). -/
def State.endLaunch (s : State) (w : Nat) : State :=
  let t := s.updWarp w (fun x => { x with wait := x.wait.map (fun q => { q with args := q.args.take 2 ++ [1] }) })
  match (s.warp w).wait with
  | some q => if (s.warp w).susp.isSome then t else (t.finishWait q (Res.cause cQueueDestroyed)).getD t
  | none => t

/-- A ready TCB that waits for room in a destroyed queue: its entry is dropped at once, and its grid completes with status 2
(19 R347, log 106). -/
def State.dropTcb (s : State) (part : Nat) (t : ReadyTcb) : State :=
  let key := tcbKey part t.job t.tcb
  let u := (s.updPart part (fun p => { p with readyTcbs := p.readyTcbs.erase t })).signalObject (agentFor part key) part t.job
    t.lrec.done 2
  ((u.runTasks part t.job t.queue (2 ^ 32) [.retire t.tcb t.taken key]).forget key).endJob part t.job

/-- The destruction of a queue: its waiters fault, and each entry's grid completes with status 2; it stays under destruction
while a grid is left that an earlier QDESTROY truncated (19 R347). -/
def State.destroyQueue (s : State) (part queue : Nat) : State :=
  let gs := (s.queueOf part queue).map (fun e => e.1)
  let s1 := s.updPart part (fun p => { p with destroying := p.destroying.filter (fun q => q ≠ queue) ++ [queue] })
  let s2 := (s1.launchWaiters part queue).foldl (fun s w => s.endLaunch w) s1
  let s3 := gs.foldl (fun s g => (s.stopGrid g 2)) s2
  let s4 := ((s3.part part).readyTcbs.filter (fun t => t.queue = queue)).foldl (fun s t => s.dropTcb part t) s3
  let s5 := gs.foldl (fun s g => s.checkGrid g) s4
  if s5.grids.any (fun e => e.2.part = part && e.2.queue = queue && e.2.dropStatus = 2) then s5
  else s5.updPart part (fun p => { p with destroying := p.destroying.filter (fun q => q ≠ queue) })

/-- QDESTROY. -/
def opQdestroy (u : Upper) (a : Actor) (s : State) : Res :=
  match u with
  | .x f =>
    let v := taskReg s a f.va
    if v.extractLsb' 9 23 != 0 then Res.cause cReserved
    else
      let part := (v.extractLsb' 6 3).toNat
      let t := s.destroyQueue part (v.extractLsb' 0 6).toNat
      if t.recordsFit part then .ok t else .hold
  | _ => .ok s

/-! HALT (21 R364). -/

/-- One warp is halted: at once between instructions, or where it waits in a rendezvous; else at the boundary after its
wait. -/
def State.haltNow (s : State) (w : Nat) : Bool :=
  match (s.warp w).wait with
  | none => true
  | some q => q.kind == .rendezvous

/-- HALT of some warps under one record, by scope; those in another wait halt when it ends. -/
def State.haltWarps (s : State) (sc : Scope) (ws : List Nat) : State :=
  let now := ws.filter s.haltNow
  let s1 := (ws.filter (fun w => !s.haltNow w)).foldl (fun s w => s.updWarp w (fun x => { x with haltReq := true })) s
  let sorted := (List.range 32).flatMap (fun i => now.filter (fun w => (s.warp w).widx = i))
  match sorted.head? with
  | none => s1
  | some w =>
    s1.takeException
      { scope := sc, members := sorted.map (fun v => ⟨v, (s.warp v).active, 0⟩), lead := w, iword := 0, len := 0,
        rep := none, inst := none } (s.warp w).pc (FaultInfo.of cDebugHalt 0) false

/-- HALT. -/
def opHalt (h : Hdr) (u : Upper) (a : Actor) (s : State) : Res :=
  match u with
  | .x f =>
    match targetWord false (taskReg s a f.va) with
    | none => Res.cause cReserved
    | some t =>
      let x := s.warp t.warp
      if (s.warps.find t.warp).isNone || x.exited then sysResult h a 2 s
      else
        let ws := if t.block then (s.warpsOfBlock x.blk).filter (fun w => !(s.warp w).exited) else [t.warp]
        let free := ws.filter (fun w => (s.warp w).susp.isNone)
        if free.isEmpty then sysResult h a 1 s
        else if !s.canRecord (halfOfCore x.core) (s.partOf t.warp) then .hold
        else sysResult h a 0 (s.haltWarps (if t.block then .block else .warp) free)
  | _ => .ok s

/-! ERET (21 R365). -/

/-- The slice counter and the count of R337 start again as their trap's block resumes (19 R334, R337). -/
def State.reload (s : State) (u : Nat) (c : Cause) : State :=
  if c = 0x80 then s.updBlock u (fun b => { b with budget := b.lrec.budget.toNat })
  else if c = 0x8A then s.updBlock u (fun b => { b with gap := 0 })
  else s

/-- Resumption of a suspended warp, with all that its record names: the service of its engine work, then the return, which
acquires what the handler has written (21 R365). -/
def State.resumeWarp (s : State) (w : Nat) (newPc : Option DWord) (p : Past → Bool) : State :=
  match (s.warp w).susp with
  | none => s
  | some u =>
    let x := s.warp w
    let s1 := (s.serve u).reload x.blk u.cause
    let s2 := match newPc with
      | some pc => s1.resumeAt w pc
      | none => s1.resumeAll w
    s2.tell p ((s.resumeGroup w).map (fun v => (v, (s.warp v).live)))

/-- The end of a warp by the system handler: no agent any more (21 R365). -/
def State.killWarp (s : State) (w : Nat) : State := (s.endWarp w).forget w

/-- The end of a block by the system handler (21 R365, 19 R326). -/
def State.endBlock (s : State) (u : Nat) : State :=
  let g := (s.block u).grid
  let t := (s.warpsOfBlock u).foldl (fun s w => if (s.warp w).exited then s else s.killWarp w) s
  match t.grids.find g with
  | some x => t.setGrid g { x with status := max x.status 3 }
  | none => t

/-- A warp takes part in a rendezvous instance: it waits in one, or its record is the instance's (21 R365). -/
def State.inInstance (s : State) (w : Nat) : Bool :=
  (s.warp w).susp.any (fun u => u.rendezvous) || (s.warp w).wait.any (fun q => q.kind == .rendezvous)

/-- The suspended warps that a target word names. -/
def State.targets (s : State) (t : TargetWord) : List Nat :=
  if t.block then (s.warpsOfBlock (s.warp t.warp).blk).filter (fun w => (s.warp w).susp.isSome) else [t.warp]

/-- The return of firmware to a target, with ERET's status (21 R365). -/
def State.eret (s : State) (t : TargetWord) (pc : DWord) (p : Past → Bool) : State × Nat :=
  let x := s.warp t.warp
  if (s.warps.find t.warp).isNone || x.susp.isNone then (s, 1)
  else if t.mode = 2 then
    ((if t.block then s.endBlock x.blk else s.killWarp t.warp).renumber x.core, 0)
  else if t.mode = 1 && (s.targets t).any (fun w => (s.resumeGroup w).any s.inInstance) then (s, 3)
  else ((s.targets t).foldl (fun s w => s.resumeWarp w (if t.mode = 1 then some pc else none) p) s, 0)

/-- ERET. A new PC that is odd or not canonical faults at the ERET, and control does not move (04 R91). -/
def opEret (h : Hdr) (u : Upper) (a : Actor) (s : State) : Res :=
  match u with
  | .x f =>
    match targetWord true (taskReg s a f.va) with
    | none => Res.cause cReserved
    | some t =>
      let pc := taskPair s a f.vb
      let (r, n) := s.eret t pc (fun r => r.knownBy (s.agentOf a a.lead 4))
      if t.mode = 1 && n = 0 && !codeAddr pc then Res.cause cBranchTarget else sysResult h a (w32 n) r
  | _ => .ok s

/-- OVFLD (21 R361). -/
def execOvfld (h : Hdr) (u : Upper) (s : State) : Host.Outcome State Fault Refusal := issue (.ovfld h u) (opOvfld h u) s
/-- TLBINV (21 R362). -/
def execTlbinv (h : Hdr) (u : Upper) (s : State) : Host.Outcome State Fault Refusal := issue (.tlbinv h u) (opTlbinv u) s
/-- CTXSAVE (21 R363). -/
def execCtxsave (h : Hdr) (u : Upper) (s : State) : Host.Outcome State Fault Refusal := issue (.ctxsave h u) (opCtxsave h u) s
/-- CTXLOAD (21 R363). -/
def execCtxload (h : Hdr) (u : Upper) (s : State) : Host.Outcome State Fault Refusal := issue (.ctxload h u) (opCtxload h u) s
/-- QDESTROY (19 R347). -/
def execQdestroy (h : Hdr) (u : Upper) (s : State) : Host.Outcome State Fault Refusal := issue (.qdestroy h u) (opQdestroy u) s
/-- SWRP (21 R366). -/
def execSwrp (h : Hdr) (u : Upper) (s : State) : Host.Outcome State Fault Refusal := issue (.swrp h u) (opSwrp h u) s
/-- HALT (21 R364). -/
def execHalt (h : Hdr) (u : Upper) (s : State) : Host.Outcome State Fault Refusal := issue (.halt h u) (opHalt h u) s
/-- ERET (21 R365). -/
def execEret (h : Hdr) (u : Upper) (s : State) : Host.Outcome State Fault Refusal := issue (.eret h u) (opEret h u) s

end Sys2Proof.Machine
end

