-- ==== Sys2Proof/Machine/Rendezvous.lean ====
section
/-! DEFINITION. What ends a wait: the operation of a complete rendezvous (06 R130, R133), the vectoring of a waiting warp
(R141), the end of a YIELD (07 R157), and the resumption of each wait whose condition has come to hold. -/

namespace Sys2Proof.Machine

/-- An event that cannot happen in this state. -/
def notEnabled (event : String) : Host.Outcome State Fault Refusal := .fault (.notEnabled event)

/-- An event that happens or cannot. -/
def happens (event : String) (r : Option State) : Host.Outcome State Fault Refusal :=
  match r with
  | some t => .next t
  | none => notEnabled event

/-- An event that happens under a condition. -/
def when' (event : String) (c : Bool) (t : State) : Host.Outcome State Fault Refusal :=
  if c then .next t else notEnabled event

/-- A half can hold one record more for the partition of a warp (21 R353). -/
def State.roomFor (s : State) (w : Nat) : Bool := s.canRecord (halfOfCore (s.warp w).core) (s.partOf w)

/-! Rendezvous. -/

/-- The operation of an instruction that has flock or block scope, once for its members. -/
def wideOp (i : Instr) : Option (Actor → State → Res) :=
  match i with
  | .nop _ _ => some opNop
  | .trap _ u => some (opTrap u)
  | .pcnt h u => some (opPcnt h u)
  | .pqry h u => some (opPqry h u)
  | .shfl h u => some (opShuffle false h u)
  | .shflx h u => some (opShuffle true h u)
  | .rfirst h u => some (opRfirst h u)
  | .red h u => some (opRed h u)
  | .redcmp h u => some (opRedcmp h u)
  | .scan h u => some (opScan h u)
  | .ld h u => some (opLoad 0 h u)
  | .st h u => some (opStore 1 h u)
  | .lds h u => some (opLoad 2 h u)
  | .sts h u => some (opStore 3 h u)
  | .rep f t => some (opRep f t)
  | .waitc _ u => some (opWaitc u)
  | .flagrd h u => some (opFlagrd h u)
  | .bararr h u => some (opBararr h u)
  | .barwait h u => some (opBarwait h u)
  | .mma h u => some (opMma h u)
  | .accz h u => some (opAccz h u)
  | .acq h u => some (opAcq false h u)
  | .acqt h u => some (opAcq true h u)
  | .rel h u => some (opRel h u)
  | .fjoin h u => some (opFjoin h u)
  | .fleave _ _ => some pollFleave
  | .flockset _ u => some (opFlockset u)
  | .sliceyield _ _ => some opSliceyield
  | .region _ _ => some opRegion
  | .regionend _ _ => some opRegionend
  | _ => none

/-- The bellwether of a complete rendezvous: the member that its completion named, or, where that one has exited since,
the arrived member of the lowest rank (06 R130). -/
def State.bellwether (s : State) (e : Inst) : Option Nat :=
  let live := s.liveMembers (s.instActor e 0)
  match e.bell with
  | none => none
  | some (w, _) => if live.any (fun m => m.w = w) then some w else live.head?.map (fun m => m.w)

/-- A complete rendezvous orders its members' accesses: what some member's path knew as it arrived, every member knows (02
R52). -/
def State.meet (s : State) (e : Inst) : State :=
  if s.past.isEmpty then s
  else
    let a := s.instActor e 0
    s.tell (fun r => a.members.any (fun m => r.knownBy (s.path m.w m.act 0)))
      ((s.liveMembers a).map (fun m => (m.w, m.act)))

/-- The operation of a complete rendezvous, on a clock after its completion on which the bellwether's core issues; none
where it cannot be issued, or is held (06 R130, R133, 07 R158, R161). -/
def State.completeInst (s : State) (blk id : Nat) : Option State :=
  match (s.block blk).insts.find? (fun e => e.id = id) with
  | none => none
  | some e =>
    match s.bellwether e with
    | none => none
    | some w =>
      let c := s.core (s.warp w).core
      if e.suspended || e.waiting || !s.noneSuspended e || e.bell.any (fun b => b.2 = c.clock) || s.stopped (s.warp w).core || c.heldBack
        || s.stalled (s.warp w).core (s.partOf w) then none
      else (wideOp e.instr).bind (fun op => (s.meet e).performInst e w (guarded e.instr op))

/-! Vectoring and YIELD. -/

/-- HANDLER_VECTOR (06 R141): between instructions nothing else may be due first. -/
def execHandlerVector (w : Nat) (s : State) : Host.Outcome State Fault Refusal :=
  let x := s.warp w
  when' "HANDLER_VECTOR" (s.mayVector w && s.roomFor w && (x.wait.isSome || (x.asyncTraps.isEmpty && !x.haltReq)))
    (s.vectorWarp w)

/-- YIELD_EXPIRY (07 R157): the 32 clocks have passed. -/
def execYieldExpiry (w : Nat) (s : State) : Host.Outcome State Fault Refusal :=
  when' "YIELD_EXPIRY" ((s.warp w).yieldLeft = 1) (s.updWarp w (fun x => { x with yieldLeft := 0 }))

/-! Resumptions. -/

/-- A wait of some kinds ends where its poll no longer waits: completion, or a fault that it meets. A REL whose waits are
over may wait once more, for its turn in the Shepherd's queue (12 R239, 01 R18). -/
def State.resumeWait (s : State) (kinds : List WaitKind) (w : Nat) : Option State :=
  match s.pollWait kinds w with
  | none => none
  | some (q, .wait t .release args) => if q.kind == .release then none else s.finishWait q (.wait t .release args)
  | some (_, .wait ..) => none
  | some (q, r) => s.finishWait q r

/-- BARWAIT_RESUME (12 R247). -/
def execBarwaitResume (w : Nat) (s : State) : Host.Outcome State Fault Refusal :=
  happens "BARWAIT_RESUME" (s.bump.resumeWait [.barrier] w)
/-- WAITF_RESUME (12 R248). -/
def execWaitfResume (w : Nat) (s : State) : Host.Outcome State Fault Refusal :=
  happens "WAITF_RESUME" (s.bump.resumeWait [.flag] w)
/-- WAITT_RESUME (14 R271). -/
def execWaittResume (w : Nat) (s : State) : Host.Outcome State Fault Refusal :=
  happens "WAITT_RESUME" (s.bump.resumeWait [.timeline] w)
/-- BATCH_WAIT_RESUME (14 R261). -/
def execBatchWaitResume (w : Nat) (s : State) : Host.Outcome State Fault Refusal :=
  happens "BATCH_WAIT_RESUME" (s.bump.resumeWait [.batchN, .batchS] w)
/-- BSEAL_RESUME (14 R261). -/
def execBsealResume (w : Nat) (s : State) : Host.Outcome State Fault Refusal :=
  happens "BSEAL_RESUME" (s.bump.resumeWait [.bseal] w)
/-- REL_RESUME (12 R239). -/
def execRelResume (w : Nat) (s : State) : Host.Outcome State Fault Refusal :=
  happens "REL_RESUME" (s.bump.resumeWait [.rel, .release] w)
/-- FLEAVE_RESUME (12 R242). -/
def execFleaveResume (w : Nat) (s : State) : Host.Outcome State Fault Refusal :=
  happens "FLEAVE_RESUME" (s.bump.resumeWait [.fleave] w)
/-- FJOIN_RESUME (12 R241). -/
def execFjoinResume (w : Nat) (s : State) : Host.Outcome State Fault Refusal :=
  happens "FJOIN_RESUME" (s.bump.resumeWait [.fjoin] w)
/-- STDEQ_RESUME (19 R346). -/
def execStdeqResume (w : Nat) (s : State) : Host.Outcome State Fault Refusal :=
  happens "STDEQ_RESUME" (s.bump.resumeWait [.stdeq] w)
/-- STENQ_RESUME (19 R346). -/
def execStenqResume (w : Nat) (s : State) : Host.Outcome State Fault Refusal :=
  happens "STENQ_RESUME" (s.bump.resumeWait [.stenq] w)
/-- LAUNCH_QUEUE_RESUME (19 R333). -/
def execLaunchQueueResume (w : Nat) (s : State) : Host.Outcome State Fault Refusal :=
  happens "LAUNCH_QUEUE_RESUME" (s.bump.resumeWait [.launchQueue] w)

/-- A WAITC or FLAGRD that waits passes its gate (10 R223, 08 R184). -/
def State.resumeGate (s : State) (w : Nat) : Option State :=
  match s.openWait w with
  | none => none
  | some q =>
    match q.kind, q.instr with
    | .waitc, .waitc _ u => s.passGate w q (gateWaitc u) (doneWaitc u)
    | .flagrd, .flagrd h u => s.passGate w q gateFlagrd (doneFlagrd h u)
    | _, _ => none

/-- WAITC_RESUME (10 R223). -/
def execWaitcResume (w : Nat) (s : State) : Host.Outcome State Fault Refusal :=
  if (s.warp w).wait.any (fun q => q.kind == .waitc) then happens "WAITC_RESUME" (s.bump.resumeGate w)
  else notEnabled "WAITC_RESUME"
/-- FLAGRD_RESUME (08 R184). -/
def execFlagrdResume (w : Nat) (s : State) : Host.Outcome State Fault Refusal :=
  if (s.warp w).wait.any (fun q => q.kind == .flagrd) then happens "FLAGRD_RESUME" (s.bump.resumeGate w)
  else notEnabled "FLAGRD_RESUME"

end Sys2Proof.Machine
end

