-- ==== Sys2Proof/Machine/Complete.lean ====
section
/-! DEFINITION. The completion of work in flight: loads and stores (10 R211 to R213, 02 R59), lane transfers and tile
operations (14 R257, R267 to R276), matrix operations (16 R293, R301, R302), and the KV unit and pager (17 R308, R314 to
R320). An engine's work is performed in the event that completes it. -/

namespace Sys2Proof.Machine

/-! Loads and stores. -/

/-- The content of the register cell that a load's cell names. -/
def Warp.cellNow (x : Warp) (c : LoadCell) : Word := if c.uniform then x.rawS c.reg else x.rawV c.reg c.lane

/-- Two loads write some bits of one register cell. -/
def LoadCell.meets (c d : LoadCell) : Bool :=
  c.uniform = d.uniform && c.reg = d.reg && c.lane = d.lane && (~~~c.keep &&& ~~~d.keep) != 0

/-- A cell takes its data, unless a later write stands (02 R59). The other loads into the cell may then leave either
value. -/
def Warp.landCell (x : Warp) (k : Nat) (c : LoadCell) : Warp :=
  let old := x.cellNow c
  let v := if c.clob && Config.freeBit k (vkey c.reg c.lane) then old else (old &&& c.keep) ||| c.value
  let loads := x.loads.map (fun q => { q with cells := q.cells.map (fun d => if c.meets d then { d with clob := true } else d) })
  if c.uniform then { x with s := x.s.put c.reg v, loads := loads }
  else { x with v := x.v.put (vkey c.reg c.lane) v, loads := loads, vPoison := x.vPoison.filter (fun r => r != c.reg) }

/-- A load or returning atomic completes, and the done ones leave the counter in order (10 R212). -/
def Warp.returnLoad (x : Warp) (k i : Nat) (q : PendLoad) : Warp :=
  let y := match q.bad with
    | some c => x.trapDue c (if q.atomic then 1 else 0) q.ipc q.iword
    | none => q.cells.foldl (fun x c => x.landCell k c) x
  { y with loads := ((List.range y.loads.length).zip y.loads).map (fun e =>
      if e.1 = i then { e.2 with done := true, cells := [], reads := [] } else e.2) |>.dropWhile (fun e => e.done) }

/-- What an access through a fold window meets whose target has left the fold while it was in flight: WINDOW-REVOKED, or
GATED-TARGET where its core has been gated since (02 R33). -/
def State.departed (s : State) (w : Nat) (folds : List (Nat × Nat)) : Option Cause :=
  let ms := s.foldMembers (s.warp w).blk
  (folds.find? (fun e => !ms.any (fun m => m.2 = e.1))).map (fun e =>
    agentCause 0 (if (s.core e.2).gated then kGated else kRevoked))

/-- The cells that an element's bytes fill. -/
def LateRead.cells (r : LateRead) (bs : List Byte) : List LoadCell :=
  match r.filling with
  | .elem uniform vd sext => (cellsOf 0 uniform vd r.lane (loadWords bs sext)).map (fun c => c.2)
  | .record code vd byte sel => recWords code vd byte sel r.lane bs

/-- A load's cells after it has read an element anew. -/
def PendLoad.reread (q : PendLoad) (new : List LoadCell) : PendLoad :=
  { q with cells := q.cells.map (fun c =>
      match new.find? (fun d => c.uniform = d.uniform && c.reg = d.reg && c.lane = d.lane) with
      | some d => { c with value := d.value }
      | none => c) }

/-- The agent of a read that a warp's load makes as it returns. -/
def State.lateAgent (s : State) (w : Nat) (r : LateRead) : Agent := { s.path w r.act r.scope with lane := r.lane }

/-- A load that returns reads memory as late as this, where it happens to: each element of those that it may still read
(02 R43, R53). -/
def State.readLate (s : State) (w : Nat) (q : PendLoad) : State × PendLoad :=
  (q.reads.filter (fun r => Config.freeBit (s.draw 1) r.lane)).foldl (fun e r =>
    let g := s.lateAgent w r
    (e.1.readBy s g (s.draw 6) false r.target, e.2.reread (r.cells (s.see g (s.draw 6) r.target)))) (s, q)

/-- A load returns (10 R213, R211, 02 R33, R59). -/
def State.loadReturns (s : State) (w idx : Nat) (q : PendLoad) : State :=
  let (t, q') := s.readLate w q
  t.updWarp w (fun x => x.returnLoad (s.draw 0) idx { q' with bad := q.bad <|> s.departed w q.folds })

/-- LOAD_DATA_RETURN (10 R213, R211, 02 R33, R53, R59). -/
def execLoadDataReturn (w idx : Nat) (s : State) : Host.Outcome State Fault Refusal :=
  match (s.warps.find w).bind (fun x => x.loads[idx]?) with
  | some q => when' "LOAD_DATA_RETURN" (!q.done) (s.bump.loadReturns w idx q)
  | none => notEnabled "LOAD_DATA_RETURN"

/-- A store, or an atomic with nr = 1, has been performed (10 R212, R211). -/
def Warp.performStore (x : Warp) (i : Nat) (q : PendStore) : Warp :=
  let y := match q.bad with
    | some c => x.trapDue c (if q.atomic then 1 else 0) q.ipc q.iword
    | none => x
  { y with stores := (setNth y.stores i { q with done := true }).dropWhile (fun e => e.done) }

/-- STORE_PERFORMED (10 R212, 02 R33). -/
def execStorePerformed (w idx : Nat) (s : State) : Host.Outcome State Fault Refusal :=
  match (s.warps.find w).bind (fun x => x.stores[idx]?) with
  | some q =>
    when' "STORE_PERFORMED" (!q.done) ((s.performed q.step w).updWarp w (fun x => x.performStore idx { q with bad := q.bad <|> s.departed w q.folds }))
  | none => notEnabled "STORE_PERFORMED"

/-! Engine operations. -/

/-- The translations of a range enter the core's TLB as an engine uses them (21 R359). -/
def State.fillRange (s : State) (v : Via) (a : DWord) (n : Nat) : State :=
  if v.fw || n = 0 then s
  else (List.range ((a.toNat % 4096 + n - 1) / 4096 + 1)).foldl (fun s i =>
    s.fillTlb v.core v.part (s.draw 8) (if i = 0 then a else BitVec.ofNat 64 ((a.toNat / 4096 + i) * 4096))) s

/-- The translations that an operation uses. -/
def State.fillOp (s : State) (o : EngOp) : State :=
  let v := s.engineVia o.blk
  let box (h : Handle) : State :=
    (List.range h.boxCount).foldl (fun s i => match h.cell (originOf o.regs) i with
      | some a => s.fillRange v a (fmtBytes h.fmt)
      | none => s) s
  match o.kind with
  | .lane _ src _ _ n _ => s.fillRange v src n
  | .tile _ h => box h
  | .wbload _ _ h => box h
  | _ => s

/-- Waits that failed work ends (14 R274). -/
def failableWaits : List WaitKind := [.timeline, .batchN, .batchS, .bseal, .rel]

/-- A warp whose wait needs failed work traps (14 R274). -/
def State.trapWaiter (s : State) (w : Nat) : State :=
  match s.openWait w with
  | none => s
  | some q =>
    if !failableWaits.contains q.kind then s
    else
      match ((pollOf q).map (fun op => op q.actor s) : Option Res) with
      | some (.fault f) => (s.finishWait q (.fault f)).getD s
      | _ => s

/-- The waiters of a block that need failed work trap, each with its own record (14 R274). -/
def State.trapWaiters (s : State) (blk : Nat) : State := (s.warpsOfBlock blk).foldl (fun s w => s.trapWaiter w) s

/-- The error of the KV unit, as an operation's. -/
def KvErr.pair (e : KvErr) : Cause × DWord := (e.cause, e.addr)

/-- The fault that an operation meets as it is performed; none where it meets none. -/
def State.meetsFault (s : State) (id : Nat) (o : EngOp) : Option (Cause × DWord) :=
  match s.perform id o with
  | some (.error e) => some e
  | some (.ok _) => none
  | none =>
    match o.kind with
    | .tile _ h => s.castFault id h o
    | .gather v g => (s.gatherFault id o v g).map KvErr.pair
    | .append => match s.runAppend id o with | .error e => some e.pair | .ok _ => none
    | .smerge => match s.runMerge id o with | .error e => some e | .ok _ => none
    | _ => none

/-- An operation at work: in its engine, and without a fault. -/
def State.working (s : State) (id : Nat) : Option EngOp :=
  match s.ops.find id with
  | some o => if (o.isLane || o.accepted) && o.fault.isNone then some o else none
  | none => none

/-- An operation that is performed in one step. -/
def State.performNow (s : State) (id : Nat) (lane : Bool) : Option State :=
  match s.working id with
  | some o =>
    if o.isLane != lane || s.opBehind id o then none
    else
      match s.perform id o with
      | some (.ok t) => some ((t.fillOp o).trapWaiters o.blk)
      | _ => none
  | none => none

/-- LCOPY_TRANSFER_DONE (14 R257, R259, 15 R279). -/
def execLcopyTransferDone (op : Nat) (s : State) : Host.Outcome State Fault Refusal :=
  happens "LCOPY_TRANSFER_DONE" (s.bump.performNow op true)

/-- The step of a KV operation comes after those of its warp's earlier operations on the descriptor (17 R307). -/
def State.kvTurn (s : State) (id : Nat) (o : EngOp) : Bool :=
  !(o.kvDue (regPair o.regs 0) && s.kvEarlier o.w id (regPair o.regs 0))

/-- An operation fails, and the waiters that need it trap (14 R274, R276). -/
def State.failNow (s : State) (id : Nat) : Option State :=
  match s.working id with
  | some o => if !s.kvTurn id o || o.counted then none else (s.meetsFault id o).map (fun e => ((s.opFails id o e).trapWaiters o.blk))
  | none => none

/-- ENGINE_ASYNC_FAULT (14 R274). -/
def execEngineAsyncFault (op : Nat) (s : State) : Host.Outcome State Fault Refusal :=
  happens "ENGINE_ASYNC_FAULT" (s.bump.failNow op)

/-- A served fault's operation is performed again (14 R276). -/
def State.replayNow (s : State) (id : Nat) : Option State :=
  match s.ops.find id with
  | some o => if o.fault.any (fun f => f.served) then some ((s.replayOp id o).trapWaiters o.blk) else none
  | none => none

/-- ENGINE_REPLAY (14 R276). -/
def execEngineReplay (op : Nat) (s : State) : Host.Outcome State Fault Refusal :=
  happens "ENGINE_REPLAY" (s.bump.replayNow op)

/-- Tile-engine slots in use on a core; a faulted operation has left its own (14 R267). -/
def State.slotsUsed (s : State) (core : Nat) : Nat :=
  (s.ops.filter (fun e => !e.2.isLane && e.2.accepted && e.2.fault.isNone && (s.block e.2.blk).core = core)).length

/-- The oldest operation on a warp's tile counter is accepted (14 R267). -/
def State.acceptTile (s : State) (w : Nat) : Option State :=
  match (s.warp w).tileq with
  | [] => none
  | id :: t =>
    match s.ops.find id with
    | none => none
    | some o =>
      if Config.tileSlots ≤ s.slotsUsed (s.warp w).core then none
      else some ((s.setOp id { o with accepted := true }).updWarp w (fun x => { x with tileq := t }))

/-- TILE_ACCEPT (14 R267). -/
def execTileAccept (w : Nat) (s : State) : Host.Outcome State Fault Refusal := happens "TILE_ACCEPT" (s.acceptTile w)

/-- An operation with nothing left to deliver completes: a TMCAST or a KVGATHER (14 R269, 17 R314). One that counts as
complete already is left by the members that have gone. -/
def State.delivered? (s : State) (o : EngOp) : Bool :=
  match o.kind with
  | .tile fn h =>
    fn = 3 && (castLeft o).all (fun r => o.counted && (match s.castTarget h o r with | .ok _ => false | .error _ => true))
  | .gather _ (some g) => (List.range g.pages.length).all (fun j => o.delivered.contains j)
  | _ => false

/-- TILE_OP_COMPLETE's next state (02 R55, 14 R268, R269). -/
def State.completeTile (s : State) (id : Nat) : Option State :=
  match s.working id with
  | some o =>
    if s.delivered? o then some ((s.finishOp id).trapWaiters o.blk) else s.performNow id false
  | none => none

/-- TILE_OP_COMPLETE (02 R55). -/
def execTileOpComplete (op : Nat) (s : State) : Host.Outcome State Fault Refusal :=
  happens "TILE_OP_COMPLETE" (s.bump.completeTile op)

/-- A later fault of an operation leaves the first one standing. -/
def State.failIf (s : State) (id : Nat) (blk : Nat) (e : Option (Cause × DWord)) : State :=
  match e, s.ops.find id with
  | some c, some o => if o.fault.isSome || o.counted then s else (s.failOp id c 0).trapWaiters blk
  | _, _ => s

/-- A delivery of a TMCAST, which goes on though another member's has faulted (14 R269). -/
def State.deliverCast (s : State) (id rank : Nat) : Option State :=
  match s.ops.find id with
  | none => none
  | some o =>
    match o.kind with
    | .tile fn h =>
      if fn ≠ 3 || !o.accepted || !(castLeft o).contains rank then none
      else
        match s.castBox id h o, s.castTarget h o rank with
        | .ok bs, .ok u =>
          let r := (if o.box.isNone then s.fillOp o else s).castDeliver id h o rank u bs
          some (r.1.failIf id o.blk r.2)
        | _, _ => none
    | _ => none

/-- TMCAST_DELIVERY (14 R269). -/
def execTmcastDelivery (op rank : Nat) (s : State) : Host.Outcome State Fault Refusal :=
  happens "TMCAST_DELIVERY" (s.bump.deliverCast op rank)

/-! Matrix operations. -/

/-- The fetch of an MMA's A operand, once the MMA is the warp's next instruction and its earlier scratch stores have been
performed (16 R293); again where the map has changed since (R284). -/
def State.fetchA (s : State) (w : Nat) : Option State :=
  let x := s.warp w
  if (s.warps.find w).isNone || x.exited || x.susp.isSome || x.stores.any (fun q => q.scratch && !q.done) then none
  else
    match s.decodeAt w with
    | .ok (.mma h (.x f)) =>
      let c := hdrTop h
      match (s.block x.blk).omaps.find f.va.toNat with
      | none => none
      | some m =>
        let ps := aPlaces c m (s.originWord w f)
        if m.fmt ≠ c || x.abuf.any (fun b => b.1 = m) || (s.firstBeyond x.blk ps).isSome then none
        else
          some (s.setWarp w { x with
            abuf := some (m, ps.any (fun r => (s.block x.blk).scrPoisoned r.1 r.2),
              ps.flatMap (fun r => s.see (s.path w x.active 0) (s.draw 6) (.scr x.blk r.1 r.2))) })
    | _ => none

/-- MMA_A_FETCH (16 R293). -/
def execMmaAFetch (w : Nat) (s : State) : Host.Outcome State Fault Refusal := happens "MMA_A_FETCH" (s.bump.fetchA w)

/-- The unit of a warp performs its next operation, if it is of the kind named and meets no fault (16 R301). -/
def State.matrixNow (s : State) (w : Nat) (p : MatKind → Bool) : Option State :=
  match (s.warp w).nextMatrix with
  | some (i, o) =>
    let behind := match o.kind with
      | .wbload k _ _ _ _ => s.slotBehind w k o.id
      | _ => false
    if p o.kind && !behind && (s.lateFault w o.kind).isNone then some (s.runMatrix w i o.kind) else none
  | none => none

/-- WBLOAD_FILL_DONE (16 R286). -/
def execWbloadFillDone (w : Nat) (s : State) : Host.Outcome State Fault Refusal :=
  happens "WBLOAD_FILL_DONE" (s.bump.matrixNow w (fun k => match k with | .wbload .. => true | _ => false))
/-- MMA_COMPLETE (16 R301). -/
def execMmaComplete (w : Nat) (s : State) : Host.Outcome State Fault Refusal :=
  happens "MMA_COMPLETE" (s.bump.matrixNow w (fun k => match k with | .mma .. => true | _ => false))
/-- ACCZ_ACCLD_COMPLETE (16 R301). -/
def execAcczAccldComplete (w : Nat) (s : State) : Host.Outcome State Fault Refusal :=
  happens "ACCZ_ACCLD_COMPLETE"
    (s.bump.matrixNow w (fun k => match k with | .accz .. => true | .accld .. => true | _ => false))
/-- ACCDRAIN_COMPLETE (16 R300). -/
def execAccdrainComplete (w : Nat) (s : State) : Host.Outcome State Fault Refusal :=
  happens "ACCDRAIN_COMPLETE" (s.bump.matrixNow w (fun k => match k with | .drain _ => true | _ => false))

/-- The next matrix operation of a warp meets a fault (16 R302). -/
def State.matrixFails (s : State) (w : Nat) : Option State :=
  match (s.warp w).nextMatrix with
  | some (i, o) => (s.lateFault w o.kind).map (fun f => s.failMatrix w i o f)
  | none => none

/-- MATRIX_LATE_FAULT (16 R302). -/
def execMatrixLateFault (w : Nat) (s : State) : Host.Outcome State Fault Refusal :=
  happens "MATRIX_LATE_FAULT" (s.bump.matrixFails w)

/-! The KV unit. -/

/-- The walk of a KVGATHER (17 R314). -/
def State.gatherWalkNow (s : State) (id : Nat) : Option State :=
  match s.working id with
  | some o =>
    match o.kind with
    | .gather v none => if !s.kvTurn id o then none else match s.gatherWalk o with | .ok (g, d, p) => some (s.walked id o g d p v) | .error _ => none
    | _ => none
  | none => none

/-- KVGATHER_WALK (17 R314). -/
def execKvgatherWalk (op : Nat) (s : State) : Host.Outcome State Fault Refusal :=
  happens "KVGATHER_WALK" (s.bump.gatherWalkNow op)

/-- The delivery of range page `j` of a gather at work. -/
def State.gatherDeliver (s : State) (id : Nat) (o : EngOp) (v : Bool) (g : Gather) (j : Nat) : Option State :=
  let s := s.reread id o g j
  match s.gatherPage id o g v j with
  | .ok (some rows) =>
    let r := s.deliverPage id o g j rows (s.gatherIndex o g j)
    some (r.1.failIf id o.blk r.2)
  | _ => none

/-- A page of the present pass (17 R314). -/
def State.pageNow (s : State) (id page : Nat) : Option State :=
  match s.working id with
  | some o =>
    match o.kind with
    | .gather v (some g) => if (presentLeft g o.delivered).contains page then s.gatherDeliver id o v g page else none
    | _ => none
  | none => none

/-- KV_PAGE_DELIVERY (17 R314). -/
def execKvPageDelivery (op page : Nat) (s : State) : Host.Outcome State Fault Refusal :=
  happens "KV_PAGE_DELIVERY" (s.bump.pageNow op page)

/-- The next absent page, after the present pass and once the pager has made it present (17 R314). -/
def State.returnNow (s : State) (id : Nat) : Option State :=
  match s.working id with
  | some o =>
    match o.kind with
    | .gather v (some g) =>
      match presentLeft g o.delivered, gatherAbsent g o.delivered with
      | [], j :: _ => if g.refused.contains j then none else s.gatherDeliver id o v g j
      | _, _ => none
    | _ => none
  | none => none

/-- KV_RETURN_PASS (17 R314). -/
def execKvReturnPass (op : Nat) (s : State) : Host.Outcome State Fault Refusal :=
  happens "KV_RETURN_PASS" (s.bump.returnNow op)

/-- The one step of a KVAPPEND (17 R316). -/
def State.appendNow (s : State) (id : Nat) : Option State :=
  match s.working id with
  | some o =>
    match o.kind with
    | .append => if !s.kvTurn id o then none else match s.runAppend id o with | .ok t => some ((t.finishOp id).trapWaiters o.blk) | .error _ => none
    | _ => none
  | none => none

/-- KVAPPEND_STEP (17 R316). -/
def execKvappendStep (op : Nat) (s : State) : Host.Outcome State Fault Refusal :=
  happens "KVAPPEND_STEP" (s.bump.appendNow op)

/-- An SMERGE merges every row and arrives at its barrier (17 R320). -/
def State.mergeNow (s : State) (id : Nat) : Option State :=
  match s.working id with
  | some o =>
    match o.kind with
    | .smerge =>
      match s.runMerge id o with
      | .ok (t, none) => some ((t.finishOp id).trapWaiters o.blk)
      | .ok (t, some e) => some (t.failIf id o.blk (some e))
      | .error _ => none
    | _ => none
  | none => none

/-- SMERGE_COMPLETE (17 R320). -/
def execSmergeComplete (op : Nat) (s : State) : Host.Outcome State Fault Refusal :=
  happens "SMERGE_COMPLETE" (s.bump.mergeNow op)

/-! The pager. -/

/-- A request leaves the pager. -/
def State.dropReq (s : State) (part : Nat) (r : PageReq) : State :=
  s.updPart part (fun p => { p with pageReqs := p.pageReqs.filter (fun q => q ≠ r) })

/-- The pager cannot supply a page: the gather learns it (17 R314). -/
def State.refusePage (s : State) (part : Nat) (r : PageReq) : State :=
  let t := s.dropReq part r
  match t.ops.find r.op with
  | some o =>
    match o.kind with
    | .gather v (some g) => t.setOp r.op { o with kind := .gather v (some { g with refused := r.page :: g.refused }) }
    | _ => t
  | none => t

/-- The move of a page-in, with room made for it where the free stack is empty; none where it cannot be made (17 R308). -/
def State.pageMove (s : State) (part : Nat) (r : PageReq) (w : Word) : Option State :=
  match s.kvPool (pagerVia part) r.pool with
  | .error _ => none
  | .ok p =>
    if entBad p.cap w then none
    else
      (if p.free = 0 then s.demoteOne part p else some s).bind (fun t =>
        match t.kvPool (pagerVia part) r.pool with
        | .error _ => none
        | .ok q => t.pageInMove part q r w)

/-- A page-in: a page that is present already needs no move (18 R322). -/
def State.pageIn (s : State) (part : Nat) (r : PageReq) : State :=
  match s.pagerWord part (entAddr r.node r.entry) with
  | .error _ => s.refusePage part r
  | .ok n =>
    if entPresent (w32 n) then s.dropReq part r
    else
      match s.pageMove part r (w32 n) with
      | some u => u.dropReq part r
      | none => s.refusePage part r

/-- A page-in request, by its place in the order posted, that is the oldest for its page entry (18 R322). -/
def Part.pageReq (p : Part) (req : Nat) : Option PageReq :=
  match p.pageReqs[req]? with
  | none => none
  | some r => if (p.pageReqs.take req).any (fun q => q.node == r.node && q.entry = r.entry) then none else some r

/-- PAGER_PAGE_IN (17 R308, 18 R322): the requests for one entry in the order posted. -/
def execPagerPageIn (part req : Nat) (s : State) : Host.Outcome State Fault Refusal :=
  happens "PAGER_PAGE_IN" (((s.part part).pageReq req).map (fun r => s.bump.pageIn part r))

/-- A demotion request leaves the pager. -/
def State.dropDemote (s : State) (part : Nat) (pool : DWord) : State :=
  s.updPart part (fun p => { p with demoteReqs := p.demoteReqs.filter (fun q => q ≠ pool) })

/-- One move of the pager for a pool's demotion request (17 R308). -/
def State.demoteStep (s : State) (part : Nat) (pool : DWord) : State :=
  match s.kvPool (pagerVia part) pool with
  | .error _ => s.dropDemote part pool
  | .ok p =>
    if p.mark ≤ p.free then s.dropDemote part pool
    else
      match s.demoteOne part p with
      | some t => if p.mark ≤ p.free + 1 then t.dropDemote part pool else t
      | none => s.dropDemote part pool

/-- PAGER_DEMOTION (17 R308): one move for one of the pools with a request. -/
def execPagerDemotion (part req : Nat) (s : State) : Host.Outcome State Fault Refusal :=
  happens "PAGER_DEMOTION" (((s.part part).demoteReqs[req]?).map (fun pool => s.bump.demoteStep part pool))

end Sys2Proof.Machine
end

