-- ==== Sys2Proof/Machine/Turn.lean ====
section
/-! DEFINITION. The turns of a string clock (01 R14, R27, 07 R157 to R162): in each clock the quarters take their issue
slots in order, each with the selection of R158, and then the clock ends. -/

namespace Sys2Proof.Machine

/-! Readiness (06 R127). -/

/-- The instructions that their own condition may hold at issue. -/
def holdable (i : Instr) : Option (State → Host.Outcome State Fault Refusal) :=
  match i with
  | .ld h u => some (execLd h u)
  | .st h u => some (execSt h u)
  | .lds h u => some (execLds h u)
  | .sts h u => some (execSts h u)
  | .ldf h u => some (execLdf h u)
  | .stf h u => some (execStf h u)
  | .atom h u => some (execAtom h u)
  | .atoms h u => some (execAtoms h u)
  | .ldrec h u => some (execLdrec h u)
  | .strec h u => some (execStrec h u)
  | .rep f t => some (execRep f t)
  | .lcopy h u => some (execLcopy h u)
  | .tload h u => some (execTload h u)
  | .tstore h u => some (execTstore h u)
  | .tmcast h u => some (execTmcast h u)
  | .tred h u => some (execTred h u)
  | .tpeer h u => some (execTpeer h u)
  | .wbload h u => some (execWbload h u)
  | .mma h u => some (execMma h u)
  | .accz h u => some (execAccz h u)
  | .accld h u => some (execAccld h u)
  | .accdrain h u => some (execAccdrain h u)
  | .kvwalk h u => some (execKvwalk h u)
  | .kvgather h u => some (execKvgather h u)
  | .kvappend h u => some (execKvappend h u)
  | .kvtrunc h u => some (execKvtrunc h u)
  | .kvfork h u => some (execKvfork h u)
  | .smerge h u => some (execSmerge h u)
  | .acq h u => some (execAcq h u)
  | .acqt h u => some (execAcqt h u)
  | .rel h u => some (execRel h u)
  | .tlbinv h u => some (execTlbinv h u)
  | .ctxsave h u => some (execCtxsave h u)
  | .spawn h u => some (execSpawn h u)
  | _ => none

/-- The state were no record held: by it an instruction is held for its own sake alone (21 R353). -/
def State.withoutHeld (s : State) : State := { s with parts := s.parts.mapVal (fun _ p => { p with heldRecs := [] }) }

/-- A warp's next instruction is held at issue: a full counter or queue, or a matrix operation that is not ready (10
R212, 14 R258, R267, 16 R293, 12 R232). One whose record cannot be held is not, and its core's issue stops (21 R353). -/
def State.heldNext (s : State) (w : Nat) : Bool :=
  match s.decodeAt w with
  | .error _ => false
  | .ok i =>
    match holdable i with
    | none => false
    | some f => match f { s.withoutHeld with focus := some w } with
      | .fault .notReady => true
      | _ => false

/-- The next instruction is an arrival at a rendezvous, which throttle does not hold back (07 R161, log 99). -/
def State.arrivalNext (s : State) (w : Nat) : Bool :=
  match s.decodeAt w with
  | .error _ => false
  | .ok i => scopeOfInstr i == .flock || scopeOfInstr i == .block

/-- Ready warps of a quarter, by slot. A warp in YIELD is ready only if no other is (07 R157). -/
def State.readyWarps (s : State) (core q : Nat) : List Nat :=
  let all := s.warps.keysWhere (fun w x => x.core = core && x.quarter = q && s.ready w && !s.heldNext w)
  let awake := all.filter (fun w => decide ((s.warp w).yieldLeft ≤ 1))
  if awake.isEmpty then all else awake

/-! Selection (07 R158). -/

/-- What a quarter's slot issues. -/
inductive Pick where
  | inst (blk id : Nat)
  | warp (w : Nat)
  | filler
  | nothing
  deriving DecidableEq, Repr

/-- A complete rendezvous whose operation a quarter may issue now. Of several, the one of the oldest block, then the one
that opened first (log 100). -/
def State.instDue (s : State) (core q : Nat) : Option (Nat × Nat) :=
  (s.blocks.filter (fun b => b.2.core = core)).findSome? (fun b =>
    (b.2.insts.find? (fun e =>
      (s.bellwether e).any (fun w => (s.warp w).quarter = q) && (s.completeInst b.1 e.id).isSome)).map (fun e => (b.1, e.id)))

/-- The candidate with the largest age, the lowest slot on a tie, among the overriding ones. -/
def State.overriding (s : State) (ready : List Nat) : Option Nat :=
  (ready.filter (fun w => decide (256 ≤ (s.warp w).age))).foldl (fun b w =>
    match b with
    | none => some w
    | some v => if better 0 (s.warp w).age w 0 (s.warp v).age v then some w else some v) none

/-- The candidate of the smallest distance, with that distance. -/
def State.nearest (s : State) (core q : Nat) (ready : List Nat) : Option (Nat × Nat) :=
  let c := s.core core
  ready.foldl (fun b w =>
    let d := c.distance q (s.nextCharge w)
    match b with
    | none => some (d, w)
    | some (e, v) => if better d (s.warp w).age w e (s.warp v).age v then some (d, w) else some (e, v)) none

/-- The selection of R158. On a clock that throttle holds back a quarter issues filler and arrivals alone (R161); a stopped
or stalled core issues nothing (R163, 21 R353). -/
def State.selection (s : State) (core q : Nat) : Pick :=
  let c := s.core core
  if c.gated || s.stopped core || s.stalled core (s.partOfCore core) then .nothing
  else
    let all := s.readyWarps core q
    let ready := if c.heldBack then all.filter s.arrivalNext else all
    match s.overriding ready with
    | some w => .warp w
    | none =>
      match s.instDue core q with
      | some (b, e) => .inst b e
      | none =>
        let fill := s.deficit core q
        match s.nearest core q ready with
        | some (d, w) => if fill && decide (c.distance q (8 * Config.warpWidth) < d) then .filler else .warp w
        | none => if fill then .filler else .nothing

/-- The slot of the quarter whose turn it is passes (01 R14), with the warps that are ready for it (07 R157). -/
def State.endTurn (s : State) (core : Nat) : State :=
  s.updCore core (fun c => { c with turn := c.turn + 1, readyNow := c.readyNow ++ s.readyWarps core c.turn })

/-- RENDEZVOUS_COMPLETE (06 R130, R133, R134, 07 R158): the operation takes the issue slot of its bellwether's quarter. -/
def execRendezvousComplete (blk inst : Nat) (s : State) : Host.Outcome State Fault Refusal :=
  let core := (s.block blk).core
  if s.selection core (s.core core).turn == .inst blk inst && decide ((s.core core).turn < 4) then
    happens "RENDEZVOUS_COMPLETE" ((s.endTurn core).bump.completeInst blk inst)
  else notEnabled "RENDEZVOUS_COMPLETE"

/-- FILLER_ISSUE (07 R158, R160): the quarter whose turn it is selects filler. -/
def execFillerIssue (core quarter : Nat) (s : State) : Host.Outcome State Fault Refusal :=
  when' "FILLER_ISSUE" (decide (quarter < 4) && (s.core core).turn = quarter && s.selection core quarter == .filler)
    ((s.fill core quarter).endTurn core)

/-! The end of a clock. -/

/-- A warp's counters over one string clock: its age where it was ready for its quarter's slot and another was picked, and its
YIELD (07 R157). -/
def Core.tickWarp (c : Core) (w : Nat) (x : Warp) : Warp :=
  { x with
    age := if !c.heldBack && c.readyNow.contains w && !c.issuedNow.contains w then x.age + 1 else x.age,
    yieldLeft := if 1 < x.yieldLeft then x.yieldLeft - 1 else x.yieldLeft }

/-- The string enters throttle at the end of this clock (07 R161), for the core as the clock leaves it. -/
def Core.enters (c : Core) (p : Part) : Bool :=
  !c.throttled && decide (p.throtT < imbalance c) && decide (16 ≤ c.fillRun.getD (firstAt (windows c) (listMin (windows c))) 0)
/-- The string leaves throttle at the end of this clock (07 R161). -/
def Core.leaves (c : Core) (p : Part) : Bool := c.throttled && decide (imbalance c ≤ p.throtT - p.fillerF)

/-- A core at the end of a string clock: the meter, then throttle (07 R155, R161). -/
def Core.endClock (c : Core) (p : Part) : Core :=
  let d := c.tick
  let d := { d with imbHist := d.imbHist.put (imbalance d) ((d.imbHist.find (imbalance d)).getD 0 + 1) }
  if d.enters p then d.enterThrottle else if d.leaves p then { d with throttled := false } else d

/-- One string clock of a core passes; a gated core's clock stands still (01 R27, 07 R167). Records that could not be held are
made now if they can be (21 R353). -/
def State.clockTick (s : State) (core : Nat) : State :=
  let c := s.core core
  let part := s.partOfCore core
  if c.gated then s
  else
    ({ s with
      warps := s.warps.mapVal (fun w x => if x.core = core then c.tickWarp w x else x),
      blocks := s.blocks.mapVal (fun _ b => if b.core = core then b.tick else b) }.setCore core
        { c.endClock (s.part part) with recWait := s.stalled core part }).killPending core

/-! Turns. -/

/-- A core would make a record that cannot be held: its issue stops until slots free (21 R353). -/
def State.stall (s : State) (core : Nat) : State := s.updCore core (fun c => { c with recWait := true })

/-- A move of a warp that may make a record: made while the record can be held, else the core's issue stops (21 R353). -/
def State.withRoom (s t : State) (w : Nat) : State :=
  let p := s.partOf w
  if s.canRecord (halfOfCore (s.warp w).core) p || (t.part p).heldRecs == (s.part p).heldRecs then t
  else s.stall (s.warp w).core

/-- What is due at a warp's boundary, as a move. -/
def State.boundaryMove (s : State) (w : Nat) : State := s.withRoom (s.takeBoundary w) w
/-- A warp that vectors, as a move. -/
def State.vectorMove (s : State) (w : Nat) : State := s.withRoom (s.vectorWarp w) w

/-- What a core's next turn is. -/
inductive Turn where
  /-- Something is due at the boundary before a warp's next instruction. -/
  | boundary (w : Nat)
  /-- A warp vectors to its handler. -/
  | vector (w : Nat)
  /-- The slot of the quarter. -/
  | slot (p : Pick)
  /-- The clock ends. -/
  | clock
  deriving DecidableEq, Repr

/-- The next turn of a core: what is due for a warp of the quarter comes before the quarter's slot. -/
def State.nextTurn (s : State) (core : Nat) : Turn :=
  let q := (s.core core).turn
  let mine (w : Nat) (x : Warp) : Bool := x.core = core && x.quarter = q && !s.stalled core (s.partOf w)
  if 4 ≤ q then .clock
  else
    match (s.warps.keysWhere (fun w x => mine w x && s.boundaryDue w && s.canIssue w)).head? with
    | some w => .boundary w
    | none =>
      match (s.warps.keysWhere (fun w x => mine w x && s.mayVector w)).head? with
      | some w => .vector w
      | none => .slot (s.selection core q)

end Sys2Proof.Machine
end

