-- ==== Sys2Proof/Machine/Device.lean ====
section
/-! DEFINITION. Events of the device itself: the meter and throttle (07 R160 to R163), power and heat (R165 to R167),
the Shepherd's test, placement, retirement and pre-emption (12, 19), the wait-for detector (12 R252 to R254), and the
errors of storage (21 R357). -/

namespace Sys2Proof.Machine

/-! Strings. -/

/-- A step whose records can all be held (21 R353). -/
def State.ifFits (t : State) (part : Nat) : Option State := if t.recordsFit part then some t else none

/-- The settings of the partition that holds a core. -/
def State.settingsOf (s : State) (core : Nat) : Part := s.part (s.partOfCore core)

/-- THROTTLE_ENTRY (07 R161): the end of a clock at which the string enters throttle. -/
def execThrottleEntry (core : Nat) (s : State) : Host.Outcome State Fault Refusal :=
  let c := s.core core
  when' "THROTTLE_ENTRY" (!c.gated && decide (4 ≤ c.turn) && c.tick.enters (s.settingsOf core)) (s.clockTick core)

/-- THROTTLE_EXIT (07 R161): the end of a clock at which the string leaves throttle. -/
def execThrottleExit (core : Nat) (s : State) : Host.Outcome State Fault Refusal :=
  let c := s.core core
  when' "THROTTLE_EXIT" (!c.gated && decide (4 ≤ c.turn) && c.tick.leaves (s.settingsOf core)) (s.clockTick core)

/-- Partition that holds a core's region. -/
def State.ownerOf (s : State) (core : Nat) : Option Nat :=
  (s.parts.find? (fun e => e.2.configured && e.2.regions.contains (core / 8))).map (fun e => e.1)

/-- A hardware event stops the issue of a core: every warp that has not exited and is not suspended is suspended, under
one record that names none (07 R163, 21 R355). None where no record can be made. -/
def State.stopCore (s : State) (core : Nat) (cause : Cause) : Option State :=
  match s.ownerOf core with
  | none => none
  | some part =>
    let half := halfOfCore core
    if !s.canRecord half part then none
    else
      let ws := s.warps.keysWhere (fun _ x => x.core = core && !x.exited && x.susp.isNone)
      let n := s.recordNo part
      let f := { FaultInfo.of cause 0 with async := true }
      let r : FaultRec :=
        { cause := cause, detail := 0, agent := 0xFF, flags := 1, slot := 0xFFFF, flock := 0,
          count := BitVec.ofNat 8 ws.length, pc := 0, iword := 0, addr := 0, laneMask := 0, memberMask := 0,
          timeline := 0, ipc := 0, wpc := 0 }
      some (((s.postRecord half part r (some n)).suspendAll ws f 1 false n).updCore core
        (fun c => { c with stops := c.stops ++ [n] }))

/-- STRING_BALANCE_LOST (07 R163). -/
def execStringBalanceLost (core quarter : Nat) (s : State) : Host.Outcome State Fault Refusal :=
  happens "STRING_BALANCE_LOST" (if quarter < 4 then s.stopCore core (BitVec.ofNat 8 (0xA8 + quarter)) else none)
/-- THERMAL_TRIP (07 R166). -/
def execThermalTrip (core : Nat) (s : State) : Host.Outcome State Fault Refusal :=
  happens "THERMAL_TRIP" (s.stopCore core 0xAC)
/-- RAIL_UNDERVOLT (21 R356). -/
def execRailUndervolt (core : Nat) (s : State) : Host.Outcome State Fault Refusal :=
  happens "RAIL_UNDERVOLT" (s.stopCore core 0xAE)
/-- RAIL_OVERCURRENT (21 R356). -/
def execRailOvercurrent (core : Nat) (s : State) : Host.Outcome State Fault Refusal :=
  happens "RAIL_OVERCURRENT" (s.stopCore core 0xAF)

/-! Power and heat. -/

/-- POWER_INTERVAL (07 R165): for the next interval every string of the partition is throttled, or none is. -/
def execPowerInterval (part energyW creditW : Nat) (s : State) : Host.Outcome State Fault Refusal :=
  let p := s.part part
  let over' := decide (p.pwrShare + creditW < energyW)
  when' "POWER_INTERVAL" p.configured
    ((p.regions.flatMap coresOf).foldl (fun s c => s.updCore c (fun k => k.setPwr over')) s)

/-- OPERATING_POINT_CHANGE (01 R26). -/
def execOperatingPointChange (mhz : Nat) (s : State) : Host.Outcome State Fault Refusal :=
  when' "OPERATING_POINT_CHANGE" (mhz = 760 || mhz = 850 || mhz = 940 || mhz = 1020) { s with mhz := mhz }

/-- A warp waits at a barrier object outside its own scratch (07 R166). -/
def Warp.farBarrier (x : Warp) : Bool :=
  x.wait.any (fun q => q.kind == .barrier && (match q.instr with
    | .barwait h _ => syncSpace h.width != .scratch
    | _ => false))

/-- A block that a migration may choose (07 R166); none of a stopped grid, which would not be placed again (log 107).
Every operation of the tile engine or the KV unit bars it (log 123). -/
def State.migratable (s : State) (u : Nat) : Bool :=
  let b := s.block u
  b.lrec.preempt && b.inRegion && b.fold.isNone && (s.grids.find b.grid).all (fun g => !g.stopped)
    && !s.ops.any (fun e => e.2.blk = u && !e.2.isLane) && (s.warpsOfBlock u).all (fun w =>
      (s.warp w).openBatch.isEmpty && (s.outstanding w).isEmpty && !(s.warp w).farBarrier)

/-- The migration's choice of block on a core, with what must leave with it. Of several that qualify the spec leaves the
choice open: DESIGN CHOICE, the one placed first (log 111). -/
def State.migrant (s : State) (core : Nat) : Option Nat :=
  (s.blocks.keysWhere (fun _ b => b.core = core)).find? (fun u => (s.gangOf u).all s.migratable)

/-- THERMAL_MIGRATE (07 R166): a block restarts elsewhere, or the string is throttled. -/
def execThermalMigrate (core : Nat) (s : State) : Host.Outcome State Fault Refusal :=
  match s.migrant core with
  | some u =>
    happens "THERMAL_MIGRATE" ((s.bump.preemptAll u 0xAD 0).ifFits (s.block u).part)
  | none => .next (s.updCore core Core.enterThrottle)

/-- CORE_UNGATE (07 R167). -/
def execCoreUngate (core : Nat) (s : State) : Host.Outcome State Fault Refusal :=
  when' "CORE_UNGATE" (s.core core).gated (s.updCore core (fun c => { c with gated := false, entries := 0 }))

/-- A gated core: storage and windowed charges are lost, the clock stands (07 R167, R162). -/
def Core.gate (c : Core) : Core :=
  { Core.reset with gated := true, clock := c.clock, lap := c.lap, pwr := c.pwr, stops := c.stops, lastAdmit := c.lastAdmit, tlb := c.tlb,
                    imbHist := c.imbHist }

/-- POWER_GATE (07 R167): only without a resident block; what the core's storage holds afterwards is unspecified. -/
def execPowerGate (core : Nat) (s : State) : Host.Outcome State Fault Refusal :=
  when' "POWER_GATE" (!(s.core core).gated && !s.blocks.any (fun e => e.2.core = core))
    { s.updCore core (fun c => { c.gate with spareEpochs := [(wholeWindow, s.epoch)] }) with nextUid := s.nextUid + 1 }

/-! The Shepherd and the dispatcher. -/

/-- SHEPHERD_TEST (12 R229, R230, R232, 01 R18). -/
def execShepherdTest (core : Nat) (s : State) : Host.Outcome State Fault Refusal :=
  happens "SHEPHERD_TEST" (s.bump.shepherdTest core)

/-- A block may retire: every warp has exited, and nothing is left that retirement waits for (12 R239). -/
def State.mayRetire (s : State) (u : Nat) : Bool :=
  (s.blocks.find u).isSome && (s.warpsOfBlock u).all (fun w => (s.warp w).exited) && !s.retireBusy u

/-- One step of a retirement: a record of failed work; or its place in the Shepherd's queue; or, in its turn there, the
retirement itself (12 R239, 01 R18). -/
def State.retireStep (s : State) (u : Nat) : Option State :=
  let b := s.block u
  if !s.mayRetire u then none
  else
    match s.orphan u with
    | some t => t.ifFits b.part
    | none =>
      if s.headNeed b.core == some (.retire u) then ((s.popNeed b.core).retireBlock u).ifFits b.part
      else if s.releaseFirst b.core && !s.decisionDue b.part then (s.retireBlock u).ifFits b.part
      else if s.requestsFull b.core || (s.core b.core).reqs.any (fun e => e.need == .retire u) then none
      else some (s.enterNeed b.core (.retire u))

/-- BLOCK_RETIRE (12 R239). -/
def execBlockRetire (blk : Nat) (s : State) : Host.Outcome State Fault Refusal :=
  happens "BLOCK_RETIRE" (s.bump.retireStep blk)

/-- The dispatcher's admission request stands in the queue of a core. -/
def State.admitting (s : State) (part core : Nat) : Bool := (s.core core).reqs.any (fun e => e.need == .admission part)

/-- The partition's cores stand between two string clocks, and every event of the dispatcher's has come on one that has passed,
so that a decision follows all the events of a clock, whichever core made them (20 R351). -/
def State.settled (s : State) (part : Nat) : Bool :=
  match s.level part with
  | none => true
  | some n =>
    (s.busyCores part).all (fun c => (s.core c).lap = n && (s.core c).turn = 0)
      && (s.part part).events.all (fun m => decide (m < n))

/-- The dispatcher's admission request enters the queue of a core, behind what came on the clock that has passed (01 R18). -/
def State.markAdmission (s : State) (part core : Nat) : State :=
  s.updCore core (fun c =>
    { c with reqs := s.insertEntry ⟨(c.clock + 2 ^ 64 - 1) % 2 ^ 64, .admission part⟩ c.reqs })

/-- The admission requests of a partition leave the queues. -/
def State.unmark (s : State) (part : Nat) : State :=
  ((s.part part).regions.flatMap coresOf).foldl (fun s c => s.updCore c (fun k =>
    { k with reqs := k.reqs.filter (fun e => e.need != .admission part) })) s

/-- A step of the dispatcher: its admission requests enter the queues; or, once they head them, the decision (01 R18, 19
R329, 20 R351). -/
def State.decideStep (s : State) (part : Nat) : Option State :=
  let cs := s.busyCores part
  let rest := cs.filter (fun c => !s.admitting part c)
  if !s.settled part then none
  else if !rest.isEmpty then
    if rest.any s.requestsFull then none else some (rest.foldl (fun s c => s.markAdmission part c) s)
  else if cs.all (fun c => s.headNeed c == some (.admission part)) then
    some (((s.unmark part).updPart part (fun p => { p with events := none })).dispatch part)
  else none

/-- DISPATCH_DECISION (19 R329). -/
def execDispatchDecision (part : Nat) (s : State) : Host.Outcome State Fault Refusal :=
  happens "DISPATCH_DECISION"
    (if (s.part part).configured && (s.part part).pstate == .running then s.bump.decideStep part else none)

/-- DEADLINE_MISSED (19 R331, R387), once for an entry. -/
def execDeadlineMissed (grid : Nat) (s : State) : Host.Outcome State Fault Refusal :=
  match s.grids.find grid with
  | none => notEnabled "DEADLINE_MISSED"
  | some g =>
    when' "DEADLINE_MISSED"
      (g.lrec.deadline != 0 && decide (g.lrec.deadline.toNat < s.timeNs) && !g.nextUnit.isEmpty && !g.stopped
        && !g.deadlineSent && s.canRecord (s.sliceHalf g.part) g.part)
      ((s.taskRecord g.part 0x88 0xFF 0 g.recAddr g.job g.queue 0).setGrid grid { g with deadlineSent := true })

/-- Some warp of a block is neither exited nor suspended. -/
def State.someFree (s : State) (u : Nat) : Bool :=
  (s.warpsOfBlock u).any (fun w => !(s.warp w).exited && (s.warp w).susp.isNone)

/-- A block-wide trap can be taken. -/
def State.canTrap (s : State) (u : Nat) : Bool :=
  (s.blocks.find u).isSome && s.someFree u && s.canRecord (halfOfCore (s.block u).core) (s.block u).part

/-- BUDGET_EXHAUSTED (19 R334). -/
def execBudgetExhausted (blk : Nat) (s : State) : Host.Outcome State Fault Refusal :=
  let b := s.block blk
  when' "BUDGET_EXHAUSTED" (s.canTrap blk && b.lrec.budget != 0 && !b.lrec.persistent && b.budget = 0)
    (s.trapBlock blk 0x80)

/-- REGION_GAP (19 R337). -/
def execRegionGap (blk : Nat) (s : State) : Host.Outcome State Fault Refusal :=
  let b := s.block blk
  when' "REGION_GAP"
    (s.canTrap blk && b.lrec.preempt && b.lrec.gap != 0 && !b.inRegion && decide (256 * b.lrec.gap < b.gap))
    (s.trapBlock blk 0x8A)

/-- A request of the system handler to pre-empt a block: at once where that may be, else at the REGION of it or of its gang
after which it may (19 R338). None where the block is none that may ever be pre-empted. -/
def State.preemptRequest (s : State) (u reason : Nat) : Option State :=
  if s.preemptible u then (s.preemptAll u cPreempted reason).ifFits (s.block u).part
  else if (s.gangOf u).all (fun v => (s.block v).lrec.preempt && !(s.block v).lrec.persistent) then
    some (s.updBlock u (fun b => { b with preemptReq := some reason }))
  else none

/-- PREEMPT (19 R338, R339): reason 1 is the system handler's; the others arise within other steps. -/
def execPreempt (blk reason : Nat) (s : State) : Host.Outcome State Fault Refusal :=
  happens "PREEMPT" (if (s.blocks.find blk).isSome && reason = 1 then s.bump.preemptRequest blk reason else none)

/-! The wait-for detector. -/

/-- A node of the wait-for graph (12 R252, 19 R348). -/
inductive WaitNode where
  | block (u : Nat)
  | stile (n : Nat)
  | queue (q : Nat)
  deriving DecidableEq, Repr

/-- Warps of a block that have not exited. -/
def State.openWarps (s : State) (u : Nat) : List Nat := (s.warpsOfBlock u).filter (fun w => !(s.warp w).exited)

/-- A block whose every warp waits with a kind, and none is suspended (12 R252). -/
def State.stuckBlock (s : State) (u : Nat) : Bool :=
  !(s.openWarps u).isEmpty
    && (s.openWarps u).all (fun w => (s.warp w).wait.isSome && (s.warp w).blocked.kind != 0 && (s.warp w).susp.isNone)

/-- Resident blocks with an allocation in a component of a deferred request (12 R252). -/
def State.grantEdges (s : State) (w : Nat) : List (Option WaitNode) :=
  let core := (s.warp w).core
  let lead := ((s.warp w).wait.map (fun q => q.actor.lead)).getD w
  match (s.core core).deferred.find? (fun r => r.w = lead) with
  | none => [none]
  | some r =>
    (s.blocks.keysWhere (fun _ b => b.core = core
      && (List.range 10).any (fun i => r.vec.getD i 0 != 0 && b.alloc.getD i 0 != 0))).map (fun u => some (.block u))

/-- Out-edges of a waiting warp: none stands for a node that is not stuck (12 R250, R252). -/
def State.warpEdges (s : State) (w : Nat) : List (Option WaitNode) :=
  let x := s.warp w
  let o := x.blocked.owner
  let id := (o.extractLsb' 0 30).toNat
  if x.blocked.kind == 3 then s.grantEdges w
  else
    match (o.extractLsb' 30 2).toNat with
    | 1 =>
      match s.blocks.keysWhere (fun _ b => b.grid = (s.blockOf w).grid && b.index % 2 ^ 30 = id) with
      | u :: _ => [some (.block u)]
      | [] => [none]
    | 2 => if id / 2 ^ 29 = 1 then [some (.stile (id % 2 ^ 16))] else [some (.queue id)]
    | _ => [none]

/-- Blocks of a partition that have issued one side's instruction on a stile (19 R348). -/
def State.stileUsers (s : State) (part n : Nat) (enq : Bool) : List (Option WaitNode) :=
  (s.blocks.keysWhere (fun _ b => b.part = part && b.stqUsed.contains (n, enq))).map (fun u => some (.block u))

/-- Waiters of a kind on a stile. -/
def State.stileWaits (s : State) (n : Nat) (k : WaitKind) : List Nat :=
  s.warps.keysWhere (fun _ x => x.wait.any (fun q => q.kind == k && (q.args.headD 0).toNat = n))

/-- Out-edges of a node (12 R252, 19 R348). -/
def State.nodeEdges (s : State) (part : Nat) (n : WaitNode) : List (Option WaitNode) :=
  match n with
  | .block u => (s.openWarps u).flatMap s.warpEdges
  | .stile k => s.stileUsers part k (((s.stiles.find k).map (fun t => t.slots.isEmpty)).getD true)
  | .queue q =>
    (s.blocks.keysWhere (fun _ b => b.part = part
      && (s.grids.find b.grid).any (fun g => part * 64 + g.queue = q))).map (fun u => some (.block u))

/-- The stuck nodes of a partition, by block, stile and launch queue. -/
def State.stuckNodes (s : State) (part : Nat) : List WaitNode :=
  (s.blocks.keysWhere (fun u b => b.part = part && s.stuckBlock u)).map WaitNode.block
  ++ ((s.stiles.filter (fun e =>
      (e.2.slots.isEmpty && !(s.stileWaits e.1 .stdeq).isEmpty)
        || (decide (e.2.capacity ≤ e.2.slots.length) && !(s.stileWaits e.1 .stenq).isEmpty))).map
        (fun e => WaitNode.stile e.1)).filter (fun n => !(s.nodeEdges part n).isEmpty)
  ++ (((List.range 64).filter (fun q => s.queueFull part q)).map (fun q => WaitNode.queue (part * 64 + q))).filter
      (fun n => !(s.nodeEdges part n).isEmpty)

/-- The set D of R252; `fuel` bounds the rounds. -/
def State.deadlocked (s : State) (part fuel : Nat) (d : List WaitNode) : List WaitNode :=
  match fuel with
  | 0 => d
  | fuel + 1 =>
    let e := d.filter (fun n => (s.nodeEdges part n).all (fun o => o.any (fun m => d.contains m)))
    if e.length = d.length then d else s.deadlocked part fuel e

/-- Nodes of D that edges reach from some nodes. -/
def State.reach (s : State) (part fuel : Nat) (d from' : List WaitNode) : List WaitNode :=
  match fuel with
  | 0 => from'
  | fuel + 1 =>
    let next := d.filter (fun m => !from'.contains m && from'.any (fun n => (s.nodeEdges part n).contains (some m)))
    if next.isEmpty then from' else s.reach part fuel d (from' ++ next)

/-- A node of D lies on a cycle (12 R252). -/
def State.onCycle (s : State) (part : Nat) (d : List WaitNode) (n : WaitNode) : Bool :=
  let first := d.filter (fun m => (s.nodeEdges part n).contains (some m))
  (s.reach part d.length d first).contains n

/-- What a block looks like at a sample (12 R253). -/
def State.sampleOf (s : State) (u : Nat) : Sample :=
  ⟨u, (s.openWarps u).map (fun w => (w, (s.warp w).pc, (s.warp w).blocked.kind))⟩

/-- The address of an awaited object. -/
def Wait.objectAddr (q : Wait) : DWord := if q.kind == .barrier || q.kind == .flag then q.args.headD 0 else 0

/-- The lowest-numbered waiting warp of a block with an edge into D. -/
def State.reportWarp (s : State) (d : List WaitNode) (u : Nat) : Option Nat :=
  ((List.range 32).flatMap (fun i => (s.openWarps u).filter (fun w => (s.warp w).widx = i))).find? (fun w =>
    (s.warpEdges w).any (fun o => o.any (fun m => d.contains m)))

/-- A block's wait-for trap (12 R253), with instruction word 0 and the PC as issuing PC (log 128). `cyc` says whether it
lies on a cycle. -/
def State.trapDeadlock (s : State) (d : List WaitNode) (u : Nat) (cyc : Bool) : State :=
  match s.reportWarp d u with
  | none => s
  | some w =>
    let x := s.warp w
    let kind := x.blocked.kind.toNat
    let f := { FaultInfo.of (BitVec.ofNat 8 (0x90 + (kind - 1) + (if cyc then 0 else 8))) kind with
      addr := (x.wait.map (fun q => q.objectAddr)).getD 0, wpc := x.pc }
    let ws := s.openWarps u
    let t := (ws.foldl (fun s v => s.updWarp v (fun y => y.unwait)) s).updBlock u (fun b => { b with insts := [] })
    (t.updCore x.core (fun c =>
      { c with
        deferred := c.deferred.filter (fun r => r.blk != u),
        reqs := c.reqs.filter (fun r => !s.needOf u r.need || r.need == .retire u) })).takeException
      { scope := .block, members := ws.map (fun v => ⟨v, (s.warp v).active, 0⟩), lead := w, iword := 0, len := 0,
        rep := none, inst := none } x.pc f false

/-- The records and traps of a sample: the summary, and each block's (12 R253, R254). -/
def State.trapHits (s : State) (part : Nat) (d : List WaitNode) (hit : List Nat) : State :=
  let cyc := hit.filter (fun u => s.onCycle part d (.block u))
  let n := hit.length
  let head := s.deviceRecord (s.sliceHalf part) part
    { FaultInfo.of 0x81 (min n 255) with
      async := true, addr := BitVec.ofNat 64 s.timeNs, lanes := BitVec.ofNat 32 cyc.length,
      timeline := BitVec.ofNat 64 (part % 8), members := some (BitVec.ofNat 32 (n - cyc.length)) }
  let r := hit.foldl (fun s u => s.trapDeadlock d u (cyc.contains u)) head
  ((hit.map (fun u => (s.block u).core)).eraseDups).foldl (fun s c => s.retest c) r

/-- A sample of a partition's detector (12 R253, R254), on the owners as they stand (R251). Where not all the records can be
held it traps as many blocks as can be, and the next sample meets the others (21 R353, log 112). -/
def State.sample (s : State) (part : Nat) : State :=
  let s := s.refreshAll (s.warps.keysWhere (fun w _ => s.partOf w = part))
  let nodes := s.stuckNodes part
  let d := s.deadlocked part nodes.length nodes
  let us := d.filterMap (fun n => match n with | .block u => some u | _ => none)
  let now := us.map s.sampleOf
  let hit := (now.filter (fun e => (s.part part).prevD.contains e)).map (fun e => e.blk)
  let t := s.updPart part (fun p => { p with prevD := now })
  ((List.range hit.length).findSome? (fun i => (t.trapHits part d (hit.take (hit.length - i))).ifFits part)).getD t

/-- WAIT_FOR_SAMPLE (12 R253). -/
def execWaitForSample (part : Nat) (s : State) : Host.Outcome State Fault Refusal :=
  when' "WAIT_FOR_SAMPLE"
    (s.part part).configured (s.bump.sample part)

/-! Errors of storage. -/

/-- The poison of an uncorrectable error: array, physical address, core, the warp or block that holds it, and the
register, tile, slot or sector (21 R357). In HBM the data of the whole 128-byte line is lost. -/
def State.poisonStorage (s : State) (array phys core w item : Nat) : State :=
  match array with
  | 0 => s.updWarp w (fun x => { x with vPoison := x.vPoison ++ [item] })
  | 1 => s.updWarp w (fun x => { x with accPoison := x.accPoison ++ [item] })
  | 2 => s.updWarp w (fun x => { x with wPoison := x.wPoison ++ [item] })
  | 3 => s.updBlock w (fun b => { b with scrPoison := b.scrPoison ++ [item] })
  | 6 => s.updCore core (fun c => { c with tlb := [] })
  | 7 =>
    let a := phys / 128 * 128
    let t := s.putNow (.glob [(.phys a, 128)]) ((List.range 128).map (fun i => Config.freeByte (s.draw 12) (a + i)))
    { t with poison := s.poison.filter (fun k => k != phys / 32) ++ [phys / 32] }
  | _ => { s with poison := s.poison ++ [phys / 32] }

/-- Whether the storage named is there: a warp's register, tile or slot, a block's sector, a core. -/
def State.storageThere (s : State) (array core w item : Nat) : Bool :=
  let x := s.warp w
  match array with
  | 0 => (s.warps.find w).isSome && x.core = core && decide (item < 8 * x.regEpochs.length)
  | 1 => (s.warps.find w).isSome && x.core = core && decide (item < 8 * x.accEpochs.length)
  | 2 => (s.warps.find w).isSome && x.core = core && decide (item < x.accEpochs.length)
  | 3 => (s.blocks.find w).isSome && (s.block w).core = core && decide (item < 256 * (s.block w).scrEpochs.length)
  | _ => decide (array < 8) && decide (core < Config.coreCount)

/-- The partition to which an error's record goes: that of the core, or for L2 and HBM that whose share holds the frame. -/
def State.errorOwner (s : State) (array phys core : Nat) : Option Nat :=
  if array = 5 || array = 7 then
    (s.parts.find? (fun e => e.2.configured && shareHolds e.2.share (phys / 32 * 32) 32)).map (fun e => e.1)
  else s.ownerOf core

/-- ECC_UNCORRECTABLE's next state: the poison, and one record, which for a register file, accumulator or weight buffer
names and suspends the warp (21 R357). -/
def State.eccError (s : State) (array phys core w item : Nat) : Option State :=
  if !s.storageThere array core w item then none
  else
    let t := s.poisonStorage array phys core w item
    match s.errorOwner array phys core with
    | none => some t
    | some part =>
      if !s.canRecord (halfOfCore core) part then none
      else
        let f := { FaultInfo.of (BitVec.ofNat 8 (0xA0 + array)) 0 with async := true, addr := BitVec.ofNat 64 phys }
        let x := s.warp w
        if array ≤ 2 && !x.exited && x.susp.isNone then
          some (t.takeException
            { scope := .warp, members := [⟨w, x.active, 0⟩], lead := w, iword := 0, len := 0, rep := none, inst := none }
            x.pc f false)
        else some (t.deviceRecord (halfOfCore core) part f)

/-- ECC_UNCORRECTABLE (21 R357). -/
def execEccUncorrectable (array : Nat) (phys : BitVec 64) (core w item : Nat) (s : State) :
    Host.Outcome State Fault Refusal :=
  happens "ECC_UNCORRECTABLE" (s.bump.eccError array phys.toNat core w item)

/-- SOFT_ERROR_CORRECT (21 R357): counted for telemetry. -/
def execSoftErrorCorrect (array : Nat) (s : State) : Host.Outcome State Fault Refusal :=
  when' "SOFT_ERROR_CORRECT" (decide (array < 8))
    { s with softErrors := s.softErrors.put array ((s.softErrors.find array).getD 0 + 1) }

end Sys2Proof.Machine
end

