-- ==== Sys2Proof/Machine/Digest.lean ====
section
/-! DEFINITION. The check of a firmware image (22 R382): SHA-512, and the RSA signature over the digest. -/

namespace Sys2Proof.Machine

/-! SHA-512. The rule names the function and does not print it: PRESUMED, FIPS 180-4 (log 86). -/

/-- The constants of the rounds. -/
def shaRound : List (BitVec 64) :=
  [0x428a2f98d728ae22, 0x7137449123ef65cd, 0xb5c0fbcfec4d3b2f, 0xe9b5dba58189dbbc,
   0x3956c25bf348b538, 0x59f111f1b605d019, 0x923f82a4af194f9b, 0xab1c5ed5da6d8118]
  ++ [0xd807aa98a3030242, 0x12835b0145706fbe, 0x243185be4ee4b28c, 0x550c7dc3d5ffb4e2,
   0x72be5d74f27b896f, 0x80deb1fe3b1696b1, 0x9bdc06a725c71235, 0xc19bf174cf692694]
  ++ [0xe49b69c19ef14ad2, 0xefbe4786384f25e3, 0x0fc19dc68b8cd5b5, 0x240ca1cc77ac9c65,
   0x2de92c6f592b0275, 0x4a7484aa6ea6e483, 0x5cb0a9dcbd41fbd4, 0x76f988da831153b5]
  ++ [0x983e5152ee66dfab, 0xa831c66d2db43210, 0xb00327c898fb213f, 0xbf597fc7beef0ee4,
   0xc6e00bf33da88fc2, 0xd5a79147930aa725, 0x06ca6351e003826f, 0x142929670a0e6e70]
  ++ [0x27b70a8546d22ffc, 0x2e1b21385c26c926, 0x4d2c6dfc5ac42aed, 0x53380d139d95b3df,
   0x650a73548baf63de, 0x766a0abb3c77b2a8, 0x81c2c92e47edaee6, 0x92722c851482353b]
  ++ [0xa2bfe8a14cf10364, 0xa81a664bbc423001, 0xc24b8b70d0f89791, 0xc76c51a30654be30,
   0xd192e819d6ef5218, 0xd69906245565a910, 0xf40e35855771202a, 0x106aa07032bbd1b8]
  ++ [0x19a4c116b8d2d0c8, 0x1e376c085141ab53, 0x2748774cdf8eeb99, 0x34b0bcb5e19b48a8,
   0x391c0cb3c5c95a63, 0x4ed8aa4ae3418acb, 0x5b9cca4f7763e373, 0x682e6ff3d6b2b8a3]
  ++ [0x748f82ee5defb2fc, 0x78a5636f43172f60, 0x84c87814a1f0ab72, 0x8cc702081a6439ec,
   0x90befffa23631e28, 0xa4506cebde82bde9, 0xbef9a3f7b2c67915, 0xc67178f2e372532b]
  ++ [0xca273eceea26619c, 0xd186b8c721c0c207, 0xeada7dd6cde0eb1e, 0xf57d4f7fee6ed178,
   0x06f067aa72176fba, 0x0a637dc5a2c898a6, 0x113f9804bef90dae, 0x1b710b35131c471b]
  ++ [0x28db77f523047d84, 0x32caab7b40c72493, 0x3c9ebe0a15c9bebc, 0x431d67c49c100d4c,
   0x4cc5d4becb3e42b6, 0x597f299cfc657e2a, 0x5fcb6fab3ad6faec, 0x6c44198c4a475817]

/-- The initial hash value. -/
def shaStart : List (BitVec 64) :=
  [0x6a09e667f3bcc908, 0xbb67ae8584caa73b, 0x3c6ef372fe94f82b, 0xa54ff53a5f1d36f1,
   0x510e527fade682d1, 0x9b05688c2b3e6c1f, 0x1f83d9abfb41bd6b, 0x5be0cd19137e2179]

/-- An upper-case sigma: three rotations. -/
def shaSum (x : BitVec 64) (a b c : Nat) : BitVec 64 := x.rotateRight a ^^^ x.rotateRight b ^^^ x.rotateRight c
/-- A lower-case sigma: two rotations and a shift. -/
def shaMix (x : BitVec 64) (a b c : Nat) : BitVec 64 := x.rotateRight a ^^^ x.rotateRight b ^^^ x >>> c

/-- The message schedule: `back` holds its words so far, newest first, and `n` are still to come. -/
def shaSchedule (n : Nat) (back : List (BitVec 64)) : List (BitVec 64) :=
  match n with
  | 0 => back.reverse
  | n + 1 =>
    shaSchedule n ((shaMix (back.getD 1 0) 19 61 6 + back.getD 6 0 + shaMix (back.getD 14 0) 1 8 7 + back.getD 15 0) :: back)

/-- One round, on the eight working words. -/
def shaStep (v : List (BitVec 64)) (kw : BitVec 64 × BitVec 64) : List (BitVec 64) :=
  let a := v.getD 0 0
  let b := v.getD 1 0
  let c := v.getD 2 0
  let e := v.getD 4 0
  let f := v.getD 5 0
  let g := v.getD 6 0
  let t1 := v.getD 7 0 + shaSum e 14 18 41 + (e &&& f ^^^ ~~~e &&& g) + kw.1 + kw.2
  let t2 := shaSum a 28 34 39 + (a &&& b ^^^ a &&& c ^^^ b &&& c)
  [t1 + t2, a, b, c, v.getD 3 0 + t1, e, f, g]

/-- A block of sixteen words goes into the hash value. -/
def shaBlock (h ws : List (BitVec 64)) : List (BitVec 64) :=
  List.zipWith (· + ·) h ((shaRound.zip (shaSchedule 64 ws.reverse)).foldl shaStep h)

/-- A number of bytes, the most significant first. -/
def beWord (bs : List Byte) : BitVec 64 := bs.foldl (fun w b => w <<< 8 ||| b.zeroExtend 64) 0

/-- The words of a message's blocks. -/
def shaWords (n : Nat) (bs : List Byte) : List (BitVec 64) :=
  (List.range n).map (fun i => beWord ((bs.drop (8 * i)).take 8))

/-- The `n` blocks of words that are left go into the hash value. -/
def shaBlocks (n : Nat) (h ws : List (BitVec 64)) : List (BitVec 64) :=
  match n with
  | 0 => h
  | n + 1 => shaBlocks n (shaBlock h (ws.take 16)) (ws.drop 16)

/-- A message with its padding: a one bit, zeros, and its length in bits on 16 bytes. -/
def shaPadded (bs : List Byte) : List Byte :=
  bs ++ [0x80] ++ List.replicate ((239 - bs.length % 128) % 128) 0
    ++ (leBytes 16 (8 * bs.length)).reverse

/-- The SHA-512 digest of a sequence of bytes. -/
def sha512 (bs : List Byte) : BitVec 512 :=
  let p := shaPadded bs
  (shaBlocks (p.length / 128) shaStart (shaWords (p.length / 8) p)).foldl (fun d w => d <<< 64 ||| w.zeroExtend 512) 0

/-! RSA. -/

/-- `x` to the power that `bits` gives, its lowest bit first, modulo `m`. -/
def powMod (m x : Nat) (bits : List Bool) : Nat :=
  match bits with
  | [] => 1 % m
  | b :: r =>
    let y := powMod m (x * x % m) r
    if b then x * y % m else y

/-- The bits of a number, the lowest first. -/
def bitsOf (n x : Nat) : List Bool := (List.range n).map x.testBit

/-- The public key of an image as the model reads its bytes: the modulus in the first 512, then the exponent, both
little-endian. DESIGN CHOICE (log 86): the rule does not say how a key is laid out. -/
def keyModulus (key : List Byte) : Nat := leNat (key.take 512)
/-- The exponent of a public key. -/
def keyExponent (key : List Byte) : Nat := leNat (key.drop 512)

/-- An image's RSA-4096 signature verifies over its digest with the key that it carries (22 R382). How a digest is laid out in
what is signed, the rule leaves open: a free value (log 86). -/
def signatureFits (i : FwImage) : Bool :=
  powMod (keyModulus i.key) i.signature.toNat (bitsOf (8 * (i.key.length - 512)) (keyExponent i.key))
    == (Config.rsaMessage (sha512 i.body)).toNat

/-- The device accepts an image: its key is the one whose digest is fused, and its signature verifies (22 R382). -/
def accepted (fused : BitVec 512) (i : FwImage) : Bool := sha512 i.key == fused && signatureFits i

end Sys2Proof.Machine
end

