-- ==== Sys2Proof/Machine/External.lean ====
section
/-! DEFINITION. Events from outside the device and of its firmware (22, 19 R328): the system handler, the host's
registers and rings, partitions, stiles, firmware complexes, starts, links and peers. -/

namespace Sys2Proof.Machine

/-! Event rings (22 R370). -/

/-- The event ring has no room; a ring without a size has none. -/
def Part.eventFull (p : Part) : Bool := decide (p.evSize.toNat ≤ (p.evTail - p.evHead).toNat)

/-- Sends an MSI-X message (22 R367). -/
def State.msix (s : State) (part vector : Nat) : State := { s with outputs := s.outputs ++ [.msix part vector] }

/-- The address in host memory of a slot of the event ring (22 R368). -/
def Part.eventAddr (p : Part) (slot : Nat) : DWord := atOff (p.evBaseHi ++ p.evBaseLo) (64 * slot)

/-- Firmware writes a record into the next slot of the event ring and raises vector 0; `who` is its number in
the fault ring, where it suspends warps. -/
def State.eventWrite (s : State) (part : Nat) (r : FaultRec) (who : Option Nat) : State :=
  let p := s.part part
  let slot := p.evTail.toNat % p.evSize.toNat
  let named := p.evNamed.filter (fun e => e.1 ≠ slot)
  ({ s with outputs := s.outputs ++ [Output.eventRecord part slot (p.eventAddr slot) r] }.setPart part
    { p with
      evTail := p.evTail + 1,
      evNamed := match who with
        | some n => named ++ [(slot, n)]
        | none => named }).msix part 0

/-- A record for the event ring: written, or held in order while the ring is full, with EVOVF. -/
def State.postEvent (s : State) (part : Nat) (r : FaultRec) (who : Option Nat) : State :=
  let p := s.part part
  if p.eventFull || !p.evHeld.isEmpty then s.setPart part { p with evHeld := p.evHeld ++ [(r, who)], evOvf := true }
  else s.eventWrite part r who

/-- Held event records move into the ring as slots free; `n` bounds their number. -/
def State.flushEvents (s : State) (part n : Nat) : State :=
  match n with
  | 0 => s
  | n + 1 =>
    let p := s.part part
    match p.evHeld with
    | [] => s.setPart part { p with evOvf := false }
    | (r, who) :: t =>
      if p.eventFull then s
      else ((s.setPart part { p with evHeld := t }).eventWrite part r who).flushEvents part n

/-- Flushes the event records held. -/
def State.freeEvents (s : State) (part : Nat) : State := s.flushEvents part ((s.part part).evHeld.length + 1)

/-- A record that firmware makes itself and that names no warp (22 R370, R372, R377, R380). -/
def plainRecord (cause : Cause) : FaultRec :=
  { cause := cause, detail := 0, agent := 0xFF, flags := 1, slot := 0xFFFF, flock := 0, count := 0, pc := 0, iword := 0,
    addr := 0, laneMask := 0, memberMask := 0, timeline := 0, ipc := 0, wpc := 0 }

/-- Configured partitions. -/
def State.configured (s : State) : List Nat := s.parts.keysWhere (fun _ p => p.configured)

/-- The active complex serves the host: a takeover suspends that, and a failed start ends it (22 R380). -/
def State.fwServes (s : State) : Bool := s.fwPhase == .steady

/-- A record to the event ring of every configured partition; one made while no complex serves waits in the fault ring (22
R380, 21 R353). -/
def State.postEverywhere (s : State) (cause : Cause) : State :=
  s.configured.foldl (fun s p =>
    if s.fwServes then s.postEvent p (plainRecord cause) none
    else s.postRecord (s.sliceHalf p) p (plainRecord cause) none) s

/-- Every configured partition can hold a record more. -/
def State.roomEverywhere (s : State) : Bool := s.configured.all (fun p => s.fwServes || s.canRecord (s.sliceHalf p) p)

/-- SYSTEM_HANDLER's next state (22 R370, 21 R353): the oldest record is consumed, and copied unless resolved; TRAP 8 to
12 raise vectors 3 to 7 as well (R367). -/
def State.handle (s : State) (part : Nat) (resolved : Bool) : Option State :=
  let p := s.part part
  match p.handlerQ with
  | [] => none
  | (r, who) :: t =>
    if !s.fwServes then none
    else
      let head := if p.frHead = p.frTail then p.frHead else p.frHead + 1
      let s1 := (s.setPart part { p with handlerQ := t, frHead := head }).flushHeld part p.heldRecs.length
      if resolved then some s1
      else
        let s2 := s1.postEvent part r who
        let c := r.cause.toNat
        some (if 8 ≤ c && c ≤ 12 then s2.msix part (c - 5) else s2)

/-- SYSTEM_HANDLER (22 R370). -/
def execSystemHandler (part : Nat) (resolved : Bool) (s : State) : Host.Outcome State Fault Refusal :=
  happens "SYSTEM_HANDLER" (s.handle part resolved)

/-! Host rings (22 R369, 19 R328). -/

/-- A host ring; one never written is at reset. -/
def Part.ring (p : Part) (r : Nat) : Ring := (p.rings.find r).getD Ring.reset
/-- Replaces a host ring. -/
def State.setRing (s : State) (part r : Nat) (x : Ring) : State :=
  s.updPart part (fun p => { p with rings := p.rings.put r x })

/-- A record HOST-LINK-ERROR (22 R369, R370). -/
def State.hostLinkError (s : State) (part agent detail : Nat) (addr : DWord) : State :=
  s.deviceRecord (s.sliceHalf part) part { FaultInfo.of 0xB5 detail with agent := agent, async := true, addr := addr }

/-- A record of the partition's firmware can be made. -/
def State.sliceRoom (s : State) (part : Nat) : Bool := s.canRecord (s.sliceHalf part) part

/-- DOORBELL (22 R369): the later of two writes stands; a reset ignores it. -/
def execDoorbell (part ring : Nat) (tail : BitVec 32) (s : State) : Host.Outcome State Fault Refusal :=
  let p := s.part part
  let x := p.ring ring
  if !p.configured || 16 ≤ ring then notEnabled "DOORBELL"
  else if p.pstate == .resetting then .next s
  else if x.size.toNat < (tail - x.head).toNat then
    when' "DOORBELL" (s.sliceRoom part) (s.hostLinkError part 0xFF 1 0)
  else .next (s.setRing part ring { x with tail := tail })

/-- The base of a ring. -/
def Ring.base (x : Ring) : DWord := x.baseHi ++ x.baseLo
/-- The virtual address of the next packet. -/
def Ring.packet (x : Ring) : DWord := atOff x.base (64 * (x.head.toNat % x.size.toNat))

/-- What firmware finds at the head of a ring. -/
inductive Packet where
  | unreadable
  | skip
  | invalid
  | launch (queue : Nat) (record : DWord)
  | wait (obj : DWord) (phase : Nat)
  deriving DecidableEq, Repr

/-- A packet's bytes: its reserved bytes come first, then its type (19 R328). -/
def packetOf (bs : List Byte) : Packet :=
  let q := fieldAt bs 4 4
  let a := BitVec.ofNat 64 (fieldAt bs 8 8)
  if (bs.drop 20).any (fun b => b != 0) then .invalid
  else
    match fieldAt bs 0 4 with
    | 0 => .skip
    | 1 => if q < 64 then .launch q a else .invalid
    | 2 => .wait a (fieldAt bs 16 4)
    | _ => .invalid

/-- The packet at the head of a ring that firmware serves; none where there is none. -/
def State.nextPacket (s : State) (part ring : Nat) : Option Packet :=
  let p := s.part part
  let x := p.ring ring
  if !p.configured || p.pstate != .running || !s.fwServes || 16 ≤ ring || x.err || x.head = x.tail || x.size = 0 then none
  else
    match s.engineRunsAt (pagerVia part) 3 (Rights.r false) x.packet 64 with
    | .error _ => some .unreadable
    | .ok rs => some (packetOf (s.runBytes rs))

/-- RHEAD advances past a packet. -/
def State.nextHead (s : State) (part ring : Nat) : State :=
  let x := (s.part part).ring ring
  s.setRing part ring { x with head := x.head + 1 }

/-- An invalid record or packet: the record to the system handler, and the packet is passed (19 R328, R387). -/
def State.skipPacket (s : State) (part ring detail : Nat) (addr : DWord) : State :=
  (s.taskRecord part cLaunchInvalid 0xFF detail addr 0 ring ((s.part part).ring ring).head.toNat).nextHead part ring

/-- The release of an invalid record's completion object (19 R328). -/
def State.freeObject (s : State) (part : Nat) (obj : DWord) : State :=
  if obj == 0 || obj.toNat % 64 ≠ 0 then s
  else
    match s.touchObject (deviceAgent part) part obj 4 with
    | .error _ => s
    | .ok (t, ok) => if ok then t else t.taskRecord part cBarrierOverflow 3 0 obj 0 0 0

/-- A launch packet: its record is checked and its entry made (19 R328, R333), after all the grids that have completed (log 6).
None while its queue takes no entry, or an entry must wait for the dispatcher's decision (20 R351). -/
def State.packetLaunch (s : State) (part ring queue : Nat) (addr : DWord) : Option State :=
  match s.engineRunsAt (pagerVia part) 3 (Rights.r false) addr 128 with
  | .error _ => some (s.skipPacket part ring 0xFF addr)
  | .ok rs =>
    let bs := s.runBytes rs
    match launchFault addr bs with
    | some d => some ((s.freeObject part (launchOf bs).done).skipPacket part ring d addr)
    | none =>
      if s.queueFull part queue || (s.part part).destroying.contains queue || s.decisionDue part then none
      else some ((s.launch part queue addr (launchOf bs) true ofGrids).1.nextHead part ring)

/-- HOST_PACKET_LAUNCH's next state: every packet but a wait. -/
def State.servePacket (s : State) (part ring : Nat) : Option State :=
  let x := (s.part part).ring ring
  if !s.sliceRoom part then none
  else
    match s.nextPacket part ring with
    | some .unreadable => some ((s.setRing part ring { x with err := true }).hostLinkError part 3 0 x.packet)
    | some .skip => some (s.nextHead part ring)
    | some .invalid => some (s.skipPacket part ring 0xFE x.packet)
    | some (.launch q a) => s.packetLaunch part ring q a
    | _ => none

/-- HOST_PACKET_LAUNCH (19 R328). -/
def execHostPacketLaunch (part ring : Nat) (s : State) : Host.Outcome State Fault Refusal :=
  happens "HOST_PACKET_LAUNCH" ((s.bump.servePacket part ring).bind (fun t => t.ifFits part))

/-- HOST_PACKET_WAIT's next state: the object's phase has passed (19 R328, 12 R247). -/
def State.packetWait (s : State) (part ring : Nat) : Option State :=
  match s.nextPacket part ring with
  | some (.wait obj p) =>
    match s.engineRunsAt (pagerVia part) 3 (Rights.r false) obj 32 with
    | .ok rs => if (Bar.ofBytes (s.runBytes rs)).passed p then some (s.nextHead part ring) else none
    | .error _ => none
  | _ => none

/-- HOST_PACKET_WAIT (19 R328). -/
def execHostPacketWait (part ring : Nat) (s : State) : Host.Outcome State Fault Refusal :=
  happens "HOST_PACKET_WAIT" (s.bump.packetWait part ring)

/-- RSIZE_WRITE (22 R368, R369): a value out of range is ignored; another restarts the ring. -/
def execRsizeWrite (part ring : Nat) (value : BitVec 32) (s : State) : Host.Outcome State Fault Refusal :=
  let p := s.part part
  when' "RSIZE_WRITE" (p.configured && decide (ring < 16))
    (if powerIn 16 65536 value.toNat then s.setRing part ring { p.ring ring with size := value, err := false } else s)

/-! RESUME and the other registers of a virtual function. -/

/-- The suspending record of an event-ring slot: the first warp that it still suspends. -/
def State.suspending (s : State) (part slot : Nat) : Option Nat :=
  ((s.part part).evNamed.find? (fun e => e.1 = slot)).bind (fun e =>
    (s.warps.keysWhere (fun w x => s.partOf w = part && x.susp.any (fun u => u.serial = e.2))).head?)

/-- RESUME's next state (22 R370). -/
def State.resumeSlot (s : State) (part : Nat) (value : Word) : State :=
  let p := s.part part
  let mode := (value.extractLsb' 16 2).toNat
  let slot := if p.evSize = 0 then 0 else (value.extractLsb' 0 16).toNat % p.evSize.toNat
  match (if mode % 2 = 0 then s.suspending part slot else none) with
  | none => s.hostLinkError part 0xFF 2 0
  | some w =>
    let x := s.warp w
    (s.eret ⟨mode, mode = 2 && x.susp.any (fun u => u.flags.getLsbD 2), x.slot, x.core⟩ 0 (fun _ => false)).1

/-- RESUME (22 R370). -/
def execResume (part : Nat) (value : BitVec 32) (s : State) : Host.Outcome State Fault Refusal :=
  let p := s.part part
  if p.configured && p.pstate == .resetting then .next s
  else when' "RESUME" (p.configured && s.fwServes && s.sliceRoom part) (s.bump.resumeSlot part value)

/-- The event records held move into the ring while a complex serves (22 R370, R380). -/
def State.serveEvents (s : State) (part : Nat) : State := if s.fwServes then s.freeEvents part else s

/-- EVHEAD (22 R370). -/
def execEvhead (part : Nat) (value : BitVec 32) (s : State) : Host.Outcome State Fault Refusal :=
  when' "EVHEAD" (s.part part).configured ((s.updPart part (fun p => { p with evHead := value })).serveEvents part)

/-- A register whose writes are events of their own. -/
def ownRegister (o : Nat) : Bool :=
  o = 0x1C || o = 0x2000 || (0x100 ≤ o && o < 0x200 && o % 16 = 8) || (0x1000 ≤ o && o < 0x1040 && o % 4 = 0)

/-- A write to a plain register; a misaligned base, a size out of range, or an offset without a writable register is
ignored (22 R368). -/
def State.hostWrite (s : State) (part o : Nat) (v : Word) : State :=
  let page := v.extractLsb' 0 12 == 0
  let r := (o - 0x100) / 16
  let x := (s.part part).ring r
  if o = 0x10 then if page then s.updPart part (fun p => { p with evBaseLo := v }) else s
  else if o = 0x14 then s.updPart part (fun p => { p with evBaseHi := v })
  else if o = 0x18 then
    if powerIn 16 65536 v.toNat then (s.updPart part (fun p => { p with evSize := v })).serveEvents part else s
  else if 0x100 ≤ o && o < 0x200 && o % 16 = 0 then if page then s.setRing part r { x with baseLo := v } else s
  else if 0x100 ≤ o && o < 0x200 && o % 16 = 4 then s.setRing part r { x with baseHi := v }
  else s

/-- A weight of classes 1 to 3 that the host sets on physical function 0 (22 R374); the spec gives the setting no offset:
`c` numbers the class (log 113). One out of range is ignored. -/
def State.setWeight (s : State) (c : Nat) (v : Word) : State :=
  if 1 ≤ c && c ≤ 3 && 1 ≤ v.toNat && v.toNat ≤ 15 then { s with weights := setNth s.weights (c - 1) v.toNat } else s

/-- HOST_REGISTER_WRITE (22 R368): of a virtual function; number 8 stands for physical function 0 (R374, log 113). -/
def execHostRegisterWrite (part offset : Nat) (value : BitVec 32) (s : State) : Host.Outcome State Fault Refusal :=
  if part = 8 then .next (s.setWeight offset value)
  else when' "HOST_REGISTER_WRITE" ((s.part part).configured && !ownRegister offset) (s.hostWrite part offset value)

/-! Partitions (22 R371 to R373). -/

/-- A state as PSTATE shows it (22 R368). -/
def PState.code (p : PState) : Word := match p with | .running => 0 | .resetting => 1 | .stopped => 2

/-- What PSTATE reads (22 R368). -/
def Part.pstateWord (p : Part) : Word :=
  (maskOf ((List.range 16).filter (fun r => (p.ring r).err)) <<< 16) ||| (if p.evOvf then 8 else 0)
    ||| (if p.takeover then 4 else 0) ||| p.pstate.code

/-- What PCTL reads (22 R373). -/
def Part.pctlWord (p : Part) : Word := (if p.configured then 8 else 0) ||| (if p.resetReq then 4 else 0) ||| p.pstate.code

/-- PCTL_RUN (22 R373). -/
def execPctlRun (part : Nat) (s : State) : Host.Outcome State Fault Refusal :=
  let p := s.part part
  when' "PCTL_RUN" (decide (part < 8))
    (if p.configured && p.pstate == .stopped then (s.setPart part { p with pstate := .running }).msix part 2 else s)

/-- The reset of a partition begins (22 R372, step 1). -/
def State.beginReset (s : State) (part : Nat) : State :=
  (s.updPart part (fun p => { p with pstate := .resetting })).msix part 2

/-- PCTL_RESET (22 R373, R372): at once, or when a takeover ends. -/
def execPctlReset (part : Nat) (s : State) : Host.Outcome State Fault Refusal :=
  let p := s.part part
  when' "PCTL_RESET" (decide (part < 8))
    (if !p.configured || p.resetReq then s
    else
      let t := s.setPart part { p with resetReq := true }
      if p.takeover then t else t.beginReset part)

/-- Resets that a takeover held back begin (22 R372). -/
def State.heldResets (s : State) : State :=
  (s.parts.keysWhere (fun _ p => p.resetReq && p.pstate != .resetting)).foldl (fun s p => s.beginReset p) s

/-- Memory without a partition's share, scrubbed to zero (22 R372). -/
def scrub (sh : MemShare) (m : List Host.Cell) : List Host.Cell := m.filter (fun c => !shareHolds sh c.1 1)

/-- A key of a byte of memory, or of an object there, in a share. -/
def inShare (sh : MemShare) (q : Nat) : Bool := q % 2 = 0 && shareHolds sh (q % 2 ^ 70 / 2) 1

/-- Every block of a partition leaves its core as by pre-emption (22 R372, 19 R338). -/
def State.clearBlocks (s : State) (part : Nat) : State :=
  (s.blocks.keysWhere (fun _ b => b.part = part)).foldl (fun s u => (s.leaveFold u).removeBlock u) s

/-- The grids that had a resident block complete with status 3; every other grid, and each job, is gone with its queue
(22 R372). -/
def State.clearGrids (s : State) (part : Nat) (had : List Nat) : State :=
  let t := had.foldl (fun s g =>
    match s.grids.find g with
    | some x =>
      let r := ((s.tell (ofGrid g) [(gridKey g, 1)]).signalObject (agentFor part (gridKey g)) part x.job x.lrec.done
        (max x.status 3)).forget (gridKey g)
      if x.hostRing then r.msix part 1 else r
    | none => s) s
  { (t.grids.keysWhere (fun _ g => g.part = part)).foldl (fun s g => s.forget (gridKey g)) t with
    grids := t.grids.filter (fun e => e.2.part ≠ part), jobs := t.jobs.filter (fun e => e.2.part ≠ part) }

/-- A warp of another partition that waits on a stile of a resetting one traps (22 R376); under STILE_DESTROY any waiter
meets STILE-INVALID (R375). Where its record cannot be held the wait itself keeps the cause, and ends as soon as it can. -/
def State.stileTrap (s : State) (n : Nat) (c : Cause) : State :=
  (s.stileWaits n .stdeq ++ s.stileWaits n .stenq).foldl (fun s w =>
    let t := s.updWarp w (fun x => { x with wait := x.wait.map (fun q =>
      { q with args := q.args.take (if q.kind == .stenq then 17 else 1) ++ [c.zeroExtend 64] }) })
    match s.openWait w with
    | some q => (s.finishWait q (Res.cause c)).getD t
    | none => t) s

/-- Every stile mapped to a partition is emptied (22 R372, R376). -/
def State.emptyStiles (s : State) (part : Nat) : State :=
  (s.stiles.keysWhere (fun _ t => t.producer = part || t.consumer = part)).foldl (fun s n =>
    match s.stiles.find n with
    | some t => { s with stiles := s.stiles.put n { t with slots := [], sent := [] } }.stileTrap n cStilePeer
    | none => s) s

/-- The reset of a partition, steps 2 to 6 (22 R372). -/
def State.resetPart (s : State) (part : Nat) : State :=
  let p := s.part part
  let had := (s.blocks.filter (fun e => e.2.part = part)).map (fun e => e.2.grid)
  let t := ((s.clearBlocks part).clearGrids part had.eraseDups).emptyStiles part
  let q := { Part.reset with configured := true, regions := p.regions, share := p.share, takeover := p.takeover }
  ((({ t with
      mem := scrub p.share t.mem, past := t.past.filter (fun e => !inShare p.share e.1),
      sync := { t.sync with rels := t.sync.rels.filter (fun e => !inShare p.share e.1) },
      poison := t.poison.filter (fun k => !shareHolds p.share (32 * k) 32),
      cores := t.cores.mapVal (fun c k => { k with
        tlb := k.tlb.filter (fun e => e.part ≠ part), stops := if p.regions.contains (c / 8) then [] else k.stops }) }).setPart part
    q).msix part 2).postEvent part (plainRecord 0xB8) none

/-- PARTITION_RESET (22 R372). -/
def execPartitionReset (part : Nat) (s : State) : Host.Outcome State Fault Refusal :=
  when' "PARTITION_RESET" ((s.part part).configured && (s.part part).pstate == .resetting) (s.bump.resetPart part)

/-- Two runs of units share one. -/
def unitsMeet (a n b m : Nat) : Bool := decide (a < b + m) && decide (b < a + n)

/-- A share lies in the device's memory. -/
def shareFits (m : MemShare) : Bool :=
  decide ((m.hbmFirst + m.hbmCount) * 2 ^ 30 ≤ hbmBytes) && decide ((m.tierFirst + m.tierCount) * 2 ^ 30 ≤ tierBase)

/-- Settings within the ranges of R366. -/
def settingsFit (x : PartSettings) : Bool :=
  decide (x.root % 4096 = 0) && decide (x.root < 2 ^ 64) && decide (x.frBase % 4096 = 0) && decide (x.frBase < 2 ^ 64)
    && powerIn 16 65536 x.frSize && decide (256 ≤ x.fillerF) && decide (x.fillerF ≤ 16384) && decide (x.fillerF % 256 = 0)
    && decide (x.fillerF + 1024 ≤ x.throtT) && decide (x.throtT ≤ 65536) && decide (1 ≤ x.ageLim)
    && decide (x.ageLim ≤ 255) && decide (x.pwrShare ≤ 1680)

/-- A configuration shares nothing with another partition's (22 R371). -/
def State.apart (s : State) (part : Nat) (regions : List Nat) (m : MemShare) : Bool :=
  s.parts.all (fun e => e.1 = part || !e.2.configured
    || (!e.2.regions.any (fun r => regions.contains r)
      && !unitsMeet e.2.share.hbmFirst e.2.share.hbmCount m.hbmFirst m.hbmCount
      && !unitsMeet e.2.share.tierFirst e.2.share.tierCount m.tierFirst m.tierCount))

/-- PARTITION_CONFIGURE (22 R371): of a stopped partition. -/
def execPartitionConfigure (part : Nat) (regions : List Nat) (memory : MemShare) (settings : PartSettings) (s : State) :
    Host.Outcome State Fault Refusal :=
  let p := s.part part
  let rs := (List.range (Config.coreCount / 8)).filter (fun r => regions.contains r)
  when' "PARTITION_CONFIGURE"
    (decide (part < 8) && s.fwServes && p.pstate == .stopped && !rs.isEmpty && regions.all (fun r => rs.contains r)
      && shareFits memory && settingsFit settings && s.apart part rs memory)
    (s.setPart part { p with
      configured := true, regions := rs, share := memory, root := BitVec.ofNat 64 settings.root, fillerF := settings.fillerF,
      throtT := settings.throtT, ageLim := settings.ageLim, pwrShare := settings.pwrShare,
      frBase := BitVec.ofNat 64 settings.frBase, frSize := settings.frSize })

/-! Stiles (22 R375). -/

/-- STILE_CREATE (22 R375, 19 R346). -/
def execStileCreate (number capacity producer consumer : Nat) (s : State) : Host.Outcome State Fault Refusal :=
  when' "STILE_CREATE"
    (decide (number < 65536) && decide (1 ≤ capacity) && decide (capacity ≤ 4096) && decide (producer < 8)
      && decide (consumer < 8) && (s.stiles.find number).isNone && s.fwServes)
    { s with stiles := s.stiles.put number ⟨capacity, producer, consumer, [], []⟩ }

/-- STILE_DESTROY (22 R375). -/
def execStileDestroy (number : Nat) (s : State) : Host.Outcome State Fault Refusal :=
  when' "STILE_DESTROY" ((s.stiles.find number).isSome && s.fwServes)
    { s.stileTrap number cStileInvalid with stiles := (s.stileTrap number cStileInvalid).stiles.drop number }

/-! Firmware complexes and starts (22 R379 to R382). -/

/-- TAKEOVER in every partition. -/
def State.setTakeover (s : State) (b : Bool) : State :=
  (List.range 8).foldl (fun s p => s.updPart p (fun q => { q with takeover := b })) s

/-- The image of a complex is another. -/
def State.setDigest (s : State) (fw : Nat) (d : BitVec 512) : State :=
  { s with fwDigests := setNth s.fwDigests (fw % 2) d }

/-- LIVE_UPDATE (22 R380, steps 1 to 3, R382): a bad signature or another major version ends it, and a second request is
refused. -/
def execLiveUpdate (image : FwImage) (s : State) : Host.Outcome State Fault Refusal :=
  .next (if !s.fwServes then s
    else if !accepted s.fused image then s.postEverywhere 0xBB
    else if !image.sameMajor then s
    else { (s.setDigest (1 - s.activeFw % 2) (sha512 image.body)).setTakeover true with fwPhase := .takingOver })

/-- A takeover ends, and a complex serves: held resets begin, and event records held move on (22 R372, R380). -/
def State.endTakeover (s : State) (cause : Cause) : State :=
  let t := ({ s.setTakeover false with fwPhase := .steady }.postEverywhere cause).heldResets
  t.configured.foldl (fun s p => s.serveEvents p) t

/-- FIRMWARE_TAKEOVER (22 R380, step 4). -/
def execFirmwareTakeover (s : State) : Host.Outcome State Fault Refusal :=
  when' "FIRMWARE_TAKEOVER" (s.fwPhase == .takingOver || s.fwPhase == .failingOver)
    ({ s with activeFw := 1 - s.activeFw % 2 }.endTakeover 0xB9)

/-- FIRMWARE_ROLLBACK (22 R380). -/
def execFirmwareRollback (s : State) : Host.Outcome State Fault Refusal :=
  when' "FIRMWARE_ROLLBACK" (s.fwPhase == .takingOver) (s.endTakeover 0xBA)

/-- WATCHDOG (22 R379): its record, and then a takeover. -/
def execWatchdog (s : State) : Host.Outcome State Fault Refusal :=
  when' "WATCHDOG" s.fwServes { (s.postEverywhere 0xBC).setTakeover true with fwPhase := .failingOver }

/-- The device after a start: as at reset, but for what the model itself keeps, and the links' training where that is
kept (22 R381). -/
def State.restart (s : State) (keep : Bool) (fw : Nat) : State :=
  { State.reset with
    agenda := s.agenda, fused := s.fused, freeCtr := s.freeCtr, nextUid := s.nextUid, outputs := s.outputs, activeFw := fw,
    fwDigests := s.fwDigests, links := if keep then s.links else [] }

/-- A start that has failed, of a complex's image: its warm retry is due (22 R381). -/
def State.startFailed (s : State) (keep : Bool) (fw : Nat) : State := { s.restart keep fw with fwPhase := .failed }

/-- A start of a complex's image. -/
def State.boot (s : State) (keep : Bool) (fw : Nat) (i : FwImage) : State :=
  let t := s.setDigest fw (sha512 i.body)
  if accepted s.fused i then t.restart keep fw else t.startFailed keep fw

/-- COLD_START (22 R381, R382): after the self-test and the checks of both images the image of complex 0 boots; what fails
of these fails the start. A request during a start in progress is ignored. -/
def execColdStart (selfTestPass : Bool) (image0 image1 : FwImage) (s : State) : Host.Outcome State Fault Refusal :=
  .next (if s.fwPhase == .failed then s
    else
      let t := (s.setDigest 0 (sha512 image0.body)).setDigest 1 (sha512 image1.body)
      if selfTestPass && accepted s.fused image0 && accepted s.fused image1 then t.restart false 0 else t.startFailed false 0)

/-- WARM_START (22 R381). -/
def execWarmStart (image : FwImage) (s : State) : Host.Outcome State Fault Refusal :=
  .next (if s.fwPhase == .failed then s else s.boot true s.activeFw image)

/-- FAILED_START (22 R381): one warm retry, then the other complex's image, with no further retry. -/
def execFailedStart (retry other : FwImage) (s : State) : Host.Outcome State Fault Refusal :=
  let o := 1 - s.activeFw % 2
  let t := s.setDigest s.activeFw (sha512 retry.body)
  when' "FAILED_START" (s.fwPhase == .failed)
    (if accepted s.fused retry then t.restart true s.activeFw
    else if accepted s.fused other then (t.setDigest o (sha512 other.body)).restart true o
    else { t.restart true s.activeFw with fwPhase := .down })

/-- The settings of a partition, in the order of the registers of R366. -/
def Part.settings (p : Part) : List Word :=
  [p.root.extractLsb' 0 32, p.root.extractLsb' 32 32, w32 p.fillerF, w32 p.throtT, w32 p.ageLim, w32 p.pwrShare,
   p.frBase.extractLsb' 0 32, p.frBase.extractLsb' 32 32, w32 p.frSize, p.frHead, p.frTail]

/-- The configuration of the partitions that are configured: regions, share and settings (22 R371, R383). -/
def State.configuration (s : State) : List (Nat × List Nat × MemShare × List Word) :=
  (s.parts.filter (fun e => e.2.configured)).map (fun e => (e.1, e.2.regions, e.2.share, e.2.settings))

/-- ATTESTATION_REQUEST (22 R383): the report, signed by the device's identity key. -/
def execAttestationRequest (nonce : BitVec 256) (s : State) : Host.Outcome State Fault Refusal :=
  .next { s.bump with outputs := s.outputs ++ [.attestation nonce s.fwDigests s.fused s.activeFw s.configuration
    (Config.signature nonce s.fwDigests s.activeFw (s.draw 0))] }

/-- TELEMETRY_READ (22 R384). Rail power and temperatures are the board's, and free here (log 86). -/
def execTelemetryRead (s : State) : Host.Outcome State Fault Refusal :=
  .next { s.bump with outputs := s.outputs ++ [.telemetry (Config.freeWord (s.draw 0) 0)
    ((List.range (Config.coreCount / 8)).map (fun i => Config.freeWord (s.draw 1) i))
    ((List.range 8).map (fun i => (s.softErrors.find i).getD 0)) (s.cores.map (fun e => (e.1, e.2.imbHist)))] }

/-! Links, the host and peers (22 R377, R378). -/

/-- LINK_RETRAIN (22 R377). -/
def execLinkRetrain (peer : Nat) (s : State) : Host.Outcome State Fault Refusal :=
  when' "LINK_RETRAIN" (decide (peer < 64) && s.roomEverywhere) (s.postEverywhere 0xB1)

/-- The accesses of a warp that wait for a peer meet LINK-DOWN (22 R377). -/
def Warp.losePeer (x : Warp) (peer : Nat) : Warp :=
  { x with
    loads := x.loads.map (fun q => if !q.done && q.peers.contains peer then { q with bad := some (q.bad.getD cLinkDown) } else q),
    stores := x.stores.map (fun q => if !q.done && q.peers.contains peer then { q with bad := some (q.bad.getD cLinkDown) } else q) }

/-- A TPEER at work moves data of a peer. -/
def State.movesPeer (s : State) (peer id : Nat) : Bool :=
  match s.working id with
  | none => false
  | some o =>
    match o.kind with
    | .tile 5 h => (s.boxTry o.blk (tileRights 5 (regN o.regs 6)) h (originOf o.regs)).any (fun e =>
        match e with
        | .ok (some rs) => (peersOf [.glob rs]).contains peer
        | _ => false)
    | _ => false

/-- An access of a warp of a partition, or a TPEER of one of its blocks, waits for a peer. -/
def State.awaitsPeer (s : State) (part peer : Nat) : Bool :=
  s.ops.any (fun e => (s.block e.2.blk).part = part && s.movesPeer peer e.1)
  || s.warps.any (fun e => s.partOf e.1 = part
    && (e.2.loads.any (fun q => !q.done && q.peers.contains peer) || e.2.stores.any (fun q => !q.done && q.peers.contains peer)))

/-- A link that no operation of a partition concerns leaves a hardware event for it (21 R356). -/
def State.linkEvent (s : State) (peer part : Nat) : State :=
  if s.awaitsPeer part peer then s
  else s.deviceRecord (s.sliceHalf part) part { FaultInfo.of cLinkDown 0 with async := true }

/-- LINK_DOWN (22 R377, 21 R356). -/
def execLinkDown (peer : Nat) (s : State) : Host.Outcome State Fault Refusal :=
  when' "LINK_DOWN" (decide (peer < 64) && s.configured.all (fun p => s.canRecord (s.sliceHalf p) p))
    (if s.links.contains peer then s
    else
      let t := s.configured.foldl (fun s p => s.linkEvent peer p) s
      { t with links := t.links ++ [peer], warps := t.warps.mapVal (fun _ x => x.losePeer peer) })

/-- ETH_DOWN (22 R378). -/
def execEthDown (_port : Nat) (s : State) : Host.Outcome State Fault Refusal :=
  when' "ETH_DOWN" s.roomEverywhere (s.postEverywhere 0xB4)

/-- The lowest global address of an operation's box, or its source. -/
def EngOp.firstAddr (o : EngOp) : DWord :=
  match o.kind with
  | .lane _ src _ _ _ _ => src
  | .tile _ h => ((List.range h.boxCount).findSome? (fun i => h.cell (originOf o.regs) i)).getD 0
  | .wbload _ _ h => ((List.range h.boxCount).findSome? (fun i => h.cell (originOf o.regs) i)).getD 0
  | _ => 0

/-- PEER-TIMEOUT (21 R356). -/
def cPeerTimeout : Cause := 0xB2

/-- PEER_TIMEOUT's next state (22 R377): a TPEER at work fails; an access of a warp completes with the trap due instead of
its data. -/
def State.peerTimeout (s : State) (k : PeerWork) : Option State :=
  match k with
  | .engine id =>
    (s.working id).bind (fun o =>
      match o.kind with
      | .tile fn _ => if fn = 5 then some ((s.opFails id o (cPeerTimeout, o.firstAddr)).trapWaiters o.blk) else none
      | _ => none)
  | .load w i =>
    match (s.warps.find w).bind (fun x => x.loads[i]?) with
    | some q =>
      if q.done || q.peers.isEmpty then none
      else some (s.updWarp w (fun x => x.returnLoad (s.draw 0) i { q with bad := some (q.bad.getD cPeerTimeout) }))
    | none => none
  | .store w i =>
    match (s.warps.find w).bind (fun x => x.stores[i]?) with
    | some q =>
      if q.done || q.peers.isEmpty then none
      else some ((s.performed q.step w).updWarp w (fun x => x.performStore i { q with bad := some (q.bad.getD cPeerTimeout) }))
    | none => none

/-- PEER_TIMEOUT (22 R377). -/
def execPeerTimeout (work : PeerWork) (s : State) : Host.Outcome State Fault Refusal :=
  happens "PEER_TIMEOUT" (s.bump.peerTimeout work)

/-- HOST_TIMEOUT's next state (21 R356): the operation concerned faults, or a hardware event is recorded. -/
def State.hostTimeout (s : State) (part : Nat) (op : Option Nat) : Option State :=
  match op with
  | some id => (s.working id).map (fun o => (s.opFails id o (0xB6, o.firstAddr)).trapWaiters o.blk)
  | none =>
    if (s.part part).configured && s.sliceRoom part then
      some (s.deviceRecord (s.sliceHalf part) part { FaultInfo.of 0xB6 0 with async := true })
    else none

/-- HOST_TIMEOUT (21 R356). -/
def execHostTimeout (part : Nat) (op : Option Nat) (s : State) : Host.Outcome State Fault Refusal :=
  happens "HOST_TIMEOUT" (s.bump.hostTimeout part op)

/-- A physical range in device memory (02 R35). -/
def inMemory (a n : Nat) : Bool :=
  decide (a + n ≤ hbmBytes) || (decide (tierBase ≤ a) && decide (a + n ≤ 2 * tierBase))

/-- HOST_MEMORY_WRITE (22 R369). -/
def execHostMemoryWrite (phys : Nat) (bytes : List (BitVec 8)) (s : State) : Host.Outcome State Fault Refusal :=
  when' "HOST_MEMORY_WRITE" (inMemory phys bytes.length)
    (s.putNow (.glob [(.phys phys, bytes.length)]) bytes)

/-- The overflow table of the partition whose share holds a frame. -/
def State.ovfAt (s : State) (a : Nat) : Word :=
  ((s.parts.find? (fun e => e.2.configured && shareHolds e.2.share a 1)).map (fun e => e.2.ovf)).getD 0

/-- Sends an answer to a peer. -/
def State.answer (s : State) (o : Output) : State := { s with outputs := s.outputs ++ [o] }

/-- A peer's access performed here, as R214 and R219 perform one of a warp (22 R377). -/
def State.peerAccess (s : State) (k : PeerAccess) : Option State :=
  match k with
  | .load a n =>
    let t := Target.glob [(.phys a, n)]
    if !inMemory a n then none
    else some (s.answer (if s.poisonedTarget t then .peerPoison else .peerData (s.readTarget (s.draw 7) t)))
  | .store a bs => if inMemory a bs.length then some (s.putNow (.glob [(.phys a, bs.length)]) bs) else none
  | .atomic op wide a v c =>
    let n := if wide then 8 else 4
    let t := Target.glob [(.phys a, n)]
    if !inMemory a n || a % n ≠ 0 || 15 ≤ op then none
    else if s.poisonedTarget t then some (s.answer .peerPoison)
    else
      let m := leNat (s.readTarget (s.draw 7) t)
      let w := 2 ^ (8 * n)
      some ((s.putNow t (leBytes n (amoNew (s.ovfAt a) op n m (v.toNat % w) (c.toNat % w)))).answer
        (.peerData (leBytes n m)))

/-- PEER_ACCESS (22 R377). -/
def execPeerAccess (kind : PeerAccess) (s : State) : Host.Outcome State Fault Refusal :=
  happens "PEER_ACCESS" (s.bump.peerAccess kind)

end Sys2Proof.Machine
end

