-- ==== Sys2Proof/Machine/Spec.lean ====
section
/-! DEFINITION. SPEC (06 R150 to R152): the special registers, SRD, SWR and LDI. -/

namespace Sys2Proof.Machine

/-- SPECIAL-INDEX (21 R356). -/
def cSpecialIndex : Cause := 0x1B

/-- IMB (07 R156). -/
def imbWord (c : Core) : Word :=
  let ws := windows c
  BitVec.ofNat 32 (firstAt ws (listMin ws) * 2 ^ 22 + firstAt ws (listMax ws) * 2 ^ 20 + imbalance c % 2 ^ 18)

/-- THROTTLE (07 R162). -/
def throttleWord (s : State) (core q : Nat) : Word :=
  let c := s.core core
  BitVec.ofNat 32 (c.entries % 256 * 256 + (if c.pwr then 4 else 0) + (if s.deficit core q then 2 else 0)
    + (if c.throttled || c.pwr then 1 else 0))

/-- Block index X, Y and Z of a linear index (03 R74). -/
def blockXYZ (b : Block) : Nat × Nat × Nat :=
  (b.index % b.lrec.gx, b.index / b.lrec.gx % b.lrec.gy, b.index / b.lrec.gx / b.lrec.gy)

/-- The value of a special register for lane `l` (06 R151). CLOCKHI and TIMEHI read what the last SRD of the low half
latched (R152). One count of device time serves both halves, so that they agree exactly: DESIGN CHOICE (log 114). -/
def State.special (s : State) (w : Nat) (i l : Nat) : Word :=
  let x := s.warp w
  let b := s.block x.blk
  let c := s.core x.core
  let r := b.lrec
  match i with
  | 0 => if x.control then 1 else w32 Config.warpWidth
  | 1 => w32 l
  | 2 => w32 x.widx
  | 3 => w32 (s.flockIdOf w)
  | 4 => w32 (s.flockRankOf w)
  | 5 => w32 b.flockSize
  | 6 => w32 x.role
  | 7 => w32 (blockXYZ b).1
  | 8 => w32 (blockXYZ b).2.1
  | 9 => w32 (blockXYZ b).2.2
  | 10 => w32 r.gx
  | 11 => w32 r.gy
  | 12 => w32 r.gz
  | 13 => w32 r.warps
  | 14 => w32 x.core
  | 15 => w32 x.quarter
  | 16 => w32 (x.core / 8)
  | 17 => match b.fold with | some f => f.id | none => 0xFFFFFFFF
  | 18 => match b.fold with | some f => w32 f.rank | none => 0xFFFFFFFF
  | 19 => if b.fold.isSome then w32 (s.foldMembers x.blk).length else 0
  | 20 => w32 c.clock
  | 21 => x.clockHi
  | 22 => w32 s.timeNs
  | 23 => x.timeHi
  | 24 => x.sticky
  | 25 => x.dctr
  | 26 => w32 x.repi
  | 27 => x.uepclo
  | 28 => x.uepchi
  | 29 => x.uemask
  | 30 => imbWord c
  | 31 => w32 (windowOf c x.quarter % 2 ^ 18)
  | 32 => throttleWord s x.core x.quarter
  | 33 => r.deadline.extractLsb' 0 32
  | 34 => r.deadline.extractLsb' 32 32
  | 35 => if r.budget == 0 || r.persistent then 0xFFFFFFFF else w32 b.budget
  | 36 => w32 (8 * x.granted)
  | 37 => r.arg.extractLsb' 0 32
  | 38 => r.arg.extractLsb' 32 32
  | 39 => x.trapen
  | 40 => match s.grids.find b.grid with | some g => w32 g.job | none => 0
  | _ => w32 b.part

/-- Reading CLOCK or TIMELO latches the high half for the warp (06 R152). -/
def State.latch (s : State) (w i : Nat) : State :=
  if i = 20 then s.updWarp w (fun x => { x with clockHi := w32 ((s.core x.core).clock / 2 ^ 32) })
  else if i = 22 then s.updWarp w (fun x => { x with timeHi := w32 (s.timeNs / 2 ^ 32) })
  else s

/-- SRD. -/
def opSrd (h : Hdr) (u : Upper) (a : Actor) (s : State) : Res :=
  match u with
  | .x f =>
    let i := f.vc.toNat
    if 42 ≤ i then .fault (FaultInfo.of cSpecialIndex 0)
    else if i = 1 && a.scope == .warp then .fault (FaultInfo.of cSpecialIndex 1)
    else if a.self.sel == 0 then .ok s
    else
      let t := s.latch a.lead i
      if a.scope == .warp then .ok (t.updWarp a.lead (fun x => x.writeS h.vd.toNat (s.special a.lead i 0)))
      else
        .ok (t.updWarp a.lead (fun x => (lanesOf a.self.sel).foldl (fun y l =>
          y.writeV h.vd.toNat l (s.special a.lead i l)) x))
  | _ => .ok s

/-- A write to a special register; reserved bits stay zero, STICKY clears by ones (06 R151, R143, 03 R81, R82). -/
def Warp.writeSpecial (x : Warp) (i : Nat) (v : Word) : Option Warp :=
  match i with
  | 24 => some { x with sticky := x.sticky &&& ~~~v }
  | 25 => some { x with dctr := v }
  | 27 => some { x with uepclo := v }
  | 28 => some { x with uepchi := v &&& 0xFDFFFFFF }
  | 29 => some { x with uemask := v &&& x.width }
  | 39 => some { x with trapen := v &&& 0x3FFFFFFF }
  | _ => none

/-- SWR. -/
def opSwr (u : Upper) (a : Actor) (s : State) : Res :=
  match u with
  | .x f =>
    let i := f.vc.toNat
    let x := s.warp a.lead
    if 42 ≤ i then .fault (FaultInfo.of cSpecialIndex 0)
    else
      match x.writeSpecial i (x.readS (s.draw 0) f.va.toNat) with
      | none => .fault (FaultInfo.of cSpecialIndex 2)
      | some y => .ok (s.setWarp a.lead y)
  | _ => .ok s

/-- LDI: imm32, or its sign extension into a pair (06 R150). -/
def opLdi (h : Hdr) (u : Upper) (a : Actor) (s : State) : Res :=
  match u with
  | .xl imm =>
    lanewise a s 0 cIntegerOverflow 0 (fun _ _ => ⟨pairWrites (h.width == 1) h.vd (imm.signExtend 64), 0, false⟩)
  | _ => .ok s

/-- SRD (06 R150 to R152). -/
def execSrd (h : Hdr) (u : Upper) (s : State) : Host.Outcome State Fault Refusal := issue (.srd h u) (opSrd h u) s
/-- SWR (06 R150 to R152). -/
def execSwr (h : Hdr) (u : Upper) (s : State) : Host.Outcome State Fault Refusal := issue (.swr h u) (opSwr u) s
/-- LDI (06 R150). -/
def execLdi (h : Hdr) (u : Upper) (s : State) : Host.Outcome State Fault Refusal := issue (.ldi h u) (opLdi h u) s

end Sys2Proof.Machine
end

