-- ==== Sys2Proof/Machine/Dispatch.lean ====
section
/-! DEFINITION. The dispatch: one arm per constructor, each a direct call of that instruction's meaning. -/

namespace Sys2Proof.Machine

/-- The meaning of an instruction or event in a state. -/
def exec (i : Instr) (s : State) : Host.Outcome State Fault Refusal :=
  match i with
  | .nop h u => Sys2Proof.Machine.execNop h u s
  | .bra h u => Sys2Proof.Machine.execBra h u s
  | .brx h u => Sys2Proof.Machine.execBrx h u s
  | .call h u => Sys2Proof.Machine.execCall h u s
  | .callx h u => Sys2Proof.Machine.execCallx h u s
  | .ret h u => Sys2Proof.Machine.execRet h u s
  | .rpush h u => Sys2Proof.Machine.execRpush h u s
  | .rjoin h u => Sys2Proof.Machine.execRjoin h u s
  | .exit h u => Sys2Proof.Machine.execExit h u s
  | .yield h u => Sys2Proof.Machine.execYield h u s
  | .trap h u => Sys2Proof.Machine.execTrap h u s
  | .bpt h u => Sys2Proof.Machine.execBpt h u s
  | .reti h u => Sys2Proof.Machine.execReti h u s
  | .icmpp h u => Sys2Proof.Machine.execIcmpp h u s
  | .fcmpp h u => Sys2Proof.Machine.execFcmpp h u s
  | .pbool h u => Sys2Proof.Machine.execPbool h u s
  | .pmov h u => Sys2Proof.Machine.execPmov h u s
  | .pcnt h u => Sys2Proof.Machine.execPcnt h u s
  | .pfirst h u => Sys2Proof.Machine.execPfirst h u s
  | .pqry h u => Sys2Proof.Machine.execPqry h u s
  | .mov h u => Sys2Proof.Machine.execMov h u s
  | .iadd h u => Sys2Proof.Machine.execIadd h u s
  | .isub h u => Sys2Proof.Machine.execIsub h u s
  | .imul h u => Sys2Proof.Machine.execImul h u s
  | .imulhi h u => Sys2Proof.Machine.execImulhi h u s
  | .imad h u => Sys2Proof.Machine.execImad h u s
  | .imin h u => Sys2Proof.Machine.execImin h u s
  | .imax h u => Sys2Proof.Machine.execImax h u s
  | .iabs h u => Sys2Proof.Machine.execIabs h u s
  | .and h u => Sys2Proof.Machine.execAnd h u s
  | .or h u => Sys2Proof.Machine.execOr h u s
  | .xor h u => Sys2Proof.Machine.execXor h u s
  | .not h u => Sys2Proof.Machine.execNot h u s
  | .shl h u => Sys2Proof.Machine.execShl h u s
  | .shr h u => Sys2Proof.Machine.execShr h u s
  | .sar h u => Sys2Proof.Machine.execSar h u s
  | .rotl h u => Sys2Proof.Machine.execRotl h u s
  | .popc h u => Sys2Proof.Machine.execPopc h u s
  | .clz h u => Sys2Proof.Machine.execClz h u s
  | .brev h u => Sys2Proof.Machine.execBrev h u s
  | .bfx h u => Sys2Proof.Machine.execBfx h u s
  | .bfi h u => Sys2Proof.Machine.execBfi h u s
  | .sel h u => Sys2Proof.Machine.execSel h u s
  | .lea h u => Sys2Proof.Machine.execLea h u s
  | .fadd h u => Sys2Proof.Machine.execFadd h u s
  | .fsub h u => Sys2Proof.Machine.execFsub h u s
  | .fmul h u => Sys2Proof.Machine.execFmul h u s
  | .ffma h u => Sys2Proof.Machine.execFfma h u s
  | .fmin h u => Sys2Proof.Machine.execFmin h u s
  | .fmax h u => Sys2Proof.Machine.execFmax h u s
  | .frcp h u => Sys2Proof.Machine.execFrcp h u s
  | .fdiv h u => Sys2Proof.Machine.execFdiv h u s
  | .fsqrt h u => Sys2Proof.Machine.execFsqrt h u s
  | .frsq h u => Sys2Proof.Machine.execFrsq h u s
  | .fex2 h u => Sys2Proof.Machine.execFex2 h u s
  | .flg2 h u => Sys2Proof.Machine.execFlg2 h u s
  | .fsin h u => Sys2Proof.Machine.execFsin h u s
  | .fcos h u => Sys2Proof.Machine.execFcos h u s
  | .fscale h u => Sys2Proof.Machine.execFscale h u s
  | .fclass h u => Sys2Proof.Machine.execFclass h u s
  | .movL f => Sys2Proof.Machine.execMovL f s
  | .iaddL f => Sys2Proof.Machine.execIaddL f s
  | .isubL f => Sys2Proof.Machine.execIsubL f s
  | .imulL f => Sys2Proof.Machine.execImulL f s
  | .imulhiL f => Sys2Proof.Machine.execImulhiL f s
  | .imadL f => Sys2Proof.Machine.execImadL f s
  | .iminL f => Sys2Proof.Machine.execIminL f s
  | .imaxL f => Sys2Proof.Machine.execImaxL f s
  | .iabsL f => Sys2Proof.Machine.execIabsL f s
  | .andL f => Sys2Proof.Machine.execAndL f s
  | .orL f => Sys2Proof.Machine.execOrL f s
  | .xorL f => Sys2Proof.Machine.execXorL f s
  | .notL f => Sys2Proof.Machine.execNotL f s
  | .shlL f => Sys2Proof.Machine.execShlL f s
  | .shrL f => Sys2Proof.Machine.execShrL f s
  | .sarL f => Sys2Proof.Machine.execSarL f s
  | .rotlL f => Sys2Proof.Machine.execRotlL f s
  | .popcL f => Sys2Proof.Machine.execPopcL f s
  | .clzL f => Sys2Proof.Machine.execClzL f s
  | .brevL f => Sys2Proof.Machine.execBrevL f s
  | .bfxL f => Sys2Proof.Machine.execBfxL f s
  | .bfiL f => Sys2Proof.Machine.execBfiL f s
  | .selL f => Sys2Proof.Machine.execSelL f s
  | .leaL f => Sys2Proof.Machine.execLeaL f s
  | .faddL f => Sys2Proof.Machine.execFaddL f s
  | .fsubL f => Sys2Proof.Machine.execFsubL f s
  | .fmulL f => Sys2Proof.Machine.execFmulL f s
  | .ffmaL f => Sys2Proof.Machine.execFfmaL f s
  | .fminL f => Sys2Proof.Machine.execFminL f s
  | .fmaxL f => Sys2Proof.Machine.execFmaxL f s
  | .frcpL f => Sys2Proof.Machine.execFrcpL f s
  | .fdivL f => Sys2Proof.Machine.execFdivL f s
  | .fsqrtL f => Sys2Proof.Machine.execFsqrtL f s
  | .frsqL f => Sys2Proof.Machine.execFrsqL f s
  | .fex2L f => Sys2Proof.Machine.execFex2L f s
  | .flg2L f => Sys2Proof.Machine.execFlg2L f s
  | .fsinL f => Sys2Proof.Machine.execFsinL f s
  | .fcosL f => Sys2Proof.Machine.execFcosL f s
  | .fscaleL f => Sys2Proof.Machine.execFscaleL f s
  | .fclassL f => Sys2Proof.Machine.execFclassL f s
  | .movi f => Sys2Proof.Machine.execMovi f s
  | .movhi f => Sys2Proof.Machine.execMovhi f s
  | .iaddi f => Sys2Proof.Machine.execIaddi f s
  | .andi f => Sys2Proof.Machine.execAndi f s
  | .ori f => Sys2Proof.Machine.execOri f s
  | .xori f => Sys2Proof.Machine.execXori f s
  | .shli f => Sys2Proof.Machine.execShli f s
  | .shri f => Sys2Proof.Machine.execShri f s
  | .sari f => Sys2Proof.Machine.execSari f s
  | .rep f target => Sys2Proof.Machine.execRep f target s
  | .movS16 f => Sys2Proof.Machine.execMovS16 f s
  | .iaddS16 f => Sys2Proof.Machine.execIaddS16 f s
  | .isubS16 f => Sys2Proof.Machine.execIsubS16 f s
  | .imulS16 f => Sys2Proof.Machine.execImulS16 f s
  | .andS16 f => Sys2Proof.Machine.execAndS16 f s
  | .orS16 f => Sys2Proof.Machine.execOrS16 f s
  | .xorS16 f => Sys2Proof.Machine.execXorS16 f s
  | .shlS16 f => Sys2Proof.Machine.execShlS16 f s
  | .shrS16 f => Sys2Proof.Machine.execShrS16 f s
  | .sarS16 f => Sys2Proof.Machine.execSarS16 f s
  | .faddS16 f => Sys2Proof.Machine.execFaddS16 f s
  | .fsubS16 f => Sys2Proof.Machine.execFsubS16 f s
  | .fmulS16 f => Sys2Proof.Machine.execFmulS16 f s
  | .fminS16 f => Sys2Proof.Machine.execFminS16 f s
  | .fmaxS16 f => Sys2Proof.Machine.execFmaxS16 f s
  | .iminS16 f => Sys2Proof.Machine.execIminS16 f s
  | .dwadd h u => Sys2Proof.Machine.execDwadd h u s
  | .dwsub h u => Sys2Proof.Machine.execDwsub h u s
  | .dwmul h u => Sys2Proof.Machine.execDwmul h u s
  | .dwnorm h u => Sys2Proof.Machine.execDwnorm h u s
  | .dwcvt h u => Sys2Proof.Machine.execDwcvt h u s
  | .shfl h u => Sys2Proof.Machine.execShfl h u s
  | .shflx h u => Sys2Proof.Machine.execShflx h u s
  | .rfirst h u => Sys2Proof.Machine.execRfirst h u s
  | .rlane h u => Sys2Proof.Machine.execRlane h u s
  | .wlane h u => Sys2Proof.Machine.execWlane h u s
  | .redstep h u => Sys2Proof.Machine.execRedstep h u s
  | .red h u => Sys2Proof.Machine.execRed h u s
  | .redcmp h u => Sys2Proof.Machine.execRedcmp h u s
  | .scan h u => Sys2Proof.Machine.execScan h u s
  | .trn h u => Sys2Proof.Machine.execTrn h u s
  | .cvt h u => Sys2Proof.Machine.execCvt h u s
  | .qblk h u => Sys2Proof.Machine.execQblk h u s
  | .dq h u => Sys2Proof.Machine.execDq h u s
  | .packh h u => Sys2Proof.Machine.execPackh h u s
  | .unpackh h u => Sys2Proof.Machine.execUnpackh h u s
  | .srd h u => Sys2Proof.Machine.execSrd h u s
  | .swr h u => Sys2Proof.Machine.execSwr h u s
  | .ldi h u => Sys2Proof.Machine.execLdi h u s
  | .ld h u => Sys2Proof.Machine.execLd h u s
  | .st h u => Sys2Proof.Machine.execSt h u s
  | .lds h u => Sys2Proof.Machine.execLds h u s
  | .sts h u => Sys2Proof.Machine.execSts h u s
  | .ldf h u => Sys2Proof.Machine.execLdf h u s
  | .stf h u => Sys2Proof.Machine.execStf h u s
  | .atom h u => Sys2Proof.Machine.execAtom h u s
  | .atoms h u => Sys2Proof.Machine.execAtoms h u s
  | .fence h u => Sys2Proof.Machine.execFence h u s
  | .pref h u => Sys2Proof.Machine.execPref h u s
  | .ldrec h u => Sys2Proof.Machine.execLdrec h u s
  | .strec h u => Sys2Proof.Machine.execStrec h u s
  | .barinit h u => Sys2Proof.Machine.execBarinit h u s
  | .bararr h u => Sys2Proof.Machine.execBararr h u s
  | .barwait h u => Sys2Proof.Machine.execBarwait h u s
  | .bartest h u => Sys2Proof.Machine.execBartest h u s
  | .barexp h u => Sys2Proof.Machine.execBarexp h u s
  | .waitf h u => Sys2Proof.Machine.execWaitf h u s
  | .waitc h u => Sys2Proof.Machine.execWaitc h u s
  | .waitt h u => Sys2Proof.Machine.execWaitt h u s
  | .tlarm h u => Sys2Proof.Machine.execTlarm h u s
  | .tlrd h u => Sys2Proof.Machine.execTlrd h u s
  | .flagrd h u => Sys2Proof.Machine.execFlagrd h u s
  | .lcopy h u => Sys2Proof.Machine.execLcopy h u s
  | .bseal h u => Sys2Proof.Machine.execBseal h u s
  | .bwaitn h u => Sys2Proof.Machine.execBwaitn h u s
  | .bwaits h u => Sys2Proof.Machine.execBwaits h u s
  | .btest h u => Sys2Proof.Machine.execBtest h u s
  | .tdef h u => Sys2Proof.Machine.execTdef h u s
  | .tload h u => Sys2Proof.Machine.execTload h u s
  | .tstore h u => Sys2Proof.Machine.execTstore h u s
  | .tmcast h u => Sys2Proof.Machine.execTmcast h u s
  | .tred h u => Sys2Proof.Machine.execTred h u s
  | .tpeer h u => Sys2Proof.Machine.execTpeer h u s
  | .omap h u => Sys2Proof.Machine.execOmap h u s
  | .wbload h u => Sys2Proof.Machine.execWbload h u s
  | .mma h u => Sys2Proof.Machine.execMma h u s
  | .accz h u => Sys2Proof.Machine.execAccz h u s
  | .accld h u => Sys2Proof.Machine.execAccld h u s
  | .accdrain h u => Sys2Proof.Machine.execAccdrain h u s
  | .kvwalk h u => Sys2Proof.Machine.execKvwalk h u s
  | .kvgather h u => Sys2Proof.Machine.execKvgather h u s
  | .kvappend h u => Sys2Proof.Machine.execKvappend h u s
  | .kvtrunc h u => Sys2Proof.Machine.execKvtrunc h u s
  | .kvfork h u => Sys2Proof.Machine.execKvfork h u s
  | .smerge h u => Sys2Proof.Machine.execSmerge h u s
  | .acq h u => Sys2Proof.Machine.execAcq h u s
  | .acqt h u => Sys2Proof.Machine.execAcqt h u s
  | .rel h u => Sys2Proof.Machine.execRel h u s
  | .claimq h u => Sys2Proof.Machine.execClaimq h u s
  | .fjoin h u => Sys2Proof.Machine.execFjoin h u s
  | .fleave h u => Sys2Proof.Machine.execFleave h u s
  | .flockset h u => Sys2Proof.Machine.execFlockset h u s
  | .launch h u => Sys2Proof.Machine.execLaunch h u s
  | .spawn h u => Sys2Proof.Machine.execSpawn h u s
  | .tdep h u => Sys2Proof.Machine.execTdep h u s
  | .tcancel h u => Sys2Proof.Machine.execTcancel h u s
  | .sliceyield h u => Sys2Proof.Machine.execSliceyield h u s
  | .region h u => Sys2Proof.Machine.execRegion h u s
  | .regionend h u => Sys2Proof.Machine.execRegionend h u s
  | .stenq h u => Sys2Proof.Machine.execStenq h u s
  | .stdeq h u => Sys2Proof.Machine.execStdeq h u s
  | .ovfld h u => Sys2Proof.Machine.execOvfld h u s
  | .tlbinv h u => Sys2Proof.Machine.execTlbinv h u s
  | .ctxsave h u => Sys2Proof.Machine.execCtxsave h u s
  | .ctxload h u => Sys2Proof.Machine.execCtxload h u s
  | .qdestroy h u => Sys2Proof.Machine.execQdestroy h u s
  | .swrp h u => Sys2Proof.Machine.execSwrp h u s
  | .halt h u => Sys2Proof.Machine.execHalt h u s
  | .eret h u => Sys2Proof.Machine.execEret h u s
  | .fillerIssue core quarter => Sys2Proof.Machine.execFillerIssue core quarter s
  | .throttleEntry core => Sys2Proof.Machine.execThrottleEntry core s
  | .throttleExit core => Sys2Proof.Machine.execThrottleExit core s
  | .stringBalanceLost core quarter => Sys2Proof.Machine.execStringBalanceLost core quarter s
  | .powerInterval part energyW creditW => Sys2Proof.Machine.execPowerInterval part energyW creditW s
  | .operatingPointChange mhz => Sys2Proof.Machine.execOperatingPointChange mhz s
  | .yieldExpiry w => Sys2Proof.Machine.execYieldExpiry w s
  | .thermalMigrate core => Sys2Proof.Machine.execThermalMigrate core s
  | .thermalTrip core => Sys2Proof.Machine.execThermalTrip core s
  | .railUndervolt core => Sys2Proof.Machine.execRailUndervolt core s
  | .railOvercurrent core => Sys2Proof.Machine.execRailOvercurrent core s
  | .coreUngate core => Sys2Proof.Machine.execCoreUngate core s
  | .powerGate core => Sys2Proof.Machine.execPowerGate core s
  | .loadDataReturn w idx => Sys2Proof.Machine.execLoadDataReturn w idx s
  | .storePerformed w idx => Sys2Proof.Machine.execStorePerformed w idx s
  | .shepherdTest core => Sys2Proof.Machine.execShepherdTest core s
  | .rendezvousComplete blk inst => Sys2Proof.Machine.execRendezvousComplete blk inst s
  | .handlerVector w => Sys2Proof.Machine.execHandlerVector w s
  | .waitcResume w => Sys2Proof.Machine.execWaitcResume w s
  | .barwaitResume w => Sys2Proof.Machine.execBarwaitResume w s
  | .waitfResume w => Sys2Proof.Machine.execWaitfResume w s
  | .waittResume w => Sys2Proof.Machine.execWaittResume w s
  | .batchWaitResume w => Sys2Proof.Machine.execBatchWaitResume w s
  | .bsealResume w => Sys2Proof.Machine.execBsealResume w s
  | .relResume w => Sys2Proof.Machine.execRelResume w s
  | .fleaveResume w => Sys2Proof.Machine.execFleaveResume w s
  | .fjoinResume w => Sys2Proof.Machine.execFjoinResume w s
  | .flagrdResume w => Sys2Proof.Machine.execFlagrdResume w s
  | .stdeqResume w => Sys2Proof.Machine.execStdeqResume w s
  | .stenqResume w => Sys2Proof.Machine.execStenqResume w s
  | .launchQueueResume w => Sys2Proof.Machine.execLaunchQueueResume w s
  | .lcopyTransferDone op => Sys2Proof.Machine.execLcopyTransferDone op s
  | .engineAsyncFault op => Sys2Proof.Machine.execEngineAsyncFault op s
  | .engineReplay op => Sys2Proof.Machine.execEngineReplay op s
  | .tileAccept w => Sys2Proof.Machine.execTileAccept w s
  | .tileOpComplete op => Sys2Proof.Machine.execTileOpComplete op s
  | .tmcastDelivery op rank => Sys2Proof.Machine.execTmcastDelivery op rank s
  | .mmaAFetch w => Sys2Proof.Machine.execMmaAFetch w s
  | .wbloadFillDone w => Sys2Proof.Machine.execWbloadFillDone w s
  | .mmaComplete w => Sys2Proof.Machine.execMmaComplete w s
  | .acczAccldComplete w => Sys2Proof.Machine.execAcczAccldComplete w s
  | .accdrainComplete w => Sys2Proof.Machine.execAccdrainComplete w s
  | .matrixLateFault w => Sys2Proof.Machine.execMatrixLateFault w s
  | .kvgatherWalk op => Sys2Proof.Machine.execKvgatherWalk op s
  | .kvPageDelivery op page => Sys2Proof.Machine.execKvPageDelivery op page s
  | .kvReturnPass op => Sys2Proof.Machine.execKvReturnPass op s
  | .kvappendStep op => Sys2Proof.Machine.execKvappendStep op s
  | .smergeComplete op => Sys2Proof.Machine.execSmergeComplete op s
  | .pagerPageIn part req => Sys2Proof.Machine.execPagerPageIn part req s
  | .pagerDemotion part req => Sys2Proof.Machine.execPagerDemotion part req s
  | .dispatchDecision part => Sys2Proof.Machine.execDispatchDecision part s
  | .blockRetire blk => Sys2Proof.Machine.execBlockRetire blk s
  | .deadlineMissed grid => Sys2Proof.Machine.execDeadlineMissed grid s
  | .budgetExhausted blk => Sys2Proof.Machine.execBudgetExhausted blk s
  | .regionGap blk => Sys2Proof.Machine.execRegionGap blk s
  | .preempt blk reason => Sys2Proof.Machine.execPreempt blk reason s
  | .waitForSample part => Sys2Proof.Machine.execWaitForSample part s
  | .systemHandler part resolved => Sys2Proof.Machine.execSystemHandler part resolved s
  | .eccUncorrectable array phys core w item => Sys2Proof.Machine.execEccUncorrectable array phys core w item s
  | .softErrorCorrect array => Sys2Proof.Machine.execSoftErrorCorrect array s
  | .doorbell part ring tail => Sys2Proof.Machine.execDoorbell part ring tail s
  | .hostPacketLaunch part ring => Sys2Proof.Machine.execHostPacketLaunch part ring s
  | .hostPacketWait part ring => Sys2Proof.Machine.execHostPacketWait part ring s
  | .rsizeWrite part ring value => Sys2Proof.Machine.execRsizeWrite part ring value s
  | .resume part value => Sys2Proof.Machine.execResume part value s
  | .evhead part value => Sys2Proof.Machine.execEvhead part value s
  | .hostRegisterWrite part offset value => Sys2Proof.Machine.execHostRegisterWrite part offset value s
  | .pctlRun part => Sys2Proof.Machine.execPctlRun part s
  | .pctlReset part => Sys2Proof.Machine.execPctlReset part s
  | .partitionReset part => Sys2Proof.Machine.execPartitionReset part s
  | .partitionConfigure part regions memory settings => Sys2Proof.Machine.execPartitionConfigure part regions memory settings s
  | .stileCreate number capacity producer consumer => Sys2Proof.Machine.execStileCreate number capacity producer consumer s
  | .stileDestroy number => Sys2Proof.Machine.execStileDestroy number s
  | .liveUpdate image => Sys2Proof.Machine.execLiveUpdate image s
  | .firmwareTakeover => Sys2Proof.Machine.execFirmwareTakeover s
  | .firmwareRollback => Sys2Proof.Machine.execFirmwareRollback s
  | .watchdog => Sys2Proof.Machine.execWatchdog s
  | .coldStart selfTestPass image0 image1 => Sys2Proof.Machine.execColdStart selfTestPass image0 image1 s
  | .warmStart image => Sys2Proof.Machine.execWarmStart image s
  | .failedStart retry other => Sys2Proof.Machine.execFailedStart retry other s
  | .attestationRequest nonce => Sys2Proof.Machine.execAttestationRequest nonce s
  | .telemetryRead => Sys2Proof.Machine.execTelemetryRead s
  | .linkRetrain peer => Sys2Proof.Machine.execLinkRetrain peer s
  | .linkDown peer => Sys2Proof.Machine.execLinkDown peer s
  | .peerTimeout op => Sys2Proof.Machine.execPeerTimeout op s
  | .ethDown port => Sys2Proof.Machine.execEthDown port s
  | .hostMemoryWrite phys bytes => Sys2Proof.Machine.execHostMemoryWrite phys bytes s
  | .peerAccess kind => Sys2Proof.Machine.execPeerAccess kind s
  | .hostTimeout part op => Sys2Proof.Machine.execHostTimeout part op s

end Sys2Proof.Machine
end

