-- ==== Sys2Proof/Machine/Place.lean ====
section
/-! DEFINITION. How a program is put where the device fetches: a partition, its page tables, a block of one warp and
its code (log 7). It stands for the load and the placement that 19 R325 to R333 and 22 R371 to R373 describe. -/

namespace Sys2Proof.Machine

/-- The virtual address at which a program is placed (log 7). -/
def placedCode : DWord := 0x100000

/-- A pointer to the next table: V. -/
def tableEntry (frame : Nat) : List Byte := leBytes 8 (frame + 1)
/-- A 4 KiB leaf: V, LEAF, RD, W, X. -/
def pageEntry (frame : Nat) : List Byte := leBytes 8 (frame + 0x3B)

/-- Page tables that map `placedCode` to the frame at 0x20000. -/
def placedTables (m : List Host.Cell) : List Host.Cell :=
  memWriteList (memWriteList (memWriteList (memWriteList (memWriteList m 0x10000 (tableEntry 0x11000))
    0x11000 (tableEntry 0x12000)) 0x12000 (tableEntry 0x13000)) 0x13000 (tableEntry 0x14000))
    0x14800 (pageEntry 0x20000)

/-- The partition's settings for a placed program. -/
def placedPart (p : Part) : Part :=
  { p with
    configured := true, regions := [0], share := ⟨0, 1, 0, 0⟩, root := 0x10000, tables := [], frBase := 0x8000, frSize := 16,
    pstate := .running,
    events := none }

/-- The launch record of a placed program: one warp with all registers of the role. -/
def placedRecord : LaunchRec :=
  { LaunchRec.blank with entry := placedCode, regStart := [32], regMax := [32], scrMax := 128, engMax := 32,
                         accMax := [16] }

/-- The block of a placed program. -/
def placedBlock : Block :=
  { Block.blank with
    lrec := placedRecord, claim := [128, 32, 32, 0, 0, 0, 16, 0, 0, 0], alloc := [0, 0, 32, 0, 0, 0, 0, 0, 0, 0] }

/-- The warp of a placed program (06 R126). -/
def placedWarp : Warp := { Warp.blank with pc := placedCode, regEpochs := List.replicate 32 none, regUnits := List.range 32 }

/-- The grid of a placed program. -/
def placedGrid : Grid :=
  { part := 0, job := 1, lrec := placedRecord, recAddr := 0, queue := 0, entryNo := 0, made := none, next := 1,
    live := 1, status := 0, stopped := false, dropStatus := 0, queued := false, tcb := none, hostRing := false,
    deadlineSent := false, bypass := [], code := [], restarts := [] }

/-- A state in which warp 0 of core 0, alone on its core, issues next, at `placedCode`. -/
def State.withProgram (s : State) : State :=
  { s with
    agenda := [], focus := some 0, mem := placedTables s.mem, warps := AMap.put (s.warps.filter (fun e => e.2.core != 0)) 0 placedWarp,
    cores := s.cores.put 0 Core.reset, blocks := s.blocks.put 0 placedBlock, grids := s.grids.put 0 placedGrid,
    nextUid := s.nextUid + 1 }.setPart 0 (placedPart (s.part 0))

/-- The bytes of consecutive units. -/
def unitBytes (us : List (BitVec 16)) : List Byte := us.flatMap (fun u => leBytes 2 u.toNat)

/-- The code of a grid is what memory now holds, as at a launch (04 R92). -/
def State.freshCode (s : State) (g : Nat) : State :=
  match s.grids.find g with
  | some x => s.setGrid g { x with code := [] }
  | none => s

/-- Puts code bytes at the PC of the warp in focus, and gives its quarter the next slot. -/
def State.putCode (s : State) (bs : List Byte) : Option State :=
  match s.focus with
  | none => none
  | some w =>
    match s.runs (s.via w) Rights.x (s.draw 15) (s.warp w).pc bs.length with
    | .error _ => none
    | .ok rs =>
      some (({ s.writeRuns rs bs with parts := s.parts }.freshCode (s.blockOf w).grid).updCore (s.warp w).core
        (fun c => { c with turn := (s.warp w).quarter }))

/-- The next slot of the core of the warp in focus issues that warp. -/
def State.focusNext (s : State) : Bool :=
  match s.focus with
  | none => false
  | some w => s.ready w && s.abreast (s.warp w).core && s.nextTurn (s.warp w).core == .slot (.warp w)

end Sys2Proof.Machine
end

