-- ==== Sys2Proof/Machine/Step.lean ====
section
/-! DEFINITION. One step of the device: the next move of the agenda, or, with none, the next instruction of the warp in
focus (log 1). -/

namespace Sys2Proof.Machine

/-- A warp issues its next instruction (04 R110, 21 R359): a fault of fetch or decoding, or its meaning. Where no record
can be made the core's issue stops. -/
def runWarp (w : Nat) (s : State) : Host.Outcome State Fault Refusal :=
  match s.decodeAt w with
  | .error (f, word) => .next (((s.afterFetch w).fetchFault w f word).getD (s.stall (s.warp w).core))
  | .ok i =>
    match exec i (s.afterFetch w) with
    | .fault .notReady => .next (s.stall (s.warp w).core)
    | r => r

/-- A core takes its next turn (07 R158). -/
def stepTurn (core : Nat) (s : State) : Host.Outcome State Fault Refusal :=
  match s.nextTurn core with
  | .clock => .next (s.clockTick core)
  | .boundary w => .next (s.boundaryMove w)
  | .vector w => .next (s.vectorMove w)
  | .slot (.warp w) => runWarp w { s.endTurn core with focus := some w }
  | .slot (.inst blk id) => exec (.rendezvousComplete blk id) s
  | .slot .filler => exec (.fillerIssue core (s.core core).turn) s
  | .slot .nothing => .next (s.endTurn core)

/-- What a core waits for that is ahead of its partition's string clock (20 R351): the dispatcher's decision, where one is due,
else a turn of a core that is behind it. -/
def stepBehind (core : Nat) (s : State) : Option (Host.Outcome State Fault Refusal) :=
  let part := s.partOfCore core
  if s.decisionDue part then (s.bump.decideStep part).map Host.Outcome.next
  else ((s.busyCores part).filter s.abreast).head?.map (fun c => stepTurn c s)

/-- With no move on the agenda, the core of the warp in focus takes its next turn, or what it waits for comes; without either,
device time advances. -/
def stepFocus (s : State) : Host.Outcome State Fault Refusal :=
  let rest := { s with timeNs := (s.timeNs + 1) % 2 ^ 64 }
  match s.focus with
  | none => .next rest
  | some w =>
    let core := (s.warp w).core
    if (s.warps.find w).isNone || (s.core core).gated then .next rest
    else if s.abreast core then stepTurn core s
    else (stepBehind core s).getD (.next rest)

/-- One move of the agenda. -/
def stepMove (m : Move) (s : State) : Host.Outcome State Fault Refusal :=
  match m with
  | .event i => if i.isWord then .fault (.notEnabled "INSTRUCTION") else exec i s
  | .turn core => if (s.core core).gated || !s.abreast core then .next s else stepTurn core s
  | .time ns => .next { s with timeNs := (s.timeNs + ns) % 2 ^ 64 }
  | .focus w => .next { s with focus := some w }

/-- One step. -/
def step (s : State) : Host.Outcome State Fault Refusal :=
  match s.agenda with
  | m :: t => stepMove m { s with agenda := t }
  | [] => stepFocus s

/-- The state with an instruction of `nbits` bits, zero units behind it, where the next step fetches: at the PC of
the warp in focus if that warp then issues, else in a program placed for it (log 7). -/
def State.withFetchWord (s : State) (nbits w : Nat) : State :=
  let bs := unitBytes (unitsOf 6 (w % 2 ^ nbits))
  match (({ s with agenda := [] } : State).putCode bs).filter State.focusNext with
  | some t => t
  | none => (s.withProgram.putCode bs).getD s.withProgram

end Sys2Proof.Machine
end

