-- ==== Sys2Proof/Safety.lean ====
section
/-! DEFINITION. Safe runs, the invariant that every step keeps, and the terms in which the statements speak of an
issue: the states in which a warp performs an instruction, and what the issue alone changes. -/

namespace Sys2Proof

open Sys2Proof.Machine

/-- A step that gives a next state. -/
def stepsTo (s t : State) : Prop := step s = .next t

/-- What every step keeps: memory in its canonical form (log 3). -/
def Inv (s : State) : Prop := Memory.wf s.mem = true

/-- A run of `n` steps, each of which goes on. -/
def runsTo (n : Nat) (s t : State) : Prop :=
  match n with
  | 0 => s = t
  | n + 1 => ∃ u, stepsTo s u ∧ runsTo n u t

/-- Warp `w` is in focus and ready, and the instruction passes every check of 04 R110. -/
def Runs (s : State) (w : Nat) (i : Instr) : Prop :=
  s.focus = some w ∧ s.ready w = true ∧ s.precheck w i = none

/-- The issue of an instruction before its own effect: the draw index, the charge, the warp's age, and the values that its loads
in flight then have. -/
def started (s : State) (w : Nat) (i : Instr) : State :=
  ((s.bump).chargeIssue w i).updWarp w (fun x => x.issued i)

/-- Warp `w` performs the instruction alone, in some lane, and no vector register is poisoned. -/
def Solo (s : State) (w : Nat) (i : Instr) : Prop :=
  Runs s w i ∧ (s.warp w).vPoison = [] ∧
    (scopeOfInstr i = .lane ∨ (scopeOfInstr i = .warp ∧ (s.warp w).selected i ≠ 0))

/-- A record can be made for warp `w` (21 R353). -/
def Room (s : State) (w : Nat) : Prop := s.canRecord (halfOfCore (s.warp w).core) (s.partOf w) = true

/-- The lanes in which an instruction is performed: lane 0 alone for the one performance at warp scope. -/
def lanesDone (s : State) (w : Nat) (i : Instr) : List Nat :=
  if scopeOfInstr i = .warp then [0] else lanesOf ((s.warp w).selected i)

/-- The outstanding loads of warp `w` once an instruction has written `f l` in each lane performed: their cells of the
registers written are marked, and nothing differs but which of their values stand (02 R43, R59). -/
def loadsMarked (s : State) (w : Nat) (i : Instr) (f : Nat → List (Nat × Word)) : List PendLoad :=
  markCells ((s.warp w).issued i).loads (fun u r l =>
    u = decide (scopeOfInstr i = .warp) && (lanesDone s w i).contains l && (f l).any (fun e => e.1 = r))

/-- `y` is `x` after an instruction that has gone on past itself, with the loads given, but for the register contents and the
flags. -/
def WarpGoesOn (x y : Warp) (i : Instr) (len : Nat) (rep : Option Nat) (loads : List PendLoad) : Prop :=
  y = ({ x with
    v := y.v, s := y.s, p := y.p, loads := loads, sticky := y.sticky, age := 0,
    wait := none, blocked := Blocked.none }.countDither i).advance len rep

/-- Nothing outside warp `w` differs but the draw index and the charge of the issue. -/
def OthersKept (s t : State) (w : Nat) (i : Instr) : Prop :=
  t = { s with freeCtr := s.freeCtr + 1, warps := t.warps, cores := (s.chargeIssue w i).cores } ∧
    ∀ v, v ≠ w → t.warps.find v = s.warps.find v

/-- The frame of an instruction that works on the registers of warp `w` alone, and writes `f l` in each lane performed. -/
def RegistersOnly (s t : State) (w : Nat) (i : Instr) (f : Nat → List (Nat × Word)) : Prop :=
  OthersKept s t w i ∧
    WarpGoesOn (s.warp w) (t.warp w) i (instrLength i) (s.selfActor w i).rep (loadsMarked s w i f)

/-- The flags that those lanes raise. -/
def flagsDone (s : State) (w : Nat) (i : Instr) (f : Nat → LaneOut) : FlagSet :=
  (lanesDone s w i).foldl (fun g l => g ||| (f l).flags) 0

/-- Warp `w` of a state goes on past the instruction that it has performed in `s`. -/
def past (s : State) (w : Nat) (i : Instr) (t : State) : State :=
  t.updWarp w (fun x => (x.unwait.countDither i).advance (instrLength i) (s.selfActor w i).rep)

/-- The state after warp `w`, which has performed an instruction in `s`, goes on past it, unless it has exited. -/
def goesOn (s : State) (w : Nat) (i : Instr) (t : State) : State := t.advanceAll (s.selfActor w i) i

/-- The state after an instruction that changes its warp by `f` and goes on past itself: nothing else differs. -/
def finished (s : State) (w : Nat) (i : Instr) (f : Warp → Warp) : State := past s w i ((started s w i).updWarp w f)

/-- The state after an instruction that changes its warp by `f`, its PC included: nothing else differs. -/
def jumped (s : State) (w : Nat) (i : Instr) (f : Warp → Warp) : State :=
  (started s w i).updWarp w (fun x => (f x).unwait)

/-- The state after an exception that warp `w` alone takes at the PC of `s` (21 R352 to R355). -/
def taken (s : State) (w : Nat) (i : Instr) (f : FaultInfo) (t : State) : State :=
  t.takeException (s.selfActor w i) (s.warp w).pc f false

/-! The rendezvous (06 R128 to R134, 07 R158). -/

/-- Warp `w` comes to a rendezvous at flock or block scope. -/
def Arrives (s : State) (w : Nat) (i : Instr) : Prop :=
  Runs s w i ∧ (scopeOfInstr i = .flock ∨ scopeOfInstr i = .block) ∧
    (started s w i).mismatch (scopeOfInstr i) w = false

/-- The state with warp `w`'s arrival recorded, and the rendezvous as it then stands. -/
def arrival (s : State) (w : Nat) (i : Instr) : State × Inst := (started s w i).addArrival (scopeOfInstr i) w i

/-- The state in which warp `w` has arrived and waits. -/
def arrived (s : State) (w : Nat) (i : Instr) : State := (started s w i).arrive (scopeOfInstr i) w i

/-- Its arrival is the last: every other member has arrived or exited. -/
def Last (s : State) (w : Nat) (i : Instr) : Prop :=
  (started s w i).allArrived (s.warp w).blk (arrival s w i).2 = true

/-- The quarter whose slot is next issues the operation of rendezvous `id` of block `blk`, which is `e`, with warp `v` for its
bellwether, and no member's register is poisoned. -/
def Performs (s : State) (blk id : Nat) (e : Inst) (v : Nat) : Prop :=
  (s.core (s.block blk).core).turn < 4 ∧
    s.selection (s.block blk).core (s.core (s.block blk).core).turn = .inst blk id ∧
    (s.block blk).insts.find? (fun e => e.id = id) = some e ∧ s.bellwether e = some v ∧
    ∀ m ∈ e.arrivals, (s.warp m.w).vPoison = []

/-- The state from which the operation is performed: the slot taken, the members' accesses ordered, the charges placed. -/
def gathered (s : State) (blk : Nat) (e : Inst) (v : Nat) : State :=
  let t := (s.endTurn (s.block blk).core).bump.meet e
  t.chargeInstance (t.instActor e v) e.instr

/-- The members that perform the operation in rank order, led by the bellwether. -/
def company (s : State) (blk : Nat) (e : Inst) (v : Nat) : Actor :=
  ((s.endTurn (s.block blk).core).bump.meet e).instActor e v

/-- The state after the operation has given `t`: every member that has not exited goes past the instruction, and the
rendezvous is gone. -/
def completed (a : Actor) (i : Instr) (t : State) : State := (t.updInst a (fun _ => none)).advanceAll a i

/-- The last of some writes to register `r`, else what it held. -/
def written (ws : List (Nat × Word)) (r : Nat) (old : Word) : Word :=
  ws.foldl (fun b e => if e.1 = r then e.2 else b) old

/-- The vector registers hold `f l` in each lane of `sel` and are unchanged elsewhere; the uniform registers are kept. -/
def LanesWritten (x y : Warp) (sel : Mask) (f : Nat → List (Nat × Word)) : Prop :=
  (∀ r l, l < 32 → y.rawV r l = if sel.getLsbD l then written (f l) r (x.rawV r l) else x.rawV r l) ∧ y.s = x.s

/-- The uniform registers hold the writes; the vector registers are kept. -/
def UniformWritten (x y : Warp) (ws : List (Nat × Word)) : Prop :=
  (∀ r, y.rawS r = written ws r (x.rawS r)) ∧ y.v = x.v

/-- Where an instruction writes, by its scope: each selected lane, or the uniform registers once at warp scope. -/
def Written (x y : Warp) (i : Instr) (f : Nat → List (Nat × Word)) : Prop :=
  if scopeOfInstr i = .warp then UniformWritten x y (f 0) else LanesWritten x y (x.selected i) f

end Sys2Proof
end

