-- ==== Sys2Proof/Certificates/Slice0/Obligations.lean ====
section
/-! DEFINITION. The statements for the provers: what decoding, a step, and each instruction and event do, with their frames,
and the invariant that every step keeps. Each cites the rule of the manual that it formalises. -/

open Sys2Proof Sys2Proof.Machine

/-! Encoding and the step. -/

/-- 04 R90 to R107: the decoder reads back every well-formed instruction from the units that the encoder lays out, with every
operand at every value that its encoding admits. Covers all word constructors of the syntax. -/
def Obligations.DecodeEncode : Prop :=
  ∀ i : Instr, i.wellFormed = true → decode Context.firmware (encode i) = .ok i

/-- 04 R93, R101 to R107, 11, 13, 15, 18 and 20: words of the manual's own listings, and one of each short form written out from
its encoding, decode to the instructions that stand beside them. -/
def Obligations.DecodeWords : Prop :=
  -- 16 bits (R105): im, s, vd, op, 0: v5 := v5 + 3 with the immediate
  decodeTableWord 16 0b1_00011_00101_0001_0 = some (.iaddS16 ⟨true, 3, 5⟩) ∧
  -- 32 bits, L form (R102): vb, va, vd, major 24 FADD, 01
  decodeTableWord 32 0b00000011_00000010_00000001_011000_01 = some (.faddL ⟨1, 2, 3⟩) ∧
  -- 32 bits, I form (R104): imm16, vd, major 48 MOVI, 01
  decodeTableWord 32 0b1111111111111110_00000111_110000_01 = some (.movi ⟨7, 0xFFFE⟩) ∧
  -- 64 bits (R93, R98): BRA by −16 at lane scope under p7
  decodeTableWord 64 0b11111111111111111111111111110000_00_0_0_00000000_0_111_00_1_00001_000000_11 =
    some (.bra ⟨0, false, false, 0, false, 7, .lane⟩ (.xl 0xFFFFFFF0)) ∧
  -- EXIT (R140): CTRL function 8 under p7
  decodeTableWord 64 0b00000000000000000000000000000000_00_0_0_00000000_0_111_00_0_01000_000000_11 =
    some (.exit ⟨0, false, false, 0, false, 7, .lane⟩ (.x ⟨false, false, false, false, false, 0, 0, 0, 0⟩)) ∧
  -- CTRL function 13 is no instruction (R108)
  decodeTableWord 64 0b00000000000000000000000000000000_00_0_0_00000000_0_111_00_0_01101_000000_11 = none

/-- 01 R14, 04 R90, 07 R158, R160, R161, 20 R351, 21 R353, R359, 95, logs 1, 100 and 119: with no move on the agenda, the core of the warp in
focus takes its next turn. Where that is the slot of a quarter which picks warp `w`, the step issues the instruction that the
units at its PC decode to; what the step adds is the slot taken and the TLB entries of the fetch, and where no record can be
made the core's issue stops. The clock ends, with the core's counters, after the fourth slot, and what is due at a warp's
boundary, a complete rendezvous, filler and an idle slot are turns of their own. A quarter with one warp ready, no overdue, no
complete rendezvous and no deficit picks that warp. An event on the agenda is performed by its meaning, and a turn on it is
the turn of the core that it names. A core that is ahead of its partition's string clock, or whose dispatcher has a decision to
take, waits for it (20 R351, log 119): a turn of it changes nothing, and in focus the decision comes, or a turn of a core behind
it. -/
def Obligations.StepRunsDecoded : Prop :=
  (∀ (s : State) (v : Nat), s.agenda = [] → s.focus = some v → (s.warps.find v).isSome = true →
    (s.core (s.warp v).core).gated = false → s.abreast (s.warp v).core = true →
    let core := (s.warp v).core
    (∀ (w : Nat) (i : Instr), s.nextTurn core = .slot (.warp w) →
      let z : State := { s.endTurn core with focus := some w }
      z.decodeAt w = .ok i →
      (∀ t, exec i (z.afterFetch w) = .next t → step s = .next t) ∧
      (exec i (z.afterFetch w) = .fault .notReady → step s = .next (z.stall (z.warp w).core)) ∧
      (z.afterFetch w).mem = s.mem ∧ (z.afterFetch w).warps = s.warps ∧ (z.afterFetch w).blocks = s.blocks ∧
      (z.afterFetch w).parts = s.parts ∧ ((z.afterFetch w).core core).turn = (s.core core).turn + 1) ∧
    (4 ≤ (s.core core).turn → step s = .next (s.clockTick core) ∧ ((s.clockTick core).core core).turn = 0 ∧
      ((s.clockTick core).core core).clock = ((s.core core).clock + 1) % 2 ^ 64) ∧
    (∀ w, s.nextTurn core = .boundary w → step s = .next (s.boundaryMove w)) ∧
    (∀ w, s.nextTurn core = .vector w → step s = .next (s.vectorMove w)) ∧
    (∀ b e t, s.nextTurn core = .slot (.inst b e) → exec (.rendezvousComplete b e) s = .next t → step s = .next t) ∧
    (∀ t, s.nextTurn core = .slot .filler → exec (.fillerIssue core (s.core core).turn) s = .next t → step s = .next t) ∧
    (s.nextTurn core = .slot .nothing → step s = .next (s.endTurn core))) ∧
  (∀ (s : State) (core q w : Nat), (s.core core).gated = false → s.stopped core = false →
    s.stalled core (s.partOfCore core) = false → (s.core core).heldBack = false → s.readyWarps core q = [w] →
    (s.warp w).age < 256 → s.instDue core q = none → s.deficit core q = false → s.selection core q = .warp w) ∧
  (∀ (s : State) (i : Instr) (rest : List Move), s.agenda = .event i :: rest → i.isWord = false →
    step s = exec i { s with agenda := rest }) ∧
  (∀ (s : State) (core : Nat) (rest : List Move), s.agenda = .turn core :: rest → (s.core core).gated = false →
    (s.abreast core = true → step s = stepTurn core { s with agenda := rest }) ∧
    (s.abreast core = false → step s = .next { s with agenda := rest })) ∧
  (∀ (s : State) (v : Nat), s.agenda = [] → s.focus = some v → (s.warps.find v).isSome = true →
    let core := (s.warp v).core
    (s.core core).gated = false → s.abreast core = false →
    (s.decisionDue (s.partOfCore core) = true → ∀ t, s.bump.decideStep (s.partOfCore core) = some t → step s = .next t) ∧
    (s.decisionDue (s.partOfCore core) = false → ∀ c rest, (s.busyCores (s.partOfCore core)).filter s.abreast = c :: rest →
      step s = stepTurn c s))

/-- Every step keeps memory in its canonical form (log 3: the model's own invariant). -/
def Obligations.StepKeepsInv : Prop := ∀ s t : State, Inv s → step s = .next t → Inv t

/-- Memory is in its canonical form after reset (log 3). -/
def Obligations.ResetInv : Prop := Inv State.reset

/-- 02 R41, R44, R48, R50, R53, log 6: races. A read of bytes of which no write is kept gives memory as it stands, and a path of a
warp that has written such bytes reads its own. Every byte that a read gives is the one that stands, or one that a write has
replaced which the reader may still miss. A release carries every write that happens before it; an acquire that reads a release
which it synchronises with misses none of the writes that this one carries. -/
def Obligations.RaceRules : Prop :=
  (∀ (s : State) (g : Agent) (k : Nat) (t : Target), (∀ q ∈ s.keysOf t, s.pastAt q = []) → s.see g k t = s.readTarget k t) ∧
  (∀ (s : State) (w : Nat) (lanes : Mask) (scope k n a : Nat) (p : Put) (bs : List Byte),
    let e : Target := .glob [(.phys a, bs.length)]
    let g := s.path w lanes scope
    Inv s → w < 65536 → (∀ q ∈ s.keysOf e, s.pastAt q = []) → (s.putBy g k p e bs).see g n e = bs) ∧
  (∀ (s : State) (g : Agent) (k : Nat) (t : Target) (i : Nat) (b : Byte), (s.see g k t)[i]? = some b →
    (s.readTarget k t)[i]? = some b ∨ ∃ q, (s.keysOf t)[i]? = some (some q) ∧
      ∃ r ∈ (s.past.find q).getD [], s.mayMiss g r = true ∧ b = r.old) ∧
  (∀ (s : State) (g : Agent) (m : Msg) (q : Nat) (r : Past), r ∈ ((s.publish g m).past.find q).getD [] →
    r.knownBy g = true → r.carries m = true) ∧
  (∀ (s : State) (g : Agent) (rels : List Rel) (q : Nat) (r : Past), r ∈ ((s.hear g true rels).past.find q).getD [] →
    ∀ e ∈ rels, s.syncs g e = true → r.carries e.msg = true → r.unreadBy g = false ∧ (g.lanes ≠ 0 → r.knownBy g = true))

/-- 22 R381, R368, log 3: after a start every partition is unconfigured, no block is resident, and the settings stand at the
defaults of 03 R76, 07 R160, R161 and 19 R329; memory, whose contents R381 leaves open, reads as the model's choice (log 3). -/
def Obligations.ResetLeaves : Prop :=
  State.reset.blocks = [] ∧ State.reset.warps = [] ∧ State.reset.poison = [] ∧
    (∀ a, memRead State.reset.mem a = unlistedByte) ∧
    ∀ p, (State.reset.part p).configured = false ∧ (State.reset.part p).pstate = .stopped ∧
      (State.reset.part p).ovf = 0 ∧ (State.reset.part p).fillerF = 2048 ∧ (State.reset.part p).throtT = 6144 ∧
      (State.reset.part p).ageLim = 8 ∧ (State.reset.part p).pstateWord = 2 ∧ (State.reset.part p).pctlWord = 2

/-! The checks before an instruction's own (04 R110). -/

/-- 04 R110, 06 R133, 21 R353 to R355, log 96: an instruction that fails a check, at any scope, is a precise fault of that cause
by the warp alone: the warp is suspended with its PC at the instruction, its registers and masks are untouched, no rendezvous
is opened or joined, and the record of the cause is made, with no scope flag and no member mask. Where no record can be made,
it does not issue. -/
def Obligations.CheckFaults : Prop :=
  ∀ (s : State) (w : Nat) (i : Instr) (c : Cause), i.isWord = true → s.focus = some w → s.ready w = true →
    s.precheck w i = some c →
    (Room s w → ∃ t, exec i s = .next t ∧
      (t.warp w).susp = some ⟨c, 0, [w], none, false, false, s.recordNo (s.partOf w)⟩ ∧ (t.warp w).wait = none ∧
      (t.warp w).pc = (s.warp w).pc ∧ (t.warp w).v = (s.warp w).v ∧ (t.warp w).s = (s.warp w).s ∧
      (t.warp w).p = (s.warp w).p ∧ (t.warp w).active = (s.warp w).active ∧ t.blocks = s.blocks ∧
      (s.recordOf (s.loneActor w i) (s.warp w).pc (FaultInfo.of c 0)).flags = 0 ∧
      (s.recordOf (s.loneActor w i) (s.warp w).pc (FaultInfo.of c 0)).memberMask = 0 ∧
      t = (started s w i |>.unwaitAll (s.loneActor w i)).takeException (s.loneActor w i) (s.warp w).pc
        (FaultInfo.of c 0) false) ∧
    (¬ Room s w → exec i s = .fault .notReady)

/-- 06 R127, 04 R94, 21 R357, 10 R211, logs 65 and 96: a word does not issue where no warp is in focus, or the warp in focus
waits, is suspended or has something due before it. A word at warp scope whose warp has no selected lane changes nothing and
goes on. An instruction at lane scope, no store and no prefetch, that reads a poisoned register writes nothing and goes on; the trap comes at
the next boundary, behind those already due, by the agent atomic for ATOM and ATOMS and else load. -/
def Obligations.IssueConditions : Prop :=
  (∀ (s : State) (i : Instr), i.isWord = true →
    (s.focus = none → exec i s = .fault .noWarp) ∧
    (∀ w, s.focus = some w → (s.warps.find w).isSome = true → s.ready w = false → exec i s = .fault .notReady) ∧
    (∀ w, Runs s w i → scopeOfInstr i = .warp → (s.warp w).selected i = 0 →
      exec i s = .next (finished s w i (fun x => x)))) ∧
  (∀ (s : State) (w : Nat) (i : Instr), i.isWord = true → Runs s w i → scopeOfInstr i = .lane → isStore i = false → isPref i = false →
    (started s w i).readsPoison (s.selfActor w i) i = true →
    exec i s = .next (finished s w i (fun x =>
      { x with asyncTraps := x.asyncTraps ++
        [⟨if poisonAgent i = 1 then 0x4C else 0x44, poisonAgent i, x.pc, recordWord i⟩] })))


/-! INT, FP, DW, CVT and the short forms. -/

/-- 08 R168 to R173, 04 R104, R105, logs 2 and 9: every INT instruction in every form of it: MOV, IADD, ISUB, IMUL, IMULHI, IMAD,
IMIN, IMAX, IABS, AND, OR, XOR, NOT, SHL, SHR, SAR, ROTL, POPC, CLZ, BREV, BFX, BFI, SEL, LEA; their L forms; MOVI, IADDI,
ANDI, ORI, XORI, SHLI, SHRI, SARI; and MOV_S16 to SAR_S16 with IMIN_S16. It completes; each selected lane's destination (at
warp scope the uniform one) takes the function's value of the operands as R173 lays it out; nothing else changes, and of the
outstanding loads the cells of the registers written are marked (02 R59). -/
def Obligations.IntResults : Prop :=
  ∀ (s : State) (w : Nat) (i : Instr) (fn : Nat) (h : Hdr) (u : Upper),
    (form i).expand = some (2, fn, h, u) → Solo s w i →
    (∀ l ∈ lanesDone s w i,
      (intLane fn (intFn fn u) h u (s.selfActor w i) (started s w i) (s.warp w) l).mark = false) →
    let f := fun l => (intLane fn (intFn fn u) h u (s.selfActor w i) (started s w i) (s.warp w) l).writes
    ∃ t, exec i s = .next t ∧ RegistersOnly s t w i f ∧ (t.warp w).sticky = (s.warp w).sticky ∧
      (t.warp w).p = (s.warp w).p ∧ Written (s.warp w) (t.warp w) i f

/-- 08 R170, R172, R173, R174: the functions of INT at each width, as operations on words of it: the sum, difference, product,
multiply-sum and absolute value, wrapped, saturated to the ends of the range, or wrapped and marked; the high half of the
product; minimum and maximum by the order that X selects; the logic functions with inverted operands; shifts and rotates by
the count mod w; POPC, CLZ, BREV, BFX, BFI, SEL, LEA and MOV, with counts, positions and conditions read as whole registers of
32 bits; and the result laid into the register, extended below 32 bits by X. -/
def Obligations.IntFunctions : Prop :=
  ∀ (w : Nat), w ∈ [8, 16, 32, 64] → ∀ (a b c : BitVec w) (bk ck : BitVec 32) (uns sat ma mb : Bool),
    let q : IntArgs := ⟨w, uns, sat, ma, mb, a.toNat, b.toNat, c.toNat⟩
    -- the operands that R170 names are whole registers
    let k : IntArgs := { q with b := bk.toNat, c := ck.toNat }
    let ki : IntArgs := { q with b := bk.toNat }
    let ks : IntArgs := { q with c := ck.toNat }
    let lo : Int := if uns then 0 else -(2 ^ (w - 1))
    let hi : Int := if uns then 2 ^ w - 1 else 2 ^ (w - 1) - 1
    let is (v : IntVal) (x : BitVec w) : Prop := v = (x.toNat, false)
    let sat' (e : Int) (v : IntVal) : Prop :=
      (lo ≤ e → e ≤ hi → is v (BitVec.ofInt w e)) ∧
      (¬ (lo ≤ e ∧ e ≤ hi) → sat = false → is v (BitVec.ofInt w e)) ∧
      (e < lo → sat = true → mb = false → is v (BitVec.ofInt w lo)) ∧
      (hi < e → sat = true → mb = false → is v (BitVec.ofInt w hi)) ∧
      (¬ (lo ≤ e ∧ e ≤ hi) → sat = true → mb = true → v = ((BitVec.ofInt w e).toNat, true))
    let n (x : BitVec w) : Int := if uns then (x.toNat : Int) else x.toInt
    let wide (x : BitVec w) : BitVec (2 * w) := if uns then x.zeroExtend (2 * w) else x.signExtend (2 * w)
    let sh := bk.toNat % w
    sat' (n a + n b) (intIadd q) ∧ sat' (n a - n b) (intIsub q) ∧ sat' (n a * n b) (intImul q) ∧
    sat' (n a * n b + n c) (intImad q) ∧ (uns = false → sat' |a.toInt| (intIabs q)) ∧
    is (intImulhi q) ((wide a * wide b).extractLsb' w w) ∧
    is (intImin q) (if n a ≤ n b then a else b) ∧ is (intImax q) (if n a ≤ n b then b else a) ∧
    is (intAnd q) ((if ma then ~~~a else a) &&& (if mb then ~~~b else b)) ∧
    is (intOr q) ((if ma then ~~~a else a) ||| (if mb then ~~~b else b)) ∧
    is (intXor q) ((if ma then ~~~a else a) ^^^ (if mb then ~~~b else b)) ∧
    is (intNot q) (~~~a) ∧ is (intMov false q) a ∧ is (intMov true q) b ∧
    is (intShl ki) (a <<< sh) ∧ is (intShr ki) (a >>> sh) ∧ is (intSar ki) (a.sshiftRight sh) ∧
    is (intRotl ki) (a.rotateLeft sh) ∧
    intPopc q = (((List.range w).filter (fun i => a.getLsbD i)).length, false) ∧
    intClz q = (((List.range w).takeWhile (fun i => !a.getLsbD (w - 1 - i))).length, false) ∧
    is (intSel ks) (if ck = 0 then b else a) ∧
    is (intLea k) (a + ((if w = 64 ∧ uns = false then bk.signExtend w else bk.setWidth w) <<< (ck.toNat % w))) ∧
    (∃ x, is (intBrev q) x ∧ ∀ i, i < w → x.getLsbD i = a.getLsbD (w - 1 - i)) ∧
    (let pos := bk.toNat % 256
     let len := min (ck.toNat % 256) (w - pos)
     ∃ x, is (intBfx k) x ∧ ∀ i, i < w → x.getLsbD i =
       (if len = 0 then false else if i < len then a.getLsbD (pos + i) else !uns && a.getLsbD (pos + len - 1))) ∧
    (let pos := bk.toNat % 256
     let len := bk.toNat / 256 % 256
     ∃ x, is (intBfi ki) x ∧ ∀ i, i < w → x.getLsbD i =
       (if pos ≤ i ∧ i < pos + len then a.getLsbD (i - pos) else c.getLsbD i)) ∧
    extendTo w uns a.toNat = (if w < 32 ∧ uns = false then a.signExtend 64 else a.zeroExtend 64)

/-- The value of a finite number. -/
def Sys2Proof.valueOf (n : Bool) (m : Nat) (e : Int) : ℚ := (if n then -1 else 1) * (m : ℚ) * (2 : ℚ) ^ e

/-- The magnitude of the bits of a format below its sign, with the exponent range unbounded above (03 R61, R76). -/
def Sys2Proof.magnitude (f : Fmt) (b : Nat) : ℚ :=
  (if b < 2 ^ f.fbits then (b : ℚ) else 2 ^ f.fbits + ((b % 2 ^ f.fbits : Nat) : ℚ))
    * (2 : ℚ) ^ (f.qmin + ((b / 2 ^ f.fbits - 1 : Nat) : Int))

/-- What an overflowing result becomes (03 R77). -/
def Sys2Proof.overflowed (f : Fmt) (r : Rnd) (neg : Bool) : Nat :=
  let entry := r.ovf.toNat / 4 ^ f.ovfIx % 4
  if r.sat = true ∨ entry = 1 then f.signed neg f.maxBits
  else if entry = 2 then f.nanBits
  else if r.mode = 1 ∨ (r.mode = 2 ∧ neg = true) ∨ (r.mode = 3 ∧ neg = false) then f.signed neg f.maxBits
  else f.signed neg f.infBits

/-- The bits are a nonzero exact value rounded once into the format: from the neighbour toward zero, away from it where the
mode says so, and an overflow where the result passes the largest finite magnitude (03 R73, R74, R76, R77). -/
def Sys2Proof.RoundedOnce (f : Fmt) (r : Rnd) (t : ℝ) (bits : Nat) : Prop :=
  ∃ (lo b : Nat) (neg : Bool), (neg = true ↔ t < 0) ∧ magnitude f lo ≤ |t| ∧ |t| < magnitude f (lo + 1) ∧
    let part := (|t| - magnitude f lo) / (magnitude f (lo + 1) - magnitude f lo)
    let up : Prop := part ≠ 0 ∧ (match r.mode with
      | 0 => 1 / 2 < part ∨ (part = 1 / 2 ∧ lo % 2 = 1)
      | 1 => False
      | 2 => neg = false
      | 3 => neg = true
      | _ => (r.dither : Int) < ⌊part * 2 ^ 32⌋)
    (up → b = lo + 1) ∧ (¬ up → b = lo) ∧
      bits = (if f.infBits ≤ b then overflowed f r neg else f.signed neg b)

/-- 08 R176 to R182, 04 R102, R105, 03 R73 to R78, logs 2 and 8: every FP instruction in every form of it: FADD, FSUB, FMUL, FFMA,
FMIN, FMAX, FRCP, FDIV, FSQRT, FRSQ, FEX2, FLG2, FSIN, FCOS, FSCALE, FCLASS; their L forms; FADD_S16, FSUB_S16, FMUL_S16,
FMIN_S16 and FMAX_S16. Where no flag raised is enabled, it completes: the destinations take the function's value, the flags of
the performed lanes are merged into STICKY, and nothing else changes. Of finite operands, FADD, FSUB, FMUL, FFMA, FDIV, FRCP,
FSQRT and FSCALE give the exact result rounded once, and an exact zero the zero of the sign that the rule gives. -/
def Obligations.FpResults : Prop :=
  (∀ (s : State) (w : Nat) (i : Instr) (fn : Nat) (h : Hdr) (u : Upper),
    (form i).expand = some (3, fn, h, u) → Solo s w i →
    let f := fpLane fn (fpFn fn) h u (s.selfActor w i) (started s w i) (s.warp w)
    enabledFlags (s.warp w).trapen (fpGroup h.width) (flagsDone s w i f) = 0 →
    ∃ t, exec i s = .next t ∧ RegistersOnly s t w i (fun l => (f l).writes) ∧
      (t.warp w).sticky = (s.warp w).sticky ||| (flagsDone s w i f).zeroExtend 32 ∧
      (t.warp w).p = (s.warp w).p ∧ Written (s.warp w) (t.warp w) i (fun l => (f l).writes)) ∧
  (∀ (q : FpArgs) (na nb nc : Bool) (ma mb mc : Nat) (ea eb ec : Int),
    q.f ∈ [fp32, fp64, fp16, bf16] → q.r.mode ≤ 4 → q.a = .fin na ma ea → q.b = .fin nb mb eb → q.c = .fin nc mc ec →
    let a : ℝ := valueOf na ma ea
    let b : ℝ := valueOf nb mb eb
    let c : ℝ := valueOf nc mc ec
    let gives (t : ℝ) (v : FpVal) (zero : Bool) : Prop :=
      (t ≠ 0 → RoundedOnce q.f q.r t v.bits) ∧ (t = 0 → v.bits = q.f.signed zero 0)
    -- the sign of an exact sum of zero
    let zero (m n : Nat) (s t : Bool) : Bool := if m = 0 ∧ n = 0 ∧ s = t then s else decide (q.r.mode = 3)
    gives (a + b) (fpFadd q) (zero ma mb na nb) ∧ gives (a - b) (fpFsub q) (zero ma mb na (!nb)) ∧
    gives (a * b) (fpFmul q) (na != nb) ∧ gives (a * b + c) (fpFfma q) (zero (ma * mb) mc (na != nb) nc) ∧
    (mb ≠ 0 → gives (a / b) (fpFdiv q) (na != nb)) ∧ (ma ≠ 0 → gives (1 / a) (fpFrcp q) na) ∧
    (ma = 0 ∨ na = false → gives (Real.sqrt a) (fpFsqrt q) na) ∧
    gives (a * (2 : ℝ) ^ q.n) (fpFscale q) na)

/-- 03 R82, R83, 08 R174, R175, R179, log 92: an instruction that traps on completion has written its results and flags, and its
PC lies past it. A flag that TRAPEN enables traps, whether or not STICKY holds it already (log 92), with cause 0x20 + 6 x
group + the lowest enabled flag raised; a lane whose exact result is out of range under sat with mb traps with
INTEGER-OVERFLOW, detail the function. The record's lanes are those that raised the flag, or that are marked. -/
def Obligations.CompletionTraps : Prop :=
  ∀ (s : State) (w : Nat) (i : Instr) (fn : Nat) (h : Hdr) (u : Upper), Solo s w i → Room s w → scopeOfInstr i = .lane →
    ((form i).expand = some (3, fn, h, u) →
      let f := fpLane fn (fpFn fn) h u (s.selfActor w i) (started s w i) (s.warp w)
      let en := enabledFlags (s.warp w).trapen (fpGroup h.width) (flagsDone s w i f)
      en ≠ 0 →
      exec i s = .next (taken s w i
        { FaultInfo.of (BitVec.ofNat 8 (0x20 + 6 * fpGroup h.width + lowestFlag en)) 0 with
          lanes := maskOf ((lanesDone s w i).filter (fun l => (f l).flags.getLsbD (lowestFlag en))) }
        (finished s w i (fun x =>
          ((lanesDone s w i).foldl (fun y l => y.writeLane false l (f l).writes) x).raise (flagsDone s w i f))))) ∧
    ((form i).expand = some (2, fn, h, u) →
      let f := intLane fn (intFn fn u) h u (s.selfActor w i) (started s w i) (s.warp w)
      (∃ l ∈ lanesDone s w i, (f l).mark = true) →
      exec i s = .next (taken s w i
        { FaultInfo.of 0x3E fn with lanes := maskOf ((lanesDone s w i).filter (fun l => (f l).mark)) }
        (finished s w i (fun x => (lanesDone s w i).foldl (fun y l => y.writeLane false l (f l).writes) x))))

/-- The order of minimumNumber and maximumNumber: by value, with −0 below +0 and the infinities at the ends. -/
def Sys2Proof.below (a b : Machine.Num) : Prop :=
  match a, b with
  | .inf m, .inf n => m = true ∧ n = false
  | .inf m, .fin _ _ _ => m = true
  | .fin _ _ _, .inf n => n = false
  | .fin s m e, .fin t n k => valueOf s m e < valueOf t n k ∨ (m = 0 ∧ n = 0 ∧ s = true ∧ t = false)
  | _, _ => False

/-- 03 R63: FMIN and FMAX, in every format: of two numbers the lesser and the greater; of a NaN and a number the number, with IV
if the NaN is signalling; of two NaN the canonical NaN. -/
def Obligations.MinMaxRule : Prop :=
  ∀ (q : FpArgs), q.f ∈ [fp32, fp64, fp16, bf16] → ∀ (s : Bool),
    (below q.a q.b →
      fpFmin q = ⟨(q.f.roundNum q.r q.a).1, 0, 0⟩ ∧ fpFmax q = ⟨(q.f.roundNum q.r q.b).1, 0, 0⟩) ∧
    (below q.b q.a →
      fpFmin q = ⟨(q.f.roundNum q.r q.b).1, 0, 0⟩ ∧ fpFmax q = ⟨(q.f.roundNum q.r q.a).1, 0, 0⟩) ∧
    (q.a = .nan s → q.b.isNan = false →
      fpFmin q = ⟨(q.f.roundNum q.r q.b).1, 0, flagIf s fIV⟩ ∧ fpFmax q = ⟨(q.f.roundNum q.r q.b).1, 0, flagIf s fIV⟩) ∧
    (q.b = .nan s → q.a.isNan = false →
      fpFmin q = ⟨(q.f.roundNum q.r q.a).1, 0, flagIf s fIV⟩ ∧ fpFmax q = ⟨(q.f.roundNum q.r q.a).1, 0, flagIf s fIV⟩) ∧
    (∀ z, q.a = .nan s → q.b = .nan z →
      fpFmin q = ⟨q.f.nanBits, 0, flagIf (s || z) fIV⟩ ∧ fpFmax q = ⟨q.f.nanBits, 0, flagIf (s || z) fIV⟩)

/-- The lanes' functions of the remaining register instructions: the TRAPEN group of their flags, and what a lane gives. -/
def Sys2Proof.laneMeaning (i : Instr) : Option (Nat × (Actor → State → Warp → Nat → LaneOut)) :=
  match i with
  | .dwadd h u => some (dwGroup, dwLane dwAdd h u)
  | .dwsub h u => some (dwGroup, dwLane dwSub h u)
  | .dwmul h u => some (dwGroup, dwLane dwMul h u)
  | .dwnorm h u => some (dwGroup, dwLane dwNorm h u)
  | .dwcvt h u => some (dwGroup, dwcvtLane h u)
  | .cvt h u => some (cvtTrapGroup u, cvtLane h u)
  | .qblk h u => some (3, qblkLane h u)
  | .dq h u => some (fpGroup h.width, dqLane h u)
  | .packh h u => some (2, packhLane h u)
  | .unpackh h u => some (2, unpackhLane h u)
  | .movhi f => some (0, fun _ s => movhiLane f s)
  | .ldi h (.xl imm) => some (0, fun _ _ _ _ => ⟨pairWrites (h.width == 1) h.vd (imm.signExtend 64), 0, false⟩)
  | _ => none

/-- 09 R187, R188, R200 to R204, 04 R104, 06 R150, logs 2, 26 and 27: DWADD, DWSUB, DWMUL, DWNORM, DWCVT, CVT, QBLK, DQ, PACKH,
UNPACKH, MOVHI and LDI complete where nothing that a performed lane raises traps: their destinations take what each lane
gives, the flags are merged, and nothing else changes. -/
def Obligations.LaneResults : Prop :=
  ∀ (s : State) (w : Nat) (i : Instr) (g : Nat) (m : Actor → State → Warp → Nat → LaneOut),
    laneMeaning i = some (g, m) → Solo s w i →
    let f := m (s.selfActor w i) (started s w i) (s.warp w)
    enabledFlags (s.warp w).trapen g (flagsDone s w i f) = 0 → (∀ l ∈ lanesDone s w i, (f l).mark = false) →
    ∃ t, exec i s = .next t ∧ RegistersOnly s t w i (fun l => (f l).writes) ∧
      (t.warp w).sticky = (s.warp w).sticky ||| (flagsDone s w i f).zeroExtend 32 ∧
      (t.warp w).p = (s.warp w).p ∧ Written (s.warp w) (t.warp w) i (fun l => (f l).writes)

/-- What a lane gives in one repeat of a target that works on registers: the TRAPEN group of its flags, and its results. -/
def Sys2Proof.repeatMeaning (t : Stepped) : Option (Nat × (Actor → State → Warp → Nat → LaneOut)) :=
  match t with
  | .w64 2 fn h u _ => some (0, intLane fn (intFn fn u) h u)
  | .w64 3 fn h u _ => some (fpGroup h.width, fpLane fn (fpFn fn) h u)
  | .w64 4 0 h u _ => laneMeaning (.dwadd h u)
  | .w64 4 1 h u _ => laneMeaning (.dwsub h u)
  | .w64 4 2 h u _ => laneMeaning (.dwmul h u)
  | .w64 4 3 h u _ => laneMeaning (.dwnorm h u)
  | .w64 4 4 h u _ => laneMeaning (.dwcvt h u)
  | .w64 6 0 h u _ => laneMeaning (.cvt h u)
  | .w64 6 1 h u _ => laneMeaning (.qblk h u)
  | .w64 6 2 h u _ => laneMeaning (.dq h u)
  | .w64 6 3 h u _ => laneMeaning (.packh h u)
  | .w64 6 4 h u _ => laneMeaning (.unpackh h u)
  | .movhi g _ => laneMeaning (.movhi g)
  | _ => none

/-- 06 R144, R145, 04 R103, 10 R214, logs 13 and 117: a REP pair performs one repeat of its target at each issue, with the fields
stepped by REPI. A target of INT, FP, DW or CVT, or MOVHI, writes what its lanes give; a load counts the load of its elements,
and a store stores them, as LD, LDS, ST and STS do. REPI counts up while repeats are left, and after the last it is 0 and the
PC lies past the target; so it is where REPI already stands above the count, which is the model's choice (log 117). -/
def Obligations.RepRepeats : Prop :=
  ∀ (s : State) (w : Nat) (f : RepForm) (t : Instr) (p : Stepped),
    let i : Instr := .rep f t
    let z := started s w i
    let a := s.selfActor w i
    let goes (y : State) : Prop :=
      (y.warp w).repi = (if (s.warp w).repi < f.count.toNat then (s.warp w).repi + 1 else 0) ∧
      (y.warp w).pc = (if (s.warp w).repi < f.count.toNat then (s.warp w).pc
        else canon57 ((s.warp w).pc + BitVec.ofNat 64 (4 + instrLength t)))
    Solo s w i → stepTarget f (form t) (s.warp w).repi = some p →
    (∀ (g : Nat) (m : Actor → State → Warp → Nat → LaneOut), repeatMeaning p = some (g, m) →
      let out := m a z (s.warp w)
      (∀ l ∈ lanesDone s w i, (out l).mark = false) → enabledFlags (s.warp w).trapen g (flagsDone s w i out) = 0 →
      ∃ y, exec i s = .next y ∧ RegistersOnly s y w i (fun l => (out l).writes) ∧
        (y.warp w).sticky = (s.warp w).sticky ||| (flagsDone s w i out).zeroExtend 32 ∧
        Written (s.warp w) (y.warp w) i (fun l => (out l).writes) ∧ goes y) ∧
    (∀ (fn : Nat) (h : Hdr) (g : MForm) (o : Fields) (rs : List (Item × Target)), p = .w64 8 fn h (.m g) o →
      let size := esizeBytes g.esize
      let its := z.items a g size
      let ts := rs.map (fun e => e.2)
      let who := z.path w (s.warp w).active g.mscope.toNat
      let resolved (r : Rights) : Prop :=
        z.resolve a 0 fn (memSpace fn) r size (if g.order == 0 then 1 else size) its = .ok rs
      (fn = 0 ∨ fn = 2 → its ≠ [] → (s.warp w).loads.length < 63 → resolved (Rights.r (g.mscope == 5)) →
        ∃ y, exec i s = .next y ∧ goes y ∧ (∀ v, v ≠ w → y.warps.find v = s.warps.find v) ∧ y.mem = s.mem ∧
          y.blocks = s.blocks ∧ (y.warp w).v = (s.warp w).v ∧ (y.warp w).s = (s.warp w).s ∧
          (y.warp w).loads.length = (s.warp w).loads.length + 1 ∧
          ∃ q, (y.warp w).loads.getLast? = some q ∧ q.bad = z.badLoad ts ∧ q.atomic = false ∧ q.done = false ∧
            q.cells = rs.flatMap (fun e => (cellsOf w (h.scope == .warp) h.vd.toNat e.1.lane
              (loadWords (z.see { who with lane := e.1.lane } (z.draw 6) e.2) h.x)).map (fun c => c.2))) ∧
      (fn = 1 ∨ fn = 3 → its ≠ [] → (s.warp w).stores.length < 63 → resolved (Rights.w (g.mscope == 5)) →
        exec i s = .next (past s w i (((((z.fixReads a ts).fillFor a (memSpace fn) its).released a g).storeAll
          (Put.store (releases g)) (rs.map (fun e => ({ who with lane := e.1.lane }, e.2,
            storeBytes ((started s w i).warp w) (z.draw 4) (h.scope == .warp) h.vd.toNat e.1.lane size)))).pushStores a
          (z.badStore ts) fn ts false))))

/-! PRED. -/

/-- 06 R146, R147, log 2: ICMPP and FCMPP complete where no flag raised is enabled; each selected lane's bit of the predicate (at
warp scope all W bits) takes the comparison, a write to p7 is ignored, IV merges, and nothing else changes. -/
def Obligations.CompareResults : Prop :=
  ∀ (s : State) (w : Nat) (h : Hdr) (u : Upper) (fp : Bool),
    let i : Instr := if fp then .fcmpp h u else .icmpp h u
    let c := ctxOf (s.selfActor w i) (started s w i)
    let f (l : Nat) := if fp then fcmppLane h u c (s.warp w) l else icmppLane h u c (s.warp w) l
    let flags := (lanesDone s w i).foldl (fun g l => g ||| (f l).2) (0 : FlagSet)
    let set := maskOf ((lanesDone s w i).filter (fun l => (f l).1))
    Solo s w i → enabledFlags (s.warp w).trapen (if fp then fpGroup h.width else 0) flags = 0 →
    exec i s = .next (finished s w i (fun x =>
      (x.writeP h.vd.toNat (if h.scope = .warp then (if set = 0 then 0 else x.width)
        else withBits (x.readP h.vd.toNat) set (x.selected i))).raise flags))

/-- 06 R148: PBOOL, PMOV, PCNT, PFIRST and PQRY of one warp complete with the result that the rule gives, and change nothing
else. At flock and block scope PCNT and PQRY count over the members' participating lanes, concatenated by rank, and the result
goes to every member; PQRY's mask mode is an illegal scope there. -/
def Obligations.PredicateResults : Prop :=
  (∀ (s : State) (blk id : Nat) (e : Inst) (v : Nat) (h : Hdr) (f : XForm), Performs s blk id e v →
    (e.scope = .flock ∨ e.scope = .block) →
    let a := company s blk e v
    let g := gathered s blk e v
    let lanes := a.members.flatMap (fun m => (lanesOf m.sel).map (fun l =>
      (32 * g.rankIn e.scope m.w + l, ((g.warp m.w).readP f.va.toNat).getLsbD l)))
    let set := lanes.filter (fun n => n.2)
    let does (n : Word) : Prop := exec (.rendezvousComplete blk id) s = .next (completed a e.instr
      ((g.liveMembers a).foldl (fun z m => z.updWarp m.w (fun x => x.writeS h.vd.toNat n)) g))
    (e.instr = .pcnt h (.x f) → does (BitVec.ofNat 32 set.length)) ∧
    (e.instr = .pqry h (.x f) → f.vc = 0 →
      does ((if set = [] then 0 else 1) ||| (if ∀ n ∈ lanes, n.2 = true then 0 else 2))) ∧
    (e.instr = .pqry h (.x f) → f.vc = 2 →
      does (match set.head? with | some n => BitVec.ofNat 32 n.1 | none => 0xFFFFFFFF))) ∧
  (∀ (c : Context) (h : Hdr) (f : XForm), f.vc = 1 → h.scope = .warp → (Instr.pqry h (.x f)).wellFormed = true →
    ∀ sc ∈ [Scope.flock, .block],
      decode c (encode (.pqry { h with scope := sc } (.x f))) = .error 0x12) ∧
  ∀ (s : State) (w : Nat) (h : Hdr) (f : XForm),
    let x := s.warp w
    let warp := h.scope = .warp
    let k := (started s w (.nop h (.x f))).draw 0
    (Solo s w (.pbool h (.x f)) →
      let p := if f.ma then ~~~(x.readP f.va.toNat) else x.readP f.va.toNat
      let q := if f.mb then ~~~(x.readP f.vb.toNat) else x.readP f.vb.toNat
      let r := maskOf ((List.range 32).filter (fun l =>
        f.vc.getLsbD (2 * (if p.getLsbD l then 1 else 0) + (if q.getLsbD l then 1 else 0))))
      exec (.pbool h (.x f)) s = .next (finished s w (.pbool h (.x f)) (fun x =>
        x.writeP h.vd.toNat (withBits (x.readP h.vd.toNat) r
          (if warp then x.width else x.selected (.pbool h (.x f))))))) ∧
    (Solo s w (.pmov h (.x f)) → h.x = true → warp →
      exec (.pmov h (.x f)) s = .next (finished s w (.pmov h (.x f)) (fun x =>
        x.writeS h.vd.toNat (x.readP f.va.toNat &&& x.width)))) ∧
    (Solo s w (.pmov h (.x f)) → h.x = true → ¬ warp →
      exec (.pmov h (.x f)) s = .next (finished s w (.pmov h (.x f)) (fun x =>
        (lanesOf (x.selected (.pmov h (.x f)))).foldl (fun y l =>
          y.writeV h.vd.toNat l (if (x.readP f.va.toNat).getLsbD l then 1 else 0)) x))) ∧
    (Solo s w (.pmov h (.x f)) → h.x = false → warp →
      exec (.pmov h (.x f)) s = .next (finished s w (.pmov h (.x f)) (fun x =>
        x.writeP h.vd.toNat (x.readS k f.va.toNat &&& x.width)))) ∧
    (Solo s w (.pmov h (.x f)) → h.x = false → ¬ warp →
      exec (.pmov h (.x f)) s = .next (finished s w (.pmov h (.x f)) (fun x =>
        x.writeP h.vd.toNat (withBits (x.readP h.vd.toNat)
          (maskOf ((lanesOf (x.selected (.pmov h (.x f)))).filter (fun l => x.readV k f.va.toNat l != 0)))
          (x.selected (.pmov h (.x f))))))) ∧
    (Solo s w (.pcnt h (.x f)) →
      exec (.pcnt h (.x f)) s = .next (finished s w (.pcnt h (.x f)) (fun x =>
        x.writeS h.vd.toNat (BitVec.ofNat 32 (popMask (x.readP f.va.toNat &&& x.selected (.pcnt h (.x f)))))))) ∧
    (Solo s w (.pfirst h (.x f)) →
      exec (.pfirst h (.x f)) s = .next (finished s w (.pfirst h (.x f)) (fun x =>
        x.writeP h.vd.toNat (lowestLane (x.readP f.va.toNat &&& x.selected (.pfirst h (.x f))))))) ∧
    (Solo s w (.pqry h (.x f)) →
      let set := x.readP f.va.toNat &&& x.selected (.pqry h (.x f))
      let clear := ~~~(x.readP f.va.toNat) &&& x.selected (.pqry h (.x f))
      exec (.pqry h (.x f)) s = .next (finished s w (.pqry h (.x f)) (fun x =>
        x.writeS h.vd.toNat (if f.vc = 1 then set
          else if f.vc = 2 then (match (lanesOf set).head? with | some l => BitVec.ofNat 32 l | none => 0xFFFFFFFF)
          else (if set = 0 then 0 else 1) ||| (if clear = 0 then 0 else 2)))))

/-! CTRL. -/

/-- Where a transfer goes, and whether it is a call. -/
def Sys2Proof.transferOf (s : State) (w : Nat) (i : Instr) : Option (Bool × DWord) :=
  let x := s.warp w
  match i with
  | .bra _ (.xl imm) => some (false, x.pc + imm.signExtend 64)
  | .call _ (.xl imm) => some (true, x.pc + imm.signExtend 64)
  | .brx _ (.x f) => some (false, x.readPairS ((started s w i).draw 0) f.va.toNat)
  | .callx _ (.x f) => some (true, x.readPairS ((started s w i).draw 0) f.va.toNat)
  | _ => none

/-- 06 R136, R140, log 21: BRA, BRX, CALL and CALLX. With no lane selected the warp goes on; with every active lane selected it
goes to the target; otherwise the other lanes are pushed as a pending path at the next instruction and the selected ones go.
CALL and CALLX then push the return PC and the depth. A bad target, a full call stack and a full divergence stack are precise
faults. -/
def Obligations.TransferRule : Prop :=
  ∀ (s : State) (w : Nat) (i : Instr) (call : Bool) (target : DWord),
    transferOf s w i = some (call, target) → Solo s w i →
    let x := s.warp w
    let sel := x.selected i
    let rest := if scopeOfInstr i = .warp then 0 else x.active &&& ~~~sel
    let next := canon57 (x.pc + BitVec.ofNat 64 (instrLength i))
    (sel = 0 → exec i s = .next (finished s w i (fun x => x))) ∧
    (sel ≠ 0 → codeAddr target = true → (call = true → x.cstack.length < 16) →
      (rest ≠ 0 → x.dstack.length < 32) →
      exec i s = .next (jumped s w i (fun x =>
        { x with
          pc := target, active := if rest = 0 then x.active else sel,
          dstack := if rest = 0 then x.dstack else .pending next rest :: x.dstack,
          cstack := if call then ⟨next, x.dstack.length + (if rest = 0 then 0 else 1)⟩ :: x.cstack else x.cstack }))) ∧
    (sel ≠ 0 → codeAddr target = false → Room s w →
      exec i s = .next (taken s w i (FaultInfo.of 0x1C 0) ((started s w i).updWarp w (fun x => x.unwait)))) ∧
    (sel ≠ 0 → codeAddr target = true → call = true → 16 ≤ x.cstack.length → Room s w →
      exec i s = .next (taken s w i (FaultInfo.of 0x19 0) ((started s w i).updWarp w (fun x => x.unwait)))) ∧
    (sel ≠ 0 → codeAddr target = true → (call = true → x.cstack.length < 16) → rest ≠ 0 → 32 ≤ x.dstack.length →
      Room s w →
      exec i s = .next (taken s w i (FaultInfo.of 0x1A 0) ((started s w i).updWarp w (fun x => x.unwait))))

/-- 06 R140, log 21: RET goes to the return PC of the top call-stack entry at the depth that the entry holds; an empty stack and
another depth are precise faults. -/
def Obligations.ReturnRule : Prop :=
  ∀ (s : State) (w : Nat) (h : Hdr) (u : Upper), Solo s w (.ret h u) →
    let x := s.warp w
    (∀ e t, x.cstack = e :: t → e.depth = x.dstack.length →
      exec (.ret h u) s = .next (jumped s w (.ret h u) (fun x => { x with cstack := t, pc := e.ret }))) ∧
    (∀ e t, x.cstack = e :: t → e.depth ≠ x.dstack.length → Room s w →
      exec (.ret h u) s =
        .next (taken s w (.ret h u) (FaultInfo.of 0x1A 2) ((started s w (.ret h u)).updWarp w (fun x => x.unwait)))) ∧
    (x.cstack = [] → Room s w →
      exec (.ret h u) s =
        .next (taken s w (.ret h u) (FaultInfo.of 0x19 0) ((started s w (.ret h u)).updWarp w (fun x => x.unwait))))

/-- 02 R43, 06 R135, R137, R140, log 6: RPUSH pushes a reconvergence entry of the displaced PC and the active mask, or faults on a
full stack. RJOIN drops entries with empty masks, and then resumes a pending path or reconverges behind itself; it faults
where the topmost reconvergence PC is not its own. What one path of the lanes that reconverge has seen of memory, all have
then: the rule's ordering point (02 R43) in the model's own form (log 6). -/
def Obligations.DivergenceRule : Prop :=
  ∀ (s : State) (w : Nat) (h : Hdr) (u : Upper) (imm : BitVec 32),
    let x := s.warp w
    let st := x.dstack.dropWhile (fun e => e.mask == 0)
    (Solo s w (.rpush h (.xl imm)) → x.dstack.length < 32 →
      exec (.rpush h (.xl imm)) s = .next (finished s w (.rpush h (.xl imm)) (fun x =>
        { x with dstack := .reconv (x.pc + imm.signExtend 64) x.active :: x.dstack }))) ∧
    (Solo s w (.rpush h (.xl imm)) → 32 ≤ x.dstack.length → Room s w →
      exec (.rpush h (.xl imm)) s = .next (taken s w (.rpush h (.xl imm)) (FaultInfo.of 0x1A 0)
        ((started s w (.rpush h (.xl imm))).updWarp w (fun x => x.unwait)))) ∧
    (Solo s w (.rjoin h u) → topReconv st = some x.pc → ∀ pc m t, st = .pending pc m :: t →
      exec (.rjoin h u) s = .next (jumped s w (.rjoin h u) (fun x => { x with dstack := t, pc := pc, active := m }))) ∧
    (Solo s w (.rjoin h u) → ∀ m t, st = .reconv x.pc m :: t →
      exec (.rjoin h u) s = .next (past s w (.rjoin h u) (((started s w (.rjoin h u)).reconverge w m).updWarp w
        (fun x => { x with dstack := t, active := m })))) ∧
    (Solo s w (.rjoin h u) → topReconv st ≠ some x.pc → Room s w →
      exec (.rjoin h u) s = .next (taken s w (.rjoin h u) (FaultInfo.of 0x1A 1)
        ((started s w (.rjoin h u)).updWarp w (fun x => x.unwait))))

/-- 04 R91, 06 R130, R138, log 116: EXIT removes the selected lanes for good: from the live mask and from every mask of the stack.
Lanes still active go on; otherwise the topmost entry with lanes left is resumed, a reconvergence entry behind its RJOIN. With
no lane left the warp has exited, and its outstanding loads write no register. A place to resume that is odd or not canonical
is a precise fault. Nothing else changes but what is kept of races and the block's rendezvous, which an exit may complete. -/
def Obligations.ExitRule : Prop :=
  ∀ (s : State) (w : Nat) (h : Hdr) (u : Upper), Solo s w (.exit h u) →
    let i : Instr := .exit h u
    let x := s.warp w
    let l := x.selected i
    let next := canon57 (x.pc + BitVec.ofNat 64 (instrLength i))
    let left := (x.dstack.map (fun e => e.without l)).dropWhile (fun e => e.mask == 0)
    (l = 0 → exec i s = .next (finished s w i (fun x => x))) ∧
    (l ≠ 0 → codeAddr (x.exitLanes l next).pc = true → ∃ t, exec i s = .next t ∧
      (∀ v, v ≠ w → t.warps.find v = s.warps.find v) ∧ t.mem = s.mem ∧ t.poison = s.poison ∧ t.parts = s.parts ∧
      t.grids = s.grids ∧ t.ops = s.ops ∧ t.cores = (s.chargeIssue w i).cores ∧
      (∀ b, b ≠ x.blk → t.block b = s.block b) ∧ t.block x.blk = { s.block x.blk with insts := (t.block x.blk).insts } ∧
      (t.warp w).live = x.live &&& ~~~l ∧ (t.warp w).v = x.v ∧ (t.warp w).s = x.s ∧ (t.warp w).p = x.p ∧
      (t.warp w).cstack = x.cstack ∧ (t.warp w).sticky = x.sticky ∧ (t.warp w).stores = x.stores ∧
      (t.warp w).uemask = x.uemask &&& ~~~l ∧
      (x.active &&& ~~~l ≠ 0 →
        (t.warp w).active = x.active &&& ~~~l ∧ (t.warp w).pc = next ∧ (t.warp w).loads = (x.issued i).loads ∧
        (t.warp w).dstack = x.dstack.map (fun e => e.without l)) ∧
      (x.active &&& ~~~l = 0 → x.live &&& ~~~l ≠ 0 → ∀ (e : DivEntry) (rest : List DivEntry), left = e :: rest →
        (t.warp w).active = e.mask ∧ (t.warp w).dstack = rest ∧ (t.warp w).loads = (x.issued i).loads ∧
        (t.warp w).pc = (match e with | .pending pc _ => pc | .reconv rpc _ => rpc + 8)) ∧
      (x.active &&& ~~~l = 0 → x.live &&& ~~~l = 0 →
        (t.warp w).active = 0 ∧ (t.warp w).exited = true ∧ (t.warp w).wait = none ∧ (t.warp w).arming = none ∧
        ∀ q ∈ (t.warp w).loads, q.cells = [])) ∧
    (x.active &&& ~~~l = 0 → l ≠ 0 → Room s w → ∀ (e : DivEntry) (rest : List DivEntry), left = e :: rest →
      codeAddr (match e with | .pending pc _ => pc | .reconv rpc _ => rpc + 8) = false →
      exec i s = .next (taken s w i (FaultInfo.of 0x1C 0) ((started s w i).updWarp w (fun x => x.unwait))))

/-- 06 R140, 21 R354, log 22: TRAP n completes and then traps with cause n and the selected lanes; the PC is past it. BPT is a
precise fault: the warp stays at the BPT. With no lane selected neither does anything. -/
def Obligations.TrapAndBreakpoint : Prop :=
  ∀ (s : State) (w : Nat) (h : Hdr) (f : XForm), Room s w →
    (Solo s w (.trap h (.x f)) → (s.warp w).selected (.trap h (.x f)) ≠ 0 →
      exec (.trap h (.x f)) s = .next (taken s w (.trap h (.x f))
        { FaultInfo.of (BitVec.ofNat 8 f.vc.toNat) 0 with lanes := (s.warp w).selected (.trap h (.x f)) }
        (finished s w (.trap h (.x f)) (fun x => x)))) ∧
    (Solo s w (.trap h (.x f)) → (s.warp w).selected (.trap h (.x f)) = 0 →
      exec (.trap h (.x f)) s = .next (finished s w (.trap h (.x f)) (fun x => x))) ∧
    (Solo s w (.bpt h (.x f)) → (s.warp w).selected (.bpt h (.x f)) ≠ 0 →
      exec (.bpt h (.x f)) s = .next (taken s w (.bpt h (.x f)) (FaultInfo.of 0x18 0)
        ((started s w (.bpt h (.x f))).updWarp w (fun x => x.unwait)))) ∧
    (Solo s w (.bpt h (.x f)) → (s.warp w).selected (.bpt h (.x f)) = 0 →
      exec (.bpt h (.x f)) s = .next (finished s w (.bpt h (.x f)) (fun x => x)))

/-- 21 R352 to R355, logs 14 and 22: what taking an exception does. The record goes to the ring at FRTAIL, or to the half's list
while the ring is full; every member left is suspended under it, by its number in the ring; registers,
PCs and masks stay. -/
def Obligations.ExceptionEntry : Prop :=
  ∀ (s : State) (a : Actor) (pc : DWord) (f : FaultInfo),
    let p := s.partOf a.lead
    let r := s.recordOf a pc f
    let t := s.takeException a pc f false
    ((s.part p).ringFull = false →
      (t.part p).frTail = (s.part p).frTail + 1 ∧
      t.mem = memWriteList s.mem ((s.part p).frBase.toNat + 64 * ((s.part p).frTail.toNat % (s.part p).frSize)) r.bytes) ∧
    ((s.part p).ringFull = true →
      (t.part p).heldRecs = (s.part p).heldRecs ++ [(halfOfCore (s.warp a.lead).core, r, some (s.recordNo p))] ∧
      (t.part p).frTail = (s.part p).frTail ∧ t.mem = s.mem) ∧
    r.pc = pc ∧ r.cause = f.cause ∧ r.laneMask = f.lanes ∧ r.addr = f.addr ∧ r.bytes.length = 64 ∧
    (∀ m ∈ s.liveMembers a,
      (t.warp m.w).susp = some ⟨f.cause, flagBits f a.scope, (s.liveMembers a).map (fun n => n.w), f.op, f.matrix,
        false, s.recordNo p⟩) ∧
    (∀ v, (t.warp v).pc = (s.warp v).pc ∧ (t.warp v).active = (s.warp v).active ∧ (t.warp v).v = (s.warp v).v ∧
      (t.warp v).s = (s.warp v).s) ∧
    (∀ v, v ∉ (s.liveMembers a).map (fun n => n.w) → t.warps.find v = s.warps.find v)

/-- 06 R141, R142, logs 11 and 117: vectoring saves the PC, REPI and the active mask, makes every lane not exited active and goes
to the handler; RETI at the same depths returns to what was saved, and the registers in between are the handler's. Outside a
handler, at other depths, or to an odd PC it is a precise fault: 0x1F; 0x1A with detail 3, or 0x19; 0x1C. -/
def Obligations.VectorAndReti : Prop :=
  ∀ (s : State) (w : Nat) (h : Hdr) (u : Upper) (handler : DWord),
    let x := s.warp w
    let y := x.vector handler
    (y.uepclo = x.pc.extractLsb' 0 32 ∧ y.uepchi.extractLsb' 0 25 = x.pc.extractLsb' 32 25 ∧
      (x.repi < 64 → (y.uepchi.extractLsb' 26 6).toNat = x.repi) ∧ y.uemask = x.active ∧ y.active = x.live ∧
      y.pc = handler ∧ y.repi = 0 ∧ y.inHandler = true ∧ y.v = x.v ∧ y.s = x.s ∧ y.dstack = x.dstack ∧
      y.cstack = x.cstack) ∧
    (Solo s w (.reti h u) → x.inHandler = true → x.dstack.length = x.hdDepth → x.cstack.length = x.hcDepth →
      let pc := canon57 ((x.uepchi.extractLsb' 0 25 ++ x.uepclo).zeroExtend 64)
      codeAddr pc = true →
      exec (.reti h u) s = .next (jumped s w (.reti h u) (fun x =>
        { x with pc := pc, repi := (x.uepchi.extractLsb' 26 6).toNat, active := x.uemask &&& x.live,
                 inHandler := false }))) ∧
    (Solo s w (.reti h u) → x.inHandler = false → Room s w →
      exec (.reti h u) s = .next (taken s w (.reti h u) (FaultInfo.of 0x1F 0)
        ((started s w (.reti h u)).updWarp w (fun x => x.unwait)))) ∧
    (Solo s w (.reti h u) → x.inHandler = true → x.dstack.length ≠ x.hdDepth → Room s w →
      exec (.reti h u) s = .next (taken s w (.reti h u) (FaultInfo.of 0x1A 3)
        ((started s w (.reti h u)).updWarp w (fun x => x.unwait)))) ∧
    (Solo s w (.reti h u) → x.inHandler = true → x.dstack.length = x.hdDepth → x.cstack.length ≠ x.hcDepth → Room s w →
      exec (.reti h u) s = .next (taken s w (.reti h u) (FaultInfo.of 0x19 0)
        ((started s w (.reti h u)).updWarp w (fun x => x.unwait)))) ∧
    (Solo s w (.reti h u) → x.inHandler = true → x.dstack.length = x.hdDepth → x.cstack.length = x.hcDepth →
      codeAddr (canon57 ((x.uepchi.extractLsb' 0 25 ++ x.uepclo).zeroExtend 64)) = false → Room s w →
      exec (.reti h u) s = .next (taken s w (.reti h u) (FaultInfo.of 0x1C 0)
        ((started s w (.reti h u)).updWarp w (fun x => x.unwait))))

/-! Rendezvous. -/

/-- 06 R129, R130, R132, R133, R134, 10 R223, 08 R184, logs 20 and 118: every arrival at flock or block scope is recorded, and the
warp waits in a rendezvous with its block as owner; nothing is performed. The last to arrive is the bellwether, on its core's
clock. A member that comes to another site while an open rendezvous of its member set lacks it faults with FLOCK-MISMATCH,
alone and with its PC at its own site. A member that comes to a WAITC or FLAGRD with its counters at or below their limits and
no late fault arrives likewise; one with its counters above them waits for them alone, and arrives once they have come down. -/
def Obligations.RendezvousArrival : Prop :=
  (∀ (s : State) (w : Nat) (i : Instr), i.isWord = true → Arrives s w i →
    ((∀ h u, i ≠ .waitc h u ∧ i ≠ .flagrd h u) ∨
      (∃ h va imm, i = .waitc h (.xi va imm) ∧
        let x := s.warp w
        let lim (k : Nat) := imm.toNat / 64 ^ k % 64
        x.matrixFault (lim 2) = none ∧ x.loads.length ≤ lim 0 ∧ x.stores.length ≤ lim 1 ∧ x.matrix.length ≤ lim 2 ∧
        x.tileq.length ≤ lim 3) ∨
      (∃ h u, i = .flagrd h u ∧ (s.warp w).matrix = [])) →
    let t := arrived s w i
    let e := (arrival s w i).2
    exec i s = .next t ∧ (t.warp w).wait.isSome = true ∧ (t.warp w).pc = (s.warp w).pc ∧ (t.warp w).v = (s.warp w).v ∧
      (t.warp w).s = (s.warp w).s ∧ (t.warp w).blocked.owner = ownerBlock (s.blockOf w).index ∧ t.mem = s.mem ∧
      (∀ v, v ≠ w → t.warps.find v = s.warps.find v) ∧
      e.arrivals.any (fun m => m.w = w && m.act = (s.warp w).active && m.sel = (s.warp w).selected i) = true ∧
      (Last s w i → ∃ f ∈ (t.block (s.warp w).blk).insts, f.id = e.id ∧
        f.bell = some (w, (s.core (s.warp w).core).clock))) ∧
  (∀ (s : State) (w : Nat) (i : Instr), i.isWord = true → (∀ h u, i ≠ .waitc h u ∧ i ≠ .flagrd h u) → Runs s w i →
    (scopeOfInstr i = .flock ∨ scopeOfInstr i = .block) →
    (started s w i).mismatch (scopeOfInstr i) w = true → Room s w →
    ∃ t, exec i s = .next t ∧ (t.warp w).susp = some ⟨0x17, 0, [w], none, false, false, s.recordNo (s.partOf w)⟩ ∧
      (t.warp w).pc = (s.warp w).pc ∧ t.blocks = s.blocks ∧ ∀ v, v ≠ w → t.warps.find v = s.warps.find v) ∧
  (∀ (s : State) (w : Nat) (h : Hdr) (va : BitVec 8) (imm : BitVec 24),
    let ic : Instr := .waitc h (.xi va imm)
    let ig : Instr := .flagrd h (.xi va imm)
    let x := s.warp w
    let lim (k : Nat) := imm.toNat / 64 ^ k % 64
    (h.scope = .flock ∨ h.scope = .block) →
    (Runs s w ic → x.matrixFault (lim 2) = none →
      ¬ (x.loads.length ≤ lim 0 ∧ x.stores.length ≤ lim 1 ∧ x.matrix.length ≤ lim 2 ∧ x.tileq.length ≤ lim 3) →
      ∃ t q, exec ic s = .next t ∧ (t.warp w).wait = some q ∧ q.kind = .waitc ∧ t.blocks = s.blocks ∧
        (t.warp w).pc = x.pc ∧ ∀ v, v ≠ w → t.warps.find v = s.warps.find v) ∧
    (Runs s w ig → x.matrixFault 0 = none → x.matrix ≠ [] →
      ∃ t q, exec ig s = .next t ∧ (t.warp w).wait = some q ∧ q.kind = .flagrd ∧ t.blocks = s.blocks ∧
        (t.warp w).pc = x.pc ∧ ∀ v, v ≠ w → t.warps.find v = s.warps.find v))

/-- 06 R130, R131, R133, 07 R158, 09 R190, logs 20 and 100: a complete rendezvous takes an issue slot of its bellwether's quarter
and performs the operation once for all members in rank order; where it completes, every member that has not exited goes past
the instruction and the rendezvous is gone. Where the operation faults, every member stays, suspended under one record whose
flag says so, and the rendezvous keeps its arrivals. -/
def Obligations.RendezvousOnce : Prop :=
  ∀ (s : State) (blk id : Nat) (e : Inst) (v : Nat) (op : Actor → State → Res),
    Performs s blk id e v → wideOp e.instr = some op →
    let a := company s blk e v
    let g := gathered s blk e v
    (∀ t, op a g = .ok t →
      exec (.rendezvousComplete blk id) s = .next (completed a e.instr t) ∧ (completed a e.instr t).mem = t.mem ∧
        (∀ u, ((completed a e.instr t).warp u).v = (t.warp u).v ∧ ((completed a e.instr t).warp u).s = (t.warp u).s ∧
          ((completed a e.instr t).warp u).p = (t.warp u).p) ∧
        ∀ m ∈ t.liveMembers a, ((completed a e.instr t).warp m.w).wait = none) ∧
    (∀ f, e.scope = .flock ∨ e.scope = .block → op a g = .fault f → g.canRecord (halfOfCore (g.warp v).core) (g.partOf v) = true →
      ∃ t, exec (.rendezvousComplete blk id) s = .next t ∧
        ∀ m ∈ g.liveMembers a, (t.warp m.w).pc = (s.warp m.w).pc ∧
          ∃ u, (t.warp m.w).susp = some u ∧ u.cause = f.cause ∧ u.rendezvous = true ∧
            u.group = (g.liveMembers a).map (fun m => m.w))

/-- 02 R47, R48, R51, 06 R140, R130, 10 R220, R221, logs 6 and 90: NOP, YIELD, FENCE and PREF of one warp change no register and
no memory; YIELD sets the warp aside for the 32 string clocks after its own; FENCE acquires and releases by its kind, at its
scope. NOP at flock or block scope is the
barrier: its completion releases every member past it. -/
def Obligations.HintsComplete : Prop :=
  (∀ (s : State) (w : Nat) (h : Hdr) (u : Upper),
    (∀ i ∈ [Instr.nop h u, .pref h u], Solo s w i → exec i s = .next (finished s w i (fun x => x))) ∧
    (∀ f, u = .m f → Solo s w (.fence h u) →
      let z := started s w (.fence h u)
      exec (.fence h u) s = .next (past s w (.fence h u)
        (z.fence (z.path w (s.warp w).active f.mscope.toNat) f.order.toNat))) ∧
    (Solo s w (.yield h u) → (s.warp w).selected (.yield h u) ≠ 0 →
      exec (.yield h u) s = .next (finished s w (.yield h u) (fun x => { x with yieldLeft := 34 }))) ∧
    (Solo s w (.yield h u) → (s.warp w).selected (.yield h u) = 0 →
      exec (.yield h u) s = .next (finished s w (.yield h u) (fun x => x)))) ∧
  (∀ (s : State) (blk id : Nat) (e : Inst) (v : Nat) (h : Hdr) (u : Upper), e.instr = .nop h u → Performs s blk id e v →
    ∃ z, exec (.rendezvousComplete blk id) s = .next z ∧ z.mem = s.mem ∧ z.parts = s.parts ∧
      (∀ v, (z.warp v).v = (s.warp v).v ∧ (z.warp v).s = (s.warp v).s ∧ (z.warp v).p = (s.warp v).p ∧
        (z.warp v).active = (s.warp v).active) ∧
      ∀ m ∈ s.liveMembers (company s blk e v), (z.warp m.w).wait = none)

/-! XLANE and SPEC. -/

/-- What a cross-lane instruction of one warp gives: the TRAPEN group of its flags, the flags, and the writes of a lane (at
warp scope of the warp's uniform registers). -/
def Sys2Proof.xlaneMeaning (s : State) (w : Nat) (i : Instr) : Option (Nat × FlagSet × (Nat → List (Nat × Word))) :=
  let x := s.warp w
  let k := (started s w i).draw 0
  let ovf := (s.part (s.partOf w)).ovf
  let sel := x.selected i
  let m : Member := ⟨w, x.active, sel⟩
  let elem (h : Hdr) (r : BitVec 8) (l : Nat) := (x.value k false (h.width == 1) r.toNat l).toNat % 2 ^ redWidth h
  match i with
  | .shfl h (.x f) => some (0, 0, fun l =>
      let b := (x.reg ((started s w i).draw 2) f.ub f.vb.toNat l).toNat
      pairWrites (h.width == 1) h.vd (x.value k false (h.width == 1) f.va.toNat
        (shflSource (f.vc.toNat % 4) (log2Up (s.laneCount h.scope w) 12 0) (s.laneCount h.scope w) l b)))
  | .shflx h (.x f) => some (0, 0, fun l =>
      let b := (x.reg ((started s w i).draw 2) f.ub f.vb.toNat l).toNat
      pairWrites (h.width == 1) h.vd (x.value k false (h.width == 1) f.va.toNat
        (shflSource (f.vc.toNat % 4) (f.vc.toNat / 4) (s.laneCount h.scope w) l b)))
  | .rfirst h (.x f) => some (0, 0, fun _ =>
      match (lanesOf sel).head? with
      | some l => pairWrites (h.width == 1) h.vd (x.value k false (h.width == 1) f.va.toNat l)
      | none => [])
  | .rlane h (.x f) => some (0, 0, fun _ =>
      pairWrites (h.width == 1) h.vd (x.value k false (h.width == 1) f.va.toNat
        (laneIndex x ((started s w i).draw 4) f)))
  | .redstep h (.x f) =>
    let z := butterfly ovf h (f.vc.toNat % 16) (redLanes (started s w i) m h f (f.vc.toNat % 16)) (2 ^ (f.vc.toNat / 16))
    some (fpGroup h.width, orFlags ((lanesOf sel).map (fun l => (z.getD l (0, 0)).2)), fun l =>
      redWrites h (z.getD l (0, 0)).1)
  | .red h (.x f) =>
    let z := butterflies ovf h f.vc.toNat (redLanes (started s w i) m h f f.vc.toNat)
      (if x.control then [] else [16, 8, 4, 2, 1]) 0
    some (fpGroup h.width, z.2, fun _ => redWrites h z.1)
  | .redcmp h (.x f) =>
    let g := fpFmt h.width
    let z := redcmpVal g ovf (f.vc == 1)
      ((lanesOf sel).map (fun l => (x.value k false (h.width == 1) f.va.toNat l).toNat % 2 ^ g.width))
    some (fpGroup h.width, z.2.2, fun _ =>
      pairWrites (h.width == 1) h.vd (BitVec.ofNat 64 z.1) ++ (if f.vc = 1 then [] else
        pairWrites (h.width == 1) (h.vd + (if h.width == 1 then 2 else 1)) (BitVec.ofNat 64 z.2.1)))
  | .scan h (.x f) =>
    let z := scanVals ovf h (f.vc.toNat % 16) (f.vc.getLsbD 4) true (redIdentity h (f.vc.toNat % 16))
      ((lanesOf sel).map (elem h f.va))
    some (fpGroup h.width, orFlags (z.map (fun e => e.2)), fun l =>
      redWrites h (z.getD ((lanesOf sel).findIdx (fun j => j = l)) (0, 0)).1)
  | .trn h (.x f) =>
    let n := 2 ^ (f.vc.toNat + 1)
    some (0, 0, fun l => (List.range n).map (fun j => (h.vd.toNat + j, x.readV k (f.va.toNat + l % n) (l / n * n + j))))
  | _ => none

/-- 09 R190 to R198, logs 2, 28 and 29: SHFL, SHFLX, RFIRST, RLANE, REDSTEP, RED, REDCMP, SCAN and TRN of one warp complete where
no flag raised is enabled: the destinations take what the rule gives from the sources as they were, the flags are merged where
a lane takes part, and nothing else changes. WLANE writes the uniform value into the one lane s(vb) mod W if that lane is
selected. A step of a reduction pairs each lane with the lane whose number differs in bit j, the lower one first. -/
def Obligations.CrossLaneResults : Prop :=
  (∀ (s : State) (w : Nat) (i : Instr) (g : Nat) (flags : FlagSet) (f : Nat → List (Nat × Word)),
    xlaneMeaning s w i = some (g, flags, f) → Solo s w i → (s.warp w).selected i ≠ 0 →
    enabledFlags (s.warp w).trapen g flags = 0 →
    ∃ t, exec i s = .next t ∧ RegistersOnly s t w i f ∧ (t.warp w).p = (s.warp w).p ∧
      (t.warp w).sticky = (s.warp w).sticky ||| flags.zeroExtend 32 ∧ Written (s.warp w) (t.warp w) i f) ∧
  (∀ (s : State) (w : Nat) (h : Hdr) (f : XForm),
    let i : Instr := .wlane h (.x f)
    let x := s.warp w
    let b := laneIndex x ((started s w i).draw 4) f
    let v := x.value ((started s w i).draw 0) true (h.width == 1) f.va.toNat 0
    Solo s w i →
    exec i s = .next (finished s w i (fun x =>
      if (x.selected i).getLsbD b then x.writeLane false b (pairWrites (h.width == 1) h.vd v) else x))) ∧
  (∀ (ovf : Word) (h : Hdr) (op j : Nat) (y : List Nat) (l : Nat), j < 5 → l < 32 → y.length = 32 →
    (butterfly ovf h op y (2 ^ j)).getD l (0, 0) =
      redStep ovf h op (y.getD (min l (l ^^^ 2 ^ j)) 0) (y.getD (max l (l ^^^ 2 ^ j)) 0) ∧
    l ^^^ 2 ^ j < 32 ∧ l ^^^ 2 ^ j ≠ l)

/-- 06 R143, R150 to R152, 03 R81, R82, logs 114 and 115: SRD gives each selected lane (at warp scope the uniform destination) the
special register's value; a read of CLOCK or TIMELO latches the high half for the warp; an index above 41, and LANEID at warp
scope, are precise faults. SWR writes STICKY (clearing by ones), DCTR, UEPCLO, UEPCHI, UEMASK and TRAPEN with their reserved
bits zero, and no other; another index is a precise fault. -/
def Obligations.SpecialRegisters : Prop :=
  (∀ (s : State) (w : Nat) (h : Hdr) (f : XForm),
    let i : Instr := .srd h (.x f)
    let n := f.vc.toNat
    let latched (x : Warp) : Warp :=
      if n = 20 then { x with clockHi := w32 ((s.core x.core).clock / 2 ^ 32) }
      else if n = 22 then { x with timeHi := w32 (s.timeNs / 2 ^ 32) } else x
    Solo s w i →
    (n < 42 → ¬ (n = 1 ∧ h.scope = .warp) → (s.warp w).selected i ≠ 0 → h.scope = .warp →
      exec i s = .next (finished s w i (fun x => (latched x).writeS h.vd.toNat ((started s w i).special w n 0)))) ∧
    (n < 42 → (s.warp w).selected i ≠ 0 → h.scope = .lane →
      exec i s = .next (finished s w i (fun x => (lanesOf (x.selected i)).foldl (fun y l =>
        y.writeV h.vd.toNat l ((started s w i).special w n l)) (latched x)))) ∧
    (n < 42 → (s.warp w).selected i = 0 → h.scope = .lane → exec i s = .next (finished s w i (fun x => x))) ∧
    (42 ≤ n → Room s w →
      exec i s = .next (taken s w i (FaultInfo.of 0x1B 0) ((started s w i).updWarp w (fun x => x.unwait)))) ∧
    (n = 1 → h.scope = .warp → Room s w →
      exec i s = .next (taken s w i (FaultInfo.of 0x1B 1) ((started s w i).updWarp w (fun x => x.unwait))))) ∧
  (∀ (s : State) (w : Nat) (h : Hdr) (f : XForm),
    let i : Instr := .swr h (.x f)
    let v := (s.warp w).readS ((started s w i).draw 0) f.va.toNat
    Solo s w i →
    (f.vc = 24 → exec i s = .next (finished s w i (fun x => { x with sticky := x.sticky &&& ~~~v }))) ∧
    (f.vc = 25 → exec i s = .next (finished s w i (fun x => { x with dctr := v }))) ∧
    (f.vc = 27 → exec i s = .next (finished s w i (fun x => { x with uepclo := v }))) ∧
    (f.vc = 28 → exec i s = .next (finished s w i (fun x => { x with uepchi := v &&& 0xFDFFFFFF }))) ∧
    (f.vc = 29 → exec i s = .next (finished s w i (fun x => { x with uemask := v &&& x.width }))) ∧
    (f.vc = 39 → exec i s = .next (finished s w i (fun x => { x with trapen := v &&& 0x3FFFFFFF }))) ∧
    (f.vc ∉ [24, 25, 27, 28, 29, 39] → f.vc.toNat < 42 → Room s w →
      exec i s = .next (taken s w i (FaultInfo.of 0x1B 2) ((started s w i).updWarp w (fun x => x.unwait)))) ∧
    (42 ≤ f.vc.toNat → Room s w →
      exec i s = .next (taken s w i (FaultInfo.of 0x1B 0) ((started s w i).updWarp w (fun x => x.unwait)))))

/-! MEM. -/

/-- Whether an element holds the physical byte `p`. -/
def Sys2Proof.holdsPhys (t : Target) (p : Nat) : Prop :=
  match t with
  | .glob rs => ∃ e ∈ rs, ∃ a, e.1 = .phys a ∧ a ≤ p ∧ p < a + e.2
  | .scr _ _ _ => False

/-- Whether an element holds byte `o` of the scratch of block `u`. -/
def Sys2Proof.holdsScratch (t : Target) (u o : Nat) : Prop :=
  match t with
  | .glob _ => False
  | .scr v p n => v = u ∧ p ≤ o ∧ o < p + n

/-- Every byte outside some elements is as it was: physical memory and the scratch of every block. -/
def Sys2Proof.BytesKept (s t : State) (ts : List Target) : Prop :=
  (∀ p, (∀ e ∈ ts, ¬ holdsPhys e p) → memRead t.mem p = memRead s.mem p) ∧
    (∀ u o, (∀ e ∈ ts, ¬ holdsScratch e u o) → (t.block u).scrByte o = (s.block u).scrByte o)

/-- Whether some element lies in the on-chip map, which a firmware context reaches (02 R35). -/
def Sys2Proof.onChipIn (ts : List Target) : Prop :=
  ∃ t ∈ ts, ∃ rs, t = .glob rs ∧ ∃ e ∈ rs, ∃ a, e.1 = .onChip a

/-- The frame of a memory instruction of warp `w` on its warps: others are as they were; of its own warp, registers, masks,
stacks and flags are, and its PC lies past the instruction. Engine work is as it was. -/
def Sys2Proof.MemoryFrame (s t : State) (w : Nat) (i : Instr) : Prop :=
  (∀ v, v ≠ w → t.warps.find v = s.warps.find v) ∧ t.ops = s.ops ∧
    t.warp w = { (started s w i).warp w with
      pc := canon57 ((s.warp w).pc + BitVec.ofNat 64 (instrLength i)), wait := none, blocked := Blocked.none,
      loads := (t.warp w).loads, stores := (t.warp w).stores }

/-- Partitions and grids are as they were, but for what is kept of overwritten bytes (04 R92, 21 R359). -/
def Sys2Proof.OwnersKept (s t : State) : Prop :=
  (∀ p, t.part p = { s.part p with tables := (t.part p).tables }) ∧
    ∀ g, (t.grids.find g).map (fun x => { x with code := [] }) = (s.grids.find g).map (fun x => { x with code := [] })

/-- The loads: constructor and MEM function. -/
def Sys2Proof.loadForms : List ((Hdr → Upper → Instr) × Nat) := [(.ld, 0), (.lds, 2), (.ldf, 4)]
/-- The stores. -/
def Sys2Proof.storeForms : List ((Hdr → Upper → Instr) × Nat) := [(.st, 1), (.sts, 3), (.stf, 5)]
/-- The atomics. -/
def Sys2Proof.atomicForms : List ((Hdr → Upper → Instr) × Nat) := [(.atom, 6), (.atoms, 7)]

/-- The agent of one lane of warp `w`'s access. -/
def Sys2Proof.laneAgent (z : State) (s : State) (w : Nat) (f : MForm) (x : Item) : Agent :=
  { z.path w (s.warp w).active f.mscope.toNat with lane := x.lane }

/-- The cells of a load that a lane's path sees, in lanes' order. -/
def Sys2Proof.loadCells (z s : State) (w : Nat) (h : Hdr) (f : MForm) (rs : List (Item × Target)) : List LoadCell :=
  rs.flatMap (fun e => (cellsOf w (h.scope == .warp) h.vd.toNat e.1.lane
    (loadWords (z.see (laneAgent z s w f e.1) (z.draw 6) e.2) h.x)).map (fun c => c.2))

/-- What a load in flight may still read anew: nothing for one that acquires, that is to trap, or that a peer answers. -/
def Sys2Proof.mayReadLate (s : State) (w : Nat) (f : MForm) (bad : Option Cause) (fill : Filling) (rs : List (Item × Target)) :
    List LateRead :=
  if f.order = 1 ∨ f.order = 3 ∨ bad.isSome = true ∨ peersOf (rs.map (fun e => e.2)) ≠ [] then []
  else rs.map (fun e => ⟨e.1.lane, e.2, fill, (s.warp w).active, f.mscope.toNat⟩)

/-- The loads of warp `w` that were in flight are those of its issue, but for the reads that an access has fixed (02 R41). -/
def Sys2Proof.LoadsKept (s t : State) (w : Nat) (n : Nat) : Prop :=
  ((t.warp w).loads.take n).map (fun q => { q with reads := [] }) = (s.warp w).loads.map (fun q => { q with reads := [] })

/-- 02 R33, R41, R53, 10 R208, R211 to R214, logs 2, 6 and 103: LD, LDS and LDF whose lanes pass the checks of R210 complete at
issue: the load is counted, with the cells that its data will fill, as the lane's path sees memory, and the reads that it may
still make until it returns; no register, no byte of memory or scratch and no other state changes but what the path has seen. -/
def Obligations.LoadsComplete : Prop :=
  ∀ (s : State) (w : Nat) (h : Hdr) (f : MForm) (e : (Hdr → Upper → Instr) × Nat), e ∈ loadForms →
    ∀ (rs : List (Item × Target)),
    let i := e.1 h (.m f)
    let z := started s w i
    let a := s.selfActor w i
    let size := esizeBytes f.esize
    let its := z.items a f size
    let ts := rs.map (fun e => e.2)
    Solo s w i → its ≠ [] → (s.warp w).loads.length < 63 →
    z.resolve a 0 e.2 (memSpace e.2) (Rights.r (f.mscope == 5)) size (if f.order == 0 then 1 else size) its = .ok rs →
    ∃ t, exec i s = .next t ∧ MemoryFrame s t w i ∧ t.mem = s.mem ∧ t.blocks = s.blocks ∧ t.poison = s.poison ∧
      t.parts = s.parts ∧ t.grids = s.grids ∧ (t.warp w).stores = (s.warp w).stores ∧
      LoadsKept s t w (s.warp w).loads.length ∧
      (t.warp w).loads.drop (s.warp w).loads.length =
        [⟨loadCells z s w h f rs, mayReadLate s w f (z.badLoad ts) (.elem (h.scope == .warp) h.vd.toNat h.x) rs,
          z.badLoad ts, peersOf ts, z.foldsOf e.2 ts, false, (s.warp w).pc, recordWord i, false⟩]

/-- 02 R33, R44, R53, 10 R208, R212 to R214, logs 6 and 18: ST, STS and STF whose lanes pass the checks complete at issue: the
elements' bytes are those of their data registers, stored by the lane's path after what it releases, and the store is counted.
Where no element lies in the on-chip map, every byte outside the elements is as it was and registers are untouched; an element
that no write races with, and that meets no other of the instruction, then holds its bytes. -/
def Obligations.StoresComplete : Prop :=
  ∀ (s : State) (w : Nat) (h : Hdr) (f : MForm) (e : (Hdr → Upper → Instr) × Nat), e ∈ storeForms →
    ∀ (rs : List (Item × Target)),
    let i := e.1 h (.m f)
    let z := started s w i
    let a := s.selfActor w i
    let size := esizeBytes f.esize
    let its := z.items a f size
    let ts := rs.map (fun e => e.2)
    let bytes (x : Item) := storeBytes (s.warp w) (z.draw 4) (h.scope == .warp) h.vd.toNat x.lane size
    let stored := (((z.fixReads a ts).fillFor a (memSpace e.2) its).released a f).storeAll (Put.store (releases f))
      (rs.map (fun r => (laneAgent z s w f r.1, r.2, bytes r.1)))
    Solo s w i → its ≠ [] → (s.warp w).stores.length < 63 →
    z.resolve a 0 e.2 (memSpace e.2) (Rights.w (f.mscope == 5)) size (if f.order == 0 then 1 else size) its = .ok rs →
    ∃ t, exec i s = .next t ∧ t = past s w i (stored.pushStores a (z.badStore ts) e.2 ts false) ∧
      (¬ onChipIn ts →
        MemoryFrame s t w i ∧ OwnersKept s t ∧ BytesKept s t ts ∧ LoadsKept s t w (t.warp w).loads.length ∧
        (t.warp w).stores = (s.warp w).stores ++
          [⟨s.freeCtr + 1, z.badStore ts, peersOf ts, z.foldsOf e.2 ts, false, e.2 = 3, (s.warp w).pc, recordWord i, false⟩] ∧
        (Inv s → anyMeet ts = false → ∀ r ∈ rs, (∀ q ∈ z.keysOf r.2, z.pastAt q = []) →
          (∀ p, r.2 = .glob [(.phys p, size)] → ∀ j, j < size → memRead t.mem (p + j) = (bytes r.1).getD j 0) ∧
          (∀ u o, r.2 = .scr u o size → ∀ j, j < size → (t.block u).scrByte (o + j) = (bytes r.1).getD j 0)))

/-- 02 R33, R44, 10 R212, R218, R219, 22 R377, logs 6, 18 and 103: ATOM and ATOMS whose lanes pass the checks, and meet neither a
lost peer nor poison, complete at issue: the lanes' operations are performed one after another, their old values return to the
destination as a load's (with nr, as a store), and, where no element lies in the on-chip map, every byte outside the elements
is as it was. The new value of each atomic on 32 bits is the rule's: the integer ones as operations on words, and fadd, fmin
and fmax as FADD, FMIN and FMAX of FP32 in round to nearest even. -/
def Obligations.AtomicsComplete : Prop :=
  (∀ (s : State) (w : Nat) (h : Hdr) (f : MForm) (e : (Hdr → Upper → Instr) × Nat), e ∈ atomicForms →
    ∀ (rs : List (Item × Target)),
    let i := e.1 h (.m f)
    let z := started s w i
    let a := s.selfActor w i
    let size := esizeBytes f.esize
    let its := z.items a f size
    let ts := rs.map (fun e => e.2)
    let code := hdrTop h
    let val (x : Item) (r : Nat) := leNat (storeBytes (s.warp w) (z.draw 4) (h.scope == .warp) r x.lane size)
    let es := rs.map (fun e => if code = 9 then (e.1, e.2, val e.1 (h.vd.toNat + size / 4), val e.1 h.vd.toNat)
      else (e.1, e.2, val e.1 h.vd.toNat, 0))
    let done := (((z.fixReads a ts).fillFor a (memSpace e.2) its).released a f).amoAll (laneAgent z s w f) (acquires f)
      (releases f) (s.part (s.partOf w)).ovf code size (z.laneOrder (anyMeet ts) es)
    let bad : Option Cause := if z.peerPoisons ts then some 0xB3 else none
    Solo s w i → its ≠ [] → (s.warp w).loads.length < 63 → (s.warp w).stores.length < 63 →
    z.resolve a 1 e.2 (memSpace e.2) (Rights.rw (f.mscope == 5)) size size its = .ok rs →
    z.badAccess 1 ts = none →
    ∃ t, exec i s = .next t ∧ t.mem = done.2.mem ∧ t.blocks = done.2.blocks ∧
      (¬ onChipIn ts → MemoryFrame s t w i ∧ OwnersKept s t ∧ BytesKept s t ts ∧
        LoadsKept s t w (s.warp w).loads.length ∧
        (f.nt = true → (t.warp w).loads.drop (s.warp w).loads.length = [] ∧
          (t.warp w).stores = (s.warp w).stores ++
          [⟨s.freeCtr + 1, bad, peersOf ts, z.foldsOf e.2 ts, true, e.2 = 7, (s.warp w).pc, recordWord i, false⟩]) ∧
        (f.nt = false → (t.warp w).stores = (s.warp w).stores ∧
          (t.warp w).loads.drop (s.warp w).loads.length =
          [⟨done.1.flatMap (fun o => (cellsOf w (h.scope == .warp) h.vd.toNat o.1.lane
              (loadWords (leBytes size o.2) false)).map (fun c => c.2)), [], bad, peersOf ts, z.foldsOf e.2 ts, true,
            (s.warp w).pc, recordWord i, false⟩]))) ∧
  (∀ (ovf : Word) (m v c : BitVec 32),
    let r (code : Nat) : BitVec 32 := BitVec.ofNat 32 (amoNew ovf code 4 m.toNat v.toNat c.toNat)
    let q : FpArgs := ⟨fp32, 0, Rnd.rne ovf, false, fp32.decode m.toNat, fp32.decode v.toNat, .fin false 0 0, 0, 0⟩
    r 0 = v ∧ r 1 = m + v ∧ r 2 = (if m.sle v then m else v) ∧ r 3 = (if m ≤ v then m else v) ∧
    r 4 = (if v.sle m then m else v) ∧ r 5 = (if v ≤ m then m else v) ∧ r 6 = m &&& v ∧ r 7 = m ||| v ∧
    r 8 = m ^^^ v ∧ r 9 = (if m = c then v else m) ∧ r 13 = (if v ≤ m then 0 else m + 1) ∧
    r 14 = (if m = 0 ∨ v < m then v else m - 1) ∧
    r 10 = BitVec.ofNat 32 (fpFadd q).bits ∧ r 11 = BitVec.ofNat 32 (fpFmin q).bits ∧
    r 12 = BitVec.ofNat 32 (fpFmax q).bits)

/-- 10 R207, R210, R211, 21 R354, log 14: the address of a lane is base + off x size + imm8 x size modulo 2^64, with the offset
register absent where oe is 0; one address stands for the warp at warp scope. A lane that fails a check makes the access a
precise fault: the record holds the first cause of the lowest faulting lane, and no byte and no register changes. -/
def Obligations.AddressesAndFaults : Prop :=
  (∀ (s : State) (w : Nat) (i : Instr) (f : MForm) (size : Nat), Solo s w i →
    let z := started s w i
    let base := (s.warp w).readPairS (z.draw 0) f.base.toNat
    let warp := scopeOfInstr i == .warp
    z.items (s.selfActor w i) f size = (lanesDone s w i).map (fun l =>
      ⟨w, l, base + (if f.oe then ((s.warp w).reg (z.draw 0 + 2) warp f.off.toNat l).signExtend 64 else 0)
        * BitVec.ofNat 64 size + f.imm8.signExtend 64 * BitVec.ofNat 64 size⟩)) ∧
  (∀ (s : State) (w : Nat) (h : Hdr) (f : MForm) (e : (Hdr → Upper → Instr) × Nat) (agent : Nat) (r : Rights)
    (align : Nat) (fault : FaultInfo),
    let i := e.1 h (.m f)
    let z := started s w i
    let a := s.selfActor w i
    let size := esizeBytes f.esize
    let its := z.items a f size
    ((e ∈ loadForms ∧ agent = 0 ∧ r = Rights.r (f.mscope == 5) ∧ align = (if f.order == 0 then 1 else size)) ∨
      (e ∈ storeForms ∧ agent = 0 ∧ r = Rights.w (f.mscope == 5) ∧ align = (if f.order == 0 then 1 else size)) ∨
      (e ∈ atomicForms ∧ agent = 1 ∧ r = Rights.rw (f.mscope == 5) ∧ align = size)) →
    Solo s w i → its ≠ [] → (s.warp w).loads.length < 63 → (s.warp w).stores.length < 63 → Room s w →
    z.resolve a agent e.2 (memSpace e.2) r size align its = .error fault →
    exec i s = .next (taken s w i fault (z.updWarp w (fun x => x.unwait))))

/-- The cells that a record's bytes fill, in the selected lanes of its block from lane `first` up: byte j of vd holds element
4i + j of the block's lane i, with unused bits zero, and byte `b` of vd + 1 the scale; the other bytes of vd + 1 stay (10
R222, 03 R70, R71). -/
def Sys2Proof.recordCells (t : TFmt) (vd b : Nat) (sel : Mask) (first : Nat) (bs : List Byte) : List LoadCell :=
  let elem (n : Nat) : Nat := leNat bs.tail / 2 ^ (t.bits * n) % 2 ^ t.bits
  ((List.range 8).filter (fun i => sel.getLsbD (first + i))).flatMap (fun i =>
    [⟨false, vd, first + i,
       BitVec.ofNat 32 (elem (4 * i) + 256 * elem (4 * i + 1) + 65536 * elem (4 * i + 2) + 16777216 * elem (4 * i + 3)), 0, false⟩,
     ⟨false, vd + 1, first + i, BitVec.ofNat 32 ((bs.headD 0).toNat * 256 ^ b), ~~~(BitVec.ofNat 32 (255 * 256 ^ b)), false⟩])

/-- 10 R207, R222, 03 R70, R71, 02 R53, logs 6, 31 and 103: LDREC counts a load with the cells that it will fill: for each block
of 8 that takes part, in each of its selected lanes, the four elements of that lane and the scale, of the record as the
lane's path sees it. STREC stores each taking-part block's record, from the elements' registers and the selected scale byte,
by the lane's path after what it releases; where none lies in the on-chip map, every other byte is as it was, and where no
two records meet and no write races with one, memory then holds its bytes. A block takes part where one of its lanes is
selected, at the address of its first lane; the checks are those of R210. -/
def Obligations.RecordsComplete : Prop :=
  ∀ (s : State) (w : Nat) (h : Hdr) (f : MForm) (rs : List (Item × Target)),
    let il : Instr := .ldrec h (.m f)
    let is : Instr := .strec h (.m f)
    let t := recFmt h
    let n := 1 + 4 * t.bits
    let b := hdrTop h % 4
    let ts := rs.map (fun e => e.2)
    let taking (i : Instr) : List Item :=
      ((List.range 4).filter (fun k => ((s.warp w).selected i >>> (8 * k)) &&& 0xFF != 0)).map (fun k =>
        ⟨w, 8 * k, laneAddr (s.warp w) ((started s w i).draw 0) false
          ((s.warp w).readPairS ((started s w i).draw 0) f.base.toNat) f n (8 * k)⟩)
    (let z := started s w il
     Solo s w il → taking il ≠ [] → (s.warp w).loads.length < 63 →
     z.resolve (s.selfActor w il) 0 10 .global (Rights.r false) n 1 (taking il) = .ok rs →
     ∃ y, exec il s = .next y ∧ MemoryFrame s y w il ∧ y.mem = s.mem ∧ y.blocks = s.blocks ∧ y.parts = s.parts ∧
       (y.warp w).stores = (s.warp w).stores ∧ LoadsKept s y w (s.warp w).loads.length ∧
       (y.warp w).loads.drop (s.warp w).loads.length =
         [⟨rs.flatMap (fun e => recordCells t h.vd.toNat b ((s.warp w).selected il) e.1.lane
             (z.see (laneAgent z s w f e.1) (z.draw 6) e.2)),
           mayReadLate s w f (z.badLoad ts) (.record h.width h.vd.toNat b ((s.warp w).selected il)) rs,
           z.badLoad ts, peersOf ts, [], false, (s.warp w).pc, recordWord il, false⟩]) ∧
    (let z := started s w is
     let byte (reg l k : Nat) : Nat := ((s.warp w).readV (z.draw 4) reg l).toNat / 256 ^ k % 256
     let bytes (x : Item) : List Byte := recBytesOf t (byte (h.vd.toNat + 1) x.lane b)
       ((List.range 32).map (fun k => byte h.vd.toNat (x.lane + k / 4) (k % 4)))
     let stored := (((z.fixReads (s.selfActor w is) ts).fillFor (s.selfActor w is) .global (taking is)).released
       (s.selfActor w is) f).storeAll (Put.store (releases f)) (rs.map (fun r => (laneAgent z s w f r.1, r.2, bytes r.1)))
     Solo s w is → taking is ≠ [] → (s.warp w).stores.length < 63 →
     z.resolve (s.selfActor w is) 0 11 .global (Rights.w false) n 1 (taking is) = .ok rs →
     exec is s = .next (past s w is (stored.pushStores (s.selfActor w is) (z.badStore ts) 11 ts false)) ∧
       (¬ onChipIn ts → ∀ y, exec is s = .next y →
         MemoryFrame s y w is ∧ OwnersKept s y ∧ BytesKept s y ts ∧ y.blocks = s.blocks ∧
         LoadsKept s y w (y.warp w).loads.length ∧
         (y.warp w).stores = (s.warp w).stores ++ [⟨s.freeCtr + 1, z.badStore ts, peersOf ts, [], false, false,
           (s.warp w).pc, recordWord is, false⟩] ∧
         (Inv s → anyMeet ts = false → ∀ r ∈ rs, (∀ q ∈ z.keysOf r.2, z.pastAt q = []) →
           ∀ p, r.2 = .glob [(.phys p, n)] → ∀ j, j < n → memRead y.mem (p + j) = (bytes r.1).getD j 0)))


/-! SYNC, TIMELINE and the batches. -/

/-- 12 R244, R245, log 55: one arrival step. An arrival that exceeds the pending counts is an overflow and changes nothing;
otherwise the counts fall, and where both reach 0 the phase completes in the same step: the phase number advances modulo
65,536, the counts are reloaded, LAST takes the flags and the flags are cleared. An object's fields are where its bytes hold
them, and the reserved bits of the two flag fields read as 0 (00 R6). -/
def Obligations.BarrierStep : Prop :=
  (∀ (b : Bar) (arr nb : Nat),
    ((b.pend < arr ∨ b.pbytes < nb) → b.step arr nb = none) ∧
    (arr ≤ b.pend → nb ≤ b.pbytes → b.pend - arr = 0 → b.pbytes - nb = 0 →
      b.step arr nb = some ⟨b.exp, b.exp, (b.phase + 1) % 65536, 0, b.ebytes, b.ebytes, b.flags, b.owner⟩) ∧
    (arr ≤ b.pend → nb ≤ b.pbytes → ¬ (b.pend - arr = 0 ∧ b.pbytes - nb = 0) →
      b.step arr nb =
        some ⟨b.exp, b.pend - arr, b.phase, b.flags, b.ebytes, b.pbytes - nb, b.last, b.owner⟩) ∧
    (∀ p, b.passed p = true ↔ 1 ≤ ((b.phase : Int) - p) % 65536 ∧ ((b.phase : Int) - p) % 65536 ≤ 32767)) ∧
  (∀ b : Bar, b.exp < 2 ^ 16 → b.pend < 2 ^ 16 → b.phase < 2 ^ 16 → b.flags < 64 → b.ebytes < 2 ^ 32 →
    b.pbytes < 2 ^ 32 → b.last < 64 → b.owner < 2 ^ 32 → b.bytes.length = 24 ∧ Bar.ofBytes b.bytes = b) ∧
  (∀ bs : List Byte, (Bar.ofBytes bs).flags < 64 ∧ (Bar.ofBytes bs).last < 64)

/-- 12 R246, R247, R251, 02 R50, logs 14, 34, 55 and 118: BARINIT, BARARR, BAREXP, BARTEST and BARWAIT of one warp on an object
that passes the checks and is not poisoned. BARINIT writes all 32 bytes of the object, BARARR and BAREXP its fields, and each
but BARINIT has read it as it stands and gives s(vd) the phase or the flags. An arrival releases at the object's scope. BARWAIT
waits, with the object's owner, while the phase is not complete; a wait or test that sees it complete acquires at that scope;
an overflow is a precise fault. -/
def Obligations.BarriersComplete : Prop :=
  ∀ (s : State) (w : Nat) (h : Hdr) (f : XForm) (tgt : Target) (fn : Nat) (i : Instr),
    (fn, i) ∈ [(0, Instr.barinit h (.x f)), (1, .bararr h (.x f)), (2, .barwait h (.x f)), (3, .bartest h (.x f)),
      (4, .barexp h (.x f))] →
    let z := started s w i
    let a := s.selfActor w i
    let addr := syncAddr z a h f
    let b := z.barAt tgt
    let p := (syncReg z a f.vb).toNat
    let y := z.fixReads a [tgt]
    let g := z.syncAgent a h
    let read (acq : Bool) : State := y.readObject a h acq tgt
    let gives (u : State) (n : Nat) : State := u.updWarp w (fun x => x.writeS h.vd.toNat (BitVec.ofNat 32 n))
    Solo s w i → (s.warp w).selected i ≠ 0 → syncTarget z a fn (syncSpace h.width) addr 32 = .ok tgt →
    z.poisonedTarget tgt = false → Room s w →
    (fn = 0 →
      exec i s = .next (past s w i (y.putBy g (z.draw 13) Put.init tgt ((Bar.mk (p % 65536) (p % 65536) 0 0 (syncReg z a f.vc).toNat
        (syncReg z a f.vc).toNat 0 (if (s.blockOf w).index < 2 ^ 30 then (ownerBlock (s.blockOf w).index).toNat else 0)).bytes
          ++ List.replicate 8 0)))) ∧
    (fn = 1 → ∀ c,
      ({ b with flags := b.flags ||| (if f.mb then ((s.warp w).sticky.extractLsb' 0 6).toNat else 0) }).step 1 0 = some c →
      exec i s = .next (past s w i (gives (((read false).releaseObject a h).setBar g (Put.step true) tgt c) b.phase))) ∧
    (fn = 1 → b.pend = 0 →
      exec i s = .next (taken s w i (syncFault a 1 0x79 addr) (z.updWarp w (fun x => x.unwait)))) ∧
    (fn = 2 → b.passed p = true →
      exec i s = .next (past s w i (gives (read true) b.last))) ∧
    (fn = 2 → b.passed p = false →
      exec i s = .next ((read false).updWarp w (fun x =>
        { x with blocked := ⟨b.waitOwner, 1, BitVec.ofNat 24 (p % 65536)⟩,
                 wait := some ⟨.barrier, i, a, [addr, BitVec.ofNat 64 p, z.holder a (syncSpace h.width) addr]⟩ }))) ∧
    (fn = 3 → exec i s = .next (past s w i (gives (read (b.passed p)) (if b.passed p then 2 ^ 31 ||| b.last else 0)))) ∧
    (fn = 4 → b.pbytes + p < 2 ^ 32 →
      exec i s = .next (past s w i
        (gives ((read false).setBar g (Put.step false) tgt { b with pbytes := b.pbytes + p }) b.phase))) ∧
    (fn = 4 → 2 ^ 32 ≤ b.pbytes + p →
      exec i s = .next (taken s w i (syncFault a 4 0x79 addr) (z.updWarp w (fun x => x.unwait))))

/-- 12 R248, 10 R223, 08 R184, R185, 03 R81, 02 R50, R58, logs 6, 14, 34 and 35: WAITF gives s(vd) the word that it reads; it
completes where its condition holds, with an acquire of what it read, and otherwise waits on the flag with the owner word that
it was given; an owner word of type 3 is a precise fault. WAITC and FLAGRD of one warp whose matrix work holds no late fault
complete at or below their limits: the flags of the drains that the limit covers enter STICKY, what the warp's unit has
written for all its operations but the last that the limit leaves out is seen, and FLAGRD gives s(vd) the flags and clears
those that its mask names. Above a limit they wait. -/
def Obligations.WaitInstructions : Prop :=
  (∀ (s : State) (w : Nat) (h : Hdr) (f : XForm) (tgt : Target),
    let i : Instr := .waitf h (.x f)
    let z := started s w i
    let a := s.selfActor w i
    let addr := syncAddr z a h f
    let v := syncReg z a f.vb
    let owner := syncReg z a f.vc
    let y := z.fixReads a [tgt]
    let word := BitVec.ofNat 32 (leNat (y.see (z.syncAgent a h) (z.draw 7) tgt))
    let holds := if h.sat then (if h.x then word &&& v != 0 else decide (v.toNat ≤ word.toNat))
      else if h.x then word != v else word == v
    Solo s w i →
    (owner.extractLsb' 30 2 ≠ (3 : BitVec 2) → syncTarget z a 5 (syncSpace h.width) addr 4 = .ok tgt →
      z.poisonedTarget tgt = false → holds = true →
      exec i s = .next (past s w i ((y.readWord a h true tgt).updWarp w (fun x => x.writeS h.vd.toNat word)))) ∧
    (owner.extractLsb' 30 2 ≠ (3 : BitVec 2) → syncTarget z a 5 (syncSpace h.width) addr 4 = .ok tgt →
      z.poisonedTarget tgt = false → holds = false →
      exec i s = .next ((y.readWord a h false tgt).updWarp w (fun x => { x.writeS h.vd.toNat word with
        blocked := ⟨owner, 2, addr.extractLsb' 0 24⟩,
        wait := some ⟨.flag, i, a, [addr, v.zeroExtend 64, owner.zeroExtend 64, z.holder a (syncSpace h.width) addr]⟩ }))) ∧
    (owner.extractLsb' 30 2 = (3 : BitVec 2) → Room s w →
      exec i s = .next (taken s w i (syncFault a 5 0x7B addr) (z.updWarp w (fun x => x.unwait))))) ∧
  (∀ (s : State) (w : Nat) (h : Hdr) (va : BitVec 8) (imm : BitVec 24),
    let ic : Instr := .waitc h (.xi va imm)
    let ig : Instr := .flagrd h (.xi va imm)
    let x := s.warp w
    let lim (k : Nat) := imm.toNat / 64 ^ k % 64
    let under := x.loads.length ≤ lim 0 ∧ x.stores.length ≤ lim 1 ∧ x.matrix.length ≤ lim 2 ∧ x.tileq.length ≤ lim 3
    (Solo s w ic → h.scope = .warp → x.matrixFault (lim 2) = none → under → x.coveredFlags (lim 2) &&& x.trapen = 0 →
      exec ic s = .next (past s w ic (((started s w ic).learnAll (s.selfActor w ic) (s.ofUnit (lim 2))).updWarp w
        (fun x => x.takeDrainFlags (lim 2))))) ∧
    (Solo s w ic → h.scope = .warp → x.matrixFault (lim 2) = none → ¬ under →
      exec ic s = .next ((started s w ic).updWarp w (fun x =>
        { x with wait := some ⟨.waitc, ic, s.selfActor w ic, []⟩ }))) ∧
    (Solo s w ig → h.scope = .warp → x.matrix = [] → x.coveredFlags 0 &&& x.trapen = 0 →
      exec ig s = .next (past s w ig (((started s w ig).learnAll (s.selfActor w ig) (s.ofUnit 0)).updWarp w (fun x =>
        let y := x.takeDrainFlags 0
        { y.writeS h.vd.toNat y.sticky with
          sticky := y.sticky &&& ~~~((imm.extractLsb' 0 6 : BitVec 6).zeroExtend 32) })))) ∧
    (Solo s w ig → h.scope = .warp → x.matrix ≠ [] → x.matrixFault 0 = none →
      exec ig s = .next ((started s w ig).updWarp w (fun x =>
        { x with wait := some ⟨.flagrd, ig, s.selfActor w ig, []⟩ }))))

/-- 14 R270 to R273, 02 R50, R55, logs 6, 33, 45 and 118: WAITT goes on once its timeline has reached the number, having seen what
the operations up to it wrote, and otherwise waits with the owner that R271 gives; TLARM arms a handler; TLRD reads the
counter, with bit 63 where the next operation has failed, or the last number. A timeline that the block does not hold is a
precise fault: 0x61 for WAITT and TLRD, 0x8E for TLARM. -/
def Obligations.TimelineInstructions : Prop :=
  ∀ (s : State) (w : Nat) (h : Hdr) (f : XForm),
    let iw : Instr := .waitt h (.x f)
    let ia : Instr := .tlarm h (.x f)
    let ir : Instr := .tlrd h (.x f)
    let x := s.warp w
    let tl := f.vc.toNat
    let held := tl < (s.blockOf w).timelines.length
    let t := s.timeline x.blk tl
    let n := x.readS ((started s w iw).draw 0) f.va.toNat
    (Solo s w iw → held → reached t.counter n = true →
      exec iw s = .next (past s w iw ((started s w iw).learnAll (s.selfActor w iw) (fun _ => ofTimeline x.blk tl n)))) ∧
    (Solo s w iw → held → reached t.counter n = false → s.failedNext x.blk tl = none →
      exec iw s = .next ((started s w iw).updWarp w (fun y =>
        { y with blocked := ⟨if reached t.last n then 0 else ownerBlock (s.blockOf w).index, 5, BitVec.ofNat 24 tl⟩,
                 wait := some ⟨.timeline, iw, s.selfActor w iw, [n.zeroExtend 64]⟩ }))) ∧
    (Solo s w iw → ¬ held → Room s w →
      exec iw s = .next (taken s w iw (FaultInfo.of 0x61 0) ((started s w iw).updWarp w (fun x => x.unwait)))) ∧
    (Solo s w ia → ¬ held → Room s w →
      exec ia s = .next (taken s w ia (FaultInfo.of 0x8E 0) ((started s w ia).updWarp w (fun x => x.unwait)))) ∧
    (Solo s w ir → ¬ held → Room s w →
      exec ir s = .next (taken s w ir (FaultInfo.of 0x61 0) ((started s w ir).updWarp w (fun x => x.unwait)))) ∧
    (Solo s w ia → held → x.arming = none → x.held = false →
      exec ia s = .next (finished s w ia (fun x => { x with
        arming := some ⟨tl, x.readS ((started s w ia).draw 0) f.va.toNat,
          x.readPairS ((started s w ia).draw 2) f.vb.toNat, x.pc⟩ }))) ∧
    (Solo s w ia → held → (x.arming.isSome = true ∨ x.held = true) → Room s w →
      exec ia s = .next (taken s w ia (FaultInfo.of 0x8F 0) ((started s w ia).updWarp w (fun x => x.unwait)))) ∧
    (Solo s w ir → held → h.x = true →
      exec ir s = .next (finished s w ir (fun x => x.writePairS h.vd.toNat (BitVec.ofNat 64 t.last)))) ∧
    (Solo s w ir → held → h.x = false →
      exec ir s = .next (finished s w ir (fun x => x.writePairS h.vd.toNat (BitVec.ofNat 64 (t.counter % 2 ^ 63) |||
        (if (s.failedNext (s.warp w).blk tl).isSome then 1 <<< 63 else 0)))))

/-- 14 R257 to R261, 02 R50, R57, logs 6, 35 and 36: LCOPY whose lanes pass R258 starts one transfer per selected lane and adds it
to the open batch; nothing is copied yet: no register, no byte of memory and no byte of scratch changes. BSEAL seals the open
batch under the next number while fewer than eight batches are outstanding; BWAITN and BWAITS go on once enough batches are
complete; BTEST reports without waiting. What finds its batches complete has seen what the copies of all the complete batches wrote. -/
def Obligations.LaneCopies : Prop :=
  (∀ (s : State) (w : Nat) (h : Hdr) (f : MForm),
    let i : Instr := .lcopy h (.m f)
    let z := started s w i
    let ts := transfersOf z (s.selfActor w i) h f
    Solo s w i → z.laneTransfers (s.warp w).core < 512 →
    (∀ t ∈ ts, transferFault (s.blockOf w).scrBytes t = none) →
    ∃ t, exec i s = .next t ∧ t.mem = s.mem ∧ t.blocks = s.blocks ∧ t.parts = s.parts ∧
      (∀ v, v ≠ w → t.warps.find v = s.warps.find v) ∧
      ts.length = (lanesOf ((s.warp w).selected i)).length ∧
      t.nextUid = s.nextUid + ts.length ∧
      t.warp w = { (z.warp w) with
        pc := canon57 ((s.warp w).pc + BitVec.ofNat 64 (instrLength i)), wait := none, blocked := Blocked.none,
        openBatch := (s.warp w).openBatch ++ (List.range ts.length).map (fun k => s.nextUid + k) } ∧
      ∀ k, k < ts.length → ∃ q, ts[k]? = some q ∧ t.ops.find (s.nextUid + k) = some
        { w := w, blk := (s.warp w).blk, kind := .lane q.lane q.src q.dst q.size q.v f.nt, tl := 0, num := s.nextUid,
          ipc := (s.warp w).pc, iword := recordWord i, handleIx := 0, regs := [], members := [], accepted := true,
          delivered := [], counted := false, box := none, fault := none }) ∧
  (∀ (s : State) (w : Nat) (h : Hdr) (f : MForm) (u : Upper),
    let il : Instr := .bseal h u
    let iN : Instr := .bwaitn h (.m f)
    let iS : Instr := .bwaits h (.m f)
    let iT : Instr := .btest h (.m f)
    let out := s.outstanding w
    let num (i : Instr) : BitVec 16 := ((s.warp w).readS ((started s w i).draw 0) f.off.toNat).extractLsb' 0 16
    let upTo (i : Instr) := out.filter (fun c => c.num = num i || earlier c.num (num i))
    (Solo s w il → out.length < 8 →
      exec il s = .next (finished s w il (fun x =>
        { (x.writeS h.vd.toNat ((x.lastBatch + 1).zeroExtend 32)) with
          openBatch := [], lastBatch := x.lastBatch + 1, sealedBatches := out ++ [⟨x.lastBatch + 1, x.openBatch⟩] }))) ∧
    (Solo s w iN → out.length ≤ f.imm8.toNat →
      exec iN s = .next (past s w iN ((started s w iN).learnAll (s.selfActor w iN) s.ofCopies))) ∧
    (Solo s w iN → f.imm8.toNat < out.length → (∀ b ∈ out, s.batchFailed b = false) →
      ∃ t, exec iN s = .next t ∧ (t.warp w).wait = some ⟨.batchN, iN, s.selfActor w iN, []⟩ ∧
        (t.warp w).pc = (s.warp w).pc ∧ t.mem = s.mem ∧ t.blocks = s.blocks) ∧
    (Solo s w iS → upTo iS = [] → earlier (s.warp w).lastBatch (num iS) = false →
      exec iS s = .next (past s w iS ((started s w iS).learnAll (s.selfActor w iS) s.ofCopies))) ∧
    (Solo s w iT →
      let done := upTo iT = [] ∧ earlier (s.warp w).lastBatch (num iT) = false
      let z := started s w iT
      exec iT s = .next (past s w iT ((if done then z.learnAll (s.selfActor w iT) s.ofCopies else z).updWarp w
        (fun x => x.writeS h.vd.toNat ((if done then 0x80000000 else 0)
          ||| (if (upTo iT).any s.batchFailed then 0x40000000 else 0)
          ||| (BitVec.ofNat 32 out.length <<< 16) ||| x.lastBatch.zeroExtend 32))))))

/-! The tile engine at issue. -/

/-- The tile operations: constructor and function. -/
def Sys2Proof.tileForms : List ((Hdr → Upper → Instr) × Nat) :=
  [(.tload, 1), (.tstore, 2), (.tmcast, 3), (.tred, 4), (.tpeer, 5)]

/-- What the hand-over of an operation to an engine does (14 R267): the next number of its timeline, whose low 32 bits go to s(vd),
one more on the tile counter, and the operation in flight; memory and scratch are untouched. -/
def Sys2Proof.HandedOver (s t : State) (w : Nat) (i : Instr) (kind : OpKind) (tl handleIx : Nat) (regs : List Word)
    (vd : Nat) : Prop :=
  let num := (s.timeline (s.warp w).blk tl).last + 1
  t.mem = s.mem ∧ t.parts = s.parts ∧ t.nextUid = s.nextUid + 1 ∧ (∀ v, v ≠ w → t.warps.find v = s.warps.find v) ∧
    (∀ u o, (t.block u).scrByte o = (s.block u).scrByte o) ∧
    (t.timeline (s.warp w).blk tl).last = num ∧ (t.warp w).tileq = (s.warp w).tileq ++ [s.nextUid] ∧
    (∀ r, (t.warp w).rawS r = if r = vd then BitVec.ofNat 32 num else (s.warp w).rawS r) ∧
    (t.warp w).v = (s.warp w).v ∧ (t.warp w).p = (s.warp w).p ∧ (t.warp w).sticky = (s.warp w).sticky ∧
    (t.warp w).pc = canon57 ((s.warp w).pc + BitVec.ofNat 64 (instrLength i)) ∧
    t.ops.find s.nextUid = some
      { w := w, blk := (s.warp w).blk, kind := kind, tl := tl, num := num, ipc := (s.warp w).pc, iword := recordWord i,
        handleIx := handleIx, regs := regs, members := s.foldCores (s.warp w).blk, accepted := false, delivered := [],
        counted := false, box := none, fault := none }


/-! MMA. -/

/-- A warp with one more operation on its matrix counter (10 R212, 16 R301); it heads the log of the
last 64, and each drain before it counts one more behind it (03 R81). -/
def Sys2Proof.withMatrix (id : Nat) (x : Warp) (i : Instr) (k : MatKind) (fn : Nat) : Warp :=
  { x with
    matrixLog := (id :: x.matrixLog).take 64,
    matrix := x.matrix ++ [⟨id, k, fn, x.pc, recordWord i, false, none⟩],
    drainFlags := x.drainFlags.map (fun e => (e.1 + 1, e.2)) }

/-- The state after warp `w` has issued matrix operation `k`, which has seen what its path has (02 R54), and changed itself by
`f` besides: nothing else differs. -/
def Sys2Proof.matrixIssued (s : State) (w : Nat) (i : Instr) (k : MatKind) (fn : Nat) (f : Warp → Warp) : State :=
  let z := started s w i
  past s w i ((({ z with nextUid := s.nextUid + 1 } : State).adopt (z.path w (s.warp w).active 0) (workKey s.nextUid)).updWarp w
    (fun x => f (withMatrix s.nextUid x i k fn)))

/-- 16 R282 to R288, R295, R296, logs 46 and 104: OMAP, WBLOAD, ACCZ and ACCLD of one warp whose checks pass complete at issue.
OMAP fills the operand map; the others join the matrix counter with their operands, and WBLOAD gives its slot the format and
leaves it unfilled; its handle form goes to the tile engine. Tiles, scratch and memory are as they were. -/
def Obligations.MatrixIssue : Prop :=
  ∀ (s : State) (w : Nat) (h : Hdr) (f : XForm),
    let c := hdrTop h
    let x := s.warp w
    let e := fmtBytes c
    let a (i : Instr) := (x.readS ((started s w i).draw 0) f.va.toNat).toNat
    let b (i : Instr) := (x.readS ((started s w i).draw 2) f.vb.toNat).toNat;
    (let i : Instr := .omap h (.x f);
      Solo s w i → a i < 2 ^ 20 → b i < 2 ^ 20 → (isTapered c = true ∨ (a i % e = 0 ∧ b i % e = 0)) →
      (f.ma = true → isTapered c = false) →
      exec i s = .next (past s w i ((started s w i).updBlock x.blk (fun k =>
        { k with omaps := k.omaps.put h.vd.toNat ⟨f.ma, c, b i, a i⟩ })))) ∧
    (let i : Instr := .wbload h (.x f);
      Solo s w i → h.vd.toNat < x.accEpochs.length → f.ma = false → x.matrix.length < 63 →
      (f.mb = true → isTapered c = false) → (isTapered c = true ∨ (a i % e = 0 ∧ b i % e = 0)) →
      (∀ r ∈ bPlaces c (a i) (b i) f.mb, s.scrBeyond x.blk r.1 r.2 = false) →
      exec i s = .next (matrixIssued s w i (.wbload h.vd.toNat c (a i) (b i) f.mb) 1 (fun x =>
        { x with wslots := x.wslots.put h.vd.toNat ⟨some c, false, []⟩ }))) ∧
    (let i : Instr := .wbload h (.x f)
      let rs := (started s w i).operandBlock (s.selfActor w i) f.va;
      Solo s w i → h.vd.toNat < x.accEpochs.length → f.ma = true → x.tileq.length < 63 →
      f.vc.toNat < (s.blockOf w).timelines.length → regN rs 5 = 0 → regN rs 6 = 0 →
      ∀ g, (s.blockOf w).handles.find f.vb.toNat = some g → g.fmt = c →
      g.boxes = [if isTapered c then mmaK c / 32 else mmaK c, 16, 1, 1, 1] →
      ∃ t, exec i s = .next t ∧ HandedOver s t w i (.wbload h.vd.toNat c g) f.vc.toNat f.vb.toNat rs (f.va.toNat + 7) ∧
        (t.warp w).wslots.find h.vd.toNat = some ⟨some c, false, []⟩) ∧
    (let i : Instr := .accz h (.x f);
      Solo s w i → x.matrix.length < 63 → h.vd.toNat + f.vc.toNat ≤ 8 * x.accEpochs.length →
      exec i s = .next (matrixIssued s w i (.accz h.vd.toNat f.vc.toNat) 3 (fun x => x))) ∧
    (let i : Instr := .accld h (.x f);
      Solo s w i → x.matrix.length < 63 → h.vd.toNat + tileCount c ≤ 8 * x.accEpochs.length →
      a i % e = 0 → b i % e = 0 → (∀ r ∈ ldPlaces c (a i) (b i), s.scrBeyond x.blk r.1 r.2 = false) →
      exec i s = .next (matrixIssued s w i (.accld c h.vd.toNat (a i) (b i)) 4 (fun x => x))) ∧
    (let i : Instr := .accz h (.x f);
      Solo s w i → x.matrix.length < 63 → 8 * x.accEpochs.length < h.vd.toNat + f.vc.toNat → Room s w →
      exec i s = .next (taken s w i { FaultInfo.of 0x7F 0 with agent := 0 }
        ((started s w i).updWarp w (fun x => x.unwait))))

/-- 16 R289, R293, R294, R297 to R300, logs 37 and 38: MMA of one warp, with a map and a filled slot of its format, its A operand
fetched and its unit free, completes at issue: the operation takes A's bytes as fetched and the slot's bytes, joins the matrix
counter, frees the operand buffer, and occupies and charges the unit of its quarter for the clocks of its format, from the
next clock on (07 R153, R154). ACCDRAIN whose checks pass joins the matrix counter with its destination, factor, bound, bias
row, flag target, function and format as its operand block has them; a destination in global memory is translated at issue.
Tiles, scratch and memory are as they were. -/
def Obligations.MmaAndDrainIssue : Prop :=
  (∀ (s : State) (w : Nat) (h : Hdr) (f : XForm) (m : OMap) (l : WSlot) (bs : List Byte),
    let i : Instr := .mma h (.x f)
    let c := hdrTop h
    let x := s.warp w
    let z := started s w i
    Solo s w i → scopeOfInstr i = .warp → z.mmaCheck (s.selfActor w i) h f = none → x.matrix.length < 63 →
    (z.core x.core).unitBusy x.quarter = false → x.abuf = some (m, false, bs) →
    (s.block x.blk).omaps.find f.va.toNat = some m →
    x.wslots.find f.vb.toNat = some l → l.filled = true → x.wPoison.contains f.vb.toNat = false →
    ∃ t, exec i s = .next t ∧ t.mem = s.mem ∧ t.blocks = s.blocks ∧ t.parts = s.parts ∧
      (∀ v, v ≠ w → t.warps.find v = s.warps.find v) ∧
      t.warp w = { withMatrix s.nextUid (x.issued i) i (.mma c h.vd.toNat bs l.bytes) 2 with
        abuf := none, wait := none, blocked := Blocked.none,
        pc := canon57 (x.pc + BitVec.ofNat 64 (instrLength i)) } ∧
      t.cores = (z.chargeMma [w] c (mmaWeight c)).cores ∧
      (x.quarter < 4 → (t.core x.core).unitBusy x.quarter = true ∧
        ∀ k q, ((t.core x.core).matrixFuture.getD k []).getD q 0 = ((s.core x.core).matrixFuture.getD k []).getD q 0
          + (if q = x.quarter ∧ 1 ≤ k ∧ k ≤ mmaClocks c then Config.warpWidth * mmaWeight c else 0))) ∧
  (∀ (s : State) (w : Nat) (h : Hdr) (f : XForm),
    let i : Instr := .accdrain h (.x f)
    let x := s.warp w
    let z := started s w i
    let rs := z.operandBlock (s.selfActor w i) f.va
    let wide := hdrTop h == 1
    let ctl := regN rs 7
    let dfmt := ctl % 16
    let glob := ctl / 64 % 2 == 1
    let dest : DWord := if glob then regPair rs 0 else (rs.getD 0 0).zeroExtend 64
    let d (runs : Option (List (List (Place × Nat)))) : Drain :=
      { tile := h.vd.toNat, pairTile := wide, rnd := f.rnd.toNat, dest := dest, runs := runs, stride := regN rs 2,
        scale := rs.getD 3 0, bound := rs.getD 4 0, bias := rs.getD 5 0, flagTarget := rs.getD 6 0, act := ctl / 16 % 4,
        dfmt := dfmt, dctr := x.dctr }
    Solo s w i → x.matrix.length < 63 → h.vd.toNat + (if wide then 2 else 1) ≤ 8 * x.accEpochs.length →
    ctl < 128 → dfmt < 7 → ctl / 16 % 4 ≠ 3 →
    (isTapered dfmt = true ∨ (dest.toNat % fmtBytes dfmt = 0 ∧ regN rs 2 % fmtBytes dfmt = 0)) →
    (regN rs 5 = noValue ∨ regN rs 5 % (if wide then 8 else 4) = 0) →
    (regN rs 6 = noValue ∨ regN rs 6 % 32 = 0) →
    (glob = false → regN rs 1 = 0 → (∀ r ∈ drainScratch (d none), s.scrBeyond x.blk r.1 r.2 = false) →
      exec i s = .next (matrixIssued s w i (.drain (d none)) 5 (fun x => x))) ∧
    (glob = true → (∀ r ∈ drainScratch (d (some [])), s.scrBeyond x.blk r.1 r.2 = false) →
      ∀ q, z.engineRuns x.blk 0 (Rights.w false) dest (drainSpan dfmt (regN rs 2)) = .ok q →
      exec i s = .next (matrixIssued s w i
        (.drain (d (some (z.drainRuns x.blk (drainPlaces dfmt dest (regN rs 2)))))) 5 (fun x => x))))

/-! KV. -/

/-- 14 R264 to R267, 17 R310, logs 32, 46 and 53: TDEF fills the handle from a shape record that passes its checks. TLOAD, TSTORE,
TMCAST, TRED and TPEER whose checks pass are handed to the tile engine, KVGATHER, KVAPPEND and SMERGE to the KV unit; an
undefined handle and a timeline that the block does not hold are precise faults; that the record of the latter has agent 0xFF
is the model's choice (log 53). -/
def Obligations.EngineIssue : Prop :=
  (∀ (s : State) (w : Nat) (h : Hdr) (f : XForm),
    (let i : Instr := .tdef h (.x f)
      let z := started s w i
      let addr := (s.warp w).readPairS (z.draw 0) f.va.toNat
      Solo s w i → isCanonical addr = true → isCanonical (addr + 95) = true → addr.toNat % 8 = 0 →
      ∀ bs, z.engineRead (s.warp w).blk 3 addr 96 = .ok bs → shapeFault addr (shapeOf bs).1 (shapeOf bs).2 = none →
      exec i s = .next (past s w i ((z.fillTlb (s.warp w).core (s.partOf w) (z.draw 8) addr).updBlock (s.warp w).blk
        (fun b => { b with handles := b.handles.put h.vd.toNat (shapeOf bs).1 })))) ∧
    (∀ e ∈ tileForms,
      let i := e.1 h (.x f)
      let z := started s w i
      let rs := z.operandBlock (s.selfActor w i) f.va
      Solo s w i → (s.warp w).tileq.length < 63 →
      (f.vc.toNat < (s.blockOf w).timelines.length → ∀ g, (s.blockOf w).handles.find f.vb.toNat = some g →
        z.tileCheck (s.warp w).blk e.2 g rs = none →
        ∃ t, exec i s = .next t ∧ HandedOver s t w i (.tile e.2 g) f.vc.toNat f.vb.toNat rs h.vd.toNat) ∧
      (f.vc.toNat < (s.blockOf w).timelines.length → (s.blockOf w).handles.find f.vb.toNat = none → Room s w →
        exec i s = .next (taken s w i { FaultInfo.of 0x5D 7 with agent := 3 } (z.updWarp w (fun x => x.unwait)))) ∧
      ((s.blockOf w).timelines.length ≤ f.vc.toNat → Room s w →
        exec i s = .next (taken s w i (FaultInfo.of 0x61 e.2) (z.updWarp w (fun x => x.unwait)))))) ∧
  (∀ (s : State) (w : Nat) (h : Hdr) (f : XForm),
    let held := f.vc.toNat < (s.blockOf w).timelines.length
    let rs (i : Instr) := (started s w i).operandBlock (s.selfActor w i) f.va;
    (let i : Instr := .kvgather h (.x f);
      Solo s w i → (s.warp w).tileq.length < 63 → held → (started s w i).gatherCheck (s.warp w).blk (rs i) = none →
      ∃ t, exec i s = .next t ∧ HandedOver s t w i (.gather f.ma none) f.vc.toNat 0 (rs i) h.vd.toNat) ∧
    (let i : Instr := .kvappend h (.x f);
      Solo s w i → (s.warp w).tileq.length < 63 → held → regN (rs i) 7 = 0 → 1 ≤ regN (rs i) 2 → regN (rs i) 2 ≤ 16 →
      regN (rs i) 3 % 16 = 0 → regN (rs i) 4 % 16 = 0 →
      ∃ t, exec i s = .next t ∧ HandedOver s t w i .append f.vc.toNat 0 (rs i) h.vd.toNat) ∧
    (let i : Instr := .smerge h (.x f);
      Solo s w i → (s.warp w).tileq.length < 63 → held → (started s w i).mergeCheck (s.warp w).blk (rs i) = none →
      ∃ t, exec i s = .next t ∧ HandedOver s t w i .smerge f.vc.toNat 0 (rs i) h.vd.toNat) ∧
    (∀ e ∈ [((.kvgather : Hdr → Upper → Instr), 1), (.kvappend, 2), (.smerge, 5)],
      Solo s w (e.1 h (.x f)) → (s.warp w).tileq.length < 63 → ¬ held → Room s w →
      exec (e.1 h (.x f)) s = .next (taken s w (e.1 h (.x f)) (FaultInfo.of 0x61 e.2)
        ((started s w (e.1 h (.x f))).updWarp w (fun x => x.unwait)))))

/-- What a step of the KV unit leaves as it was: registers but the results, other warps, blocks, engine work, partitions but
for what the pager is told, and every byte of memory outside its writes. -/
def Sys2Proof.KvKept (s t : State) (w : Nat) (i : Instr) (ws : List (Nat × Word)) (runs : List (Place × Nat)) : Prop :=
  (∀ v, v ≠ w → t.warps.find v = s.warps.find v) ∧ t.blocks = s.blocks ∧ t.ops = s.ops ∧
    (∀ g, (t.grids.find g).map (fun x => { x with code := [] }) = (s.grids.find g).map (fun x => { x with code := [] })) ∧
    (∀ p, t.part p = { s.part p with
      named := (t.part p).named, demoteReqs := (t.part p).demoteReqs, tables := (t.part p).tables }) ∧
    (∀ r, (t.warp w).rawS r = written ws r ((s.warp w).rawS r)) ∧ (t.warp w).v = (s.warp w).v ∧
    (t.warp w).p = (s.warp w).p ∧ (t.warp w).sticky = (s.warp w).sticky ∧
    (t.warp w).pc = canon57 ((s.warp w).pc + BitVec.ofNat 64 (instrLength i)) ∧
    (∀ p, (∀ e ∈ runs, ∀ a, e.1 = .phys a → ¬ (a ≤ p ∧ p < a + e.2)) → memRead t.mem p = memRead s.mem p)

/-- Memory holds the bytes of some writes, made in order: each byte that no later run takes in reads as it was written. -/
def Sys2Proof.RunsHold (t : State) (q : List (List (Place × Nat) × List Byte)) : Prop :=
  ∀ before r after, q = before ++ r :: after → ∀ (pre post : List (Place × Nat)) (a n : Nat),
    r.1 = pre ++ (.phys a, n) :: post → ∀ j, j < n →
    (∀ e ∈ post ++ after.flatMap (fun x => x.1), ∀ b, e.1 = .phys b → ¬ (b ≤ a + j ∧ a + j < b + e.2)) →
    memRead t.mem (a + j) = r.2.getD ((pre.map (fun e => e.2)).sum + j) 0

/-- What is kept of races after a step of the KV unit for a path of warp `w`, at device scope, on some objects: that of its
acquire of them, of its writes in order, and of its release (17 R307). -/
def Sys2Proof.KvStepped (s t : State) (w : Nat) (i : Instr) (objs : List Nat) (q : List (List (Place × Nat) × List Byte)) :
    Prop :=
  let z := started s w i
  let g := z.path w (s.warp w).active 4
  let u := (q.foldl (fun u r => u.putBy g (u.draw 13) (Put.step false) (.glob r.1) r.2) (z.kvEnter g objs)).kvLeave g objs
  t.past = u.past ∧ t.sync = u.sync

/-- 17 R304 to R307, R311, R312, R317, R318, logs 6, 40 and 50: KVWALK, KVTRUNC and KVFORK on a valid descriptor and pool complete
as one step. KVWALK gives the page entry and its place, or the masked code, and writes nothing; a page entry of the path that
R311 refuses is a precise fault with detail 13. KVTRUNC gives the numbers of pages and nodes freed and writes the freed pages,
the nodes' counts, the path, the length and window, and the pool's counts; KVFORK makes a new descriptor and counts one more
reference in each of its nodes. Each comes after the warp's earlier operations on its descriptors. It acquires its
objects at device scope before it, which leaves unseen no write that happened before a step that has released one of them, and
releases them after it. Memory holds what they write, and is as it was elsewhere. -/
def Obligations.KvSteps : Prop :=
  (∀ (s : State) (g : Agent) (objs : List Nat), ∀ o ∈ objs, ∀ e ∈ (s.sync.rels.find (objectKey o)).getD [],
    s.syncs { g with scope := 4 } e = true → ∀ (q : Nat), ∀ r ∈ ((s.kvEnter g objs).past.find q).getD [],
    r.carries e.msg = true → r.unreadBy g = false) ∧
  (∀ (s : State) (w : Nat) (h : Hdr) (f : XForm) (d : KvDesc) (p : KvPool),
    let rs (i : Instr) := (started s w i).operandBlock (s.selfActor w i) f.va
    let v (i : Instr) := (started s w i).engineVia (s.warp w).blk
    let objs (i : Instr) := (started s w i).kvTouched (v i) d
    let found (i : Instr) := (started s w i).kvDesc (v i) (regPair (rs i) 0) = .ok d ∧
      (started s w i).kvPool (v i) d.pool = .ok p ∧ (started s w i).kvEarlier w s.nextUid (regPair (rs i) 0) = false;
    (let i : Instr := .kvwalk h (.x f);
      Solo s w i → (∀ r ∈ (rs i).drop 3, r = 0) → found i →
      (badEntry p.cap d.path = none → d.len ≤ regN (rs i) 2 → ∃ t, exec i s = .next t ∧ t.mem = s.mem ∧
        KvStepped s t w i (objs i) [] ∧ KvKept s t w i [(h.vd.toNat, 0xFFFFFFFF), (h.vd.toNat + 1, 0x10000000)] []) ∧
      (badEntry p.cap d.path = none → regN (rs i) 2 < d.len → regN (rs i) 2 < d.win → ∃ t, exec i s = .next t ∧
        t.mem = s.mem ∧ KvStepped s t w i (objs i) [] ∧
        KvKept s t w i [(h.vd.toNat, 0xFFFFFFFF), (h.vd.toNat + 1, 0x20000000)] []) ∧
      (∀ k n, badEntry p.cap d.path = none → d.win ≤ regN (rs i) 2 → regN (rs i) 2 < d.len →
        chooseNode d.path (regN (rs i) 2) = some (k, n) → regN (rs i) 2 < n.start + n.count →
        let e := (regN (rs i) 2 - n.start) / 16
        ∃ t, exec i s = .next t ∧ t.mem = s.mem ∧ KvStepped s t w i (objs i) [] ∧ KvKept s t w i [(h.vd.toNat, n.ents.getD e 0),
          (h.vd.toNat + 1, BitVec.ofNat 32 (k * 2 ^ 24 + e * 256 + (regN (rs i) 2 - n.start) % 16))] []) ∧
      (∀ n, badEntry p.cap d.path = some n → Room s w →
        exec i s = .next (taken s w i { FaultInfo.of 0x5D 13 with agent := 3, addr := n.addr }
          ((started s w i).updWarp w (fun x => x.unwait))))) ∧
    (let i : Instr := .kvtrunc h (.x f)
      let pos := regN (rs i) 2
      let tr := if f.ma then truncWindow d pos else truncBack d pos
      let ws := (truncWrites d p tr (if f.ma then d.len else pos) (if f.ma then pos else min d.win pos)).1;
      Solo s w i → Inv s → (∀ r ∈ (rs i).drop 3, r = 0) → found i → pos ≤ d.len → (f.ma = true → d.win ≤ pos) →
      (∀ e ∈ tr.freed, entBad p.cap e.word = false) → ∀ q, (started s w i).kvRuns (v i) ws = .ok q →
      ∃ t, exec i s = .next t ∧ KvStepped s t w i (objs i) q ∧ (¬ onChipIn (q.map (fun e => .glob e.1)) →
        RunsHold t q ∧ KvKept s t w i [(h.vd.toNat, BitVec.ofNat 32 tr.freed.length),
          (h.vd.toNat + 1, BitVec.ofNat 32 (tr.dropped.filter (fun n => decide (n.refs ≤ 1))).length)]
          (q.flatMap (fun e => e.1)))) ∧
    (let i : Instr := .kvfork h (.x f)
      let pos := regN (rs i) 4
      let new := regPair (rs i) 2
      let ns := d.path.filter (fun n => decide (n.start < pos))
      let ws := ns.map (fun n => n.countsAt n.count (n.refs + 1)) ++ [(new,
        ((List.range 16).flatMap (fun i => leBytes 8 ((ns[i]?).elim 0 (fun n => n.addr.toNat)))) ++ leBytes 4 pos
          ++ leBytes 4 d.win ++ leBytes 8 d.pool.toNat ++ List.replicate 112 0)]
      Solo s w i → Inv s → (∀ r ∈ (rs i).drop 5, r = 0) → found i → d.win ≤ pos → pos ≤ d.len →
      isCanonical new = true → isCanonical (atOff new 255) = true → new.toNat % 64 = 0 →
      (started s w i).kvEarlier w s.nextUid new = false →
      (∀ n ∈ ns, n.refs < 65535) → ∀ q, (started s w i).kvRuns (v i) ws = .ok q →
      ∃ t, exec i s = .next t ∧ KvStepped s t w i (objs i ++ (started s w i).kvObjects (v i) [new]) q ∧
        (¬ onChipIn (q.map (fun e => .glob e.1)) → RunsHold t q ∧ KvKept s t w i [] (q.flatMap (fun e => e.1)))))

/-! GRANT. -/

/-- The request of an ACQ or ACQT of one warp (12 R232, R237). -/
def Sys2Proof.requestOf (s : State) (w : Nat) (h : Hdr) (n : Nat) (try' : Bool) : Request :=
  ⟨w, (s.warp w).blk, h.width.toNat, n,
    if h.width.toNat < 2 then unitVec h.width.toNat n else unitVec (classIndex h.width.toNat (s.warp w).quarter) n, try'⟩

/-- The state in which warp `w` has sent a request and waits for the Shepherd, with no one known to hold it up. -/
def Sys2Proof.requested (s : State) (w : Nat) (i : Instr) (h : Hdr) (n : Nat) (try' : Bool) : State :=
  ((started s w i).enterNeed (s.warp w).core (.acq (requestOf s w h n try'))).updWarp w
    (fun x => { x with blocked := ⟨0, 0, 0⟩, wait := some ⟨.shepherd, i, s.selfActor w i, [BitVec.ofNat 64 n]⟩ })

/-- Warp `w` waits alone, and is neither suspended nor exited. -/
def Sys2Proof.WaitsAlone (s : State) (w : Nat) (q : Wait) : Prop :=
  s.openWait w = some q ∧ q.actor.lead = w ∧ q.actor.scope = .warp ∧ q.actor.inst = none ∧ q.actor.rep = none ∧
    ∃ m, s.liveMembers q.actor = [m] ∧ m.w = w

/-- 12 R229 to R232, R234, R237, R238, R251, 01 R18, logs 105 and 119: an ACQ or ACQT of one warp whose amount passes sends its
request to the Shepherd, behind those of earlier clocks and in R18's order among those of its own, and waits; that what comes
in a clock is tested once the clock has passed is the model's choice (log 119). The Shepherd tests the request at the head of its queue. Where the test passes, the block's allocation grows by the request, the warp (for
SCR and ENG its block) holds the units more, s(vd) takes the place where they begin, and the warp goes on past its
instruction. One that exceeds the claim is a precise fault. Where the test fails, an ACQT takes 0xFFFFFFFF, and an ACQ joins
the deferred list of 128 entries and waits on, with its place, amount and class in its blocked-state register; where the list
is full it is a precise fault. -/
def Obligations.RequestAndGrant : Prop :=
  (∀ (s : State) (w : Nat) (h : Hdr) (u : Upper) (try' : Bool) (i : Instr),
    i = (if try' then Instr.acqt h u else .acq h u) →
    let x := s.warp w
    let n := grantAmount u (s.selfActor w i) (started s w i)
    let q := (s.core x.core).reqs
    let e : Entry := ⟨(s.core x.core).clock, .acq (requestOf s w h n try')⟩
    let early (f : Entry) : Prop :=
      e.stamp < f.stamp ∨ (f.stamp = e.stamp ∧ s.needRank e.need < s.needRank f.need)
    Solo s w i → 1 ≤ n → n ≤ amountMax h.width.toNat → q.length < 64 →
    exec i s = .next (requested s w i h n try') ∧
    ∃ before after, q = before ++ after ∧ ((requested s w i h n try').core x.core).reqs = before ++ e :: after ∧
      (∀ f ∈ before, ¬ early f) ∧ ∀ f, after.head? = some f → early f) ∧
  (∀ (s : State) (core w : Nat) (r : Request) (q : Wait), s.headNeed core = some (.acq r) → r.w = w → WaitsAlone s w q →
    q.kind = .shepherd → r.blk = (s.warp w).blk → r.cls < 4 →
    let z := s.bump.popNeed core
    let x := s.warp w
    let vd := resultReg q.instr
    let goes (t : State) : Prop := t.mem = s.mem ∧ (t.warp w).wait = none ∧
      (t.warp w).pc = canon57 (x.pc + BitVec.ofNat 64 q.actor.len) ∧ ∀ v, v ≠ w → t.warps.find v = s.warps.find v
    let fault (c : Nat) : State := (z.unwaitAll q.actor).takeException q.actor x.pc (FaultInfo.of (BitVec.ofNat 8 (c + r.cls)) 0) false
    (z.judge core r q.actor = .passes → ∃ t, exec (.shepherdTest core) s = .next t ∧ goes t ∧
      (t.block x.blk).alloc = vecAdd (s.block x.blk).alloc r.vec ∧ t.held w r.cls = s.held w r.cls + r.amount ∧
      (t.warp w).rawS vd = BitVec.ofNat 32 (grantValue r.cls (s.held w r.cls))) ∧
    (z.judge core r q.actor = .exceeded → Room s w → exec (.shepherdTest core) s = .next (fault 0x60)) ∧
    (z.judge core r q.actor = .fails → r.try' = true → ∃ t, exec (.shepherdTest core) s = .next t ∧ goes t ∧
      t.blocks = s.blocks ∧ (t.warp w).rawS vd = 0xFFFFFFFF) ∧
    (z.judge core r q.actor = .fails → r.try' = false → (s.core core).deferred.length < Config.deferredMax →
      ∃ t, exec (.shepherdTest core) s = .next t ∧ t.mem = s.mem ∧ t.blocks = s.blocks ∧ (t.warp w).pc = x.pc ∧
        (t.core core).deferred = (s.core core).deferred ++ [r] ∧ (t.core core).reqs = (s.core core).reqs.tail ∧
        (t.warp w).wait = some { q with kind := .deferred } ∧
        (t.warp w).blocked = ⟨0, 3, BitVec.ofNat 24 ((s.core core).deferred.length % 256 * 65536 + r.amount % 256 * 256 + r.cls)⟩) ∧
    (z.judge core r q.actor = .fails → r.try' = false → Config.deferredMax ≤ (s.core core).deferred.length →
      Room s w → exec (.shepherdTest core) s = .next (fault 0x6C))) ∧
  Config.deferredMax = 128

/-- 12 R229: the safe-state test. A request passes only where the available vector covers it, and where it passes every block that
stays can finish: in the order of the rounds each need is covered by what is then free. -/
def Obligations.SafeStateRule : Prop :=
  ∀ (ds : List Side) (b : Nat) (q : Vec), testPasses ds none b q = true →
    vecLe q (available ds) = true ∧
    ∃ order : List Side, order.Perm (ds.map (fun d => if d.uid = b then { d with alloc := vecAdd d.alloc q } else d)) ∧
      ∀ k, k < order.length → ∃ d, order[k]? = some d ∧
        vecLe d.need ((order.take k).foldl (fun v e => vecAdd v e.alloc) (vecSub (available ds) q)) = true

/-- 12 R231, R234, R236, R239, R240, 01 R18, logs 74, 101 and 119: REL of one warp with nothing that it waits for, and no request
before it in the Shepherd's queue, removes the highest units with what they held, lowers the block's allocation and retests
the core's deferred requests; behind other requests it waits for its turn. That it is taken at once where nothing is before
it, and else enters the queue and waits, is the model's choice (log 119). A release of more than is held, one in control
mode, and a bad amount are precise faults. CLAIMQ reads the units held, the most it may hold, their difference, the units
free, and the number of deferred requests. -/
def Obligations.ReleaseAndQuery : Prop :=
  ∀ (s : State) (w : Nat) (h : Hdr) (u : Upper) (f : XForm),
    let x := s.warp w
    let cls := h.width.toNat
    let ir : Instr := .rel h u
    let iq : Instr := .claimq h (.x f)
    let z := started s w ir
    let a := s.selfActor w ir
    let n := grantAmount u a z
    let vec := if cls < 2 then unitVec cls n else unitVec (classIndex cls x.quarter) n
    let c := s.core x.core
    let i := classIndex cls x.quarter
    let own := if cls < 2 then (s.blockOf w).alloc.getD i 0 else s.held w cls
    let top := if cls < 2 then (s.blockOf w).claim.getD i 0 else s.warpMax w cls
    let free := (if cls = 2 then n + 1 else n) ≤ s.held w cls ∧ z.releaseOps a cls n = [] ∧ (cls = 2 → x.loads = []) ∧
      (cls = 3 → x.matrix = [])
    (Solo s w ir → 1 ≤ n → n ≤ amountMax cls → x.control = false → free → s.releaseFirst x.core = true →
      exec ir s = .next (goesOn s w ir (((z.removeUnits w cls n).updBlock x.blk (fun b =>
        { b with alloc := vecSub b.alloc vec })).retest x.core))) ∧
    (Solo s w ir → 1 ≤ n → n ≤ amountMax cls → x.control = false → free → s.releaseFirst x.core = false →
      c.reqs.length < 64 →
      exec ir s = .next ((z.enterNeed x.core (.release w)).updWarp w (fun y =>
        { y with blocked := ⟨0, 0, 0⟩, wait := some ⟨.release, ir, a, [BitVec.ofNat 64 n]⟩ }))) ∧
    (Solo s w ir → 1 ≤ n → n ≤ amountMax cls → x.control = true → Room s w →
      exec ir s = .next (taken s w ir (FaultInfo.of (BitVec.ofNat 8 (0x60 + cls)) 0) (z.updWarp w (fun x => x.unwait)))) ∧
    (Solo s w ir → 1 ≤ n → n ≤ amountMax cls → x.control = false → s.held w cls < (if cls = 2 then n + 1 else n) → Room s w →
      exec ir s = .next (taken s w ir (FaultInfo.of (BitVec.ofNat 8 (0x64 + cls)) 0) (z.updWarp w (fun x => x.unwait)))) ∧
    (Solo s w ir → (n = 0 ∨ amountMax cls < n) → Room s w →
      exec ir s = .next (taken s w ir (FaultInfo.of (BitVec.ofNat 8 (0x68 + cls)) 0) (z.updWarp w (fun x => x.unwait)))) ∧
    (Solo s w iq → exec iq s = .next (finished s w iq (fun y => y.writeS h.vd.toNat (
      if x.control then 0
      else if f.vc = 0 then BitVec.ofNat 32 own
      else if f.vc = 1 then BitVec.ofNat 32 top
      else if f.vc = 2 then BitVec.ofNat 32 (top - own)
      else if f.vc = 3 then BitVec.ofNat 32 ((available (s.sides x.core)).getD i 0)
      else BitVec.ofNat 32 c.deferred.length))))

/-- 12 R241 to R243, 19 R334 to R338, 21 R353, log 69: FJOIN, FLEAVE, FLOCKSET, SLICEYIELD, REGION and REGIONEND, which a block
performs as one in the issue slot of its last arrival's quarter, where nothing stands against them. FJOIN takes the lowest
free rank of its key's fold; FLEAVE leaves the fold; FLOCKSET sets the flock size; SLICEYIELD reloads the slice budget, or
gives the core up where a waiting unit wants it and its records can be held; REGION notes the carry registers and the entry,
and a pre-emption that waited for it comes once the block may be pre-empted; REGIONEND leaves the region. -/
def Obligations.BlockInstructions : Prop :=
  ∀ (s : State) (blk id : Nat) (e : Inst) (v : Nat) (h : Hdr) (f : XForm) (u : Upper) (va : BitVec 8) (imm : BitVec 24),
    Performs s blk id e v →
    let g := gathered s blk e v
    let a := company s blk e v
    let c := (s.warp v).blk
    let does (t : State) : Prop := exec (.rendezvousComplete blk id) s = .next t
    (e.instr = .fjoin h (.x f) →
     let key := (syncReg g a f.va).toNat
     let b := g.block c
     let id : Word := BitVec.ofNat 32 (b.core / 8 * 65536 + key)
     let ms := g.keyMembers b.grid (b.core / 8) id
     key < 0x8000 → b.fold = none → (∀ m ∈ ms, g.leaving m.1 = false) → ms.length < 8 →
     (∀ m ∈ ms, m.2.1 ≠ b.core) → ∀ rank, rank < 8 → (∀ m ∈ ms, m.2.2 ≠ rank) →
     (∀ r, r < rank → ∃ m ∈ ms, m.2.2 = r) →
     does (completed a e.instr ((g.updBlock c (fun b => { b with fold := some ⟨id, rank, none⟩ })).writeUniform
       a h.vd.toNat (BitVec.ofNat 32 rank)))) ∧
    (e.instr = .fleave h u → (∀ o ∈ g.ops, ¬ (o.2.blk = c ∧ o.2.namesFold = true)) → (g.block c).fold.isSome = true →
     (∀ v ∈ g.warpsOfBlock c, (g.warp v).loads = [] ∧ (g.warp v).stores = []) →
     does (completed a e.instr (g.updBlock c (fun b =>
       { b with leftGang := b.leftGang || b.fold.any (fun f => f.gang.isSome), fold := none })))) ∧
    (e.instr = .flockset h (.xi va imm) →
     let n := (imm.extractLsb' 0 5).toNat
     n ∈ [1, 2, 4, 8, 16] → n ≤ (g.block c).lrec.warps →
     (∀ e ∈ (g.block c).insts, e.scope = .flock → e.arrivals = []) →
     does (completed a e.instr (g.updBlock c (fun b => { b with flockSize := n })))) ∧
    (e.instr = .sliceyield h u →
     ((g.preemptible c && g.coreWanted c) = false →
       does (completed a e.instr (g.updBlock c (fun b => { b with budget := b.lrec.budget.toNat })))) ∧
     ((g.preemptible c && g.coreWanted c) = true → (g.preemptAll c 0x82 0).recordsFit (g.block c).part = true →
       does (g.preemptAll c 0x82 0))) ∧
    (e.instr = .region h u → (g.block c).inRegion = false →
     let t := g.updBlock c (fun b =>
       { b with
         inRegion := true, carry := (List.range 8).map (fun r => (g.warp (g.firstMember a)).readS (g.draw 0) r),
         regionPc := canon57 ((g.warp v).pc + BitVec.ofNat 64 a.len) })
     (t.requested c = none → does (completed a e.instr t)) ∧
     ∀ m reason, t.requested c = some (m, reason) →
       (t.preemptible c = false → does (completed a e.instr t)) ∧
       (t.preemptible c = true → (t.preemptAll m 0x82 reason).recordsFit (g.block c).part = true →
         does (t.preemptAll m 0x82 reason))) ∧
    (e.instr = .regionend h u → (g.block c).inRegion = true →
     does (completed a e.instr (g.updBlock c (fun b => { b with inRegion := false, gap := 0 }))))

/-! TASK. -/

/-- 19 R327, R329, R333, R341, R343 to R346, 21 R353, logs 6, 57, 58, 59, 60, 61 and 62: LAUNCH, SPAWN, TDEP, TCANCEL, STENQ and
STDEQ where their checks pass. LAUNCH makes a job and an entry and gives the job's id; SPAWN enters a TCB, ready at once where
it waits for none, and gives its index; TDEP appends a successor and counts it, or gives 1 where the predecessor is done;
TCANCEL of no job does nothing; STENQ appends sixteen words to a stile, or waits while it is full; STDEQ takes the oldest,
with an acquire at device scope, or waits while it is empty. -/
def Obligations.TaskInstructions : Prop :=
  ∀ (s : State) (w : Nat) (h : Hdr) (f : XForm),
    let x := s.warp w
    let part := s.partOf w
    (let i : Instr := .launch h (.x f)
     let z := started s w i
     let addr := x.readPairS (z.draw 0) f.va.toNat
     let q := (x.readS (z.draw 0) f.vb.toNat).toNat
     let job := (s.part part).nextJob
     Solo s w i → q < 64 → (s.part part).destroying.contains q = false → s.queueFull part q = false →
     ∀ bs z1, taskLoad 0 addr 128 (s.selfActor w i) z = .ok (bs, z1) → launchFault addr bs = none →
     exec i s = .next (goesOn s w i ((z1.launch part q addr (launchOf bs) false
       (fun r => r.knownBy (z.path w x.active 4))).1.updWarp w (fun x => x.writeS h.vd.toNat (BitVec.ofNat 32 job))))) ∧
    (let i : Instr := .spawn h (.x f)
     let z := started s w i
     let addr := x.readPairS (z.draw 0) f.va.toNat
     let q := (x.readS (z.draw 0) f.vb.toNat).toNat
     Solo s w i → q < 64 → ∀ j k bs, s.jobOf w = some j → tcbIndex j addr = some k →
     taskRead 1 addr 64 (s.selfActor w i) z = .ok bs → spawnCheck z (s.selfActor w i) bs = none → j.cancel = false →
     let t0 := (z.tell (fun r => r.knownBy (z.path w x.active 4)) [(tcbKey j.part j.id k, 1)]).listTcb j.part j.id k
     (fieldAt bs 0 4 ≠ 0 → t0.recordsFit j.part = true →
       exec i s = .next (goesOn s w i (t0.updWarp w (fun x => x.writeS h.vd.toNat (BitVec.ofNat 32 k))))) ∧
     (fieldAt bs 0 4 = 0 →
       let t := t0.runTasks j.part j.id q (2 ^ 32) [.ready k]
       t.recordsFit j.part = true →
       exec i s = .next (goesOn s w i (t.updWarp w (fun x => x.writeS h.vd.toNat (BitVec.ofNat 32 k)))))) ∧
    (let i : Instr := .tdep h (.x f)
     let z := started s w i
     let pred := x.readPairS (z.draw 0) f.va.toNat
     let succ := x.readPairS (z.draw 0) f.vb.toNat
     Solo s w i → ∀ j k n pb sb, s.jobOf w = some j → tcbIndex j pred = some n → tcbIndex j succ = some k →
     taskRead 2 pred 64 (s.selfActor w i) z = .ok pb → taskRead 2 succ 64 (s.selfActor w i) z = .ok sb →
     (tcbState pb = 3 → exec i s = .next (finished s w i (fun x => x.writeS h.vd.toNat 1))) ∧
     (tcbState pb ≠ 3 → tcbState sb = 0 → ∀ ws t, appendSuccessor z j.part pred pb k = some ws →
       z.kvCommit (z.path w x.active 4) [] (pagerVia j.part) (ws ++ [w4 succ ((fieldAt sb 0 4 + 1) % 2 ^ 32)]) = .ok t →
       exec i s = .next (goesOn s w i (t.updWarp w (fun x => x.writeS h.vd.toNat 0)))) ∧
     (tcbState pb ≠ 3 → tcbState sb ≠ 0 → Room s w →
       exec i s = .next (taken s w i (FaultInfo.of 0x86 1) (z.updWarp w (fun x => x.unwait))))) ∧
    (let i : Instr := .tcancel h (.x f)
     let z := started s w i
     let id := (x.readS (z.draw 0) f.va.toNat).toNat
     Solo s w i →
     (s.job? part id = none → exec i s = .next (finished s w i (fun x => x))) ∧
     (∀ j, s.job? part id = some j → (z.cancelJob j h.x x.blk).recordsFit j.part = true →
       exec i s = .next (goesOn s w i (z.cancelJob j h.x x.blk)))) ∧
    (let i : Instr := .stenq h (.x f)
     let z := started s w i
     let n := (x.readS (z.draw 0) f.va.toNat).toNat
     let d := (List.range 16).map (fun k => x.readS (z.draw 0) (f.vb.toNat + k))
     Solo s w i → ∀ t, s.stiles.find n = some t → t.producer = part → (s.part t.producer).pstate ≠ .resetting →
     (s.part t.consumer).pstate ≠ .resetting →
     (t.slots.length < t.capacity → ∃ y, exec i s = .next y ∧
       y.stiles.find n = some { t with
         slots := t.slots ++ [d], sent := t.sent ++ [⟨.access (s.freeCtr + 1) w 0, z.origin (z.path w x.active 4), true⟩] } ∧ (∀ m, m ≠ n → y.stiles.find m = s.stiles.find m) ∧
       y.mem = s.mem ∧ (∀ v, v ≠ w → y.warps.find v = s.warps.find v) ∧ (y.warp w).wait = none ∧
       (y.warp w).s = x.s ∧ (y.warp w).v = x.v ∧ (y.warp w).pc = canon57 (x.pc + BitVec.ofNat 64 (instrLength i))) ∧
     (t.capacity ≤ t.slots.length → ∃ y, exec i s = .next y ∧ y.stiles = s.stiles ∧ y.mem = s.mem ∧
       (∃ q, (y.warp w).wait = some q ∧ q.kind = .stenq) ∧ (y.warp w).pc = x.pc)) ∧
    (let i : Instr := .stdeq h (.x f)
     let z := started s w i
     let n := (x.readS (z.draw 0) f.va.toNat).toNat
     Solo s w i → ∀ t, s.stiles.find n = some t → t.consumer = part → (s.part t.producer).pstate ≠ .resetting →
     (s.part t.consumer).pstate ≠ .resetting →
     (∀ d r, t.slots = d :: r → d.length = 16 → ∃ y, exec i s = .next y ∧
       y.stiles.find n = some { t with slots := r, sent := t.sent.tail } ∧
       y.past = (z.hear (z.path w x.active 4) true (t.sent.take 1)).past ∧ (∀ m, m ≠ n → y.stiles.find m = s.stiles.find m) ∧
       y.mem = s.mem ∧ (∀ v, v ≠ w → y.warps.find v = s.warps.find v) ∧ (y.warp w).wait = none ∧
       (∀ k, (y.warp w).rawS k = if h.vd.toNat ≤ k ∧ k < h.vd.toNat + 16 then d.getD (k - h.vd.toNat) 0 else x.rawS k) ∧
       (y.warp w).v = x.v ∧ (y.warp w).pc = canon57 (x.pc + BitVec.ofNat 64 (instrLength i))) ∧
     (t.slots = [] → ∃ y, exec i s = .next y ∧ y.stiles = s.stiles ∧ y.mem = s.mem ∧
       (∃ q, (y.warp w).wait = some q ∧ q.kind = .stdeq) ∧ (y.warp w).pc = x.pc))

/-! SYS: privilege, and the return from an exception. -/

/-- 04 R91, R110, 21 R353, R360 to R366, 19 R347, logs 10, 16, 17, 23, 72, 89, 102, 106, 109, 110 and 121: an instruction of SYS in a warp
that is not firmware's is a precise fault PRIVILEGED, whatever its other fields. In firmware, OVFLD gives the old overflow
table and sets the new one; TLBINV removes the translations that it names from every core, and what they were once covers no
access any more; SWRP gives a partition register's old value and sets the new one; CTXSAVE writes the image of a suspended
block and gives its size; CTXLOAD makes the block of an image resident where the core admits it; QDESTROY stops a queue's
grids; HALT suspends its target; ERET answers 0 and resumes or ends its targets, or 3 where mode 01 would take a warp out of a
rendezvous. A new PC that is odd or not canonical, and reserved operands, are precise faults. -/
def Obligations.SystemInstructions : Prop :=
  (∀ (s : State) (w : Nat) (i : Instr) (fn : Nat) (h : Hdr) (u : Upper), headWord i = some (17, fn, h, u) →
    s.focus = some w → s.ready w = true → (s.warp w).fw = false → Room s w →
    (scopeOfInstr i = .lane ∨ scopeOfInstr i = .warp) →
    exec i s = .next (taken s w i (FaultInfo.of 0x15 0) ((started s w i).updWarp w (fun x => x.unwait)))) ∧
  (∀ (s : State) (w : Nat) (h : Hdr) (f : XForm),
    let x := s.warp w
    let a (i : Instr) := x.readS ((started s w i).draw 0) f.va.toNat
    let b (i : Instr) := x.readS ((started s w i).draw 0) f.vb.toNat
    let pair (i : Instr) := x.readPairS ((started s w i).draw 0) f.vb.toNat
    let gives (i : Instr) (v : Word) (t : State) : Prop :=
      exec i s = .next (goesOn s w i (t.updWarp w (fun y => y.writeS h.vd.toNat v)))
    let reserved (i : Instr) : Prop := Room s w →
      exec i s = .next (taken s w i (FaultInfo.of 0x11 0) ((started s w i).updWarp w (fun y => y.unwait)));
    (let i : Instr := .ovfld h (.x f)
     Solo s w i →
     (b i < 8 → ovfValid (a i) = true → gives i (s.part (b i).toNat).ovf
       ((started s w i).updPart (b i).toNat (fun q => { q with ovf := a i }))) ∧
     (¬ (b i < 8 ∧ ovfValid (a i) = true) → reserved i)) ∧
    (let i : Instr := .tlbinv h (.x f)
     let z := started s w i
     let part := ((b i).extractLsb' 0 3).toNat
     let kind := ((b i).extractLsb' 4 2).toNat
     let va := vaBits (x.readPairS (z.draw 0) f.va.toNat)
     Solo s w i →
     ((b i).extractLsb' 6 26 = 0 → (b i).getLsbD 3 = false → kind ≠ 3 → z.drainsInFlight part = false →
       exec i s = .next (past s w i ({ z with cores := z.cores.mapVal (fun _ k =>
         { k with tlb := k.tlb.filter (keepsEntry part kind va (z.pageAt part va)) }) }.updPart part (fun p =>
           { p with tables := List.filter (fun e => keepsOld s.mem p kind va e.1) p.tables })))) ∧
     (((b i).extractLsb' 6 26 ≠ 0 ∨ (b i).getLsbD 3 = true ∨ kind = 3) → reserved i)) ∧
    (let i : Instr := .swrp h (.x f)
     let z := started s w i
     let part := ((b i).extractLsb' 8 3).toNat
     Solo s w i →
     ((b i).extractLsb' 11 21 = 0 → ∀ old p, (s.part part).swrp ((b i).extractLsb' 0 8).toNat (a i) = some (old, p) →
       gives i old (((z.setPart part p).flushHeld part p.heldRecs.length).rehead part)) ∧
     (((b i).extractLsb' 11 21 ≠ 0 ∨ (s.part part).swrp ((b i).extractLsb' 0 8).toNat (a i) = none) → reserved i)) ∧
    (let i : Instr := .ctxsave h (.x f)
     let z := started s w i
     Solo s w i →
     (targetWord false (a i) = none → reserved i) ∧
     (∀ t, targetWord false (a i) = some t → t.block = true → (s.warps.find t.warp).isSome = true →
       z.allSuspended (z.warp t.warp).blk = true → z.contextBusy (z.warp t.warp).blk = false →
       (pair i).toNat % 4096 = 0 → ∀ rs, z.longRuns (z.via w) (Rights.w false) (z.draw 8)
         ((z.imageOf (z.warp t.warp).blk).size / 4096 + 2) (pair i) (z.imageOf (z.warp t.warp).blk).size = .ok rs →
       let g := z.imageOf (z.warp t.warp).blk
       gives i (w32 g.size) { z.putBy (z.path w x.active 4) (z.draw 13) (Put.store false) (.glob rs) g.bytes with
         images := z.images ++ [g] }) ∧
     (∀ t, targetWord false (a i) = some t → (t.block = false ∨ s.warps.find t.warp = none ∨ z.allSuspended (z.warp t.warp).blk = false) →
       exec i s = .next (finished s w i (fun y => y.writeS h.vd.toNat 0)))) ∧
    (let i : Instr := .ctxload h (.x f)
     let z := started s w i
     Solo s w i →
     (∀ t g slots, targetWord false (a i) = some t → t.block = false → t.slot = 0 → z.imageAt (s.selfActor w i) (pair i) = .ok g →
       z.imageSlots t.core g = some slots →
       (s.pacing t.core = false → z.admits t.core g.blk.claim g.blk.alloc = true →
         (s.core t.core).reqs.length + (g.warps.filter (fun e => e.2.leadsNeed e.1)).length ≤ 64 →
         gives i 0 ((z.loadImage t.core g slots).tell (fun r => r.knownBy (z.path w x.active 4))
           (slots.map (fun e => (warpId t.core e.2, 0xFFFFFFFF))))) ∧
       ((s.pacing t.core = true ∨ z.admits t.core g.blk.claim g.blk.alloc = false) →
         exec i s = .next (finished s w i (fun y => y.writeS h.vd.toNat 1)))) ∧
     (∀ t g, targetWord false (a i) = some t → t.block = false → t.slot = 0 → z.imageAt (s.selfActor w i) (pair i) = .ok g →
       z.imageSlots t.core g = none → exec i s = .next (finished s w i (fun y => y.writeS h.vd.toNat 2))) ∧
     (∀ t c, targetWord false (a i) = some t → t.block = false → t.slot = 0 → z.imageAt (s.selfActor w i) (pair i) = .error c →
       Room s w → exec i s = .next (taken s w i c (z.updWarp w (fun y => y.unwait))))) ∧
    (let i : Instr := .qdestroy h (.x f)
     Solo s w i →
     ((a i).extractLsb' 9 23 = 0 →
       let part := ((a i).extractLsb' 6 3).toNat
       let t := (started s w i).destroyQueue part ((a i).extractLsb' 0 6).toNat
       t.recordsFit part = true → exec i s = .next (goesOn s w i t)) ∧
     ((a i).extractLsb' 9 23 ≠ 0 → reserved i)) ∧
    (let i : Instr := .halt h (.x f)
     let z := started s w i
     Solo s w i → ∀ t, targetWord false (a i) = some t →
     let y := z.warp t.warp
     let ws := (if t.block then (z.warpsOfBlock y.blk).filter (fun v => !(z.warp v).exited) else [t.warp]).filter
       (fun v => (z.warp v).susp.isNone)
     ((z.warps.find t.warp = none ∨ y.exited = true) →
       exec i s = .next (finished s w i (fun y => y.writeS h.vd.toNat 2))) ∧
     ((z.warps.find t.warp).isSome = true → y.exited = false → ws = [] →
       exec i s = .next (finished s w i (fun y => y.writeS h.vd.toNat 1))) ∧
     ((z.warps.find t.warp).isSome = true → y.exited = false → ws ≠ [] →
       z.canRecord (halfOfCore y.core) (z.partOf t.warp) = true →
       gives i 0 (z.haltWarps (if t.block then .block else .warp) ws))) ∧
    (let i : Instr := .eret h (.x f)
     let z := started s w i
     Solo s w i →
     (targetWord true (a i) = none → reserved i) ∧
     (∀ t, targetWord true (a i) = some t → (z.warps.find t.warp = none ∨ (z.warp t.warp).susp = none) →
       exec i s = .next (finished s w i (fun y => y.writeS h.vd.toNat 1))) ∧
     (∀ t q, targetWord true (a i) = some t → (z.warps.find t.warp).isSome = true → (z.warp t.warp).susp = some q →
       let y := z.warp t.warp
       let known (r : Past) : Bool := r.knownBy (z.path w x.active 4)
       let bound := (z.targets t).any (fun v => (z.resumeGroup v).any z.inInstance)
       (t.mode = 0 → gives i 0 ((z.targets t).foldl (fun z v => z.resumeWarp v none known) z)) ∧
       (t.mode = 1 → bound = true → exec i s = .next (finished s w i (fun y => y.writeS h.vd.toNat 3))) ∧
       (t.mode = 1 → bound = false → codeAddr (pair i) = true →
         gives i 0 ((z.targets t).foldl (fun z v => z.resumeWarp v (some (pair i)) known) z)) ∧
       (t.mode = 1 → bound = false → codeAddr (pair i) = false → Room s w →
         exec i s = .next (taken s w i (FaultInfo.of 0x1C 0) (z.updWarp w (fun y => y.unwait)))) ∧
       (t.mode = 2 → gives i 0 ((if t.block then z.endBlock y.blk else z.killWarp t.warp).renumber y.core)))))

/-- 21 R354, R355, R365, 06 R131, R138, logs 22, 89 and 120: the return from an exception. Every warp of a flock-wide or block-wide
record resumes with one that ERET names, and of another record that one alone, with registers, masks and stacks as they were:
in mode 00 at its PC, in mode 01 at the new PC; that its wait and its requests are then dropped and REPI is 0 is the model's
choice (log 120). Other warps and memory are as they were. Mode
10 ends the warp as EXIT of all its lanes, and its arrivals and requests go with it. -/
def Obligations.ReturnFromException : Prop :=
  ∀ (s : State) (w : Nat) (u : Susp) (pc : DWord), (s.warp w).susp = some u →
    let group := if u.flags &&& 6 = 0 then [w] else u.group.filter (fun v => (s.warp v).susp.any (fun t => t.group = u.group))
    (∀ v ∈ group,
      (s.resumeAll w).warp v = { s.warp v with susp := none, abuf := none } ∧
      (s.resumeAt w pc).warp v = { s.warp v with
        susp := none, abuf := none, pc := pc, repi := 0, wait := none, blocked := Blocked.none }) ∧
    (∀ v ∈ group, ∀ r ∈ ((s.resumeAt w pc).core (s.warp v).core).deferred, r.w ≠ v) ∧
    (∀ v, v ∉ group → (s.resumeAll w).warps.find v = s.warps.find v ∧ (s.resumeAt w pc).warps.find v = s.warps.find v) ∧
    (s.resumeAll w).mem = s.mem ∧ (s.resumeAt w pc).mem = s.mem ∧ (s.resumeAt w pc).blocks = s.blocks ∧
    ((s.endWarp w).warp w).live = 0 ∧ ((s.endWarp w).warp w).active = 0 ∧ ((s.endWarp w).warp w).susp = none ∧
    ((s.endWarp w).warp w).wait = none ∧ (s.endWarp w).mem = s.mem ∧
    (∀ e ∈ ((s.endWarp w).block (s.warp w).blk).insts, ∀ m ∈ e.arrivals, m.w ≠ w) ∧
    (∀ r ∈ ((s.endWarp w).core (s.warp w).core).deferred, r.w ≠ w)

/-! Events: what becomes of work in flight, and what the device, firmware and the outside do. -/

/-- The warps of a core that an event stopping its issue suspends (21 R355). -/
def Sys2Proof.running (s : State) (core : Nat) : List Nat :=
  s.warps.keysWhere (fun _ x => x.core = core && !x.exited && x.susp.isNone)

/-- 01 R26, 07 R157 to R167, 21 R355 to R357, logs 66, 67, 68, 71, 98, 99, 107 and 111: the events of strings, power and heat
under the conditions that bring them about. Filler takes the slot of the quarter whose turn it is. At the end of a clock whose
conditions hold the string enters throttle, or leaves it. An event that stops a core's issue suspends every warp of it that
runs, under one record; the power cap, the operating point and the gate change the core alone; soft errors are counted, and an
uncorrectable error poisons what it names, in HBM with the data of the line lost. -/
def Obligations.StringEvents : Prop :=
  ∀ (s : State) (core q : Nat),
    let c := s.core core
    let p := s.settingsOf core
    let d := c.tick
    (q < 4 → c.turn = q → s.selection core q = .filler → exec (.fillerIssue core q) s = .next (s.updCore core (fun k =>
      { k.charge 0 q 256 with filledNow := setNth k.filledNow q true, turn := k.turn + 1 }))) ∧
    (c.throttled = false → c.gated = false → 4 ≤ c.turn → p.throtT < imbalance d →
      16 ≤ d.fillRun.getD (firstAt (windows d) (listMin (windows d))) 0 →
      ∃ t, exec (.throttleEntry core) s = .next t ∧ (t.core core).throttled = true ∧
        (t.core core).entries = (if c.pwr then c.entries else (c.entries + 1) % 256) ∧
        (t.core core).clock = (c.clock + 1) % 2 ^ 64 ∧ (t.core core).turn = 0) ∧
    (c.throttled = true → c.gated = false → 4 ≤ c.turn → imbalance d ≤ p.throtT - p.fillerF →
      ∃ t, exec (.throttleExit core) s = .next t ∧ (t.core core).throttled = false ∧ (t.core core).entries = c.entries ∧
        (t.core core).clock = (c.clock + 1) % 2 ^ 64 ∧ (t.core core).turn = 0) ∧
    (∀ e ∈ [(Instr.stringBalanceLost core (q % 4), BitVec.ofNat 8 (0xA8 + q % 4)), (.thermalTrip core, 0xAC),
        (.railUndervolt core, 0xAE), (.railOvercurrent core, 0xAF)],
      ∀ part, s.ownerOf core = some part → s.canRecord (halfOfCore core) part = true →
      ∃ t, exec e.1 s = .next t ∧
        (∀ v ∈ running s core, (t.warp v).susp = some ⟨e.2, 1, running s core, none, false, false, s.recordNo part⟩ ∧
          (t.warp v).pc = (s.warp v).pc ∧ (t.warp v).v = (s.warp v).v ∧ (t.warp v).s = (s.warp v).s) ∧
        (∀ v, v ∉ running s core → t.warps.find v = s.warps.find v) ∧
        (t.core core).stops = c.stops ++ [s.recordNo part] ∧ ((∃ v ∈ running s core, (s.warp v).core = core) → t.stopped core = true)) ∧
    (∀ part energy credit, (s.part part).configured = true →
      ∃ t, exec (.powerInterval part energy credit) s = .next t ∧ t.warps = s.warps ∧ t.mem = s.mem ∧
        (∀ k ∈ (s.part part).regions.flatMap coresOf,
          let above := decide ((s.part part).pwrShare + credit < energy)
          t.core k = { s.core k with
            pwr := above
            entries := if above && !(s.core k).pwr && !(s.core k).throttled then ((s.core k).entries + 1) % 256
              else (s.core k).entries }) ∧
        (∀ k, k ∉ (s.part part).regions.flatMap coresOf → t.cores.find k = s.cores.find k)) ∧
    (∀ mhz ∈ [760, 850, 940, 1020], exec (.operatingPointChange mhz) s = .next { s with mhz := mhz }) ∧
    (s.migrant core = none → exec (.thermalMigrate core) s = .next (s.updCore core (fun k =>
      if k.throttled then k
      else { k with throttled := true, entries := if k.pwr then k.entries else (k.entries + 1) % 256 }))) ∧
    (∀ u, s.migrant core = some u → (s.bump.preemptAll u 0xAD 0).recordsFit (s.block u).part = true →
      exec (.thermalMigrate core) s = .next (s.bump.preemptAll u 0xAD 0)) ∧
    (c.gated = true → exec (.coreUngate core) s = .next (s.updCore core (fun k => { k with gated := false, entries := 0 }))) ∧
    (c.gated = false → (∀ e ∈ s.blocks, e.2.core ≠ core) →
      exec (.powerGate core) s = .next { s.updCore core (fun k =>
        { Core.reset with gated := true, clock := k.clock, lap := k.lap, pwr := k.pwr, stops := k.stops, lastAdmit := k.lastAdmit,
                          tlb := k.tlb, imbHist := k.imbHist, spareEpochs := [(wholeWindow, s.epoch)] }) with
        nextUid := s.nextUid + 1 }) ∧
    (∀ w, (s.warp w).yieldLeft = 1 →
      exec (.yieldExpiry w) s = .next (s.updWarp w (fun x => { x with yieldLeft := 0 }))) ∧
    (∀ array, array < 8 → exec (.softErrorCorrect array) s = .next
      { s with softErrors := s.softErrors.put array ((s.softErrors.find array).getD 0 + 1) }) ∧
    (∀ array (phys : BitVec 64) w item, s.storageThere array core w item = true →
      let hit := s.bump.poisonStorage array phys.toNat core w item
      (s.errorOwner array phys.toNat core = none → exec (.eccUncorrectable array phys core w item) s = .next hit) ∧
      (array = 7 → phys.toNat / 32 ∈ hit.poison ∧
        ∀ a, a / 128 ≠ phys.toNat / 128 → memRead hit.mem a = memRead s.mem a) ∧
      (∀ part, s.errorOwner array phys.toNat core = some part → s.canRecord (halfOfCore core) part = true →
        ∃ t, exec (.eccUncorrectable array phys core w item) s = .next t ∧
          t.poison = hit.poison ∧
          (array = 0 → (t.warp w).vPoison = (s.warp w).vPoison ++ [item]) ∧
          (array ≤ 2 → (s.warp w).exited = false → (s.warp w).susp = none →
            (t.warp w).susp = some ⟨BitVec.ofNat 8 (0xA0 + array), 1, [w], none, false, false, s.recordNo part⟩)))

/-- The trap due for an outstanding access that ends in cause `c`: agent atomic for an atomic, else load (10 R211). -/
def Sys2Proof.dueTrap (c : Cause) (atomic : Bool) (ipc iword : DWord) : AsyncTrap := ⟨c, if atomic then 1 else 0, ipc, iword⟩

/-- 02 R33, R59, 10 R211 to R213, 22 R377, logs 2, 6, 84, 87 and 103: a load's data fills its cells; one that a later write has
reached keeps that write or takes the data, and nothing else of the registers changes; the data of an element that the load
may still read is read then, where it happens to be (log 6). A load that met poison, whose fold
member has left, or whose peer does not answer writes none and traps at the next boundary, behind those due already. A store
that is performed leaves its counter in order. -/
def Obligations.LoadAndStoreReturn : Prop :=
  ∀ (s : State) (w idx : Nat) (x : Warp), s.warps.find w = some x →
    (∀ q, x.loads[idx]? = some q → q.done = false →
      let bad := q.bad <|> s.departed w q.folds
      let late := (s.bump.readLate w q).2
      (q.reads = [] → late = q) ∧
      ∃ t, exec (.loadDataReturn w idx) s = .next t ∧ t.mem = s.mem ∧ t.blocks = s.blocks ∧ t.parts = s.parts ∧
        (∀ v, v ≠ w → t.warps.find v = s.warps.find v) ∧ (t.warp w).p = x.p ∧ (t.warp w).pc = x.pc ∧
        (t.warp w).sticky = x.sticky ∧ (t.warp w).stores = x.stores ∧
        (∀ c, bad = some c → (t.warp w).v = x.v ∧ (t.warp w).s = x.s ∧ (t.warp w).vPoison = x.vPoison ∧
          (t.warp w).asyncTraps = x.asyncTraps ++ [dueTrap c q.atomic q.ipc q.iword]) ∧
        (bad = none → (t.warp w).asyncTraps = x.asyncTraps ∧
          (t.warp w).vPoison = x.vPoison.filter (fun r => !q.cells.any (fun c => !c.uniform && c.reg = r)) ∧
          (∀ r l, l < 32 → (∀ c ∈ q.cells, ¬ (c.uniform = false ∧ c.reg = r ∧ c.lane = l)) → (∀ c ∈ q.cells, c.lane < 32) →
            (t.warp w).rawV r l = x.rawV r l) ∧
          (∀ r, (∀ c ∈ q.cells, ¬ (c.uniform = true ∧ c.reg = r)) → (t.warp w).rawS r = x.rawS r) ∧
          ((∀ c ∈ q.cells, c.lane < 32) →
            q.cells.Pairwise (fun c d => c.uniform ≠ d.uniform ∨ c.reg ≠ d.reg ∨ (c.uniform = false ∧ c.lane ≠ d.lane)) →
            ∀ c ∈ late.cells, (t.warp w).cellNow c = (x.cellNow c &&& c.keep) ||| c.value ∨
              (c.clob = true ∧ (t.warp w).cellNow c = x.cellNow c)))) ∧
    (∀ q, x.loads[idx]? = some q → q.done = false → q.peers ≠ [] → q.bad = none →
      ∃ t, exec (.peerTimeout (.load w idx)) s = .next t ∧ (t.warp w).v = x.v ∧ (t.warp w).s = x.s ∧
        (t.warp w).asyncTraps = x.asyncTraps ++ [dueTrap 0xB2 q.atomic q.ipc q.iword]) ∧
    (∀ q, x.stores[idx]? = some q → q.done = false →
      exec (.storePerformed w idx) s = .next ((s.performed q.step w).updWarp w (fun y =>
        { y with
          asyncTraps := match q.bad <|> s.departed w q.folds with
            | some c => y.asyncTraps ++ [dueTrap c q.atomic q.ipc q.iword]
            | none => y.asyncTraps
          stores := (setNth y.stores idx { q with bad := q.bad <|> s.departed w q.folds, done := true }).dropWhile
            (fun e => e.done) }))) ∧
    (∀ q, x.stores[idx]? = some q → q.done = false → q.peers ≠ [] → q.bad = none →
      ∃ t, exec (.peerTimeout (.store w idx)) s = .next t ∧ t.mem = s.mem ∧ (t.warp w).v = x.v ∧ (t.warp w).s = x.s ∧
        (t.warp w).asyncTraps = x.asyncTraps ++ [dueTrap 0xB2 q.atomic q.ipc q.iword])

/-- 02 R30, R33, R53, R54, 14 R257, R267 to R269, R274 to R276, 16 R286, R301, 22 R377, logs 6, 36, 51, 54, 84, 85, 104 and 108:
the events of the lane-copy unit and the tile engine. A slot that is free takes the warp's oldest operation. An operation that
meets no fault is performed, and its number completes; a TLOAD writes its box and no other byte of scratch, where no write
races with it. A TMCAST delivers to each member in turn, and goes on though another member's delivery has failed. An operation
that meets a fault keeps it until a waiter's trap is served, and is then performed again. -/
def Obligations.EngineEvents : Prop :=
  ∀ (s : State) (id : Nat) (o : EngOp), s.ops.find id = some o →
    let b := s.bump
    (∀ w rest, (s.warp w).tileq = id :: rest → s.slotsUsed (s.warp w).core < Config.tileSlots →
      exec (.tileAccept w) s = .next ((s.setOp id { o with accepted := true }).updWarp w (fun x =>
        { x with tileq := rest }))) ∧
    (∀ l src dst size v nt, o.kind = .lane l src dst size v nt → o.fault = none → ∀ t, b.runTransfer id o = .ok t →
      exec (.lcopyTransferDone id) s = .next (((t.finishOp id).fillOp o).trapWaiters o.blk)) ∧
    (∀ fn g, o.kind = .tile fn g → fn ≠ 3 → o.accepted = true → o.fault = none → ∀ t, b.runTile id fn g o = .ok t →
      exec (.tileOpComplete id) s = .next (((t.finishOp id).fillOp o).trapWaiters o.blk)) ∧
    (∀ k c g bs, o.kind = .wbload k c g → o.accepted = true → o.fault = none → b.opBehind id o = false →
      b.slotBox id o g = .ok bs →
      exec (.tileOpComplete id) s = .next ((((b.finishOp id).landSlot o.w k bs).fillOp o).trapWaiters o.blk)) ∧
    (∀ g cells, o.kind = .tile 1 g → b.boxRuns o.blk (Rights.r false) g (originOf o.regs) = .ok cells →
      let box := b.boxRead (o.agent id) g cells
      b.peerPoisons (cells.filterMap (fun c => c.map Target.glob)) = false →
      (∀ q ∈ b.keysOf (.scr o.blk (regN o.regs 5) box.length), b.pastAt q = []) →
      ∃ t, b.runTile id 1 g o = .ok t ∧ t.mem = s.mem ∧ t.warps = s.warps ∧
        (∀ k, k < box.length → (t.block o.blk).scrByte (regN o.regs 5 + k) = box.getD k 0) ∧
        (∀ u n, ¬ (u = o.blk ∧ regN o.regs 5 ≤ n ∧ n < regN o.regs 5 + box.length) →
          (t.block u).scrByte n = (s.block u).scrByte n)) ∧
    (∀ g, o.kind = .tile 3 g → o.accepted = true → o.fault = none →
      (∀ r ∈ castLeft o, o.counted = true ∧ ∀ u, b.castTarget g o r ≠ .ok u) →
      exec (.tileOpComplete id) s = .next ((b.finishOp id).trapWaiters o.blk)) ∧
    (∀ g rank bs u, o.kind = .tile 3 g → o.accepted = true → rank ∈ castLeft o → b.castBox id g o = .ok bs →
      b.castTarget g o rank = .ok u →
      let r := (if o.box.isNone then b.fillOp o else b).castDeliver id g o rank u bs
      exec (.tmcastDelivery id rank) s = .next (r.1.failIf id o.blk r.2)) ∧
    ((o.isLane || o.accepted) = true → o.fault = none → o.counted = false → b.kvTurn id o = true →
      ∀ e, b.meetsFault id o = some e →
      exec (.engineAsyncFault id) s = .next ((b.opFails id o e).trapWaiters o.blk)) ∧
    (∀ f, o.fault = some f → f.served = true →
      exec (.engineReplay id) s = .next ((b.replayOp id o).trapWaiters o.blk)) ∧
    (∀ g, o.kind = .tile 5 g → o.accepted = true → o.fault = none →
      exec (.peerTimeout (.engine id)) s = .next ((b.opFails id o (0xB2, o.firstAddr)).trapWaiters o.blk)) ∧
    (∀ part, (o.isLane || o.accepted) = true → o.fault = none →
      exec (.hostTimeout part (some id)) s = .next ((b.opFails id o (0xB6, o.firstAddr)).trapWaiters o.blk))

/-- 02 R53, R54, 16 R284, R286, R291, R293, R295 to R303, logs 6, 38 and 104: the events of the matrix unit. The A operand of the
MMA at a warp's PC is fetched, as the warp's path sees scratch, once its earlier scratch stores are performed. The next
operation of a warp that meets no fault is performed in order: a weight slot takes its bytes behind the earlier loads of it,
an MMA its sums, ACCZ zeroes its tiles and their flags, ACCLD and ACCDRAIN move theirs. One that meets a fault keeps it, its
destination unspecified. -/
def Obligations.MatrixEvents : Prop :=
  ∀ (s : State) (w : Nat),
    let x := s.warp w
    let b := s.bump
    (∀ h f m, (s.warps.find w).isSome = true → x.exited = false → x.susp = none →
      (∀ q ∈ x.stores, q.scratch = true → q.done = true) → b.decodeAt w = .ok (.mma h (.x f)) →
      (s.block x.blk).omaps.find f.va.toNat = some m → m.fmt = hdrTop h →
      (∀ b, x.abuf = some b → b.1 ≠ m) →
      let ps := aPlaces (hdrTop h) m (b.originWord w f)
      b.firstBeyond x.blk ps = none →
      exec (.mmaAFetch w) s = .next (b.updWarp w (fun y =>
        { y with abuf := some (m, ps.any (fun r => (s.block x.blk).scrPoisoned r.1 r.2),
            ps.flatMap (fun r => b.see (b.path w x.active 0) (b.draw 6) (.scr x.blk r.1 r.2))) }))) ∧
    (∀ n op, x.nextMatrix = some (n, op) → b.lateFault w op.kind = none →
      let left (t : State) : State := (t.updWarp w (fun y => y.doneMatrix n)).forget (workKey op.id)
      (∀ j c off cs km, op.kind = .wbload j c off cs km → b.slotBehind w j op.id = false →
        exec (.wbloadFillDone w) s = .next ((left b).landSlot w j (b.unitScr w op.id (bPlaces c off cs km)))) ∧
      (∀ c t p q, op.kind = .mma c t p q →
        exec (.mmaComplete w) s = .next (left (b.setWarp w (x.runMma (s.part (s.partOf w)).ovf c t p q)))) ∧
      (∀ t k, op.kind = .accz t k → ∃ y, exec (.acczAccldComplete w) s = .next y ∧ y.mem = s.mem ∧ y.blocks = s.blocks ∧
        (∀ j, j < k → (y.warp w).tileFlags (t + j) = 0 ∧ ∀ e, e < 256 → (y.warp w).tileWord (t + j) e = 0) ∧
        (∀ j e, e < 256 → ¬ (t ≤ j ∧ j < t + k) →
          (y.warp w).tileWord j e = x.tileWord j e ∧ (y.warp w).tileFlags j = x.tileFlags j)) ∧
      (∀ c t off stride, op.kind = .accld c t off stride →
        exec (.acczAccldComplete w) s = .next (left (b.setWarp w
          (x.runAccld c t (b.unitScr w op.id (ldPlaces c off stride)))))) ∧
      (∀ d, op.kind = .drain d →
        exec (.accdrainComplete w) s = .next (left (b.runDrain w n d (if d.bias.toNat = noValue then []
          else b.unitScr w op.id [(d.bias.toNat, if d.pairTile then 128 else 64)]))))) ∧
    (∀ n op f, x.nextMatrix = some (n, op) → b.lateFault w op.kind = some f →
      exec (.matrixLateFault w) s = .next (b.failMatrix w n op f))

/-- The plan of an append of `c` tokens (17 R316): the last node takes tokens while it has room, and the rest go to a new node,
which starts at the length, or where the last node is shared at the page that the length lies in. -/
def Sys2Proof.AppendPlanned (d : KvDesc) (c : Nat) (q : AppendPlan) : Prop :=
  match d.path.getLast? with
  | none => q.toF = 0 ∧ q.gStart = d.len ∧ q.popsG = (c + 15) / 16 ∧ q.popsF = []
  | some f =>
    let room := f.refs = 1 ∧ f.start + f.count = d.len ∧ f.count < 128
    q.f = some f ∧ (room → q.toF = min c (128 - (d.len - f.start))) ∧ (¬ room → q.toF = 0) ∧
      (1 < f.refs → d.len % 16 ≠ 0 → q.gStart = d.len - d.len % 16) ∧
      (¬ (1 < f.refs ∧ d.len % 16 ≠ 0) → q.gStart = d.len + q.toF) ∧
      (∀ e, e ∈ q.popsF ↔ ∃ i, i < q.toF ∧ (d.len + i - f.start) % 16 = 0 ∧ e = (d.len + i - f.start) / 16) ∧
      q.popsG = if q.toF = c then 0 else (d.len + c - q.gStart + 15) / 16

/-- What a KVAPPEND writes in its step (17 R316): each token's K and V rows, as its agent sees them in scratch, at their place;
the entries of the pages popped, from the top of the free stack down; the last node's count; the new node, whole, with its
place in the path, and the rows that it takes over; the pool's free count; and the length, last. -/
def Sys2Proof.AppendWrites (b : State) (id : Nat) (o : EngOp) (t : State) : Prop :=
  ∃ (d : KvDesc) (p : KvPool) (pops : List Nat) (ws : List KvWrite) (ks vs : List Byte) (y : State),
    let v := b.engineVia o.blk
    let c := regN o.regs 2
    let q := appendPlan d c
    let spare := regPair o.regs 5
    let newG := q.toF < c
    b.kvDesc v (regPair o.regs 0) = .ok d ∧ b.kvPool v d.pool = .ok p ∧ AppendPlanned d c q ∧
    b.seeScr (o.agent id) 3 o.blk (regN o.regs 3) (c * p.rb) = .ok ks ∧
    b.seeScr (o.agent id) 3 o.blk (regN o.regs 4) (c * p.rb) = .ok vs ∧
    pops.length = q.popsF.length + q.popsG ∧ pops.length ≤ p.free ∧
    (∀ i, i < pops.length → ∃ bs, b.kvRead v (atOff p.stack (4 * (p.free - 1 - i))) 4 = .ok bs ∧ leNat bs = pops.getD i 0) ∧
    b.kvCommit (o.agent id) (b.kvTouched v d ++ (if newG then b.kvObjects v [spare] else [])) v
      (ws ++ [w4 (atOff p.base 8) (p.free - pops.length), w4 (atOff d.addr 128) (d.len + c)]) = .ok y ∧
    t.mem = y.mem ∧ t.past = y.past ∧ t.warps = y.warps ∧ t.blocks = y.blocks ∧
    (∀ i, i < c → ∃ page row, tokenPage p d q pops i = .ok (page, row) ∧
      (atOff page (row * p.rb), (ks.drop (i * p.rb)).take p.rb) ∈ ws ∧
      (atOff page ((16 + row) * p.rb), (vs.drop (i * p.rb)).take p.rb) ∈ ws) ∧
    (∀ f, q.f = some f → 0 < q.toF →
      (atOff f.addr 12, leBytes 2 (f.count + q.toF) ++ leBytes 2 f.refs) ∈ ws ∧
      ∀ j, j < q.popsF.length → w4 (entAddr f.addr (q.popsF.getD j 0)) (poolEntry (pops.getD j 0)).toNat ∈ ws) ∧
    (newG → spare ≠ 0 ∧ spare.toNat % 64 = 0 ∧ (atOff d.addr (8 * d.path.length), leBytes 8 spare.toNat) ∈ ws ∧
      (spare, leBytes 8 ((q.f.map (fun f => f.addr.toNat)).getD 0) ++ leBytes 4 q.gStart
        ++ leBytes 2 (d.len + c - q.gStart) ++ leBytes 2 1 ++ (List.range 8).flatMap (fun i => leBytes 4
          (if i < q.popsG then (poolEntry (pops.getD (q.popsF.length + i) 0)).toNat else 0)) ++ List.replicate 16 0) ∈ ws ∧
      ∀ f r, q.f = some f → r < 16 → q.gStart + r < d.len → d.win ≤ q.gStart + r →
        ∃ page k w, needPage p f ((q.gStart - f.start) / 16) = .ok page ∧
          b.kvRead v (atOff page (r * p.rb)) p.rb = .ok k ∧ b.kvRead v (atOff page ((16 + r) * p.rb)) p.rb = .ok w ∧
          let into := p.page (pops.getD q.popsF.length 0)
          (atOff into (r * p.rb), k) ∈ ws ∧ (atOff into ((16 + r) * p.rb), w) ∈ ws)

/-- What an SMERGE writes (17 R320): the rows merged from the records of the ranks of its mask, lowest rank first, over the
destination in the destination member's scratch, and its bytes to the barrier as one arrival. A row any of whose maxima is a
NaN or +∞ is canonical NaNs; of two records the maximum stands, and each other word is the sum of the products by the weights,
each operation rounded. Bytes of the destination that overlap the member's own source region, unless it is that region, are
unspecified. -/
def Sys2Proof.MergeWrites (b : State) (id : Nat) (o : EngOp) (t : State) : Prop :=
  let ovf := (b.part (b.block o.blk).part).ovf
  let n := mergeBytes o.regs
  let rows := regN o.regs 1
  let d := regN o.regs 2
  ∃ srcs u, b.mergeSources id o (ranksOf (regN o.regs 0 % 256)) = .ok srcs ∧
    b.mergeMember o (mergeDest o.regs) (regN o.regs 4) n = .ok u ∧
    (∃ bs : List Byte,
      (∀ k, k < n → bs[k]? = (mergeAll ovf rows d srcs)[k]? ∨
        ((ranksOf (regN o.regs 0 % 256)).contains (mergeDest o.regs) = true ∧ regN o.regs 3 ≠ regN o.regs 4 ∧
          regN o.regs 3 ≤ regN o.regs 4 + k ∧ regN o.regs 4 + k < regN o.regs 3 + n)) ∧
      (regN o.regs 5 = noValue → t = b.scrPut (o.agent id) u (regN o.regs 4) bs) ∧
      (regN o.regs 5 ≠ noValue →
        (b.scrPut (o.agent id) u (regN o.regs 4) bs).barBytes (o.agent id) u (regN o.regs 5) n = some t)) ∧
    mergeAll ovf rows d srcs = (List.range rows).flatMap (fun i =>
      (mergeRow ovf (srcs.map (fun bs => (chunks 4 (bs.drop (i * (2 + d) * 4)) (2 + d)).map leNat))).flatMap (leBytes 4)) ∧
    (∀ (r : List Nat) (rest : List (List Nat)),
      let bad (r : List Nat) : Prop := (∃ p, fp32.decode (r.headD 0) = .nan p) ∨ fp32.decode (r.headD 0) = .inf false
      ((∃ x ∈ r :: rest, bad x) → mergeRow ovf (r :: rest) = r.map (fun _ => fp32.nanBits)) ∧
      ((∀ x ∈ r :: rest, ¬ bad x) → mergeRow ovf (r :: rest) = rest.foldl (mergeTwo ovf) r)) ∧
    (∀ (m m2 : Nat) (x y : List Nat),
      let mn := (fp32.roundNum (Rnd.rne ovf) (minMax true (fp32.decode m) (fp32.decode m2)).1).1
      mergeTwo ovf (m :: x) (m2 :: y) = mn :: (x.zip y).map (fun e =>
        mergeMad ovf e.1 (mergeWeight ovf m mn) e.2 (mergeWeight ovf m2 mn))) ∧
    (∀ m mn : Nat, (∀ z, fp32.decode m = .inf z → mergeWeight ovf m mn = 0) ∧
      ((∀ z, fp32.decode m ≠ .inf z) →
        mergeWeight ovf m mn = foldExp2 ovf (f32op ovf (addRaw 0 (fp32.decode m) (fp32.decode mn).neg))))

/-- What a page-in writes in its move (17 R308): the page, from the second tier or from the host, into a page popped from the
pool's free stack; its entry, present with that index; both free counts; and a second-tier index that the page held, pushed
back. -/
def Sys2Proof.PageInWrites (b : State) (part : Nat) (p : KvPool) (r : PageReq) (w : Word) (t : State) : Prop :=
  ∃ (i : Nat) (bs : List Byte) (y : State),
    let v := pagerVia part
    b.pagerWord part (atOff p.stack (4 * (p.free - 1))) = .ok i ∧
    (entTier w = true → b.kvRead v (p.page2 (entIndex w)) (32 * p.rb) = .ok bs) ∧ (entTier w = false → bs.length = 32 * p.rb) ∧
    b.kvCommit (deviceAgent part) (b.kvObjects v [r.node, p.base]) v
      ([(p.page i, bs), w4 (entAddr r.node r.entry) (poolEntry i).toNat,
        (atOff p.base 8, leBytes 4 (p.free - 1) ++ leBytes 4 (if entTier w then p.free2 + 1 else p.free2))]
        ++ (if entTier w then [w4 (atOff p.stack2 (4 * p.free2)) (entIndex w)] else [])) = .ok y ∧
    t.mem = y.mem ∧ t.past = y.past ∧ t.warps = y.warps ∧ t.blocks = y.blocks ∧
    (p.mark ≠ 0 → p.free - 1 < p.mark → p.base ∈ (t.part part).demoteReqs)

/-- 17 R307, R308, R314 to R316, R320, 18 R322, logs 40, 42, 43, 44, 47, 49, 50 and 54: the events of the KV unit and the pager. A
gather's walk notes its pages and asks for the absent ones; pages that are present are delivered in one pass and the others,
in order, as they come; an append and a merge are one step each, those of one warp on one descriptor in issue order; the pager
serves the requests for one page entry in the order posted, a page that is present already without a move, and a demotion
request with one move. -/
def Obligations.KvEvents : Prop :=
  ∀ (s : State) (id part : Nat) (o : EngOp),
    let b := s.bump
    (s.ops.find id = some o → o.accepted = true → o.fault = none →
      (∀ v g d p, o.kind = .gather v none → b.kvTurn id o = true → b.gatherWalk o = .ok (g, d, p) →
        exec (.kvgatherWalk id) s = .next (b.walked id o g d p v)) ∧
      (∀ v g j rows, o.kind = .gather v (some g) → j ∈ presentLeft g o.delivered →
        let z := b.reread id o g j
        z.gatherPage id o g v j = .ok (some rows) →
        let r := z.deliverPage id o g j rows (z.gatherIndex o g j)
        exec (.kvPageDelivery id j) s = .next (r.1.failIf id o.blk r.2)) ∧
      (∀ v g j rest rows, o.kind = .gather v (some g) → presentLeft g o.delivered = [] →
        gatherAbsent g o.delivered = j :: rest → j ∉ g.refused →
        let z := b.reread id o g j
        z.gatherPage id o g v j = .ok (some rows) →
        let r := z.deliverPage id o g j rows (z.gatherIndex o g j)
        exec (.kvReturnPass id) s = .next (r.1.failIf id o.blk r.2)) ∧
      (∀ v g, o.kind = .gather v (some g) → (∀ j, j < g.pages.length → j ∈ o.delivered) →
        exec (.tileOpComplete id) s = .next ((b.finishOp id).trapWaiters o.blk)) ∧
      (∀ t, o.kind = .append → b.kvTurn id o = true → b.runAppend id o = .ok t →
        exec (.kvappendStep id) s = .next ((t.finishOp id).trapWaiters o.blk)) ∧
      (∀ t, o.kind = .smerge → b.runMerge id o = .ok (t, none) →
        exec (.smergeComplete id) s = .next ((t.finishOp id).trapWaiters o.blk))) ∧
    (∀ t, b.runAppend id o = .ok t → AppendWrites b id o t) ∧
    (∀ t, b.runMerge id o = .ok (t, none) → MergeWrites b id o t) ∧
    (∀ p r w t, b.pageInMove part p r w = some t → PageInWrites b part p r w t) ∧
    (∀ n r, (s.part part).pageReqs[n]? = some r →
      (∀ q ∈ (s.part part).pageReqs.take n, ¬(q.node = r.node ∧ q.entry = r.entry)) →
      exec (.pagerPageIn part n) s = .next (b.pageIn part r) ∧
      (∀ word, b.pagerWord part (entAddr r.node r.entry) = .ok word → entPresent (w32 word) = true →
        b.pageIn part r = b.dropReq part r)) ∧
    (∀ n r, (s.part part).pageReqs[n]? = some r → (∃ q ∈ (s.part part).pageReqs.take n, q.node = r.node ∧ q.entry = r.entry) →
      exec (.pagerPageIn part n) s = .fault (.notEnabled "PAGER_PAGE_IN")) ∧
    (∀ n pool, (s.part part).demoteReqs[n]? = some pool →
      exec (.pagerDemotion part n) s = .next (b.demoteStep part pool))

/-- The wait of warp `w`, which has neither exited nor been suspended: its kind, instruction, performer and operands. -/
def Sys2Proof.Waits (s : State) (w : Nat) (k : WaitKind) (i : Instr) (a : Actor) (args : List DWord) : Prop :=
  s.openWait w = some ⟨k, i, a, args⟩

/-- 01 R18, 02 R48, R50, 03 R81, 06 R130, R133, R141, 08 R184, R185, 10 R223, 12 R239 to R242, R247, R248, 14 R261, R271, R273, 19
R333, R346, logs 6, 14, 24, 34, 36, 58, 101 and 119: what ends each wait. BARWAIT's ends once its phase has passed; WAITF's, once its
condition holds; WAITT's, once the timeline has reached the number; BWAITN's and BWAITS's, once enough batches, or those up to
the number, are complete; BSEAL's, once fewer than eight batches are outstanding; REL's, once nothing that it waits for is
left and no request of the Shepherd's queue is before it; FLEAVE's, once the block's loads and stores have left; FJOIN's, once
no FLEAVE is in progress; STDEQ's, once the stile holds a slot, and STENQ's, once it has room; LAUNCH's, once the queue has
room. That a REL takes its turn in the Shepherd's queue (log 119) and that LAUNCH reads its record again (log 58) are the
model's choices. The instruction then completes, for every member, as where it need not have waited, and goes on past itself. A WAITC or
FLAGRD goes on once its counters are at or below its limits: one warp alone completes, and a member of a flock or block
arrives at the rendezvous; the members' operation then takes the drains' flags of each, and FLAGRD gives the OR of their flags
and clears those that its mask names. A fault of a rendezvous's operation suspends every member at the instruction. A warp
whose armed condition holds vectors between instructions, or out of a wait that vectoring abandons. -/
def Obligations.WaitEvents : Prop :=
  (∀ (s : State) (w : Nat) (a : Actor) (h : Hdr) (u : Upper) (f : XForm) (m : MForm),
    let b := s.bump
    let x := s.warp a.lead
    let core := x.core
    let part := s.partOf a.lead
    let ends (e i : Instr) (t : State) : Prop := exec e s = .next (completed a i t)
    (∀ addr p held tgt, Waits s w .barrier (.barwait h u) a [addr, p, held] →
      b.holderLeft a (syncSpace h.width) addr held = none →
      syncTarget b a 2 (syncSpace h.width) addr 32 = .ok tgt → b.poisonedTarget tgt = false →
      let z := b.fixReads a [tgt]
      (z.barAt tgt).passed p.toNat = true →
      ends (.barwaitResume w) (.barwait h u) ((z.readObject a h true tgt).writeUniform a h.vd.toNat
        (BitVec.ofNat 32 (z.barAt tgt).last))) ∧
    (∀ addr p held tgt, Waits s w .barrier (.barwait h u) a [addr, p, held] →
      b.holderLeft a (syncSpace h.width) addr held = none →
      syncTarget b a 2 (syncSpace h.width) addr 32 = .ok tgt → b.poisonedTarget tgt = false →
      ((b.fixReads a [tgt]).barAt tgt).passed p.toNat = false → exec (.barwaitResume w) s = .fault (.notEnabled "BARWAIT_RESUME")) ∧
    (∀ addr v owner held tgt, Waits s w .flag (.waitf h u) a [addr, v, owner, held] →
      owner.extractLsb' 30 2 ≠ (3 : BitVec 2) → b.holderLeft a (syncSpace h.width) addr held = none →
      syncTarget b a 5 (syncSpace h.width) addr 4 = .ok tgt → b.poisonedTarget tgt = false →
      let z := b.fixReads a [tgt]
      let word := BitVec.ofNat 32 (leNat (z.see (z.syncAgent a h) (z.draw 7) tgt))
      waitfHolds h word (v.extractLsb' 0 32) = true →
      ends (.waitfResume w) (.waitf h u) ((z.readWord a h true tgt).writeUniform a h.vd.toNat word)) ∧
    (∀ n, Waits s w .timeline (.waitt h (.x f)) a [n] → s.holdsTimeline a.lead f.vc.toNat = true →
      reached (s.timeline x.blk f.vc.toNat).counter (n.extractLsb' 0 32) = true →
      ends (.waittResume w) (.waitt h (.x f))
        (b.learnAll a (fun _ => ofTimeline x.blk f.vc.toNat (n.extractLsb' 0 32)))) ∧
    (Waits s w .batchN (.bwaitn h (.m m)) a [] → (s.outstanding a.lead).length ≤ m.imm8.toNat →
      ends (.batchWaitResume w) (.bwaitn h (.m m)) (b.learnAll a b.ofCopies)) ∧
    (∀ n, Waits s w .batchS (.bwaits h u) a [n] → s.batchesTo a.lead (n.extractLsb' 0 16) = [] →
      earlier x.lastBatch (n.extractLsb' 0 16) = false →
      ends (.batchWaitResume w) (.bwaits h u) (b.learnAll a b.ofCopies)) ∧
    (Waits s w .bseal (.bseal h u) a [] → (s.outstanding a.lead).length < 8 →
      ends (.bsealResume w) (.bseal h u) (b.setWarp a.lead { (x.writeS h.vd.toNat ((x.lastBatch + 1).zeroExtend 32)) with
        openBatch := [], lastBatch := x.lastBatch + 1,
        sealedBatches := s.outstanding a.lead ++ [⟨x.lastBatch + 1, x.openBatch⟩] })) ∧
    (∀ n, Waits s w .rel (.rel h u) a [n] → s.amountCause a h.width.toNat n.toNat = none → x.control = false →
      s.underflows a h.width.toNat n.toNat = false → s.releaseOps a h.width.toNat n.toNat = [] →
      s.releaseBusy a h.width.toNat = false →
      (h.width.toNat = 3 → ∀ v ∈ s.grantees a, (s.warp v).matrixFault 0 = none) →
      (s.releaseFirst core = true →
        ends (.relResume w) (.rel h u) (b.releaseNow a h.width.toNat n.toNat)) ∧
      (s.releaseFirst core = false → s.requestsFull core = false → a.inst = none →
        exec (.relResume w) s = .next (((b.enterNeed core (.release a.lead)).blockAll a 0 0 0).waitAll a .release
          (.rel h u) [n]))) ∧
    (∀ n, Waits s w .release (.rel h u) a [n] → s.headNeed core = some (.release a.lead) →
      (b.popNeed core).relHeld a h.width.toNat n.toNat = none →
      ends (.relResume w) (.rel h u) ((b.popNeed core).releaseNow a h.width.toNat n.toNat)) ∧
    (Waits s w .fleave (.fleave h u) a [] → (∀ o ∈ s.ops, ¬ (o.2.blk = x.blk ∧ o.2.namesFold = true)) →
      (s.block x.blk).fold.isSome = true →
      (∀ v ∈ s.warpsOfBlock x.blk, (s.warp v).loads = [] ∧ (s.warp v).stores = []) →
      ends (.fleaveResume w) (.fleave h u) (b.updBlock x.blk (fun c =>
        { c with leftGang := c.leftGang || c.fold.any (fun f => f.gang.isSome), fold := none }))) ∧
    (∀ key, Waits s w .fjoin (.fjoin h u) a [key] →
      let c := s.block x.blk
      let id : Word := BitVec.ofNat 32 (c.core / 8 * 65536 + key.toNat)
      let ms := s.keyMembers c.grid (c.core / 8) id
      key.toNat < 0x8000 → c.fold = none → (∀ m ∈ ms, s.leaving m.1 = false) → ms.length < 8 →
      (∀ m ∈ ms, m.2.1 ≠ c.core) → ∀ rank, rank < 8 → (∀ m ∈ ms, m.2.2 ≠ rank) →
      (∀ r, r < rank → ∃ m ∈ ms, m.2.2 = r) →
      ends (.fjoinResume w) (.fjoin h u) ((b.updBlock x.blk (fun c => { c with fold := some ⟨id, rank, none⟩ })).writeUniform
        a h.vd.toNat (BitVec.ofNat 32 rank))) ∧
    (∀ n stile d rest, Waits s w .stdeq (.stdeq h u) a [n] → s.stileFor part n.toNat false = .ok stile →
      stile.slots = d :: rest →
      let t := b.noteStile a.lead n.toNat false
      ends (.stdeqResume w) (.stdeq h u)
        (({ t with stiles := t.stiles.put n.toNat { stile with slots := rest, sent := stile.sent.tail } }.hear
          (b.agentOf a a.lead 4) true (stile.sent.take 1)).updWarp a.lead (fun x =>
          ((List.range 16).zip d).foldl (fun (y : Warp) (e : Nat × Word) => y.writeS (h.vd.toNat + e.1) e.2) x))) ∧
    (∀ n ds stile, Waits s w .stenq (.stenq h u) a (n :: ds) → ds.length = 16 → s.stileFor part n.toNat true = .ok stile →
      stile.slots.length < stile.capacity →
      let t := b.noteStile a.lead n.toNat true
      ends (.stenqResume w) (.stenq h u)
        { t.releaseBy (b.agentOf a a.lead 4) with stiles := t.stiles.put n.toNat { stile with
            slots := stile.slots ++ [ds.map (fun d => d.extractLsb' 0 32)],
            sent := stile.sent ++ [⟨.access (s.freeCtr + 1) a.lead 0, b.origin (b.agentOf a a.lead 4), true⟩] } }) ∧
    (∀ addr q bs z, Waits s w .launchQueue (.launch h u) a [addr, q] → q.toNat < 64 → taskLoad 0 addr 128 a b = .ok (bs, z) →
      launchFault addr bs = none → (s.part part).destroying.contains q.toNat = false → s.queueFull part q.toNat = false →
      ends (.launchQueueResume w) (.launch h u)
        ((z.launch part q.toNat addr (launchOf bs) false (fun r => r.knownBy (b.agentOf a a.lead 4))).1.updWarp a.lead (fun x =>
          x.writeS h.vd.toNat (BitVec.ofNat 32 (s.part part).nextJob))))) ∧
  (∀ (s : State) (w : Nat) (a : Actor) (h : Hdr) (va : BitVec 8) (imm : BitVec 24),
    let b := s.bump
    let x := s.warp w
    let ic : Instr := .waitc h (.xi va imm)
    let ig : Instr := .flagrd h (.xi va imm)
    let lim (k : Nat) := imm.toNat / 64 ^ k % 64
    let under := x.loads.length ≤ lim 0 ∧ x.stores.length ≤ lim 1 ∧ x.matrix.length ≤ lim 2 ∧ x.tileq.length ≤ lim 3
    let mask : Word := (imm.extractLsb' 0 6 : BitVec 6).zeroExtend 32
    let merged (a : Actor) (t : State) : State := ((t.learnAll a (t.ofUnit (lim 2))).mergeDrains a (lim 2))
    let read (a : Actor) (t : State) : State :=
      let y := (t.learnAll a (t.ofUnit 0)).mergeDrains a 0
      let g := (y.liveMembers a).foldl (fun g m => g ||| (y.warp m.w).sticky) (0 : Word)
      (y.liveMembers a).foldl (fun s m => s.updWarp m.w (fun x =>
        { (x.writeS h.vd.toNat g) with sticky := x.sticky &&& ~~~mask })) y
    (Waits s w .waitc ic a [] → x.matrixFault (lim 2) = none → under →
      (h.scope = .warp → s.drainTrap a (lim 2) = none → exec (.waitcResume w) s = .next (completed a ic (merged a b))) ∧
      ((h.scope = .flock ∨ h.scope = .block) → s.mismatch h.scope w = false →
        exec (.waitcResume w) s = .next (b.arrive h.scope w ic))) ∧
    (Waits s w .waitc ic a [] → x.matrixFault (lim 2) = none → ¬ under →
      exec (.waitcResume w) s = .fault (.notEnabled "WAITC_RESUME")) ∧
    (Waits s w .flagrd ig a [] → x.matrix = [] →
      (h.scope = .warp → s.drainTrap a 0 = none → exec (.flagrdResume w) s = .next (completed a ig (read a b))) ∧
      ((h.scope = .flock ∨ h.scope = .block) → s.mismatch h.scope w = false →
        exec (.flagrdResume w) s = .next (b.arrive h.scope w ig))) ∧
    (∀ blk id e v, Performs s blk id e v → (e.scope = .flock ∨ e.scope = .block) →
      let g := gathered s blk e v
      let a := company s blk e v
      (e.instr = ic → g.drainTrap a (lim 2) = none →
        exec (.rendezvousComplete blk id) s = .next (completed a e.instr (merged a g))) ∧
      (e.instr = ig → g.drainTrap a 0 = none →
        exec (.rendezvousComplete blk id) s = .next (completed a e.instr (read a g))) ∧
      (∀ op f, wideOp e.instr = some op → op a g = .fault f → Room s v →
        ∃ t, exec (.rendezvousComplete blk id) s = .next t ∧ ∀ n ∈ g.liveMembers a,
          (∃ y, (t.warp n.w).susp = some y ∧ y.cause = f.cause ∧ y.rendezvous = true ∧
            y.group = (g.liveMembers a).map (fun k => k.w)) ∧
          (t.warp n.w).pc = (g.warp n.w).pc ∧ (t.warp n.w).v = (g.warp n.w).v ∧ (t.warp n.w).s = (g.warp n.w).s)) ∧
    (∀ arm, s.mayVector w = true → s.roomFor w = true → (x.wait.isSome = true ∨ (x.asyncTraps = [] ∧ x.haltReq = false)) →
      x.dueArming = some arm → codeAddr arm.handler = true →
      exec (.handlerVector w) s = .next ((s.learn w x.live (ofTimeline x.blk arm.tl arm.n)).updWarp w (fun y =>
        { y.vector arm.handler with held := false, heldArm := none, arming := if y.held then y.arming else none }))))

/-- 01 R18, 12 R239, R252 to R254, 19 R326, R329, R331, R334, R337 to R340, 20 R351, 21 R353, logs 6, 61, 63, 64, 69, 70, 88, 93,
100, 107, 112 and 119: retirement, placement, deadlines, budgets, gaps, pre-emption and the samples of the detector, each under the
conditions that bring it about. A retirement first leaves the records of failed work, one by one; then it takes its place in
the Shepherd's queue, and its turn there; the block leaves with its warps. A decision has its admission requests at the head
of the queue of every core that has a block, and every event of an earlier or the same clock behind it: that these requests stand
in the queues, and that a retirement enters the queue where it is not taken at once, is the model's choice (log 119). -/
def Obligations.DispatchEvents : Prop :=
  ∀ (s : State) (u part id : Nat),
    let b := s.block u
    let z := s.bump
    let left := (s.blocks.find u).isSome = true ∧ (∀ w ∈ s.warpsOfBlock u, (s.warp w).exited = true) ∧ s.retireBusy u = false
    let fits (t : State) : Prop := t.recordsFit b.part = true
    (left → ∀ t, z.orphan u = some t → fits t → exec (.blockRetire u) s = .next t) ∧
    (left → z.orphan u = none →
      (s.headNeed b.core = some (.retire u) → fits ((z.popNeed b.core).retireBlock u) →
        exec (.blockRetire u) s = .next ((z.popNeed b.core).retireBlock u)) ∧
      (s.headNeed b.core ≠ some (.retire u) → s.releaseFirst b.core = true → s.decisionDue b.part = false →
        fits (z.retireBlock u) → exec (.blockRetire u) s = .next (z.retireBlock u)) ∧
      (s.headNeed b.core ≠ some (.retire u) → (s.releaseFirst b.core = false ∨ s.decisionDue b.part = true) →
        s.requestsFull b.core = false →
        (∀ e ∈ (s.core b.core).reqs, e.need ≠ .retire u) →
        exec (.blockRetire u) s = .next (z.enterNeed b.core (.retire u)))) ∧
    ((s.core b.core).deferred = [] →
      (s.removeBlock u).blocks.find u = none ∧ (s.removeBlock u).warpsOfBlock u = [] ∧ (s.removeBlock u).mem = s.mem ∧
        ∀ v, (s.warp v).blk ≠ u → (s.removeBlock u).warps.find v = s.warps.find v) ∧
    ((s.part part).configured = true → (s.part part).pstate = .running →
      let cs := s.busyCores part
      let rest := cs.filter (fun c => !s.admitting part c)
      (s.settled part = true → rest ≠ [] → (∀ c ∈ rest, s.requestsFull c = false) →
        exec (.dispatchDecision part) s = .next (rest.foldl (fun t c => t.markAdmission part c) z)) ∧
      (s.settled part = true → rest = [] → (∀ c ∈ cs, s.headNeed c = some (.admission part)) →
        exec (.dispatchDecision part) s =
          .next (((z.unmark part).updPart part (fun p => { p with events := none })).dispatch part)) ∧
      (s.settled part = false → exec (.dispatchDecision part) s = .fault (.notEnabled "DISPATCH_DECISION"))) ∧
    (∀ g, s.grids.find id = some g → g.lrec.deadline ≠ 0 → g.lrec.deadline.toNat < s.timeNs → g.nextUnit ≠ [] →
      g.stopped = false → g.deadlineSent = false → s.canRecord (s.sliceHalf g.part) g.part = true →
      exec (.deadlineMissed id) s = .next ((s.taskRecord g.part 0x88 0xFF 0 g.recAddr g.job g.queue 0).setGrid id
        { g with deadlineSent := true })) ∧
    (s.canTrap u = true → b.lrec.budget ≠ 0 → b.lrec.persistent = false → b.budget = 0 →
      exec (.budgetExhausted u) s = .next (s.trapBlock u 0x80)) ∧
    (s.canTrap u = true → b.lrec.preempt = true → b.lrec.gap ≠ 0 → b.inRegion = false → 256 * b.lrec.gap < b.gap →
      exec (.regionGap u) s = .next (s.trapBlock u 0x8A)) ∧
    ((s.blocks.find u).isSome = true →
      (s.preemptible u = true → fits (z.preemptAll u 0x82 1) →
        exec (.preempt u 1) s = .next (z.preemptAll u 0x82 1)) ∧
      (s.preemptible u = false → (∀ v ∈ s.gangOf u, (s.block v).lrec.preempt = true ∧ (s.block v).lrec.persistent = false) →
        exec (.preempt u 1) s = .next (z.updBlock u (fun c => { c with preemptReq := some 1 })))) ∧
    ((s.part part).configured = true → exec (.waitForSample part) s = .next (z.sample part))

/-- 19 R328, 22 R367 to R376, 21 R353, logs 58, 72, 73, 75, 76, 77, 78, 79, 80 and 113: the system handler and the host. The
handler takes the oldest record; the host's registers take what is written to them, or ignore what is out of range; a doorbell
sets a ring's tail, and the packet at its head is served; partitions are configured, run and reset; stiles are made and
destroyed. -/
def Obligations.HostEvents : Prop :=
  ∀ (s : State) (part ring : Nat) (v : BitVec 32),
    let p := s.part part
    let r := p.ring ring;
    (∀ rec who rest, p.handlerQ = (rec, who) :: rest → s.fwPhase = .steady →
      exec (.systemHandler part true) s = .next ((s.setPart part { p with
        handlerQ := rest, frHead := if p.frHead = p.frTail then p.frHead else p.frHead + 1 }).flushHeld part
          p.heldRecs.length)) ∧
    (∀ rec who rest, p.handlerQ = (rec, who) :: rest → s.fwPhase = .steady →
      ∃ t, exec (.systemHandler part false) s = .next t ∧ t.warps = s.warps ∧
        (p.heldRecs = [] → p.evHeld = [] → p.eventFull = false →
          (t.part part).evTail = p.evTail + 1 ∧
          let slot := p.evTail.toNat % p.evSize.toNat
          Output.eventRecord part slot (atOff (p.evBaseHi ++ p.evBaseLo) (64 * slot)) rec ∈ t.outputs)) ∧
    (p.configured = true → ring < 16 → p.pstate ≠ .resetting → (v - r.head).toNat ≤ r.size.toNat →
      exec (.doorbell part ring v) s = .next (s.setRing part ring { r with tail := v })) ∧
    (p.configured = true → ring < 16 → p.pstate ≠ .resetting → r.size.toNat < (v - r.head).toNat → s.sliceRoom part = true →
      exec (.doorbell part ring v) s = .next (s.hostLinkError part 0xFF 1 0)) ∧
    (s.sliceRoom part = true → s.bump.nextPacket part ring = some .skip →
      let t := s.bump.setRing part ring { r with head := r.head + 1 }
      t.recordsFit part = true → exec (.hostPacketLaunch part ring) s = .next t) ∧
    (∀ q a rs, s.sliceRoom part = true → s.bump.nextPacket part ring = some (.launch q a) →
      s.bump.engineRunsAt (pagerVia part) 3 (Rights.r false) a 128 = .ok rs →
      launchFault a (s.bump.runBytes rs) = none → s.queueFull part q = false → p.destroying.contains q = false →
      s.decisionDue part = false →
      let t := (s.bump.launch part q a (launchOf (s.bump.runBytes rs)) true ofGrids).1.nextHead part ring
      t.recordsFit part = true → exec (.hostPacketLaunch part ring) s = .next t) ∧
    (∀ obj n rs, s.bump.nextPacket part ring = some (.wait obj n) →
      s.bump.engineRunsAt (pagerVia part) 3 (Rights.r false) obj 32 = .ok rs →
      (Bar.ofBytes (s.bump.runBytes rs)).passed n = true →
      exec (.hostPacketWait part ring) s = .next (s.bump.setRing part ring { r with head := r.head + 1 })) ∧
    (p.configured = true → ring < 16 →
      (powerIn 16 65536 v.toNat = true →
        exec (.rsizeWrite part ring v) s = .next (s.setRing part ring { r with size := v, err := false })) ∧
      (powerIn 16 65536 v.toNat = false → exec (.rsizeWrite part ring v) s = .next s)) ∧
    (p.configured = true → p.pstate ≠ .resetting → s.fwPhase = .steady → s.sliceRoom part = true →
      exec (.resume part v) s = .next (s.bump.resumeSlot part v)) ∧
    (p.configured = true →
      exec (.evhead part v) s = .next ((s.updPart part (fun p => { p with evHead := v })).serveEvents part)) ∧
    (p.configured = true → part < 8 → v.extractLsb' 0 12 = 0 →
      exec (.hostRegisterWrite part 0x10 v) s = .next (s.updPart part (fun p => { p with evBaseLo := v }))) ∧
    (∀ o, p.configured = true → part < 8 → ownRegister o = false →
      exec (.hostRegisterWrite part o v) s = .next (s.hostWrite part o v)) ∧
    (∀ c, 1 ≤ c → c ≤ 3 → 1 ≤ v.toNat → v.toNat ≤ 15 →
      exec (.hostRegisterWrite 8 c v) s = .next { s with weights := setNth s.weights (c - 1) v.toNat }) ∧
    (part < 8 → p.configured = true → p.pstate = .stopped →
      exec (.pctlRun part) s = .next ((s.setPart part { p with pstate := .running }).msix part 2)) ∧
    (part < 8 → p.configured = true → p.resetReq = false → p.takeover = false →
      exec (.pctlReset part) s =
        .next ((s.setPart part { p with resetReq := true, pstate := .resetting }).msix part 2)) ∧
    (p.configured = true → p.pstate = .resetting → exec (.partitionReset part) s = .next (s.bump.resetPart part)) ∧
    (∀ sh a, memRead (scrub sh s.mem) a = if shareHolds sh a 1 then unlistedByte else memRead s.mem a) ∧
    (∀ (regions : List Nat) (m : MemShare) (k : PartSettings), part < 8 → s.fwPhase = .steady → p.pstate = .stopped →
      regions ≠ [] → (∀ g ∈ regions, g < 24) → shareFits m = true → settingsFit k = true →
      s.apart part ((List.range 24).filter (fun g => regions.contains g)) m = true →
      exec (.partitionConfigure part regions m k) s = .next (s.setPart part { p with
        configured := true, regions := (List.range 24).filter (fun g => regions.contains g), share := m,
        root := BitVec.ofNat 64 k.root, fillerF := k.fillerF, throtT := k.throtT, ageLim := k.ageLim, pwrShare := k.pwrShare,
        frBase := BitVec.ofNat 64 k.frBase, frSize := k.frSize })) ∧
    (∀ n cap prod cons, n < 65536 → 1 ≤ cap → cap ≤ 4096 → prod < 8 → cons < 8 → s.stiles.find n = none →
      s.fwPhase = .steady →
      exec (.stileCreate n cap prod cons) s = .next { s with stiles := s.stiles.put n ⟨cap, prod, cons, [], []⟩ }) ∧
    (∀ n, (s.stiles.find n).isSome = true → s.fwPhase = .steady → s.stileWaits n .stdeq = [] → s.stileWaits n .stenq = [] →
      exec (.stileDestroy n) s = .next { s with stiles := s.stiles.drop n })

/-- 21 R356, 22 R369, R377 to R384, logs 6, 78, 81, 82, 83, 84, 85 and 86: the firmware complexes, starts, links, the host's
writes and peers. An image is accepted under the fused key alone. A takeover exchanges the complexes and a rollback does not;
a start leaves the device as at reset; one that fails has one warm retry, then the other image, and no more. A report and
telemetry give what R383 and R384 name. A link that fails completes the accesses that wait for it in LINK-DOWN. A peer's
access is performed on device memory. -/
def Obligations.FirmwareEvents : Prop :=
  ∀ (s : State),
    let good (k : FwImage) : Prop := accepted s.fused k = true
    (∀ k : FwImage, good k ↔ sha512 k.key = s.fused ∧
      k.signature.toNat ^ keyExponent k.key % keyModulus k.key = (Config.rsaMessage (sha512 k.body)).toNat) ∧
    (∀ k : FwImage, s.fwPhase = .steady → good k → k.sameMajor = true →
      exec (.liveUpdate k) s = .next { (s.setDigest (1 - s.activeFw % 2) (sha512 k.body)).setTakeover true with
        fwPhase := .takingOver }) ∧
    (∀ k : FwImage, s.fwPhase = .steady → ¬ good k → exec (.liveUpdate k) s = .next (s.postEverywhere 0xBB)) ∧
    (∀ k : FwImage, s.fwPhase ≠ .steady → exec (.liveUpdate k) s = .next s) ∧
    (s.fwPhase = .takingOver ∨ s.fwPhase = .failingOver →
      ∃ t, exec .firmwareTakeover s = .next t ∧ t.activeFw = 1 - s.activeFw % 2 ∧ t.fwPhase = .steady ∧ t.warps = s.warps) ∧
    (s.fwPhase = .takingOver →
      ∃ t, exec .firmwareRollback s = .next t ∧ t.activeFw = s.activeFw ∧ t.fwPhase = .steady ∧ t.warps = s.warps) ∧
    (s.fwPhase = .steady → ∃ t, exec .watchdog s = .next t ∧ t.fwPhase = .failingOver ∧ t.warps = s.warps) ∧
    (∀ (test : Bool) (a c : FwImage),
      (s.fwPhase = .failed → exec (.coldStart test a c) s = .next s) ∧
      (s.fwPhase ≠ .failed → ∃ t, exec (.coldStart test a c) s = .next t ∧
        t = { State.reset with
          agenda := s.agenda, fused := s.fused, freeCtr := s.freeCtr, nextUid := s.nextUid, outputs := s.outputs, activeFw := 0, links := [],
          fwDigests := setNth (setNth s.fwDigests 0 (sha512 a.body)) 1 (sha512 c.body), fwPhase := t.fwPhase } ∧
        ((test = true ∧ good a ∧ good c) → t.fwPhase = .steady) ∧ (¬ (test = true ∧ good a ∧ good c) → t.fwPhase = .failed))) ∧
    (∀ a : FwImage, (s.fwPhase = .failed → exec (.warmStart a) s = .next s) ∧
      (s.fwPhase ≠ .failed → good a →
        exec (.warmStart a) s = .next ((s.setDigest s.activeFw (sha512 a.body)).restart true s.activeFw)) ∧
      (s.fwPhase ≠ .failed → ¬ good a → ∃ t, exec (.warmStart a) s = .next t ∧ t.fwPhase = .failed ∧
        t.activeFw = s.activeFw)) ∧
    (∀ a c : FwImage, s.fwPhase = .failed →
      let z := s.setDigest s.activeFw (sha512 a.body)
      (good a → exec (.failedStart a c) s = .next (z.restart true s.activeFw)) ∧
      (¬ good a → good c → exec (.failedStart a c) s =
        .next ((z.setDigest (1 - s.activeFw % 2) (sha512 c.body)).restart true (1 - s.activeFw % 2))) ∧
      (¬ good a → ¬ good c → ∃ t, exec (.failedStart a c) s = .next t ∧ t.fwPhase = .down)) ∧
    (∀ n, exec (.attestationRequest n) s = .next { s.bump with
      outputs := s.outputs ++ [.attestation n s.fwDigests s.fused s.activeFw s.configuration
        (Config.signature n s.fwDigests s.activeFw (s.draw 0))] }) ∧
    (∃ power temps, temps.length = 24 ∧ exec .telemetryRead s = .next { s.bump with
      outputs := s.outputs ++ [.telemetry power temps ((List.range 8).map (fun i => (s.softErrors.find i).getD 0))
        (s.cores.map (fun e => (e.1, e.2.imbHist)))] }) ∧
    (∀ peer, peer < 64 →
      (s.roomEverywhere = true →
        ∃ t, exec (.linkRetrain peer) s = .next t ∧ t.warps = s.warps ∧ t.links = s.links) ∧
      ((∀ p ∈ s.configured, s.canRecord (s.sliceHalf p) p = true) →
        (peer ∉ s.links → ∃ t, exec (.linkDown peer) s = .next t ∧ t.links = s.links ++ [peer] ∧ t.blocks = s.blocks ∧
          t.warps = s.warps.mapVal (fun _ x => x.losePeer peer) ∧
          (∀ p, s.awaitsPeer p peer = true → t.part p = s.part p)) ∧
        (peer ∈ s.links → exec (.linkDown peer) s = .next s))) ∧
    (∀ port, s.roomEverywhere = true → ∃ t, exec (.ethDown port) s = .next t ∧ t.warps = s.warps ∧ t.links = s.links) ∧
    (∀ phys bs, inMemory phys bs.length = true → Inv s →
      ∃ t, exec (.hostMemoryWrite phys bs) s = .next t ∧ t.warps = s.warps ∧ t.blocks = s.blocks ∧
        ∀ a, memRead t.mem a = if phys ≤ a ∧ a < phys + bs.length then bs.getD (a - phys) 0 else memRead s.mem a) ∧
    (∀ a n, inMemory a n = true → s.bump.poisonedTarget (.glob [(.phys a, n)]) = false →
      exec (.peerAccess (.load a n)) s = .next (s.bump.answer
        (.peerData ((List.range n).map (fun i => memRead s.mem (a + i)))))) ∧
    (∀ a bs, inMemory a bs.length = true → Inv s → ∃ t, exec (.peerAccess (.store a bs)) s = .next t ∧ t.warps = s.warps ∧
      ∀ p, memRead t.mem p = if a ≤ p ∧ p < a + bs.length then bs.getD (p - a) 0 else memRead s.mem p) ∧
    (∀ part, (s.part part).configured = true → s.sliceRoom part = true →
      exec (.hostTimeout part none) s = .next (s.bump.deviceRecord (s.sliceHalf part) part
        { FaultInfo.of 0xB6 0 with async := true }))
end

