-- ==== Sys2Proof/Laws/State.lean ====
section
/-! SUPPORT. One lemma per field and update of the state and of a warp, and the lookups after an update, so that no
later proof unfolds a record. -/

namespace Sys2Proof.Machine

@[simp] theorem State.setWarp_agenda (s : State) (w : Nat) (x : Warp) : (s.setWarp w x).agenda = s.agenda := rfl
@[simp] theorem State.setWarp_focus (s : State) (w : Nat) (x : Warp) : (s.setWarp w x).focus = s.focus := rfl
@[simp] theorem State.setWarp_freeCtr (s : State) (w : Nat) (x : Warp) : (s.setWarp w x).freeCtr = s.freeCtr := rfl
@[simp] theorem State.setWarp_nextUid (s : State) (w : Nat) (x : Warp) : (s.setWarp w x).nextUid = s.nextUid := rfl
@[simp] theorem State.setWarp_mem (s : State) (w : Nat) (x : Warp) : (s.setWarp w x).mem = s.mem := rfl
@[simp] theorem State.setWarp_poison (s : State) (w : Nat) (x : Warp) : (s.setWarp w x).poison = s.poison := rfl
@[simp] theorem State.setWarp_past (s : State) (w : Nat) (x : Warp) : (s.setWarp w x).past = s.past := rfl
@[simp] theorem State.setWarp_sync (s : State) (w : Nat) (x : Warp) : (s.setWarp w x).sync = s.sync := rfl
@[simp] theorem State.setWarp_timeNs (s : State) (w : Nat) (x : Warp) : (s.setWarp w x).timeNs = s.timeNs := rfl
@[simp] theorem State.setWarp_mhz (s : State) (w : Nat) (x : Warp) : (s.setWarp w x).mhz = s.mhz := rfl
@[simp] theorem State.setWarp_cores (s : State) (w : Nat) (x : Warp) : (s.setWarp w x).cores = s.cores := rfl
@[simp] theorem State.setWarp_blocks (s : State) (w : Nat) (x : Warp) : (s.setWarp w x).blocks = s.blocks := rfl
@[simp] theorem State.setWarp_grids (s : State) (w : Nat) (x : Warp) : (s.setWarp w x).grids = s.grids := rfl
@[simp] theorem State.setWarp_jobs (s : State) (w : Nat) (x : Warp) : (s.setWarp w x).jobs = s.jobs := rfl
@[simp] theorem State.setWarp_ops (s : State) (w : Nat) (x : Warp) : (s.setWarp w x).ops = s.ops := rfl
@[simp] theorem State.setWarp_parts (s : State) (w : Nat) (x : Warp) : (s.setWarp w x).parts = s.parts := rfl
@[simp] theorem State.setWarp_stiles (s : State) (w : Nat) (x : Warp) : (s.setWarp w x).stiles = s.stiles := rfl
@[simp] theorem State.setWarp_images (s : State) (w : Nat) (x : Warp) : (s.setWarp w x).images = s.images := rfl
@[simp] theorem State.setWarp_activeFw (s : State) (w : Nat) (x : Warp) : (s.setWarp w x).activeFw = s.activeFw := rfl
@[simp] theorem State.setWarp_fused (s : State) (w : Nat) (x : Warp) : (s.setWarp w x).fused = s.fused := rfl
@[simp] theorem State.setWarp_fwDigests (s : State) (w : Nat) (x : Warp) : (s.setWarp w x).fwDigests = s.fwDigests := rfl
@[simp] theorem State.setWarp_fwPhase (s : State) (w : Nat) (x : Warp) : (s.setWarp w x).fwPhase = s.fwPhase := rfl
@[simp] theorem State.setWarp_softErrors (s : State) (w : Nat) (x : Warp) : (s.setWarp w x).softErrors = s.softErrors := rfl
@[simp] theorem State.setWarp_weights (s : State) (w : Nat) (x : Warp) : (s.setWarp w x).weights = s.weights := rfl
@[simp] theorem State.setWarp_links (s : State) (w : Nat) (x : Warp) : (s.setWarp w x).links = s.links := rfl
@[simp] theorem State.setWarp_outputs (s : State) (w : Nat) (x : Warp) : (s.setWarp w x).outputs = s.outputs := rfl
@[simp] theorem State.setBlock_agenda (s : State) (b : Nat) (x : Block) : (s.setBlock b x).agenda = s.agenda := rfl
@[simp] theorem State.setBlock_focus (s : State) (b : Nat) (x : Block) : (s.setBlock b x).focus = s.focus := rfl
@[simp] theorem State.setBlock_freeCtr (s : State) (b : Nat) (x : Block) : (s.setBlock b x).freeCtr = s.freeCtr := rfl
@[simp] theorem State.setBlock_nextUid (s : State) (b : Nat) (x : Block) : (s.setBlock b x).nextUid = s.nextUid := rfl
@[simp] theorem State.setBlock_mem (s : State) (b : Nat) (x : Block) : (s.setBlock b x).mem = s.mem := rfl
@[simp] theorem State.setBlock_poison (s : State) (b : Nat) (x : Block) : (s.setBlock b x).poison = s.poison := rfl
@[simp] theorem State.setBlock_past (s : State) (b : Nat) (x : Block) : (s.setBlock b x).past = s.past := rfl
@[simp] theorem State.setBlock_sync (s : State) (b : Nat) (x : Block) : (s.setBlock b x).sync = s.sync := rfl
@[simp] theorem State.setBlock_timeNs (s : State) (b : Nat) (x : Block) : (s.setBlock b x).timeNs = s.timeNs := rfl
@[simp] theorem State.setBlock_mhz (s : State) (b : Nat) (x : Block) : (s.setBlock b x).mhz = s.mhz := rfl
@[simp] theorem State.setBlock_cores (s : State) (b : Nat) (x : Block) : (s.setBlock b x).cores = s.cores := rfl
@[simp] theorem State.setBlock_warps (s : State) (b : Nat) (x : Block) : (s.setBlock b x).warps = s.warps := rfl
@[simp] theorem State.setBlock_grids (s : State) (b : Nat) (x : Block) : (s.setBlock b x).grids = s.grids := rfl
@[simp] theorem State.setBlock_jobs (s : State) (b : Nat) (x : Block) : (s.setBlock b x).jobs = s.jobs := rfl
@[simp] theorem State.setBlock_ops (s : State) (b : Nat) (x : Block) : (s.setBlock b x).ops = s.ops := rfl
@[simp] theorem State.setBlock_parts (s : State) (b : Nat) (x : Block) : (s.setBlock b x).parts = s.parts := rfl
@[simp] theorem State.setBlock_stiles (s : State) (b : Nat) (x : Block) : (s.setBlock b x).stiles = s.stiles := rfl
@[simp] theorem State.setBlock_images (s : State) (b : Nat) (x : Block) : (s.setBlock b x).images = s.images := rfl
@[simp] theorem State.setBlock_activeFw (s : State) (b : Nat) (x : Block) : (s.setBlock b x).activeFw = s.activeFw := rfl
@[simp] theorem State.setBlock_fused (s : State) (b : Nat) (x : Block) : (s.setBlock b x).fused = s.fused := rfl
@[simp] theorem State.setBlock_fwDigests (s : State) (b : Nat) (x : Block) : (s.setBlock b x).fwDigests = s.fwDigests := rfl
@[simp] theorem State.setBlock_fwPhase (s : State) (b : Nat) (x : Block) : (s.setBlock b x).fwPhase = s.fwPhase := rfl
@[simp] theorem State.setBlock_softErrors (s : State) (b : Nat) (x : Block) : (s.setBlock b x).softErrors = s.softErrors := rfl
@[simp] theorem State.setBlock_weights (s : State) (b : Nat) (x : Block) : (s.setBlock b x).weights = s.weights := rfl
@[simp] theorem State.setBlock_links (s : State) (b : Nat) (x : Block) : (s.setBlock b x).links = s.links := rfl
@[simp] theorem State.setBlock_outputs (s : State) (b : Nat) (x : Block) : (s.setBlock b x).outputs = s.outputs := rfl
@[simp] theorem State.setCore_agenda (s : State) (c : Nat) (x : Core) : (s.setCore c x).agenda = s.agenda := rfl
@[simp] theorem State.setCore_focus (s : State) (c : Nat) (x : Core) : (s.setCore c x).focus = s.focus := rfl
@[simp] theorem State.setCore_freeCtr (s : State) (c : Nat) (x : Core) : (s.setCore c x).freeCtr = s.freeCtr := rfl
@[simp] theorem State.setCore_nextUid (s : State) (c : Nat) (x : Core) : (s.setCore c x).nextUid = s.nextUid := rfl
@[simp] theorem State.setCore_mem (s : State) (c : Nat) (x : Core) : (s.setCore c x).mem = s.mem := rfl
@[simp] theorem State.setCore_poison (s : State) (c : Nat) (x : Core) : (s.setCore c x).poison = s.poison := rfl
@[simp] theorem State.setCore_past (s : State) (c : Nat) (x : Core) : (s.setCore c x).past = s.past := rfl
@[simp] theorem State.setCore_sync (s : State) (c : Nat) (x : Core) : (s.setCore c x).sync = s.sync := rfl
@[simp] theorem State.setCore_timeNs (s : State) (c : Nat) (x : Core) : (s.setCore c x).timeNs = s.timeNs := rfl
@[simp] theorem State.setCore_mhz (s : State) (c : Nat) (x : Core) : (s.setCore c x).mhz = s.mhz := rfl
@[simp] theorem State.setCore_warps (s : State) (c : Nat) (x : Core) : (s.setCore c x).warps = s.warps := rfl
@[simp] theorem State.setCore_blocks (s : State) (c : Nat) (x : Core) : (s.setCore c x).blocks = s.blocks := rfl
@[simp] theorem State.setCore_grids (s : State) (c : Nat) (x : Core) : (s.setCore c x).grids = s.grids := rfl
@[simp] theorem State.setCore_jobs (s : State) (c : Nat) (x : Core) : (s.setCore c x).jobs = s.jobs := rfl
@[simp] theorem State.setCore_ops (s : State) (c : Nat) (x : Core) : (s.setCore c x).ops = s.ops := rfl
@[simp] theorem State.setCore_parts (s : State) (c : Nat) (x : Core) : (s.setCore c x).parts = s.parts := rfl
@[simp] theorem State.setCore_stiles (s : State) (c : Nat) (x : Core) : (s.setCore c x).stiles = s.stiles := rfl
@[simp] theorem State.setCore_images (s : State) (c : Nat) (x : Core) : (s.setCore c x).images = s.images := rfl
@[simp] theorem State.setCore_activeFw (s : State) (c : Nat) (x : Core) : (s.setCore c x).activeFw = s.activeFw := rfl
@[simp] theorem State.setCore_fused (s : State) (c : Nat) (x : Core) : (s.setCore c x).fused = s.fused := rfl
@[simp] theorem State.setCore_fwDigests (s : State) (c : Nat) (x : Core) : (s.setCore c x).fwDigests = s.fwDigests := rfl
@[simp] theorem State.setCore_fwPhase (s : State) (c : Nat) (x : Core) : (s.setCore c x).fwPhase = s.fwPhase := rfl
@[simp] theorem State.setCore_softErrors (s : State) (c : Nat) (x : Core) : (s.setCore c x).softErrors = s.softErrors := rfl
@[simp] theorem State.setCore_weights (s : State) (c : Nat) (x : Core) : (s.setCore c x).weights = s.weights := rfl
@[simp] theorem State.setCore_links (s : State) (c : Nat) (x : Core) : (s.setCore c x).links = s.links := rfl
@[simp] theorem State.setCore_outputs (s : State) (c : Nat) (x : Core) : (s.setCore c x).outputs = s.outputs := rfl
@[simp] theorem State.setPart_agenda (s : State) (p : Nat) (x : Part) : (s.setPart p x).agenda = s.agenda := rfl
@[simp] theorem State.setPart_focus (s : State) (p : Nat) (x : Part) : (s.setPart p x).focus = s.focus := rfl
@[simp] theorem State.setPart_freeCtr (s : State) (p : Nat) (x : Part) : (s.setPart p x).freeCtr = s.freeCtr := rfl
@[simp] theorem State.setPart_nextUid (s : State) (p : Nat) (x : Part) : (s.setPart p x).nextUid = s.nextUid := rfl
@[simp] theorem State.setPart_mem (s : State) (p : Nat) (x : Part) : (s.setPart p x).mem = s.mem := rfl
@[simp] theorem State.setPart_poison (s : State) (p : Nat) (x : Part) : (s.setPart p x).poison = s.poison := rfl
@[simp] theorem State.setPart_past (s : State) (p : Nat) (x : Part) : (s.setPart p x).past = s.past := rfl
@[simp] theorem State.setPart_sync (s : State) (p : Nat) (x : Part) : (s.setPart p x).sync = s.sync := rfl
@[simp] theorem State.setPart_timeNs (s : State) (p : Nat) (x : Part) : (s.setPart p x).timeNs = s.timeNs := rfl
@[simp] theorem State.setPart_mhz (s : State) (p : Nat) (x : Part) : (s.setPart p x).mhz = s.mhz := rfl
@[simp] theorem State.setPart_cores (s : State) (p : Nat) (x : Part) : (s.setPart p x).cores = s.cores := rfl
@[simp] theorem State.setPart_warps (s : State) (p : Nat) (x : Part) : (s.setPart p x).warps = s.warps := rfl
@[simp] theorem State.setPart_blocks (s : State) (p : Nat) (x : Part) : (s.setPart p x).blocks = s.blocks := rfl
@[simp] theorem State.setPart_grids (s : State) (p : Nat) (x : Part) : (s.setPart p x).grids = s.grids := rfl
@[simp] theorem State.setPart_jobs (s : State) (p : Nat) (x : Part) : (s.setPart p x).jobs = s.jobs := rfl
@[simp] theorem State.setPart_ops (s : State) (p : Nat) (x : Part) : (s.setPart p x).ops = s.ops := rfl
@[simp] theorem State.setPart_stiles (s : State) (p : Nat) (x : Part) : (s.setPart p x).stiles = s.stiles := rfl
@[simp] theorem State.setPart_images (s : State) (p : Nat) (x : Part) : (s.setPart p x).images = s.images := rfl
@[simp] theorem State.setPart_activeFw (s : State) (p : Nat) (x : Part) : (s.setPart p x).activeFw = s.activeFw := rfl
@[simp] theorem State.setPart_fused (s : State) (p : Nat) (x : Part) : (s.setPart p x).fused = s.fused := rfl
@[simp] theorem State.setPart_fwDigests (s : State) (p : Nat) (x : Part) : (s.setPart p x).fwDigests = s.fwDigests := rfl
@[simp] theorem State.setPart_fwPhase (s : State) (p : Nat) (x : Part) : (s.setPart p x).fwPhase = s.fwPhase := rfl
@[simp] theorem State.setPart_softErrors (s : State) (p : Nat) (x : Part) : (s.setPart p x).softErrors = s.softErrors := rfl
@[simp] theorem State.setPart_weights (s : State) (p : Nat) (x : Part) : (s.setPart p x).weights = s.weights := rfl
@[simp] theorem State.setPart_links (s : State) (p : Nat) (x : Part) : (s.setPart p x).links = s.links := rfl
@[simp] theorem State.setPart_outputs (s : State) (p : Nat) (x : Part) : (s.setPart p x).outputs = s.outputs := rfl
@[simp] theorem State.updWarp_agenda (s : State) (w : Nat) (g : Warp → Warp) : (s.updWarp w g).agenda = s.agenda := rfl
@[simp] theorem State.updWarp_focus (s : State) (w : Nat) (g : Warp → Warp) : (s.updWarp w g).focus = s.focus := rfl
@[simp] theorem State.updWarp_freeCtr (s : State) (w : Nat) (g : Warp → Warp) : (s.updWarp w g).freeCtr = s.freeCtr := rfl
@[simp] theorem State.updWarp_nextUid (s : State) (w : Nat) (g : Warp → Warp) : (s.updWarp w g).nextUid = s.nextUid := rfl
@[simp] theorem State.updWarp_mem (s : State) (w : Nat) (g : Warp → Warp) : (s.updWarp w g).mem = s.mem := rfl
@[simp] theorem State.updWarp_poison (s : State) (w : Nat) (g : Warp → Warp) : (s.updWarp w g).poison = s.poison := rfl
@[simp] theorem State.updWarp_past (s : State) (w : Nat) (g : Warp → Warp) : (s.updWarp w g).past = s.past := rfl
@[simp] theorem State.updWarp_sync (s : State) (w : Nat) (g : Warp → Warp) : (s.updWarp w g).sync = s.sync := rfl
@[simp] theorem State.updWarp_timeNs (s : State) (w : Nat) (g : Warp → Warp) : (s.updWarp w g).timeNs = s.timeNs := rfl
@[simp] theorem State.updWarp_mhz (s : State) (w : Nat) (g : Warp → Warp) : (s.updWarp w g).mhz = s.mhz := rfl
@[simp] theorem State.updWarp_cores (s : State) (w : Nat) (g : Warp → Warp) : (s.updWarp w g).cores = s.cores := rfl
@[simp] theorem State.updWarp_blocks (s : State) (w : Nat) (g : Warp → Warp) : (s.updWarp w g).blocks = s.blocks := rfl
@[simp] theorem State.updWarp_grids (s : State) (w : Nat) (g : Warp → Warp) : (s.updWarp w g).grids = s.grids := rfl
@[simp] theorem State.updWarp_jobs (s : State) (w : Nat) (g : Warp → Warp) : (s.updWarp w g).jobs = s.jobs := rfl
@[simp] theorem State.updWarp_ops (s : State) (w : Nat) (g : Warp → Warp) : (s.updWarp w g).ops = s.ops := rfl
@[simp] theorem State.updWarp_parts (s : State) (w : Nat) (g : Warp → Warp) : (s.updWarp w g).parts = s.parts := rfl
@[simp] theorem State.updWarp_stiles (s : State) (w : Nat) (g : Warp → Warp) : (s.updWarp w g).stiles = s.stiles := rfl
@[simp] theorem State.updWarp_images (s : State) (w : Nat) (g : Warp → Warp) : (s.updWarp w g).images = s.images := rfl
@[simp] theorem State.updWarp_activeFw (s : State) (w : Nat) (g : Warp → Warp) : (s.updWarp w g).activeFw = s.activeFw := rfl
@[simp] theorem State.updWarp_fused (s : State) (w : Nat) (g : Warp → Warp) : (s.updWarp w g).fused = s.fused := rfl
@[simp] theorem State.updWarp_fwDigests (s : State) (w : Nat) (g : Warp → Warp) : (s.updWarp w g).fwDigests = s.fwDigests := rfl
@[simp] theorem State.updWarp_fwPhase (s : State) (w : Nat) (g : Warp → Warp) : (s.updWarp w g).fwPhase = s.fwPhase := rfl
@[simp] theorem State.updWarp_softErrors (s : State) (w : Nat) (g : Warp → Warp) : (s.updWarp w g).softErrors = s.softErrors := rfl
@[simp] theorem State.updWarp_weights (s : State) (w : Nat) (g : Warp → Warp) : (s.updWarp w g).weights = s.weights := rfl
@[simp] theorem State.updWarp_links (s : State) (w : Nat) (g : Warp → Warp) : (s.updWarp w g).links = s.links := rfl
@[simp] theorem State.updWarp_outputs (s : State) (w : Nat) (g : Warp → Warp) : (s.updWarp w g).outputs = s.outputs := rfl
@[simp] theorem State.updBlock_agenda (s : State) (b : Nat) (g : Block → Block) : (s.updBlock b g).agenda = s.agenda := rfl
@[simp] theorem State.updBlock_focus (s : State) (b : Nat) (g : Block → Block) : (s.updBlock b g).focus = s.focus := rfl
@[simp] theorem State.updBlock_freeCtr (s : State) (b : Nat) (g : Block → Block) : (s.updBlock b g).freeCtr = s.freeCtr := rfl
@[simp] theorem State.updBlock_nextUid (s : State) (b : Nat) (g : Block → Block) : (s.updBlock b g).nextUid = s.nextUid := rfl
@[simp] theorem State.updBlock_mem (s : State) (b : Nat) (g : Block → Block) : (s.updBlock b g).mem = s.mem := rfl
@[simp] theorem State.updBlock_poison (s : State) (b : Nat) (g : Block → Block) : (s.updBlock b g).poison = s.poison := rfl
@[simp] theorem State.updBlock_past (s : State) (b : Nat) (g : Block → Block) : (s.updBlock b g).past = s.past := rfl
@[simp] theorem State.updBlock_sync (s : State) (b : Nat) (g : Block → Block) : (s.updBlock b g).sync = s.sync := rfl
@[simp] theorem State.updBlock_timeNs (s : State) (b : Nat) (g : Block → Block) : (s.updBlock b g).timeNs = s.timeNs := rfl
@[simp] theorem State.updBlock_mhz (s : State) (b : Nat) (g : Block → Block) : (s.updBlock b g).mhz = s.mhz := rfl
@[simp] theorem State.updBlock_cores (s : State) (b : Nat) (g : Block → Block) : (s.updBlock b g).cores = s.cores := rfl
@[simp] theorem State.updBlock_warps (s : State) (b : Nat) (g : Block → Block) : (s.updBlock b g).warps = s.warps := rfl
@[simp] theorem State.updBlock_grids (s : State) (b : Nat) (g : Block → Block) : (s.updBlock b g).grids = s.grids := rfl
@[simp] theorem State.updBlock_jobs (s : State) (b : Nat) (g : Block → Block) : (s.updBlock b g).jobs = s.jobs := rfl
@[simp] theorem State.updBlock_ops (s : State) (b : Nat) (g : Block → Block) : (s.updBlock b g).ops = s.ops := rfl
@[simp] theorem State.updBlock_parts (s : State) (b : Nat) (g : Block → Block) : (s.updBlock b g).parts = s.parts := rfl
@[simp] theorem State.updBlock_stiles (s : State) (b : Nat) (g : Block → Block) : (s.updBlock b g).stiles = s.stiles := rfl
@[simp] theorem State.updBlock_images (s : State) (b : Nat) (g : Block → Block) : (s.updBlock b g).images = s.images := rfl
@[simp] theorem State.updBlock_activeFw (s : State) (b : Nat) (g : Block → Block) : (s.updBlock b g).activeFw = s.activeFw := rfl
@[simp] theorem State.updBlock_fused (s : State) (b : Nat) (g : Block → Block) : (s.updBlock b g).fused = s.fused := rfl
@[simp] theorem State.updBlock_fwDigests (s : State) (b : Nat) (g : Block → Block) : (s.updBlock b g).fwDigests = s.fwDigests := rfl
@[simp] theorem State.updBlock_fwPhase (s : State) (b : Nat) (g : Block → Block) : (s.updBlock b g).fwPhase = s.fwPhase := rfl
@[simp] theorem State.updBlock_softErrors (s : State) (b : Nat) (g : Block → Block) : (s.updBlock b g).softErrors = s.softErrors := rfl
@[simp] theorem State.updBlock_weights (s : State) (b : Nat) (g : Block → Block) : (s.updBlock b g).weights = s.weights := rfl
@[simp] theorem State.updBlock_links (s : State) (b : Nat) (g : Block → Block) : (s.updBlock b g).links = s.links := rfl
@[simp] theorem State.updBlock_outputs (s : State) (b : Nat) (g : Block → Block) : (s.updBlock b g).outputs = s.outputs := rfl
@[simp] theorem State.updCore_agenda (s : State) (c : Nat) (g : Core → Core) : (s.updCore c g).agenda = s.agenda := rfl
@[simp] theorem State.updCore_focus (s : State) (c : Nat) (g : Core → Core) : (s.updCore c g).focus = s.focus := rfl
@[simp] theorem State.updCore_freeCtr (s : State) (c : Nat) (g : Core → Core) : (s.updCore c g).freeCtr = s.freeCtr := rfl
@[simp] theorem State.updCore_nextUid (s : State) (c : Nat) (g : Core → Core) : (s.updCore c g).nextUid = s.nextUid := rfl
@[simp] theorem State.updCore_mem (s : State) (c : Nat) (g : Core → Core) : (s.updCore c g).mem = s.mem := rfl
@[simp] theorem State.updCore_poison (s : State) (c : Nat) (g : Core → Core) : (s.updCore c g).poison = s.poison := rfl
@[simp] theorem State.updCore_past (s : State) (c : Nat) (g : Core → Core) : (s.updCore c g).past = s.past := rfl
@[simp] theorem State.updCore_sync (s : State) (c : Nat) (g : Core → Core) : (s.updCore c g).sync = s.sync := rfl
@[simp] theorem State.updCore_timeNs (s : State) (c : Nat) (g : Core → Core) : (s.updCore c g).timeNs = s.timeNs := rfl
@[simp] theorem State.updCore_mhz (s : State) (c : Nat) (g : Core → Core) : (s.updCore c g).mhz = s.mhz := rfl
@[simp] theorem State.updCore_warps (s : State) (c : Nat) (g : Core → Core) : (s.updCore c g).warps = s.warps := rfl
@[simp] theorem State.updCore_blocks (s : State) (c : Nat) (g : Core → Core) : (s.updCore c g).blocks = s.blocks := rfl
@[simp] theorem State.updCore_grids (s : State) (c : Nat) (g : Core → Core) : (s.updCore c g).grids = s.grids := rfl
@[simp] theorem State.updCore_jobs (s : State) (c : Nat) (g : Core → Core) : (s.updCore c g).jobs = s.jobs := rfl
@[simp] theorem State.updCore_ops (s : State) (c : Nat) (g : Core → Core) : (s.updCore c g).ops = s.ops := rfl
@[simp] theorem State.updCore_parts (s : State) (c : Nat) (g : Core → Core) : (s.updCore c g).parts = s.parts := rfl
@[simp] theorem State.updCore_stiles (s : State) (c : Nat) (g : Core → Core) : (s.updCore c g).stiles = s.stiles := rfl
@[simp] theorem State.updCore_images (s : State) (c : Nat) (g : Core → Core) : (s.updCore c g).images = s.images := rfl
@[simp] theorem State.updCore_activeFw (s : State) (c : Nat) (g : Core → Core) : (s.updCore c g).activeFw = s.activeFw := rfl
@[simp] theorem State.updCore_fused (s : State) (c : Nat) (g : Core → Core) : (s.updCore c g).fused = s.fused := rfl
@[simp] theorem State.updCore_fwDigests (s : State) (c : Nat) (g : Core → Core) : (s.updCore c g).fwDigests = s.fwDigests := rfl
@[simp] theorem State.updCore_fwPhase (s : State) (c : Nat) (g : Core → Core) : (s.updCore c g).fwPhase = s.fwPhase := rfl
@[simp] theorem State.updCore_softErrors (s : State) (c : Nat) (g : Core → Core) : (s.updCore c g).softErrors = s.softErrors := rfl
@[simp] theorem State.updCore_weights (s : State) (c : Nat) (g : Core → Core) : (s.updCore c g).weights = s.weights := rfl
@[simp] theorem State.updCore_links (s : State) (c : Nat) (g : Core → Core) : (s.updCore c g).links = s.links := rfl
@[simp] theorem State.updCore_outputs (s : State) (c : Nat) (g : Core → Core) : (s.updCore c g).outputs = s.outputs := rfl
@[simp] theorem State.updPart_agenda (s : State) (p : Nat) (g : Part → Part) : (s.updPart p g).agenda = s.agenda := rfl
@[simp] theorem State.updPart_focus (s : State) (p : Nat) (g : Part → Part) : (s.updPart p g).focus = s.focus := rfl
@[simp] theorem State.updPart_freeCtr (s : State) (p : Nat) (g : Part → Part) : (s.updPart p g).freeCtr = s.freeCtr := rfl
@[simp] theorem State.updPart_nextUid (s : State) (p : Nat) (g : Part → Part) : (s.updPart p g).nextUid = s.nextUid := rfl
@[simp] theorem State.updPart_mem (s : State) (p : Nat) (g : Part → Part) : (s.updPart p g).mem = s.mem := rfl
@[simp] theorem State.updPart_poison (s : State) (p : Nat) (g : Part → Part) : (s.updPart p g).poison = s.poison := rfl
@[simp] theorem State.updPart_past (s : State) (p : Nat) (g : Part → Part) : (s.updPart p g).past = s.past := rfl
@[simp] theorem State.updPart_sync (s : State) (p : Nat) (g : Part → Part) : (s.updPart p g).sync = s.sync := rfl
@[simp] theorem State.updPart_timeNs (s : State) (p : Nat) (g : Part → Part) : (s.updPart p g).timeNs = s.timeNs := rfl
@[simp] theorem State.updPart_mhz (s : State) (p : Nat) (g : Part → Part) : (s.updPart p g).mhz = s.mhz := rfl
@[simp] theorem State.updPart_cores (s : State) (p : Nat) (g : Part → Part) : (s.updPart p g).cores = s.cores := rfl
@[simp] theorem State.updPart_warps (s : State) (p : Nat) (g : Part → Part) : (s.updPart p g).warps = s.warps := rfl
@[simp] theorem State.updPart_blocks (s : State) (p : Nat) (g : Part → Part) : (s.updPart p g).blocks = s.blocks := rfl
@[simp] theorem State.updPart_grids (s : State) (p : Nat) (g : Part → Part) : (s.updPart p g).grids = s.grids := rfl
@[simp] theorem State.updPart_jobs (s : State) (p : Nat) (g : Part → Part) : (s.updPart p g).jobs = s.jobs := rfl
@[simp] theorem State.updPart_ops (s : State) (p : Nat) (g : Part → Part) : (s.updPart p g).ops = s.ops := rfl
@[simp] theorem State.updPart_stiles (s : State) (p : Nat) (g : Part → Part) : (s.updPart p g).stiles = s.stiles := rfl
@[simp] theorem State.updPart_images (s : State) (p : Nat) (g : Part → Part) : (s.updPart p g).images = s.images := rfl
@[simp] theorem State.updPart_activeFw (s : State) (p : Nat) (g : Part → Part) : (s.updPart p g).activeFw = s.activeFw := rfl
@[simp] theorem State.updPart_fused (s : State) (p : Nat) (g : Part → Part) : (s.updPart p g).fused = s.fused := rfl
@[simp] theorem State.updPart_fwDigests (s : State) (p : Nat) (g : Part → Part) : (s.updPart p g).fwDigests = s.fwDigests := rfl
@[simp] theorem State.updPart_fwPhase (s : State) (p : Nat) (g : Part → Part) : (s.updPart p g).fwPhase = s.fwPhase := rfl
@[simp] theorem State.updPart_softErrors (s : State) (p : Nat) (g : Part → Part) : (s.updPart p g).softErrors = s.softErrors := rfl
@[simp] theorem State.updPart_weights (s : State) (p : Nat) (g : Part → Part) : (s.updPart p g).weights = s.weights := rfl
@[simp] theorem State.updPart_links (s : State) (p : Nat) (g : Part → Part) : (s.updPart p g).links = s.links := rfl
@[simp] theorem State.updPart_outputs (s : State) (p : Nat) (g : Part → Part) : (s.updPart p g).outputs = s.outputs := rfl
@[simp] theorem State.bump_agenda (s : State) : s.bump.agenda = s.agenda := rfl
@[simp] theorem State.bump_focus (s : State) : s.bump.focus = s.focus := rfl
@[simp] theorem State.bump_nextUid (s : State) : s.bump.nextUid = s.nextUid := rfl
@[simp] theorem State.bump_mem (s : State) : s.bump.mem = s.mem := rfl
@[simp] theorem State.bump_poison (s : State) : s.bump.poison = s.poison := rfl
@[simp] theorem State.bump_past (s : State) : s.bump.past = s.past := rfl
@[simp] theorem State.bump_sync (s : State) : s.bump.sync = s.sync := rfl
@[simp] theorem State.bump_timeNs (s : State) : s.bump.timeNs = s.timeNs := rfl
@[simp] theorem State.bump_mhz (s : State) : s.bump.mhz = s.mhz := rfl
@[simp] theorem State.bump_cores (s : State) : s.bump.cores = s.cores := rfl
@[simp] theorem State.bump_warps (s : State) : s.bump.warps = s.warps := rfl
@[simp] theorem State.bump_blocks (s : State) : s.bump.blocks = s.blocks := rfl
@[simp] theorem State.bump_grids (s : State) : s.bump.grids = s.grids := rfl
@[simp] theorem State.bump_jobs (s : State) : s.bump.jobs = s.jobs := rfl
@[simp] theorem State.bump_ops (s : State) : s.bump.ops = s.ops := rfl
@[simp] theorem State.bump_parts (s : State) : s.bump.parts = s.parts := rfl
@[simp] theorem State.bump_stiles (s : State) : s.bump.stiles = s.stiles := rfl
@[simp] theorem State.bump_images (s : State) : s.bump.images = s.images := rfl
@[simp] theorem State.bump_activeFw (s : State) : s.bump.activeFw = s.activeFw := rfl
@[simp] theorem State.bump_fused (s : State) : s.bump.fused = s.fused := rfl
@[simp] theorem State.bump_fwDigests (s : State) : s.bump.fwDigests = s.fwDigests := rfl
@[simp] theorem State.bump_fwPhase (s : State) : s.bump.fwPhase = s.fwPhase := rfl
@[simp] theorem State.bump_softErrors (s : State) : s.bump.softErrors = s.softErrors := rfl
@[simp] theorem State.bump_weights (s : State) : s.bump.weights = s.weights := rfl
@[simp] theorem State.bump_links (s : State) : s.bump.links = s.links := rfl
@[simp] theorem State.bump_outputs (s : State) : s.bump.outputs = s.outputs := rfl
@[simp] theorem State.bump_freeCtr (s : State) : s.bump.freeCtr = s.freeCtr + 1 := rfl
@[simp] theorem Warp.writeV_blk (x : Warp) (r l : Nat) (b : Word) : (x.writeV r l b).blk = x.blk := rfl
@[simp] theorem Warp.writeV_core (x : Warp) (r l : Nat) (b : Word) : (x.writeV r l b).core = x.core := rfl
@[simp] theorem Warp.writeV_slot (x : Warp) (r l : Nat) (b : Word) : (x.writeV r l b).slot = x.slot := rfl
@[simp] theorem Warp.writeV_quarter (x : Warp) (r l : Nat) (b : Word) : (x.writeV r l b).quarter = x.quarter := rfl
@[simp] theorem Warp.writeV_widx (x : Warp) (r l : Nat) (b : Word) : (x.writeV r l b).widx = x.widx := rfl
@[simp] theorem Warp.writeV_role (x : Warp) (r l : Nat) (b : Word) : (x.writeV r l b).role = x.role := rfl
@[simp] theorem Warp.writeV_control (x : Warp) (r l : Nat) (b : Word) : (x.writeV r l b).control = x.control := rfl
@[simp] theorem Warp.writeV_fw (x : Warp) (r l : Nat) (b : Word) : (x.writeV r l b).fw = x.fw := rfl
@[simp] theorem Warp.writeV_pc (x : Warp) (r l : Nat) (b : Word) : (x.writeV r l b).pc = x.pc := rfl
@[simp] theorem Warp.writeV_active (x : Warp) (r l : Nat) (b : Word) : (x.writeV r l b).active = x.active := rfl
@[simp] theorem Warp.writeV_live (x : Warp) (r l : Nat) (b : Word) : (x.writeV r l b).live = x.live := rfl
@[simp] theorem Warp.writeV_dstack (x : Warp) (r l : Nat) (b : Word) : (x.writeV r l b).dstack = x.dstack := rfl
@[simp] theorem Warp.writeV_cstack (x : Warp) (r l : Nat) (b : Word) : (x.writeV r l b).cstack = x.cstack := rfl
@[simp] theorem Warp.writeV_s (x : Warp) (r l : Nat) (b : Word) : (x.writeV r l b).s = x.s := rfl
@[simp] theorem Warp.writeV_p (x : Warp) (r l : Nat) (b : Word) : (x.writeV r l b).p = x.p := rfl
@[simp] theorem Warp.writeV_sticky (x : Warp) (r l : Nat) (b : Word) : (x.writeV r l b).sticky = x.sticky := rfl
@[simp] theorem Warp.writeV_trapen (x : Warp) (r l : Nat) (b : Word) : (x.writeV r l b).trapen = x.trapen := rfl
@[simp] theorem Warp.writeV_dctr (x : Warp) (r l : Nat) (b : Word) : (x.writeV r l b).dctr = x.dctr := rfl
@[simp] theorem Warp.writeV_repi (x : Warp) (r l : Nat) (b : Word) : (x.writeV r l b).repi = x.repi := rfl
@[simp] theorem Warp.writeV_uepclo (x : Warp) (r l : Nat) (b : Word) : (x.writeV r l b).uepclo = x.uepclo := rfl
@[simp] theorem Warp.writeV_uepchi (x : Warp) (r l : Nat) (b : Word) : (x.writeV r l b).uepchi = x.uepchi := rfl
@[simp] theorem Warp.writeV_uemask (x : Warp) (r l : Nat) (b : Word) : (x.writeV r l b).uemask = x.uemask := rfl
@[simp] theorem Warp.writeV_inHandler (x : Warp) (r l : Nat) (b : Word) : (x.writeV r l b).inHandler = x.inHandler := rfl
@[simp] theorem Warp.writeV_held (x : Warp) (r l : Nat) (b : Word) : (x.writeV r l b).held = x.held := rfl
@[simp] theorem Warp.writeV_hdDepth (x : Warp) (r l : Nat) (b : Word) : (x.writeV r l b).hdDepth = x.hdDepth := rfl
@[simp] theorem Warp.writeV_hcDepth (x : Warp) (r l : Nat) (b : Word) : (x.writeV r l b).hcDepth = x.hcDepth := rfl
@[simp] theorem Warp.writeV_arming (x : Warp) (r l : Nat) (b : Word) : (x.writeV r l b).arming = x.arming := rfl
@[simp] theorem Warp.writeV_heldArm (x : Warp) (r l : Nat) (b : Word) : (x.writeV r l b).heldArm = x.heldArm := rfl
@[simp] theorem Warp.writeV_blocked (x : Warp) (r l : Nat) (b : Word) : (x.writeV r l b).blocked = x.blocked := rfl
@[simp] theorem Warp.writeV_wait (x : Warp) (r l : Nat) (b : Word) : (x.writeV r l b).wait = x.wait := rfl
@[simp] theorem Warp.writeV_susp (x : Warp) (r l : Nat) (b : Word) : (x.writeV r l b).susp = x.susp := rfl
@[simp] theorem Warp.writeV_haltReq (x : Warp) (r l : Nat) (b : Word) : (x.writeV r l b).haltReq = x.haltReq := rfl
@[simp] theorem Warp.writeV_asyncTraps (x : Warp) (r l : Nat) (b : Word) : (x.writeV r l b).asyncTraps = x.asyncTraps := rfl
@[simp] theorem Warp.writeV_clockHi (x : Warp) (r l : Nat) (b : Word) : (x.writeV r l b).clockHi = x.clockHi := rfl
@[simp] theorem Warp.writeV_timeHi (x : Warp) (r l : Nat) (b : Word) : (x.writeV r l b).timeHi = x.timeHi := rfl
@[simp] theorem Warp.writeV_stores (x : Warp) (r l : Nat) (b : Word) : (x.writeV r l b).stores = x.stores := rfl
@[simp] theorem Warp.writeV_matrix (x : Warp) (r l : Nat) (b : Word) : (x.writeV r l b).matrix = x.matrix := rfl
@[simp] theorem Warp.writeV_drainFlags (x : Warp) (r l : Nat) (b : Word) : (x.writeV r l b).drainFlags = x.drainFlags := rfl
@[simp] theorem Warp.writeV_matrixLog (x : Warp) (r l : Nat) (b : Word) : (x.writeV r l b).matrixLog = x.matrixLog := rfl
@[simp] theorem Warp.writeV_tileq (x : Warp) (r l : Nat) (b : Word) : (x.writeV r l b).tileq = x.tileq := rfl
@[simp] theorem Warp.writeV_abuf (x : Warp) (r l : Nat) (b : Word) : (x.writeV r l b).abuf = x.abuf := rfl
@[simp] theorem Warp.writeV_openBatch (x : Warp) (r l : Nat) (b : Word) : (x.writeV r l b).openBatch = x.openBatch := rfl
@[simp] theorem Warp.writeV_sealedBatches (x : Warp) (r l : Nat) (b : Word) : (x.writeV r l b).sealedBatches = x.sealedBatches := rfl
@[simp] theorem Warp.writeV_lastBatch (x : Warp) (r l : Nat) (b : Word) : (x.writeV r l b).lastBatch = x.lastBatch := rfl
@[simp] theorem Warp.writeV_regEpochs (x : Warp) (r l : Nat) (b : Word) : (x.writeV r l b).regEpochs = x.regEpochs := rfl
@[simp] theorem Warp.writeV_accEpochs (x : Warp) (r l : Nat) (b : Word) : (x.writeV r l b).accEpochs = x.accEpochs := rfl
@[simp] theorem Warp.writeV_regUnits (x : Warp) (r l : Nat) (b : Word) : (x.writeV r l b).regUnits = x.regUnits := rfl
@[simp] theorem Warp.writeV_accUnits (x : Warp) (r l : Nat) (b : Word) : (x.writeV r l b).accUnits = x.accUnits := rfl
@[simp] theorem Warp.writeV_acc (x : Warp) (r l : Nat) (b : Word) : (x.writeV r l b).acc = x.acc := rfl
@[simp] theorem Warp.writeV_flg (x : Warp) (r l : Nat) (b : Word) : (x.writeV r l b).flg = x.flg := rfl
@[simp] theorem Warp.writeV_wslots (x : Warp) (r l : Nat) (b : Word) : (x.writeV r l b).wslots = x.wslots := rfl
@[simp] theorem Warp.writeV_accPoison (x : Warp) (r l : Nat) (b : Word) : (x.writeV r l b).accPoison = x.accPoison := rfl
@[simp] theorem Warp.writeV_wPoison (x : Warp) (r l : Nat) (b : Word) : (x.writeV r l b).wPoison = x.wPoison := rfl
@[simp] theorem Warp.writeV_age (x : Warp) (r l : Nat) (b : Word) : (x.writeV r l b).age = x.age := rfl
@[simp] theorem Warp.writeV_yieldLeft (x : Warp) (r l : Nat) (b : Word) : (x.writeV r l b).yieldLeft = x.yieldLeft := rfl
@[simp] theorem Warp.writeS_blk (x : Warp) (r : Nat) (b : Word) : (x.writeS r b).blk = x.blk := rfl
@[simp] theorem Warp.writeS_core (x : Warp) (r : Nat) (b : Word) : (x.writeS r b).core = x.core := rfl
@[simp] theorem Warp.writeS_slot (x : Warp) (r : Nat) (b : Word) : (x.writeS r b).slot = x.slot := rfl
@[simp] theorem Warp.writeS_quarter (x : Warp) (r : Nat) (b : Word) : (x.writeS r b).quarter = x.quarter := rfl
@[simp] theorem Warp.writeS_widx (x : Warp) (r : Nat) (b : Word) : (x.writeS r b).widx = x.widx := rfl
@[simp] theorem Warp.writeS_role (x : Warp) (r : Nat) (b : Word) : (x.writeS r b).role = x.role := rfl
@[simp] theorem Warp.writeS_control (x : Warp) (r : Nat) (b : Word) : (x.writeS r b).control = x.control := rfl
@[simp] theorem Warp.writeS_fw (x : Warp) (r : Nat) (b : Word) : (x.writeS r b).fw = x.fw := rfl
@[simp] theorem Warp.writeS_pc (x : Warp) (r : Nat) (b : Word) : (x.writeS r b).pc = x.pc := rfl
@[simp] theorem Warp.writeS_active (x : Warp) (r : Nat) (b : Word) : (x.writeS r b).active = x.active := rfl
@[simp] theorem Warp.writeS_live (x : Warp) (r : Nat) (b : Word) : (x.writeS r b).live = x.live := rfl
@[simp] theorem Warp.writeS_dstack (x : Warp) (r : Nat) (b : Word) : (x.writeS r b).dstack = x.dstack := rfl
@[simp] theorem Warp.writeS_cstack (x : Warp) (r : Nat) (b : Word) : (x.writeS r b).cstack = x.cstack := rfl
@[simp] theorem Warp.writeS_v (x : Warp) (r : Nat) (b : Word) : (x.writeS r b).v = x.v := rfl
@[simp] theorem Warp.writeS_p (x : Warp) (r : Nat) (b : Word) : (x.writeS r b).p = x.p := rfl
@[simp] theorem Warp.writeS_sticky (x : Warp) (r : Nat) (b : Word) : (x.writeS r b).sticky = x.sticky := rfl
@[simp] theorem Warp.writeS_trapen (x : Warp) (r : Nat) (b : Word) : (x.writeS r b).trapen = x.trapen := rfl
@[simp] theorem Warp.writeS_dctr (x : Warp) (r : Nat) (b : Word) : (x.writeS r b).dctr = x.dctr := rfl
@[simp] theorem Warp.writeS_repi (x : Warp) (r : Nat) (b : Word) : (x.writeS r b).repi = x.repi := rfl
@[simp] theorem Warp.writeS_uepclo (x : Warp) (r : Nat) (b : Word) : (x.writeS r b).uepclo = x.uepclo := rfl
@[simp] theorem Warp.writeS_uepchi (x : Warp) (r : Nat) (b : Word) : (x.writeS r b).uepchi = x.uepchi := rfl
@[simp] theorem Warp.writeS_uemask (x : Warp) (r : Nat) (b : Word) : (x.writeS r b).uemask = x.uemask := rfl
@[simp] theorem Warp.writeS_inHandler (x : Warp) (r : Nat) (b : Word) : (x.writeS r b).inHandler = x.inHandler := rfl
@[simp] theorem Warp.writeS_held (x : Warp) (r : Nat) (b : Word) : (x.writeS r b).held = x.held := rfl
@[simp] theorem Warp.writeS_hdDepth (x : Warp) (r : Nat) (b : Word) : (x.writeS r b).hdDepth = x.hdDepth := rfl
@[simp] theorem Warp.writeS_hcDepth (x : Warp) (r : Nat) (b : Word) : (x.writeS r b).hcDepth = x.hcDepth := rfl
@[simp] theorem Warp.writeS_arming (x : Warp) (r : Nat) (b : Word) : (x.writeS r b).arming = x.arming := rfl
@[simp] theorem Warp.writeS_heldArm (x : Warp) (r : Nat) (b : Word) : (x.writeS r b).heldArm = x.heldArm := rfl
@[simp] theorem Warp.writeS_blocked (x : Warp) (r : Nat) (b : Word) : (x.writeS r b).blocked = x.blocked := rfl
@[simp] theorem Warp.writeS_wait (x : Warp) (r : Nat) (b : Word) : (x.writeS r b).wait = x.wait := rfl
@[simp] theorem Warp.writeS_susp (x : Warp) (r : Nat) (b : Word) : (x.writeS r b).susp = x.susp := rfl
@[simp] theorem Warp.writeS_haltReq (x : Warp) (r : Nat) (b : Word) : (x.writeS r b).haltReq = x.haltReq := rfl
@[simp] theorem Warp.writeS_asyncTraps (x : Warp) (r : Nat) (b : Word) : (x.writeS r b).asyncTraps = x.asyncTraps := rfl
@[simp] theorem Warp.writeS_clockHi (x : Warp) (r : Nat) (b : Word) : (x.writeS r b).clockHi = x.clockHi := rfl
@[simp] theorem Warp.writeS_timeHi (x : Warp) (r : Nat) (b : Word) : (x.writeS r b).timeHi = x.timeHi := rfl
@[simp] theorem Warp.writeS_stores (x : Warp) (r : Nat) (b : Word) : (x.writeS r b).stores = x.stores := rfl
@[simp] theorem Warp.writeS_matrix (x : Warp) (r : Nat) (b : Word) : (x.writeS r b).matrix = x.matrix := rfl
@[simp] theorem Warp.writeS_drainFlags (x : Warp) (r : Nat) (b : Word) : (x.writeS r b).drainFlags = x.drainFlags := rfl
@[simp] theorem Warp.writeS_matrixLog (x : Warp) (r : Nat) (b : Word) : (x.writeS r b).matrixLog = x.matrixLog := rfl
@[simp] theorem Warp.writeS_tileq (x : Warp) (r : Nat) (b : Word) : (x.writeS r b).tileq = x.tileq := rfl
@[simp] theorem Warp.writeS_abuf (x : Warp) (r : Nat) (b : Word) : (x.writeS r b).abuf = x.abuf := rfl
@[simp] theorem Warp.writeS_openBatch (x : Warp) (r : Nat) (b : Word) : (x.writeS r b).openBatch = x.openBatch := rfl
@[simp] theorem Warp.writeS_sealedBatches (x : Warp) (r : Nat) (b : Word) : (x.writeS r b).sealedBatches = x.sealedBatches := rfl
@[simp] theorem Warp.writeS_lastBatch (x : Warp) (r : Nat) (b : Word) : (x.writeS r b).lastBatch = x.lastBatch := rfl
@[simp] theorem Warp.writeS_regEpochs (x : Warp) (r : Nat) (b : Word) : (x.writeS r b).regEpochs = x.regEpochs := rfl
@[simp] theorem Warp.writeS_accEpochs (x : Warp) (r : Nat) (b : Word) : (x.writeS r b).accEpochs = x.accEpochs := rfl
@[simp] theorem Warp.writeS_regUnits (x : Warp) (r : Nat) (b : Word) : (x.writeS r b).regUnits = x.regUnits := rfl
@[simp] theorem Warp.writeS_accUnits (x : Warp) (r : Nat) (b : Word) : (x.writeS r b).accUnits = x.accUnits := rfl
@[simp] theorem Warp.writeS_acc (x : Warp) (r : Nat) (b : Word) : (x.writeS r b).acc = x.acc := rfl
@[simp] theorem Warp.writeS_flg (x : Warp) (r : Nat) (b : Word) : (x.writeS r b).flg = x.flg := rfl
@[simp] theorem Warp.writeS_wslots (x : Warp) (r : Nat) (b : Word) : (x.writeS r b).wslots = x.wslots := rfl
@[simp] theorem Warp.writeS_vPoison (x : Warp) (r : Nat) (b : Word) : (x.writeS r b).vPoison = x.vPoison := rfl
@[simp] theorem Warp.writeS_accPoison (x : Warp) (r : Nat) (b : Word) : (x.writeS r b).accPoison = x.accPoison := rfl
@[simp] theorem Warp.writeS_wPoison (x : Warp) (r : Nat) (b : Word) : (x.writeS r b).wPoison = x.wPoison := rfl
@[simp] theorem Warp.writeS_age (x : Warp) (r : Nat) (b : Word) : (x.writeS r b).age = x.age := rfl
@[simp] theorem Warp.writeS_yieldLeft (x : Warp) (r : Nat) (b : Word) : (x.writeS r b).yieldLeft = x.yieldLeft := rfl
@[simp] theorem Warp.unwait_blk (x : Warp)  : (x.unwait).blk = x.blk := rfl
@[simp] theorem Warp.unwait_core (x : Warp)  : (x.unwait).core = x.core := rfl
@[simp] theorem Warp.unwait_slot (x : Warp)  : (x.unwait).slot = x.slot := rfl
@[simp] theorem Warp.unwait_quarter (x : Warp)  : (x.unwait).quarter = x.quarter := rfl
@[simp] theorem Warp.unwait_widx (x : Warp)  : (x.unwait).widx = x.widx := rfl
@[simp] theorem Warp.unwait_role (x : Warp)  : (x.unwait).role = x.role := rfl
@[simp] theorem Warp.unwait_control (x : Warp)  : (x.unwait).control = x.control := rfl
@[simp] theorem Warp.unwait_fw (x : Warp)  : (x.unwait).fw = x.fw := rfl
@[simp] theorem Warp.unwait_pc (x : Warp)  : (x.unwait).pc = x.pc := rfl
@[simp] theorem Warp.unwait_active (x : Warp)  : (x.unwait).active = x.active := rfl
@[simp] theorem Warp.unwait_live (x : Warp)  : (x.unwait).live = x.live := rfl
@[simp] theorem Warp.unwait_dstack (x : Warp)  : (x.unwait).dstack = x.dstack := rfl
@[simp] theorem Warp.unwait_cstack (x : Warp)  : (x.unwait).cstack = x.cstack := rfl
@[simp] theorem Warp.unwait_v (x : Warp)  : (x.unwait).v = x.v := rfl
@[simp] theorem Warp.unwait_s (x : Warp)  : (x.unwait).s = x.s := rfl
@[simp] theorem Warp.unwait_p (x : Warp)  : (x.unwait).p = x.p := rfl
@[simp] theorem Warp.unwait_sticky (x : Warp)  : (x.unwait).sticky = x.sticky := rfl
@[simp] theorem Warp.unwait_trapen (x : Warp)  : (x.unwait).trapen = x.trapen := rfl
@[simp] theorem Warp.unwait_dctr (x : Warp)  : (x.unwait).dctr = x.dctr := rfl
@[simp] theorem Warp.unwait_repi (x : Warp)  : (x.unwait).repi = x.repi := rfl
@[simp] theorem Warp.unwait_uepclo (x : Warp)  : (x.unwait).uepclo = x.uepclo := rfl
@[simp] theorem Warp.unwait_uepchi (x : Warp)  : (x.unwait).uepchi = x.uepchi := rfl
@[simp] theorem Warp.unwait_uemask (x : Warp)  : (x.unwait).uemask = x.uemask := rfl
@[simp] theorem Warp.unwait_inHandler (x : Warp)  : (x.unwait).inHandler = x.inHandler := rfl
@[simp] theorem Warp.unwait_held (x : Warp)  : (x.unwait).held = x.held := rfl
@[simp] theorem Warp.unwait_hdDepth (x : Warp)  : (x.unwait).hdDepth = x.hdDepth := rfl
@[simp] theorem Warp.unwait_hcDepth (x : Warp)  : (x.unwait).hcDepth = x.hcDepth := rfl
@[simp] theorem Warp.unwait_arming (x : Warp)  : (x.unwait).arming = x.arming := rfl
@[simp] theorem Warp.unwait_heldArm (x : Warp)  : (x.unwait).heldArm = x.heldArm := rfl
@[simp] theorem Warp.unwait_susp (x : Warp)  : (x.unwait).susp = x.susp := rfl
@[simp] theorem Warp.unwait_haltReq (x : Warp)  : (x.unwait).haltReq = x.haltReq := rfl
@[simp] theorem Warp.unwait_asyncTraps (x : Warp)  : (x.unwait).asyncTraps = x.asyncTraps := rfl
@[simp] theorem Warp.unwait_clockHi (x : Warp)  : (x.unwait).clockHi = x.clockHi := rfl
@[simp] theorem Warp.unwait_timeHi (x : Warp)  : (x.unwait).timeHi = x.timeHi := rfl
@[simp] theorem Warp.unwait_loads (x : Warp)  : (x.unwait).loads = x.loads := rfl
@[simp] theorem Warp.unwait_stores (x : Warp)  : (x.unwait).stores = x.stores := rfl
@[simp] theorem Warp.unwait_matrix (x : Warp)  : (x.unwait).matrix = x.matrix := rfl
@[simp] theorem Warp.unwait_drainFlags (x : Warp)  : (x.unwait).drainFlags = x.drainFlags := rfl
@[simp] theorem Warp.unwait_matrixLog (x : Warp)  : (x.unwait).matrixLog = x.matrixLog := rfl
@[simp] theorem Warp.unwait_tileq (x : Warp)  : (x.unwait).tileq = x.tileq := rfl
@[simp] theorem Warp.unwait_abuf (x : Warp)  : (x.unwait).abuf = x.abuf := rfl
@[simp] theorem Warp.unwait_openBatch (x : Warp)  : (x.unwait).openBatch = x.openBatch := rfl
@[simp] theorem Warp.unwait_sealedBatches (x : Warp)  : (x.unwait).sealedBatches = x.sealedBatches := rfl
@[simp] theorem Warp.unwait_lastBatch (x : Warp)  : (x.unwait).lastBatch = x.lastBatch := rfl
@[simp] theorem Warp.unwait_regEpochs (x : Warp)  : (x.unwait).regEpochs = x.regEpochs := rfl
@[simp] theorem Warp.unwait_accEpochs (x : Warp)  : (x.unwait).accEpochs = x.accEpochs := rfl
@[simp] theorem Warp.unwait_regUnits (x : Warp)  : (x.unwait).regUnits = x.regUnits := rfl
@[simp] theorem Warp.unwait_accUnits (x : Warp)  : (x.unwait).accUnits = x.accUnits := rfl
@[simp] theorem Warp.unwait_acc (x : Warp)  : (x.unwait).acc = x.acc := rfl
@[simp] theorem Warp.unwait_flg (x : Warp)  : (x.unwait).flg = x.flg := rfl
@[simp] theorem Warp.unwait_wslots (x : Warp)  : (x.unwait).wslots = x.wslots := rfl
@[simp] theorem Warp.unwait_vPoison (x : Warp)  : (x.unwait).vPoison = x.vPoison := rfl
@[simp] theorem Warp.unwait_accPoison (x : Warp)  : (x.unwait).accPoison = x.accPoison := rfl
@[simp] theorem Warp.unwait_wPoison (x : Warp)  : (x.unwait).wPoison = x.wPoison := rfl
@[simp] theorem Warp.unwait_age (x : Warp)  : (x.unwait).age = x.age := rfl
@[simp] theorem Warp.unwait_yieldLeft (x : Warp)  : (x.unwait).yieldLeft = x.yieldLeft := rfl
@[simp] theorem Warp.raise_blk (x : Warp) (g : FlagSet) : (x.raise g).blk = x.blk := rfl
@[simp] theorem Warp.raise_core (x : Warp) (g : FlagSet) : (x.raise g).core = x.core := rfl
@[simp] theorem Warp.raise_slot (x : Warp) (g : FlagSet) : (x.raise g).slot = x.slot := rfl
@[simp] theorem Warp.raise_quarter (x : Warp) (g : FlagSet) : (x.raise g).quarter = x.quarter := rfl
@[simp] theorem Warp.raise_widx (x : Warp) (g : FlagSet) : (x.raise g).widx = x.widx := rfl
@[simp] theorem Warp.raise_role (x : Warp) (g : FlagSet) : (x.raise g).role = x.role := rfl
@[simp] theorem Warp.raise_control (x : Warp) (g : FlagSet) : (x.raise g).control = x.control := rfl
@[simp] theorem Warp.raise_fw (x : Warp) (g : FlagSet) : (x.raise g).fw = x.fw := rfl
@[simp] theorem Warp.raise_pc (x : Warp) (g : FlagSet) : (x.raise g).pc = x.pc := rfl
@[simp] theorem Warp.raise_active (x : Warp) (g : FlagSet) : (x.raise g).active = x.active := rfl
@[simp] theorem Warp.raise_live (x : Warp) (g : FlagSet) : (x.raise g).live = x.live := rfl
@[simp] theorem Warp.raise_dstack (x : Warp) (g : FlagSet) : (x.raise g).dstack = x.dstack := rfl
@[simp] theorem Warp.raise_cstack (x : Warp) (g : FlagSet) : (x.raise g).cstack = x.cstack := rfl
@[simp] theorem Warp.raise_v (x : Warp) (g : FlagSet) : (x.raise g).v = x.v := rfl
@[simp] theorem Warp.raise_s (x : Warp) (g : FlagSet) : (x.raise g).s = x.s := rfl
@[simp] theorem Warp.raise_p (x : Warp) (g : FlagSet) : (x.raise g).p = x.p := rfl
@[simp] theorem Warp.raise_trapen (x : Warp) (g : FlagSet) : (x.raise g).trapen = x.trapen := rfl
@[simp] theorem Warp.raise_dctr (x : Warp) (g : FlagSet) : (x.raise g).dctr = x.dctr := rfl
@[simp] theorem Warp.raise_repi (x : Warp) (g : FlagSet) : (x.raise g).repi = x.repi := rfl
@[simp] theorem Warp.raise_uepclo (x : Warp) (g : FlagSet) : (x.raise g).uepclo = x.uepclo := rfl
@[simp] theorem Warp.raise_uepchi (x : Warp) (g : FlagSet) : (x.raise g).uepchi = x.uepchi := rfl
@[simp] theorem Warp.raise_uemask (x : Warp) (g : FlagSet) : (x.raise g).uemask = x.uemask := rfl
@[simp] theorem Warp.raise_inHandler (x : Warp) (g : FlagSet) : (x.raise g).inHandler = x.inHandler := rfl
@[simp] theorem Warp.raise_held (x : Warp) (g : FlagSet) : (x.raise g).held = x.held := rfl
@[simp] theorem Warp.raise_hdDepth (x : Warp) (g : FlagSet) : (x.raise g).hdDepth = x.hdDepth := rfl
@[simp] theorem Warp.raise_hcDepth (x : Warp) (g : FlagSet) : (x.raise g).hcDepth = x.hcDepth := rfl
@[simp] theorem Warp.raise_arming (x : Warp) (g : FlagSet) : (x.raise g).arming = x.arming := rfl
@[simp] theorem Warp.raise_heldArm (x : Warp) (g : FlagSet) : (x.raise g).heldArm = x.heldArm := rfl
@[simp] theorem Warp.raise_blocked (x : Warp) (g : FlagSet) : (x.raise g).blocked = x.blocked := rfl
@[simp] theorem Warp.raise_wait (x : Warp) (g : FlagSet) : (x.raise g).wait = x.wait := rfl
@[simp] theorem Warp.raise_susp (x : Warp) (g : FlagSet) : (x.raise g).susp = x.susp := rfl
@[simp] theorem Warp.raise_haltReq (x : Warp) (g : FlagSet) : (x.raise g).haltReq = x.haltReq := rfl
@[simp] theorem Warp.raise_asyncTraps (x : Warp) (g : FlagSet) : (x.raise g).asyncTraps = x.asyncTraps := rfl
@[simp] theorem Warp.raise_clockHi (x : Warp) (g : FlagSet) : (x.raise g).clockHi = x.clockHi := rfl
@[simp] theorem Warp.raise_timeHi (x : Warp) (g : FlagSet) : (x.raise g).timeHi = x.timeHi := rfl
@[simp] theorem Warp.raise_loads (x : Warp) (g : FlagSet) : (x.raise g).loads = x.loads := rfl
@[simp] theorem Warp.raise_stores (x : Warp) (g : FlagSet) : (x.raise g).stores = x.stores := rfl
@[simp] theorem Warp.raise_matrix (x : Warp) (g : FlagSet) : (x.raise g).matrix = x.matrix := rfl
@[simp] theorem Warp.raise_drainFlags (x : Warp) (g : FlagSet) : (x.raise g).drainFlags = x.drainFlags := rfl
@[simp] theorem Warp.raise_matrixLog (x : Warp) (g : FlagSet) : (x.raise g).matrixLog = x.matrixLog := rfl
@[simp] theorem Warp.raise_tileq (x : Warp) (g : FlagSet) : (x.raise g).tileq = x.tileq := rfl
@[simp] theorem Warp.raise_abuf (x : Warp) (g : FlagSet) : (x.raise g).abuf = x.abuf := rfl
@[simp] theorem Warp.raise_openBatch (x : Warp) (g : FlagSet) : (x.raise g).openBatch = x.openBatch := rfl
@[simp] theorem Warp.raise_sealedBatches (x : Warp) (g : FlagSet) : (x.raise g).sealedBatches = x.sealedBatches := rfl
@[simp] theorem Warp.raise_lastBatch (x : Warp) (g : FlagSet) : (x.raise g).lastBatch = x.lastBatch := rfl
@[simp] theorem Warp.raise_regEpochs (x : Warp) (g : FlagSet) : (x.raise g).regEpochs = x.regEpochs := rfl
@[simp] theorem Warp.raise_accEpochs (x : Warp) (g : FlagSet) : (x.raise g).accEpochs = x.accEpochs := rfl
@[simp] theorem Warp.raise_regUnits (x : Warp) (g : FlagSet) : (x.raise g).regUnits = x.regUnits := rfl
@[simp] theorem Warp.raise_accUnits (x : Warp) (g : FlagSet) : (x.raise g).accUnits = x.accUnits := rfl
@[simp] theorem Warp.raise_acc (x : Warp) (g : FlagSet) : (x.raise g).acc = x.acc := rfl
@[simp] theorem Warp.raise_flg (x : Warp) (g : FlagSet) : (x.raise g).flg = x.flg := rfl
@[simp] theorem Warp.raise_wslots (x : Warp) (g : FlagSet) : (x.raise g).wslots = x.wslots := rfl
@[simp] theorem Warp.raise_vPoison (x : Warp) (g : FlagSet) : (x.raise g).vPoison = x.vPoison := rfl
@[simp] theorem Warp.raise_accPoison (x : Warp) (g : FlagSet) : (x.raise g).accPoison = x.accPoison := rfl
@[simp] theorem Warp.raise_wPoison (x : Warp) (g : FlagSet) : (x.raise g).wPoison = x.wPoison := rfl
@[simp] theorem Warp.raise_age (x : Warp) (g : FlagSet) : (x.raise g).age = x.age := rfl
@[simp] theorem Warp.raise_yieldLeft (x : Warp) (g : FlagSet) : (x.raise g).yieldLeft = x.yieldLeft := rfl
@[simp] theorem Warp.issued_blk (x : Warp) (i : Instr) : (x.issued i).blk = x.blk := by
  unfold Warp.issued; split <;> rfl
@[simp] theorem Warp.issued_core (x : Warp) (i : Instr) : (x.issued i).core = x.core := by
  unfold Warp.issued; split <;> rfl
@[simp] theorem Warp.issued_slot (x : Warp) (i : Instr) : (x.issued i).slot = x.slot := by
  unfold Warp.issued; split <;> rfl
@[simp] theorem Warp.issued_quarter (x : Warp) (i : Instr) : (x.issued i).quarter = x.quarter := by
  unfold Warp.issued; split <;> rfl
@[simp] theorem Warp.issued_widx (x : Warp) (i : Instr) : (x.issued i).widx = x.widx := by
  unfold Warp.issued; split <;> rfl
@[simp] theorem Warp.issued_role (x : Warp) (i : Instr) : (x.issued i).role = x.role := by
  unfold Warp.issued; split <;> rfl
@[simp] theorem Warp.issued_control (x : Warp) (i : Instr) : (x.issued i).control = x.control := by
  unfold Warp.issued; split <;> rfl
@[simp] theorem Warp.issued_fw (x : Warp) (i : Instr) : (x.issued i).fw = x.fw := by
  unfold Warp.issued; split <;> rfl
@[simp] theorem Warp.issued_pc (x : Warp) (i : Instr) : (x.issued i).pc = x.pc := by
  unfold Warp.issued; split <;> rfl
@[simp] theorem Warp.issued_active (x : Warp) (i : Instr) : (x.issued i).active = x.active := by
  unfold Warp.issued; split <;> rfl
@[simp] theorem Warp.issued_live (x : Warp) (i : Instr) : (x.issued i).live = x.live := by
  unfold Warp.issued; split <;> rfl
@[simp] theorem Warp.issued_dstack (x : Warp) (i : Instr) : (x.issued i).dstack = x.dstack := by
  unfold Warp.issued; split <;> rfl
@[simp] theorem Warp.issued_cstack (x : Warp) (i : Instr) : (x.issued i).cstack = x.cstack := by
  unfold Warp.issued; split <;> rfl
@[simp] theorem Warp.issued_v (x : Warp) (i : Instr) : (x.issued i).v = x.v := by
  unfold Warp.issued; split <;> rfl
@[simp] theorem Warp.issued_s (x : Warp) (i : Instr) : (x.issued i).s = x.s := by
  unfold Warp.issued; split <;> rfl
@[simp] theorem Warp.issued_p (x : Warp) (i : Instr) : (x.issued i).p = x.p := by
  unfold Warp.issued; split <;> rfl
@[simp] theorem Warp.issued_sticky (x : Warp) (i : Instr) : (x.issued i).sticky = x.sticky := by
  unfold Warp.issued; split <;> rfl
@[simp] theorem Warp.issued_trapen (x : Warp) (i : Instr) : (x.issued i).trapen = x.trapen := by
  unfold Warp.issued; split <;> rfl
@[simp] theorem Warp.issued_dctr (x : Warp) (i : Instr) : (x.issued i).dctr = x.dctr := by
  unfold Warp.issued; split <;> rfl
@[simp] theorem Warp.issued_repi (x : Warp) (i : Instr) : (x.issued i).repi = x.repi := by
  unfold Warp.issued; split <;> rfl
@[simp] theorem Warp.issued_uepclo (x : Warp) (i : Instr) : (x.issued i).uepclo = x.uepclo := by
  unfold Warp.issued; split <;> rfl
@[simp] theorem Warp.issued_uepchi (x : Warp) (i : Instr) : (x.issued i).uepchi = x.uepchi := by
  unfold Warp.issued; split <;> rfl
@[simp] theorem Warp.issued_uemask (x : Warp) (i : Instr) : (x.issued i).uemask = x.uemask := by
  unfold Warp.issued; split <;> rfl
@[simp] theorem Warp.issued_inHandler (x : Warp) (i : Instr) : (x.issued i).inHandler = x.inHandler := by
  unfold Warp.issued; split <;> rfl
@[simp] theorem Warp.issued_held (x : Warp) (i : Instr) : (x.issued i).held = x.held := by
  unfold Warp.issued; split <;> rfl
@[simp] theorem Warp.issued_hdDepth (x : Warp) (i : Instr) : (x.issued i).hdDepth = x.hdDepth := by
  unfold Warp.issued; split <;> rfl
@[simp] theorem Warp.issued_hcDepth (x : Warp) (i : Instr) : (x.issued i).hcDepth = x.hcDepth := by
  unfold Warp.issued; split <;> rfl
@[simp] theorem Warp.issued_arming (x : Warp) (i : Instr) : (x.issued i).arming = x.arming := by
  unfold Warp.issued; split <;> rfl
@[simp] theorem Warp.issued_heldArm (x : Warp) (i : Instr) : (x.issued i).heldArm = x.heldArm := by
  unfold Warp.issued; split <;> rfl
@[simp] theorem Warp.issued_blocked (x : Warp) (i : Instr) : (x.issued i).blocked = x.blocked := by
  unfold Warp.issued; split <;> rfl
@[simp] theorem Warp.issued_wait (x : Warp) (i : Instr) : (x.issued i).wait = x.wait := by
  unfold Warp.issued; split <;> rfl
@[simp] theorem Warp.issued_susp (x : Warp) (i : Instr) : (x.issued i).susp = x.susp := by
  unfold Warp.issued; split <;> rfl
@[simp] theorem Warp.issued_haltReq (x : Warp) (i : Instr) : (x.issued i).haltReq = x.haltReq := by
  unfold Warp.issued; split <;> rfl
@[simp] theorem Warp.issued_asyncTraps (x : Warp) (i : Instr) : (x.issued i).asyncTraps = x.asyncTraps := by
  unfold Warp.issued; split <;> rfl
@[simp] theorem Warp.issued_clockHi (x : Warp) (i : Instr) : (x.issued i).clockHi = x.clockHi := by
  unfold Warp.issued; split <;> rfl
@[simp] theorem Warp.issued_timeHi (x : Warp) (i : Instr) : (x.issued i).timeHi = x.timeHi := by
  unfold Warp.issued; split <;> rfl
@[simp] theorem Warp.issued_stores (x : Warp) (i : Instr) : (x.issued i).stores = x.stores := by
  unfold Warp.issued; split <;> rfl
@[simp] theorem Warp.issued_matrix (x : Warp) (i : Instr) : (x.issued i).matrix = x.matrix := by
  unfold Warp.issued; split <;> rfl
@[simp] theorem Warp.issued_drainFlags (x : Warp) (i : Instr) : (x.issued i).drainFlags = x.drainFlags := by
  unfold Warp.issued; split <;> rfl
@[simp] theorem Warp.issued_matrixLog (x : Warp) (i : Instr) : (x.issued i).matrixLog = x.matrixLog := by
  unfold Warp.issued; split <;> rfl
@[simp] theorem Warp.issued_tileq (x : Warp) (i : Instr) : (x.issued i).tileq = x.tileq := by
  unfold Warp.issued; split <;> rfl
@[simp] theorem Warp.issued_abuf (x : Warp) (i : Instr) : (x.issued i).abuf = x.abuf := by
  unfold Warp.issued; split <;> rfl
@[simp] theorem Warp.issued_openBatch (x : Warp) (i : Instr) : (x.issued i).openBatch = x.openBatch := by
  unfold Warp.issued; split <;> rfl
@[simp] theorem Warp.issued_sealedBatches (x : Warp) (i : Instr) : (x.issued i).sealedBatches = x.sealedBatches := by
  unfold Warp.issued; split <;> rfl
@[simp] theorem Warp.issued_lastBatch (x : Warp) (i : Instr) : (x.issued i).lastBatch = x.lastBatch := by
  unfold Warp.issued; split <;> rfl
@[simp] theorem Warp.issued_regEpochs (x : Warp) (i : Instr) : (x.issued i).regEpochs = x.regEpochs := by
  unfold Warp.issued; split <;> rfl
@[simp] theorem Warp.issued_accEpochs (x : Warp) (i : Instr) : (x.issued i).accEpochs = x.accEpochs := by
  unfold Warp.issued; split <;> rfl
@[simp] theorem Warp.issued_regUnits (x : Warp) (i : Instr) : (x.issued i).regUnits = x.regUnits := by
  unfold Warp.issued; split <;> rfl
@[simp] theorem Warp.issued_accUnits (x : Warp) (i : Instr) : (x.issued i).accUnits = x.accUnits := by
  unfold Warp.issued; split <;> rfl
@[simp] theorem Warp.issued_acc (x : Warp) (i : Instr) : (x.issued i).acc = x.acc := by
  unfold Warp.issued; split <;> rfl
@[simp] theorem Warp.issued_flg (x : Warp) (i : Instr) : (x.issued i).flg = x.flg := by
  unfold Warp.issued; split <;> rfl
@[simp] theorem Warp.issued_wslots (x : Warp) (i : Instr) : (x.issued i).wslots = x.wslots := by
  unfold Warp.issued; split <;> rfl
@[simp] theorem Warp.issued_vPoison (x : Warp) (i : Instr) : (x.issued i).vPoison = x.vPoison := by
  unfold Warp.issued; split <;> rfl
@[simp] theorem Warp.issued_accPoison (x : Warp) (i : Instr) : (x.issued i).accPoison = x.accPoison := by
  unfold Warp.issued; split <;> rfl
@[simp] theorem Warp.issued_wPoison (x : Warp) (i : Instr) : (x.issued i).wPoison = x.wPoison := by
  unfold Warp.issued; split <;> rfl
@[simp] theorem Warp.issued_yieldLeft (x : Warp) (i : Instr) : (x.issued i).yieldLeft = x.yieldLeft := by
  unfold Warp.issued; split <;> rfl
@[simp] theorem Warp.issued_age (x : Warp) (i : Instr) : (x.issued i).age = 0 := by
  unfold Warp.issued; split <;> rfl
@[simp] theorem Warp.advance_blk (x : Warp) (n : Nat) (q : Option Nat) : (x.advance n q).blk = x.blk := by
  cases q <;> simp only [Warp.advance]; split <;> rfl
@[simp] theorem Warp.countDither_blk (x : Warp) (i : Instr) : (x.countDither i).blk = x.blk := by
  unfold Warp.countDither; split <;> rfl
@[simp] theorem Warp.advance_core (x : Warp) (n : Nat) (q : Option Nat) : (x.advance n q).core = x.core := by
  cases q <;> simp only [Warp.advance]; split <;> rfl
@[simp] theorem Warp.countDither_core (x : Warp) (i : Instr) : (x.countDither i).core = x.core := by
  unfold Warp.countDither; split <;> rfl
@[simp] theorem Warp.advance_slot (x : Warp) (n : Nat) (q : Option Nat) : (x.advance n q).slot = x.slot := by
  cases q <;> simp only [Warp.advance]; split <;> rfl
@[simp] theorem Warp.countDither_slot (x : Warp) (i : Instr) : (x.countDither i).slot = x.slot := by
  unfold Warp.countDither; split <;> rfl
@[simp] theorem Warp.advance_quarter (x : Warp) (n : Nat) (q : Option Nat) : (x.advance n q).quarter = x.quarter := by
  cases q <;> simp only [Warp.advance]; split <;> rfl
@[simp] theorem Warp.countDither_quarter (x : Warp) (i : Instr) : (x.countDither i).quarter = x.quarter := by
  unfold Warp.countDither; split <;> rfl
@[simp] theorem Warp.advance_widx (x : Warp) (n : Nat) (q : Option Nat) : (x.advance n q).widx = x.widx := by
  cases q <;> simp only [Warp.advance]; split <;> rfl
@[simp] theorem Warp.countDither_widx (x : Warp) (i : Instr) : (x.countDither i).widx = x.widx := by
  unfold Warp.countDither; split <;> rfl
@[simp] theorem Warp.advance_role (x : Warp) (n : Nat) (q : Option Nat) : (x.advance n q).role = x.role := by
  cases q <;> simp only [Warp.advance]; split <;> rfl
@[simp] theorem Warp.countDither_role (x : Warp) (i : Instr) : (x.countDither i).role = x.role := by
  unfold Warp.countDither; split <;> rfl
@[simp] theorem Warp.advance_control (x : Warp) (n : Nat) (q : Option Nat) : (x.advance n q).control = x.control := by
  cases q <;> simp only [Warp.advance]; split <;> rfl
@[simp] theorem Warp.countDither_control (x : Warp) (i : Instr) : (x.countDither i).control = x.control := by
  unfold Warp.countDither; split <;> rfl
@[simp] theorem Warp.advance_fw (x : Warp) (n : Nat) (q : Option Nat) : (x.advance n q).fw = x.fw := by
  cases q <;> simp only [Warp.advance]; split <;> rfl
@[simp] theorem Warp.countDither_fw (x : Warp) (i : Instr) : (x.countDither i).fw = x.fw := by
  unfold Warp.countDither; split <;> rfl
@[simp] theorem Warp.countDither_pc (x : Warp) (i : Instr) : (x.countDither i).pc = x.pc := by
  unfold Warp.countDither; split <;> rfl
@[simp] theorem Warp.advance_active (x : Warp) (n : Nat) (q : Option Nat) : (x.advance n q).active = x.active := by
  cases q <;> simp only [Warp.advance]; split <;> rfl
@[simp] theorem Warp.countDither_active (x : Warp) (i : Instr) : (x.countDither i).active = x.active := by
  unfold Warp.countDither; split <;> rfl
@[simp] theorem Warp.advance_live (x : Warp) (n : Nat) (q : Option Nat) : (x.advance n q).live = x.live := by
  cases q <;> simp only [Warp.advance]; split <;> rfl
@[simp] theorem Warp.countDither_live (x : Warp) (i : Instr) : (x.countDither i).live = x.live := by
  unfold Warp.countDither; split <;> rfl
@[simp] theorem Warp.advance_dstack (x : Warp) (n : Nat) (q : Option Nat) : (x.advance n q).dstack = x.dstack := by
  cases q <;> simp only [Warp.advance]; split <;> rfl
@[simp] theorem Warp.countDither_dstack (x : Warp) (i : Instr) : (x.countDither i).dstack = x.dstack := by
  unfold Warp.countDither; split <;> rfl
@[simp] theorem Warp.advance_cstack (x : Warp) (n : Nat) (q : Option Nat) : (x.advance n q).cstack = x.cstack := by
  cases q <;> simp only [Warp.advance]; split <;> rfl
@[simp] theorem Warp.countDither_cstack (x : Warp) (i : Instr) : (x.countDither i).cstack = x.cstack := by
  unfold Warp.countDither; split <;> rfl
@[simp] theorem Warp.advance_v (x : Warp) (n : Nat) (q : Option Nat) : (x.advance n q).v = x.v := by
  cases q <;> simp only [Warp.advance]; split <;> rfl
@[simp] theorem Warp.countDither_v (x : Warp) (i : Instr) : (x.countDither i).v = x.v := by
  unfold Warp.countDither; split <;> rfl
@[simp] theorem Warp.advance_s (x : Warp) (n : Nat) (q : Option Nat) : (x.advance n q).s = x.s := by
  cases q <;> simp only [Warp.advance]; split <;> rfl
@[simp] theorem Warp.countDither_s (x : Warp) (i : Instr) : (x.countDither i).s = x.s := by
  unfold Warp.countDither; split <;> rfl
@[simp] theorem Warp.advance_p (x : Warp) (n : Nat) (q : Option Nat) : (x.advance n q).p = x.p := by
  cases q <;> simp only [Warp.advance]; split <;> rfl
@[simp] theorem Warp.countDither_p (x : Warp) (i : Instr) : (x.countDither i).p = x.p := by
  unfold Warp.countDither; split <;> rfl
@[simp] theorem Warp.advance_sticky (x : Warp) (n : Nat) (q : Option Nat) : (x.advance n q).sticky = x.sticky := by
  cases q <;> simp only [Warp.advance]; split <;> rfl
@[simp] theorem Warp.countDither_sticky (x : Warp) (i : Instr) : (x.countDither i).sticky = x.sticky := by
  unfold Warp.countDither; split <;> rfl
@[simp] theorem Warp.advance_trapen (x : Warp) (n : Nat) (q : Option Nat) : (x.advance n q).trapen = x.trapen := by
  cases q <;> simp only [Warp.advance]; split <;> rfl
@[simp] theorem Warp.countDither_trapen (x : Warp) (i : Instr) : (x.countDither i).trapen = x.trapen := by
  unfold Warp.countDither; split <;> rfl
@[simp] theorem Warp.advance_dctr (x : Warp) (n : Nat) (q : Option Nat) : (x.advance n q).dctr = x.dctr := by
  cases q <;> simp only [Warp.advance]; split <;> rfl
@[simp] theorem Warp.countDither_repi (x : Warp) (i : Instr) : (x.countDither i).repi = x.repi := by
  unfold Warp.countDither; split <;> rfl
@[simp] theorem Warp.advance_uepclo (x : Warp) (n : Nat) (q : Option Nat) : (x.advance n q).uepclo = x.uepclo := by
  cases q <;> simp only [Warp.advance]; split <;> rfl
@[simp] theorem Warp.countDither_uepclo (x : Warp) (i : Instr) : (x.countDither i).uepclo = x.uepclo := by
  unfold Warp.countDither; split <;> rfl
@[simp] theorem Warp.advance_uepchi (x : Warp) (n : Nat) (q : Option Nat) : (x.advance n q).uepchi = x.uepchi := by
  cases q <;> simp only [Warp.advance]; split <;> rfl
@[simp] theorem Warp.countDither_uepchi (x : Warp) (i : Instr) : (x.countDither i).uepchi = x.uepchi := by
  unfold Warp.countDither; split <;> rfl
@[simp] theorem Warp.advance_uemask (x : Warp) (n : Nat) (q : Option Nat) : (x.advance n q).uemask = x.uemask := by
  cases q <;> simp only [Warp.advance]; split <;> rfl
@[simp] theorem Warp.countDither_uemask (x : Warp) (i : Instr) : (x.countDither i).uemask = x.uemask := by
  unfold Warp.countDither; split <;> rfl
@[simp] theorem Warp.advance_inHandler (x : Warp) (n : Nat) (q : Option Nat) : (x.advance n q).inHandler = x.inHandler := by
  cases q <;> simp only [Warp.advance]; split <;> rfl
@[simp] theorem Warp.countDither_inHandler (x : Warp) (i : Instr) : (x.countDither i).inHandler = x.inHandler := by
  unfold Warp.countDither; split <;> rfl
@[simp] theorem Warp.advance_held (x : Warp) (n : Nat) (q : Option Nat) : (x.advance n q).held = x.held := by
  cases q <;> simp only [Warp.advance]; split <;> rfl
@[simp] theorem Warp.countDither_held (x : Warp) (i : Instr) : (x.countDither i).held = x.held := by
  unfold Warp.countDither; split <;> rfl
@[simp] theorem Warp.advance_hdDepth (x : Warp) (n : Nat) (q : Option Nat) : (x.advance n q).hdDepth = x.hdDepth := by
  cases q <;> simp only [Warp.advance]; split <;> rfl
@[simp] theorem Warp.countDither_hdDepth (x : Warp) (i : Instr) : (x.countDither i).hdDepth = x.hdDepth := by
  unfold Warp.countDither; split <;> rfl
@[simp] theorem Warp.advance_hcDepth (x : Warp) (n : Nat) (q : Option Nat) : (x.advance n q).hcDepth = x.hcDepth := by
  cases q <;> simp only [Warp.advance]; split <;> rfl
@[simp] theorem Warp.countDither_hcDepth (x : Warp) (i : Instr) : (x.countDither i).hcDepth = x.hcDepth := by
  unfold Warp.countDither; split <;> rfl
@[simp] theorem Warp.advance_arming (x : Warp) (n : Nat) (q : Option Nat) : (x.advance n q).arming = x.arming := by
  cases q <;> simp only [Warp.advance]; split <;> rfl
@[simp] theorem Warp.countDither_arming (x : Warp) (i : Instr) : (x.countDither i).arming = x.arming := by
  unfold Warp.countDither; split <;> rfl
@[simp] theorem Warp.advance_heldArm (x : Warp) (n : Nat) (q : Option Nat) : (x.advance n q).heldArm = x.heldArm := by
  cases q <;> simp only [Warp.advance]; split <;> rfl
@[simp] theorem Warp.countDither_heldArm (x : Warp) (i : Instr) : (x.countDither i).heldArm = x.heldArm := by
  unfold Warp.countDither; split <;> rfl
@[simp] theorem Warp.advance_blocked (x : Warp) (n : Nat) (q : Option Nat) : (x.advance n q).blocked = x.blocked := by
  cases q <;> simp only [Warp.advance]; split <;> rfl
@[simp] theorem Warp.countDither_blocked (x : Warp) (i : Instr) : (x.countDither i).blocked = x.blocked := by
  unfold Warp.countDither; split <;> rfl
@[simp] theorem Warp.advance_wait (x : Warp) (n : Nat) (q : Option Nat) : (x.advance n q).wait = x.wait := by
  cases q <;> simp only [Warp.advance]; split <;> rfl
@[simp] theorem Warp.countDither_wait (x : Warp) (i : Instr) : (x.countDither i).wait = x.wait := by
  unfold Warp.countDither; split <;> rfl
@[simp] theorem Warp.advance_susp (x : Warp) (n : Nat) (q : Option Nat) : (x.advance n q).susp = x.susp := by
  cases q <;> simp only [Warp.advance]; split <;> rfl
@[simp] theorem Warp.countDither_susp (x : Warp) (i : Instr) : (x.countDither i).susp = x.susp := by
  unfold Warp.countDither; split <;> rfl
@[simp] theorem Warp.advance_haltReq (x : Warp) (n : Nat) (q : Option Nat) : (x.advance n q).haltReq = x.haltReq := by
  cases q <;> simp only [Warp.advance]; split <;> rfl
@[simp] theorem Warp.countDither_haltReq (x : Warp) (i : Instr) : (x.countDither i).haltReq = x.haltReq := by
  unfold Warp.countDither; split <;> rfl
@[simp] theorem Warp.advance_asyncTraps (x : Warp) (n : Nat) (q : Option Nat) : (x.advance n q).asyncTraps = x.asyncTraps := by
  cases q <;> simp only [Warp.advance]; split <;> rfl
@[simp] theorem Warp.countDither_asyncTraps (x : Warp) (i : Instr) : (x.countDither i).asyncTraps = x.asyncTraps := by
  unfold Warp.countDither; split <;> rfl
@[simp] theorem Warp.advance_clockHi (x : Warp) (n : Nat) (q : Option Nat) : (x.advance n q).clockHi = x.clockHi := by
  cases q <;> simp only [Warp.advance]; split <;> rfl
@[simp] theorem Warp.countDither_clockHi (x : Warp) (i : Instr) : (x.countDither i).clockHi = x.clockHi := by
  unfold Warp.countDither; split <;> rfl
@[simp] theorem Warp.advance_timeHi (x : Warp) (n : Nat) (q : Option Nat) : (x.advance n q).timeHi = x.timeHi := by
  cases q <;> simp only [Warp.advance]; split <;> rfl
@[simp] theorem Warp.countDither_timeHi (x : Warp) (i : Instr) : (x.countDither i).timeHi = x.timeHi := by
  unfold Warp.countDither; split <;> rfl
@[simp] theorem Warp.advance_loads (x : Warp) (n : Nat) (q : Option Nat) : (x.advance n q).loads = x.loads := by
  cases q <;> simp only [Warp.advance]; split <;> rfl
@[simp] theorem Warp.countDither_loads (x : Warp) (i : Instr) : (x.countDither i).loads = x.loads := by
  unfold Warp.countDither; split <;> rfl
@[simp] theorem Warp.advance_stores (x : Warp) (n : Nat) (q : Option Nat) : (x.advance n q).stores = x.stores := by
  cases q <;> simp only [Warp.advance]; split <;> rfl
@[simp] theorem Warp.countDither_stores (x : Warp) (i : Instr) : (x.countDither i).stores = x.stores := by
  unfold Warp.countDither; split <;> rfl
@[simp] theorem Warp.advance_matrix (x : Warp) (n : Nat) (q : Option Nat) : (x.advance n q).matrix = x.matrix := by
  cases q <;> simp only [Warp.advance]; split <;> rfl
@[simp] theorem Warp.countDither_matrix (x : Warp) (i : Instr) : (x.countDither i).matrix = x.matrix := by
  unfold Warp.countDither; split <;> rfl
@[simp] theorem Warp.advance_drainFlags (x : Warp) (n : Nat) (q : Option Nat) : (x.advance n q).drainFlags = x.drainFlags := by
  cases q <;> simp only [Warp.advance]; split <;> rfl
@[simp] theorem Warp.countDither_drainFlags (x : Warp) (i : Instr) : (x.countDither i).drainFlags = x.drainFlags := by
  unfold Warp.countDither; split <;> rfl
@[simp] theorem Warp.advance_matrixLog (x : Warp) (n : Nat) (q : Option Nat) : (x.advance n q).matrixLog = x.matrixLog := by
  cases q <;> simp only [Warp.advance]; split <;> rfl
@[simp] theorem Warp.countDither_matrixLog (x : Warp) (i : Instr) : (x.countDither i).matrixLog = x.matrixLog := by
  unfold Warp.countDither; split <;> rfl
@[simp] theorem Warp.advance_tileq (x : Warp) (n : Nat) (q : Option Nat) : (x.advance n q).tileq = x.tileq := by
  cases q <;> simp only [Warp.advance]; split <;> rfl
@[simp] theorem Warp.countDither_tileq (x : Warp) (i : Instr) : (x.countDither i).tileq = x.tileq := by
  unfold Warp.countDither; split <;> rfl
@[simp] theorem Warp.advance_abuf (x : Warp) (n : Nat) (q : Option Nat) : (x.advance n q).abuf = x.abuf := by
  cases q <;> simp only [Warp.advance]; split <;> rfl
@[simp] theorem Warp.countDither_abuf (x : Warp) (i : Instr) : (x.countDither i).abuf = x.abuf := by
  unfold Warp.countDither; split <;> rfl
@[simp] theorem Warp.advance_openBatch (x : Warp) (n : Nat) (q : Option Nat) : (x.advance n q).openBatch = x.openBatch := by
  cases q <;> simp only [Warp.advance]; split <;> rfl
@[simp] theorem Warp.countDither_openBatch (x : Warp) (i : Instr) : (x.countDither i).openBatch = x.openBatch := by
  unfold Warp.countDither; split <;> rfl
@[simp] theorem Warp.advance_sealedBatches (x : Warp) (n : Nat) (q : Option Nat) : (x.advance n q).sealedBatches = x.sealedBatches := by
  cases q <;> simp only [Warp.advance]; split <;> rfl
@[simp] theorem Warp.countDither_sealedBatches (x : Warp) (i : Instr) : (x.countDither i).sealedBatches = x.sealedBatches := by
  unfold Warp.countDither; split <;> rfl
@[simp] theorem Warp.advance_lastBatch (x : Warp) (n : Nat) (q : Option Nat) : (x.advance n q).lastBatch = x.lastBatch := by
  cases q <;> simp only [Warp.advance]; split <;> rfl
@[simp] theorem Warp.countDither_lastBatch (x : Warp) (i : Instr) : (x.countDither i).lastBatch = x.lastBatch := by
  unfold Warp.countDither; split <;> rfl
@[simp] theorem Warp.advance_regEpochs (x : Warp) (n : Nat) (q : Option Nat) : (x.advance n q).regEpochs = x.regEpochs := by
  cases q <;> simp only [Warp.advance]; split <;> rfl
@[simp] theorem Warp.countDither_regEpochs (x : Warp) (i : Instr) : (x.countDither i).regEpochs = x.regEpochs := by
  unfold Warp.countDither; split <;> rfl
@[simp] theorem Warp.advance_accEpochs (x : Warp) (n : Nat) (q : Option Nat) : (x.advance n q).accEpochs = x.accEpochs := by
  cases q <;> simp only [Warp.advance]; split <;> rfl
@[simp] theorem Warp.countDither_accEpochs (x : Warp) (i : Instr) : (x.countDither i).accEpochs = x.accEpochs := by
  unfold Warp.countDither; split <;> rfl
@[simp] theorem Warp.advance_regUnits (x : Warp) (n : Nat) (q : Option Nat) : (x.advance n q).regUnits = x.regUnits := by
  cases q <;> simp only [Warp.advance]; split <;> rfl
@[simp] theorem Warp.countDither_regUnits (x : Warp) (i : Instr) : (x.countDither i).regUnits = x.regUnits := by
  unfold Warp.countDither; split <;> rfl
@[simp] theorem Warp.advance_accUnits (x : Warp) (n : Nat) (q : Option Nat) : (x.advance n q).accUnits = x.accUnits := by
  cases q <;> simp only [Warp.advance]; split <;> rfl
@[simp] theorem Warp.countDither_accUnits (x : Warp) (i : Instr) : (x.countDither i).accUnits = x.accUnits := by
  unfold Warp.countDither; split <;> rfl
@[simp] theorem Warp.advance_acc (x : Warp) (n : Nat) (q : Option Nat) : (x.advance n q).acc = x.acc := by
  cases q <;> simp only [Warp.advance]; split <;> rfl
@[simp] theorem Warp.countDither_acc (x : Warp) (i : Instr) : (x.countDither i).acc = x.acc := by
  unfold Warp.countDither; split <;> rfl
@[simp] theorem Warp.advance_flg (x : Warp) (n : Nat) (q : Option Nat) : (x.advance n q).flg = x.flg := by
  cases q <;> simp only [Warp.advance]; split <;> rfl
@[simp] theorem Warp.countDither_flg (x : Warp) (i : Instr) : (x.countDither i).flg = x.flg := by
  unfold Warp.countDither; split <;> rfl
@[simp] theorem Warp.advance_wslots (x : Warp) (n : Nat) (q : Option Nat) : (x.advance n q).wslots = x.wslots := by
  cases q <;> simp only [Warp.advance]; split <;> rfl
@[simp] theorem Warp.countDither_wslots (x : Warp) (i : Instr) : (x.countDither i).wslots = x.wslots := by
  unfold Warp.countDither; split <;> rfl
@[simp] theorem Warp.advance_vPoison (x : Warp) (n : Nat) (q : Option Nat) : (x.advance n q).vPoison = x.vPoison := by
  cases q <;> simp only [Warp.advance]; split <;> rfl
@[simp] theorem Warp.countDither_vPoison (x : Warp) (i : Instr) : (x.countDither i).vPoison = x.vPoison := by
  unfold Warp.countDither; split <;> rfl
@[simp] theorem Warp.advance_accPoison (x : Warp) (n : Nat) (q : Option Nat) : (x.advance n q).accPoison = x.accPoison := by
  cases q <;> simp only [Warp.advance]; split <;> rfl
@[simp] theorem Warp.countDither_accPoison (x : Warp) (i : Instr) : (x.countDither i).accPoison = x.accPoison := by
  unfold Warp.countDither; split <;> rfl
@[simp] theorem Warp.advance_wPoison (x : Warp) (n : Nat) (q : Option Nat) : (x.advance n q).wPoison = x.wPoison := by
  cases q <;> simp only [Warp.advance]; split <;> rfl
@[simp] theorem Warp.countDither_wPoison (x : Warp) (i : Instr) : (x.countDither i).wPoison = x.wPoison := by
  unfold Warp.countDither; split <;> rfl
@[simp] theorem Warp.advance_age (x : Warp) (n : Nat) (q : Option Nat) : (x.advance n q).age = x.age := by
  cases q <;> simp only [Warp.advance]; split <;> rfl
@[simp] theorem Warp.countDither_age (x : Warp) (i : Instr) : (x.countDither i).age = x.age := by
  unfold Warp.countDither; split <;> rfl
@[simp] theorem Warp.advance_yieldLeft (x : Warp) (n : Nat) (q : Option Nat) : (x.advance n q).yieldLeft = x.yieldLeft := by
  cases q <;> simp only [Warp.advance]; split <;> rfl
@[simp] theorem Warp.countDither_yieldLeft (x : Warp) (i : Instr) : (x.countDither i).yieldLeft = x.yieldLeft := by
  unfold Warp.countDither; split <;> rfl

/-! Lookups after an update. -/

@[simp] theorem State.warp_setWarp_same (s : State) (k : Nat) (x : Warp) : (s.setWarp k x).warp k = x := by
  simp [State.warp, State.setWarp, AMap.find_put_same]
theorem State.warp_setWarp_other (s : State) {k j : Nat} (x : Warp) (h : j ≠ k) :
    (s.setWarp k x).warp j = s.warp j := by
  simp [State.warp, State.setWarp, AMap.find_put_other _ _ h]
@[simp] theorem State.warp_updWarp_same (s : State) (k : Nat) (g : Warp → Warp) :
    (s.updWarp k g).warp k = g (s.warp k) := by
  simp [State.updWarp]
theorem State.warp_updWarp_other (s : State) {k j : Nat} (g : Warp → Warp) (h : j ≠ k) :
    (s.updWarp k g).warp j = s.warp j := by
  simp [State.updWarp, State.warp_setWarp_other _ _ h]
@[simp] theorem State.block_setWarp (s : State) (k j : Nat) (x : Warp) : (s.setWarp k x).block j = s.block j := rfl
@[simp] theorem State.block_updWarp (s : State) (k j : Nat) (g : Warp → Warp) : (s.updWarp k g).block j = s.block j := rfl
@[simp] theorem State.core_setWarp (s : State) (k j : Nat) (x : Warp) : (s.setWarp k x).core j = s.core j := rfl
@[simp] theorem State.core_updWarp (s : State) (k j : Nat) (g : Warp → Warp) : (s.updWarp k g).core j = s.core j := rfl
@[simp] theorem State.part_setWarp (s : State) (k j : Nat) (x : Warp) : (s.setWarp k x).part j = s.part j := rfl
@[simp] theorem State.part_updWarp (s : State) (k j : Nat) (g : Warp → Warp) : (s.updWarp k g).part j = s.part j := rfl
@[simp] theorem State.block_setBlock_same (s : State) (k : Nat) (x : Block) : (s.setBlock k x).block k = x := by
  simp [State.block, State.setBlock, AMap.find_put_same]
theorem State.block_setBlock_other (s : State) {k j : Nat} (x : Block) (h : j ≠ k) :
    (s.setBlock k x).block j = s.block j := by
  simp [State.block, State.setBlock, AMap.find_put_other _ _ h]
@[simp] theorem State.block_updBlock_same (s : State) (k : Nat) (g : Block → Block) :
    (s.updBlock k g).block k = g (s.block k) := by
  simp [State.updBlock]
theorem State.block_updBlock_other (s : State) {k j : Nat} (g : Block → Block) (h : j ≠ k) :
    (s.updBlock k g).block j = s.block j := by
  simp [State.updBlock, State.block_setBlock_other _ _ h]
@[simp] theorem State.warp_setBlock (s : State) (k j : Nat) (x : Block) : (s.setBlock k x).warp j = s.warp j := rfl
@[simp] theorem State.warp_updBlock (s : State) (k j : Nat) (g : Block → Block) : (s.updBlock k g).warp j = s.warp j := rfl
@[simp] theorem State.core_setBlock (s : State) (k j : Nat) (x : Block) : (s.setBlock k x).core j = s.core j := rfl
@[simp] theorem State.core_updBlock (s : State) (k j : Nat) (g : Block → Block) : (s.updBlock k g).core j = s.core j := rfl
@[simp] theorem State.part_setBlock (s : State) (k j : Nat) (x : Block) : (s.setBlock k x).part j = s.part j := rfl
@[simp] theorem State.part_updBlock (s : State) (k j : Nat) (g : Block → Block) : (s.updBlock k g).part j = s.part j := rfl
@[simp] theorem State.core_setCore_same (s : State) (k : Nat) (x : Core) : (s.setCore k x).core k = x := by
  simp [State.core, State.setCore, AMap.find_put_same]
theorem State.core_setCore_other (s : State) {k j : Nat} (x : Core) (h : j ≠ k) :
    (s.setCore k x).core j = s.core j := by
  simp [State.core, State.setCore, AMap.find_put_other _ _ h]
@[simp] theorem State.core_updCore_same (s : State) (k : Nat) (g : Core → Core) :
    (s.updCore k g).core k = g (s.core k) := by
  simp [State.updCore]
theorem State.core_updCore_other (s : State) {k j : Nat} (g : Core → Core) (h : j ≠ k) :
    (s.updCore k g).core j = s.core j := by
  simp [State.updCore, State.core_setCore_other _ _ h]
@[simp] theorem State.warp_setCore (s : State) (k j : Nat) (x : Core) : (s.setCore k x).warp j = s.warp j := rfl
@[simp] theorem State.warp_updCore (s : State) (k j : Nat) (g : Core → Core) : (s.updCore k g).warp j = s.warp j := rfl
@[simp] theorem State.block_setCore (s : State) (k j : Nat) (x : Core) : (s.setCore k x).block j = s.block j := rfl
@[simp] theorem State.block_updCore (s : State) (k j : Nat) (g : Core → Core) : (s.updCore k g).block j = s.block j := rfl
@[simp] theorem State.part_setCore (s : State) (k j : Nat) (x : Core) : (s.setCore k x).part j = s.part j := rfl
@[simp] theorem State.part_updCore (s : State) (k j : Nat) (g : Core → Core) : (s.updCore k g).part j = s.part j := rfl
@[simp] theorem State.part_setPart_same (s : State) (k : Nat) (x : Part) : (s.setPart k x).part k = x := by
  simp [State.part, State.setPart, AMap.find_put_same]
theorem State.part_setPart_other (s : State) {k j : Nat} (x : Part) (h : j ≠ k) :
    (s.setPart k x).part j = s.part j := by
  simp [State.part, State.setPart, AMap.find_put_other _ _ h]
@[simp] theorem State.part_updPart_same (s : State) (k : Nat) (g : Part → Part) :
    (s.updPart k g).part k = g (s.part k) := by
  simp [State.updPart]
theorem State.part_updPart_other (s : State) {k j : Nat} (g : Part → Part) (h : j ≠ k) :
    (s.updPart k g).part j = s.part j := by
  simp [State.updPart, State.part_setPart_other _ _ h]
@[simp] theorem State.warp_setPart (s : State) (k j : Nat) (x : Part) : (s.setPart k x).warp j = s.warp j := rfl
@[simp] theorem State.warp_updPart (s : State) (k j : Nat) (g : Part → Part) : (s.updPart k g).warp j = s.warp j := rfl
@[simp] theorem State.block_setPart (s : State) (k j : Nat) (x : Part) : (s.setPart k x).block j = s.block j := rfl
@[simp] theorem State.block_updPart (s : State) (k j : Nat) (g : Part → Part) : (s.updPart k g).block j = s.block j := rfl
@[simp] theorem State.core_setPart (s : State) (k j : Nat) (x : Part) : (s.setPart k x).core j = s.core j := rfl
@[simp] theorem State.core_updPart (s : State) (k j : Nat) (g : Part → Part) : (s.updPart k g).core j = s.core j := rfl
@[simp] theorem State.warp_bump (s : State) (j : Nat) : s.bump.warp j = s.warp j := rfl
@[simp] theorem State.block_bump (s : State) (j : Nat) : s.bump.block j = s.block j := rfl
@[simp] theorem State.core_bump (s : State) (j : Nat) : s.bump.core j = s.core j := rfl
@[simp] theorem State.part_bump (s : State) (j : Nat) : s.bump.part j = s.part j := rfl

end Sys2Proof.Machine
end

