-- ==== Sys2Proof/Laws/Issue.lean ====
section
/-! SUPPORT. Everything that an issue can do, said once: how each answer of an effect is brought into the state, and what
the issue of an instruction is for a warp that performs it alone or comes to a rendezvous. -/

namespace Sys2Proof.Machine

@[simp] theorem settle_ok (s t : State) (a : Actor) (i : Instr) :
    settle s a i (.ok t) = some ((t.updInst a (fun _ => none)).advanceAll a i) := rfl
@[simp] theorem settle_jump (s t : State) (a : Actor) (i : Instr) :
    settle s a i (.jump t) = some ((t.updInst a (fun _ => none)).unwaitAll a) := rfl
@[simp] theorem settle_wait (s t : State) (a : Actor) (i : Instr) (k : WaitKind) (q : List DWord) :
    settle s a i (.wait t k q) =
      some ((t.updInst a (fun e => some { e with waiting := true })).waitAll a k i q) := rfl
@[simp] theorem settle_hold (s : State) (a : Actor) (i : Instr) : settle s a i .hold = none := rfl
@[simp] theorem settle_gone (s t : State) (a : Actor) (i : Instr) : settle s a i (.gone t) = some t := rfl
@[simp] theorem updInst_none (s : State) (a : Actor) (f : Inst → Option Inst) (h : a.inst = none) :
    s.updInst a f = s := by simp [State.updInst, h]

/-- A fault or trap that can be recorded is taken; one that cannot holds the instruction (21 R353). -/
theorem settle_fault_narrow (s : State) (a : Actor) (i : Instr) (f : FaultInfo)
    (room : s.canRecord (halfOfCore (s.warp a.lead).core) (s.partOf a.lead) = true)
    (hf : a.scope ≠ .flock) (hb : a.scope ≠ .block) :
    settle s a i (.fault f) = some ((s.unwaitAll a).takeException a (s.warp a.lead).pc f false) := by
  have h1 : (a.scope == Scope.flock) = false := by simpa using hf
  have h2 : (a.scope == Scope.block) = false := by simpa using hb
  simp [settle, room, h1, h2]

theorem settle_trap (s t : State) (a : Actor) (i : Instr) (f : FaultInfo)
    (room : s.canRecord (halfOfCore (s.warp a.lead).core) (s.partOf a.lead) = true) :
    settle s a i (.trap t f) =
      some (((t.updInst a (fun _ => none)).advanceAll a i).takeException a (s.warp a.lead).pc f false) := by
  simp [settle, room]

/-- Without poison in a vector register an effect is its own. -/
theorem guarded_clean (i : Instr) (op : Actor → State → Res) (a : Actor) (s : State)
    (h : ∀ m ∈ a.members, (s.warp m.w).vPoison = []) : guarded i op a s = op a s := by
  have : s.readsPoison a i = false := by
    simp only [State.readsPoison, State.liveMembers, List.any_eq_false, List.mem_filter]
    intro m hm
    simp [h m hm.1]
  simp [guarded, this]

/-- A ready warp exists, has not exited, and neither waits nor is suspended (06 R127). -/
theorem canIssue_of_ready {s : State} {w : Nat} (h : s.ready w = true) :
    (s.warps.find w).isSome = true ∧ (s.warp w).exited = false ∧ (s.warp w).wait = none ∧ (s.warp w).susp = none := by
  simp only [State.ready, State.canIssue, Bool.and_eq_true, Bool.not_eq_true', Option.isNone_iff_eq_none] at h
  tauto

/-- The warp after the issue. -/
@[simp] theorem warp_started (s : State) (w : Nat) (i : Instr) : (started s w i).warp w = (s.warp w).issued i := by
  simp [started, State.chargeIssue]

/-- The performer is the same after the issue. -/
theorem selfActor_started (s : State) (w : Nat) (i : Instr) : (started s w i).selfActor w i = s.selfActor w i := by
  simp [State.selfActor, Warp.selected, Warp.readP]

/-- The issue of an instruction that a warp performs alone is its effect, settled. -/
theorem issueWith_solo {gate : Nat → State → Option Res} {i : Instr} {op : Actor → State → Res} {s : State} {w : Nat}
    (h : Solo s w i) :
    issueWith gate i op s =
      issued (settle (started s w i) (s.selfActor w i) i (op (s.selfActor w i) (started s w i))) := by
  obtain ⟨⟨hf, hr, hp⟩, hv, hs⟩ := h
  have hsome : (s.warps.find w).isNone = false := by
    simpa [Option.isSome_iff_ne_none] using (canIssue_of_ready hr).1
  have hg : guarded i op (s.selfActor w i) (started s w i) = op (s.selfActor w i) (started s w i) := by
    apply guarded_clean
    intro m hm
    simp only [State.selfActor, List.mem_singleton] at hm
    subst hm
    simp [hv]
  unfold issueWith
  simp only [hf, hsome, hr, hp, started] at hg ⊢
  have sc : (s.selfActor w i).scope = scopeOfInstr i := rfl
  rcases hs with hs | ⟨hs, hsel⟩
  · simp [sc, hs, hg]
  · have : ¬ ∀ m ∈ (s.selfActor w i).members, m.sel = 0#32 := fun e => hsel (e _ (List.mem_singleton.2 rfl))
    simp [sc, hs, this, hg]

/-- The same for an instruction that meets nothing before its arrival. -/
theorem issue_solo {i : Instr} {op : Actor → State → Res} {s : State} {w : Nat} (h : Solo s w i) :
    issue i op s = issued (settle (started s w i) (s.selfActor w i) i (op (s.selfActor w i) (started s w i))) :=
  issueWith_solo h

/-- The issue of an instruction that goes on past itself. -/
theorem issue_past {i : Instr} {op : Actor → State → Res} {s t : State} {w : Nat} (h : Solo s w i)
    (ho : op (s.selfActor w i) (started s w i) = .ok t) (hl : (t.warp w).exited = false) :
    issue i op s = .next (past s w i t) := by
  rw [issue_solo h, ho, settle_ok, updInst_none _ _ _ rfl]
  simp [issued, State.advanceAll, State.liveMembers, State.selfActor, hl, past]

/-- The issue of an instruction that sets its own PC. -/
theorem issue_jump {i : Instr} {op : Actor → State → Res} {s t : State} {w : Nat} (h : Solo s w i)
    (ho : op (s.selfActor w i) (started s w i) = .jump t) :
    issue i op s = .next (t.unwaitAll (s.selfActor w i)) := by
  rw [issue_solo h, ho, settle_jump, updInst_none _ _ _ rfl]
  rfl

/-- An arrival opens or joins the rendezvous, and the warp waits (06 R129). -/
theorem issue_arrives {i : Instr} {op : Actor → State → Res} {s : State} {w : Nat} (h : Arrives s w i) :
    issue i op s = .next (arrived s w i) := by
  obtain ⟨⟨hf, hr, hp⟩, hs, hm⟩ := h
  have hsome : (s.warps.find w).isNone = false := by
    simpa [Option.isSome_iff_ne_none] using (canIssue_of_ready hr).1
  have wide : ((scopeOfInstr i == Scope.flock) || (scopeOfInstr i == Scope.block)) = true := by
    rcases hs with e | e <;> simp [e]
  have key : (started s w i).join (scopeOfInstr i) w i = some (arrived s w i) := by
    simp only [State.join, hm]; rfl
  unfold issue issueWith
  simp only [hf, hsome, hr, hp]
  simp only [Bool.false_eq_true, if_false, Bool.not_true]
  change (if ((scopeOfInstr i == Scope.flock) || (scopeOfInstr i == Scope.block)) = true then
    issued ((started s w i).join (scopeOfInstr i) w i) else _) = _
  rw [if_pos wide, key]; rfl

/-- The operation of a complete rendezvous, settled (06 R130). -/
theorem performInst_eq (s : State) (e : Inst) (v : Nat) (op : Actor → State → Res) :
    s.performInst e v op = settle (s.chargeInstance (s.instActor e v) e.instr) (s.instActor e v) e.instr
      (op (s.instActor e v) (s.chargeInstance (s.instActor e v) e.instr)) := rfl

/-- The issue answers a next state or is not ready; it never refuses. -/
theorem issueWith_outcome (gate : Nat → State → Option Res) (i : Instr) (op : Actor → State → Res) (s : State) :
    (∃ t, issueWith gate i op s = .next t) ∨ (∃ f, issueWith gate i op s = .fault f) := by
  have h : ∀ r : Option State, (∃ t, issued r = .next t) ∨ (∃ f, issued r = .fault f) := by
    intro r; cases r <;> simp [issued]
  unfold issueWith
  split
  · simp
  · split
    · simp
    · split
      · simp
      · dsimp only
        split
        · exact h _
        · split
          · split <;> exact h _
          · split <;> exact h _

end Sys2Proof.Machine
end

