-- ==== Sys2Proof/Laws/Registers.lean ====
section
/-! SUPPORT. What register writes do: one register in one lane, a lane's writes, and the writes of an instruction
performed lane by lane, with its frame. -/

namespace Sys2Proof.Machine

/-- `y` differs from `x` in register contents and their bookkeeping alone. -/
def Warp.regsOf (x y : Warp) : Prop :=
  y = { x with v := y.v, s := y.s, loads := y.loads, vPoison := y.vPoison }

theorem markCells_markCells (loads : List PendLoad) (p q : Bool → Nat → Nat → Bool) :
    markCells (markCells loads p) q = markCells loads (fun u r l => p u r l || q u r l) := by
  simp only [markCells, List.map_map, Function.comp_def]
  refine List.map_congr_left fun e _ => ?_
  congr 1
  refine List.map_congr_left fun c _ => ?_
  by_cases h1 : p c.uniform c.reg c.lane <;> by_cases h2 : q c.uniform c.reg c.lane <;> simp [h1, h2]

theorem markCells_congr {loads : List PendLoad} {p q : Bool → Nat → Nat → Bool} (h : ∀ u r l, p u r l = q u r l) :
    markCells loads p = markCells loads q := by rw [show p = q from funext fun u => funext fun r => funext fun l => h u r l]

theorem markCells_none (loads : List PendLoad) : markCells loads (fun _ _ _ => false) = loads := by
  simp [markCells]

/-- A lane's writes mark its cells of the registers written. -/
theorem Warp.loads_writeLane (x : Warp) (u : Bool) (l : Nat) (ws : List (Nat × Word)) (h : u = true → l = 0) :
    (x.writeLane u l ws).loads = markCells x.loads (fun u' r l' => u' = u && l' = l && ws.any (fun e => e.1 = r)) := by
  induction ws generalizing x with
  | nil => simp [Warp.writeLane, markCells_none]
  | cons e t ih =>
    have step : (x.writeLane u l (e :: t)) = (if u then x.writeS e.1 e.2 else x.writeV e.1 l e.2).writeLane u l t := rfl
    rw [step, ih]
    have first : (if u then x.writeS e.1 e.2 else x.writeV e.1 l e.2).loads =
        markCells x.loads (fun u' r l' => u' = u && r = e.1 && l' = l) := by
      cases u
      · rfl
      · rw [h rfl]; rfl
    rw [first, markCells_markCells]
    refine markCells_congr fun u' r l' => ?_
    simp only [List.any_cons, Bool.and_or_distrib_left, eq_comm (a := e.1)]
    by_cases a : u' = u <;> by_cases b : l' = l <;> by_cases c : r = e.1 <;> simp [a, b, c]

/-- The writes of several lanes mark the cells of each lane's registers. -/
theorem Warp.loads_lanes (ls : List Nat) (u : Bool) (f : Nat → List (Nat × Word)) (x : Warp)
    (h : u = true → ∀ l ∈ ls, l = 0) :
    (ls.foldl (fun y l => y.writeLane u l (f l)) x).loads =
      markCells x.loads (fun u' r l' => u' = u && ls.contains l' && (f l').any (fun e => e.1 = r)) := by
  induction ls generalizing x with
  | nil => simp [markCells_none]
  | cons k t ih =>
    rw [List.foldl_cons, ih _ (fun hu l m => h hu l (by simp [m])), x.loads_writeLane u k _ (fun hu => h hu k (by simp)),
      markCells_markCells]
    refine markCells_congr fun u' r l' => ?_
    by_cases a : u' = u <;> by_cases b : l' = k
    · subst b; simp [a]
    · simp [a, b]
    · simp [a]
    · simp [a]

/-- Without poison in a vector register, writes leave none. -/
theorem Warp.vPoison_lanes (ls : List Nat) (u : Bool) (f : Nat → List (Nat × Word)) (x : Warp) (h : x.vPoison = []) :
    (ls.foldl (fun y l => y.writeLane u l (f l)) x).vPoison = [] := by
  have one : ∀ (ws : List (Nat × Word)) (y : Warp) (l : Nat), y.vPoison = [] → (y.writeLane u l ws).vPoison = [] := by
    intro ws
    induction ws with
    | nil => intro y l hy; exact hy
    | cons e t ih =>
      intro y l hy
      have step : (y.writeLane u l (e :: t)) = (if u then y.writeS e.1 e.2 else y.writeV e.1 l e.2).writeLane u l t := rfl
      rw [step]
      apply ih
      cases u <;> simp [Warp.writeV, Warp.writeS, hy]
  induction ls generalizing x with
  | nil => exact h
  | cons k t ih => rw [List.foldl_cons]; exact ih _ (one _ _ _ h)

theorem Warp.regsOf_refl (x : Warp) : x.regsOf x := rfl

theorem Warp.regsOf_trans {x y z : Warp} (h : x.regsOf y) (g : y.regsOf z) : x.regsOf z := by
  unfold Warp.regsOf at *
  refine g.trans ?_
  rw [h]

theorem Warp.regsOf_writeLane (x : Warp) (u : Bool) (l : Nat) (ws : List (Nat × Word)) : x.regsOf (x.writeLane u l ws) := by
  induction ws generalizing x with
  | nil => exact x.regsOf_refl
  | cons e t ih =>
    simp only [Warp.writeLane, List.foldl_cons]
    refine Warp.regsOf_trans ?_ (ih _)
    cases u <;> rfl

theorem vkey_inj {r r' l l' : Nat} (h : l < 32) (h' : l' < 32) : vkey r l = vkey r' l' ↔ r = r' ∧ l = l' := by
  unfold vkey; omega

theorem Warp.rawV_writeV (x : Warp) {r l : Nat} (b : Word) {r' l' : Nat} (h : l < 32) (h' : l' < 32) :
    (x.writeV r l b).rawV r' l' = if r = r' ∧ l = l' then b else x.rawV r' l' := by
  by_cases e : vkey r l = vkey r' l'
  · rw [if_pos ((vkey_inj h h').1 e)]
    simp [Warp.rawV, Warp.writeV, e, AMap.find_put_same]
  · rw [if_neg (fun c => e ((vkey_inj h h').2 c))]
    simp [Warp.rawV, Warp.writeV, AMap.find_put_other _ _ (Ne.symm e)]

@[simp] theorem Warp.rawV_writeS (x : Warp) (r : Nat) (b : Word) (r' l' : Nat) :
    (x.writeS r b).rawV r' l' = x.rawV r' l' := rfl

theorem Warp.rawS_writeS (x : Warp) (r : Nat) (b : Word) (r' : Nat) :
    (x.writeS r b).rawS r' = if r = r' then b else x.rawS r' := by
  by_cases e : r = r'
  · subst e; simp [Warp.rawS, Warp.writeS, AMap.find_put_same]
  · simp [Warp.rawS, Warp.writeS, AMap.find_put_other _ _ (Ne.symm e), e]

/-- A lane's vector writes. -/
theorem Warp.rawV_writeLane (x : Warp) {l : Nat} (ws : List (Nat × Word)) {r l' : Nat} (h : l < 32) (h' : l' < 32) :
    (x.writeLane false l ws).rawV r l' = if l = l' then written ws r (x.rawV r l') else x.rawV r l' := by
  induction ws generalizing x with
  | nil => simp [Warp.writeLane, written]
  | cons e t ih =>
    have := ih (x.writeV e.1 l e.2)
    simp only [Warp.writeLane, List.foldl_cons, written, if_false, Bool.false_eq_true] at this ⊢
    rw [this]
    by_cases hl : l = l'
    · subst hl
      simp only [if_true, x.rawV_writeV e.2 h h, and_true]
    · simp [hl, x.rawV_writeV e.2 h h']

/-- Uniform writes. -/
theorem Warp.rawS_writeLane (x : Warp) (l : Nat) (ws : List (Nat × Word)) (r : Nat) :
    (x.writeLane true l ws).rawS r = written ws r (x.rawS r) := by
  induction ws generalizing x with
  | nil => rfl
  | cons e t ih =>
    have := ih (x.writeS e.1 e.2)
    simp only [Warp.writeLane, List.foldl_cons, written, if_true] at this ⊢
    rw [this, x.rawS_writeS]

theorem Warp.s_writeLane (x : Warp) (l : Nat) (ws : List (Nat × Word)) : (x.writeLane false l ws).s = x.s := by
  induction ws generalizing x with
  | nil => rfl
  | cons e t ih => exact (ih (x.writeV e.1 l e.2)).trans rfl

theorem Warp.v_writeLane (x : Warp) (l : Nat) (ws : List (Nat × Word)) : (x.writeLane true l ws).v = x.v := by
  induction ws generalizing x with
  | nil => rfl
  | cons e t ih => exact (ih (x.writeS e.1 e.2)).trans rfl

/-- The writes of several lanes, each lane once. -/
theorem Warp.rawV_lanes (ls : List Nat) (f : Nat → List (Nat × Word)) (x : Warp) {r l' : Nat}
    (h : ∀ l ∈ ls, l < 32) (nd : ls.Nodup) (h' : l' < 32) :
    (ls.foldl (fun y l => y.writeLane false l (f l)) x).rawV r l' =
      if l' ∈ ls then written (f l') r (x.rawV r l') else x.rawV r l' := by
  induction ls generalizing x with
  | nil => simp
  | cons k t ih =>
    have hk := h k (by simp)
    rw [List.nodup_cons] at nd
    rw [List.foldl_cons, ih _ (fun l m => h l (by simp [m])) nd.2, x.rawV_writeLane _ hk h']
    by_cases e : k = l'
    · subst e; simp [nd.1]
    · simp [e, Ne.symm e]

theorem Warp.s_lanes (ls : List Nat) (f : Nat → List (Nat × Word)) (x : Warp) :
    (ls.foldl (fun y l => y.writeLane false l (f l)) x).s = x.s := by
  induction ls generalizing x with
  | nil => rfl
  | cons k t ih => rw [List.foldl_cons, ih, x.s_writeLane]

theorem Warp.regsOf_lanes (ls : List Nat) (u : Bool) (f : Nat → List (Nat × Word)) (x : Warp) :
    x.regsOf (ls.foldl (fun y l => y.writeLane u l (f l)) x) := by
  induction ls generalizing x with
  | nil => exact x.regsOf_refl
  | cons k t ih =>
    rw [List.foldl_cons]
    exact Warp.regsOf_trans (x.regsOf_writeLane u k (f k)) (ih _)

@[simp] theorem mem_lanesOf (m : Mask) (l : Nat) : l ∈ lanesOf m ↔ l < 32 ∧ m.getLsbD l = true := by
  simp [lanesOf]

theorem nodup_lanesOf (m : Mask) : (lanesOf m).Nodup := List.Nodup.filter _ List.nodup_range

/-- What each lane of a `lanewise` instruction gives. -/
def lanewiseOuts (a : Actor) (s : State) (f : Warp → Nat → LaneOut) : List (Nat × LaneOut) :=
  (if a.scope == .warp then [0] else lanesOf (a.members.headD ⟨0, 0, 0⟩).sel).map (fun l => (l, f (s.warp a.lead) l))

/-- The flags that a `lanewise` instruction raises. -/
def outFlags (outs : List (Nat × LaneOut)) : FlagSet := outs.foldl (fun g o => g ||| o.2.flags) 0

theorem advanceAll_single (t : State) (a : Actor) (i : Instr) (w : Nat) (m : Mask) (n : Mask)
    (ha : a.members = [⟨w, m, n⟩]) (he : (t.warp w).exited = false) :
    t.advanceAll a i = t.updWarp w (fun x => (x.unwait.countDither i).advance a.len a.rep) := by
  simp [State.advanceAll, State.liveMembers, ha, he]

theorem AMap.put_put {β : Type} (m : AMap β) (k : Nat) (b c : β) : (m.put k b).put k c = m.put k c := by
  induction m with
  | nil => simp [AMap.put]
  | cons e t ih =>
    obtain ⟨j, d⟩ := e
    simp only [AMap.put]
    split
    · simp [AMap.put]
    · split
      · simp [AMap.put]
      · rename_i h1 h2
        simp [AMap.put, h1, h2, ih]

/-- The issue of an effect that only replaces the warp, settled. -/
theorem issue_setWarp {i : Instr} {op : Actor → State → Res} {s : State} {w : Nat} {y : Warp} (h : Solo s w i)
    (ho : op (s.selfActor w i) (started s w i) = .ok ((started s w i).setWarp w y)) (hl : y.live = (s.warp w).live) :
    issue i op s = .next ((started s w i).setWarp w
      ((y.unwait.countDither i).advance (instrLength i) (s.selfActor w i).rep)) := by
  have he : (((started s w i).setWarp w y).warp w).exited = false := by
    have := (canIssue_of_ready h.1.2.1).2.1
    simp only [State.warp_setWarp_same]
    unfold Warp.exited at this ⊢
    rw [hl]; exact this
  rw [issue_solo h, ho, settle_ok, updInst_none _ _ _ rfl, advanceAll_single _ _ _ w _ _ rfl he]
  simp only [issued, State.updWarp, State.warp_setWarp_same]
  rw [show (s.selfActor w i).len = instrLength i from rfl]
  simp only [State.setWarp, AMap.put_put]

theorem foldl_map_lanes (ls : List Nat) (u : Bool) (g : Nat → LaneOut) (x : Warp) :
    (ls.map (fun l => (l, g l))).foldl (fun y o => y.writeLane u o.1 o.2.writes) x =
      ls.foldl (fun y l => y.writeLane u l (g l).writes) x := by
  rw [List.foldl_map]

/-- The writes of an instruction performed lane by lane are as its lanes give them, in any warp that holds the registers
those writes leave. -/
theorem written_of_lanes {x y z : Warp} {i : Instr} {f : Nat → List (Nat × Word)}
    (hy : y = (if scopeOfInstr i == .warp then [0] else lanesOf (x.selected i)).foldl
      (fun y l => y.writeLane (scopeOfInstr i == .warp) l (f l)) (x.issued i))
    (hv : z.v = y.v) (hs : z.s = y.s) (he : z.regEpochs = y.regEpochs) : Written x z i f := by
  have rv : ∀ r l, z.rawV r l = y.rawV r l := fun r l => by simp only [Warp.rawV, hv, he]
  have rs : ∀ r, z.rawS r = y.rawS r := fun r => by simp only [Warp.rawS, hs]
  unfold Written
  by_cases h : scopeOfInstr i = .warp
  · have hu : (scopeOfInstr i == .warp) = true := by simp [h]
    rw [hu] at hy
    simp only [if_true, List.foldl_cons, List.foldl_nil] at hy
    rw [if_pos h]
    exact ⟨fun r => by rw [rs, hy, Warp.rawS_writeLane]; simp [Warp.rawS],
      by rw [hv, hy, Warp.v_writeLane]; simp⟩
  · have hu : (scopeOfInstr i == .warp) = false := by simp [h]
    rw [hu] at hy
    rw [if_neg h]
    have ri : ∀ r l, (x.issued i).rawV r l = x.rawV r l := fun r l => by simp [Warp.rawV]
    refine ⟨fun r l hl => ?_, by rw [hs, hy, Warp.s_lanes]; simp⟩
    have := (x.issued i).rawV_lanes (lanesOf (x.selected i)) f (r := r) (fun k hk => ((mem_lanesOf _ _).1 hk).1)
      (nodup_lanesOf _) hl
    simp only [mem_lanesOf, hl, true_and, ri] at this
    rw [rv, hy]
    exact this

/-- An issue changes a warp in its age and its loads alone. -/
theorem Warp.issued_eq (x : Warp) (i : Instr) : x.issued i = { x with loads := (x.issued i).loads, age := 0 } := by
  unfold Warp.issued; split <;> rfl

/-- A warp that differs from `x` in registers and loads alone goes on past its instruction, with the flags it raises. -/
theorem warpGoesOn_of {x y : Warp} {g : FlagSet} {i : Instr} {len : Nat} {rep : Option Nat} {loads : List PendLoad}
    (h : y = { x with v := y.v, s := y.s, loads := loads, age := 0 }) :
    WarpGoesOn x (((y.raise g).unwait.countDither i).advance len rep) i len rep loads := by
  have hp : y.p = x.p := (congrArg Warp.p h).trans rfl
  have hr : (y.raise g).unwait = { x with
      v := y.v, s := y.s, p := y.p, loads := loads, sticky := (y.raise g).sticky, age := 0,
      wait := none, blocked := Blocked.none } := by
    rw [hp]
    exact congrArg (fun q : Warp => { q with
      sticky := (y.raise g).sticky, wait := none, blocked := Blocked.none }) h
  unfold WarpGoesOn
  simp only [Warp.advance_v, Warp.advance_s, Warp.advance_p, Warp.advance_sticky, Warp.countDither_v,
    Warp.countDither_s, Warp.countDither_p, Warp.countDither_sticky, Warp.unwait_v, Warp.unwait_s, Warp.unwait_p,
    Warp.unwait_sticky]
  exact congrArg (fun q : Warp => (q.countDither i).advance len rep) hr

/-- An instruction performed lane by lane that meets no trap: it completes, its writes are as its lanes give them, its
flags are merged, and nothing else changes. -/
theorem issue_lanewise {i : Instr} {s : State} {w : Nat} {op : Actor → State → Res} {group : Nat} {mark : Cause}
    {detail : Nat} {f : Warp → Nat → LaneOut} (h : Solo s w i)
    (ho : op (s.selfActor w i) (started s w i) =
      lanewise (s.selfActor w i) (started s w i) group mark detail f)
    (ht : ∀ whole, trapOf (s.warp w).trapen group
      ((lanewiseOuts (s.selfActor w i) (started s w i) f).map (fun o => (o.1, o.2.flags, o.2.mark))) mark detail
      whole = none) :
    ∃ t, issue i op s = .next t ∧ RegistersOnly s t w i (fun l => (f ((s.warp w).issued i) l).writes) ∧
      Written (s.warp w) (t.warp w) i (fun l => (f ((s.warp w).issued i) l).writes) ∧
      (t.warp w).sticky = (s.warp w).sticky |||
        (outFlags (lanewiseOuts (s.selfActor w i) (started s w i) f)).zeroExtend 32 := by
  let x := (s.warp w).issued i
  let u := scopeOfInstr i == .warp
  let ls := if u then [0] else lanesOf ((s.warp w).selected i)
  let y := ls.foldl (fun y l => y.writeLane u l (f x l).writes) x
  have hx : (started s w i).warp (s.selfActor w i).lead = x := warp_started s w i
  have e : lanewise (s.selfActor w i) (started s w i) group mark detail f =
      .ok ((started s w i).setWarp w
        (y.raise (outFlags (lanewiseOuts (s.selfActor w i) (started s w i) f)))) := by
    have ht' := fun q => ht q
    simp only [lanewiseOuts, hx] at ht' ⊢
    unfold lanewise
    simp only [hx]
    change (match trapOf x.trapen group _ mark detail _ with | some t => _ | none => _) = _
    have : x.trapen = (s.warp w).trapen := Warp.issued_trapen _ _
    rw [this]
    simp only [List.map_map] at ht' ⊢
    erw [ht']
    simp only [outFlags, List.foldl_map, y, ls, u, x]
    rfl
  have ry : x.regsOf y := Warp.regsOf_lanes ls u _ x
  have hz : u = true → ∀ l ∈ ls, l = 0 := fun hu => by simp [ls, hu]
  have hu : u = decide (scopeOfInstr i = .warp) := by cases h : scopeOfInstr i <;> simp [u, h]
  have hls : ls = lanesDone s w i := by
    unfold lanesDone; by_cases hs : scopeOfInstr i = .warp <;> simp [ls, u, hs]
  have yl : y.loads = loadsMarked s w i (fun l => (f x l).writes) := by
    refine (Warp.loads_lanes ls u _ x hz).trans ?_
    rw [hls, hu]; rfl
  have yv : y.vPoison = (s.warp w).vPoison := by
    rw [h.2.1]
    exact Warp.vPoison_lanes ls u _ x ((Warp.issued_vPoison _ _).trans h.2.1)
  have hy : y = { s.warp w with v := y.v, s := y.s, loads := loadsMarked s w i (fun l => (f x l).writes), age := 0 } := by
    have hy : y = { x with v := y.v, s := y.s, loads := y.loads, vPoison := y.vPoison } := ry
    rw [yv, yl] at hy
    exact hy.trans (congrArg (fun q : Warp => { q with
      v := y.v, s := y.s, loads := loadsMarked s w i (fun l => (f x l).writes), vPoison := (s.warp w).vPoison })
      ((s.warp w).issued_eq i))
  have hlive : (y.raise (outFlags (lanewiseOuts (s.selfActor w i) (started s w i) f))).live = (s.warp w).live := by
    rw [Warp.raise_live, hy]
  refine ⟨_, issue_setWarp h (ho.trans e) hlive, ?_, ?_, ?_⟩
  · refine ⟨⟨rfl, fun v hv => ?_⟩, ?_⟩
    · simp only [State.setWarp, started, State.updWarp, AMap.find_put_other _ _ hv]
      rfl
    · rw [State.warp_setWarp_same]
      exact warpGoesOn_of hy
  · rw [State.warp_setWarp_same]
    exact written_of_lanes (x := s.warp w) (y := y) rfl (by simp) (by simp) (by simp)
  · rw [State.warp_setWarp_same]
    simp only [Warp.advance_sticky, Warp.countDither_sticky, Warp.unwait_sticky, Warp.raise]
    rw [hy]

end Sys2Proof.Machine
end

