-- ==== Sys2Proof/Laws/Exec.lean ====
section
/-! SUPPORT. Every instruction word is an issue around its own effect: the one fact about the dispatch from which the
statements about all words follow. -/

namespace Sys2Proof.Machine

/-- An instruction is issued with some gate and some effect. -/
def Issues (i : Instr) : Prop :=
  ∃ (gate : Nat → State → Option Res) (op : Actor → State → Res), ∀ s, exec i s = issueWith gate i op s

/-- A word is issued with some gate and some effect. -/
theorem exec_word (i : Instr) (hw : i.isWord = true) : Issues i := by
  cases i with
  | nop h u => exact ⟨fun _ _ => none, (opNop), fun _ => rfl⟩
  | bra h u => exact ⟨fun _ _ => none, (opBra u), fun _ => rfl⟩
  | brx h u => exact ⟨fun _ _ => none, (opBrx u), fun _ => rfl⟩
  | call h u => exact ⟨fun _ _ => none, (opCall u), fun _ => rfl⟩
  | callx h u => exact ⟨fun _ _ => none, (opCallx u), fun _ => rfl⟩
  | ret h u => exact ⟨fun _ _ => none, (opRet), fun _ => rfl⟩
  | rpush h u => exact ⟨fun _ _ => none, (opRpush u), fun _ => rfl⟩
  | rjoin h u => exact ⟨fun _ _ => none, (opRjoin), fun _ => rfl⟩
  | exit h u => exact ⟨fun _ _ => none, (opExit), fun _ => rfl⟩
  | yield h u => exact ⟨fun _ _ => none, (opYield), fun _ => rfl⟩
  | trap h u => exact ⟨fun _ _ => none, (opTrap u), fun _ => rfl⟩
  | bpt h u => exact ⟨fun _ _ => none, (opBpt), fun _ => rfl⟩
  | reti h u => exact ⟨fun _ _ => none, (opReti), fun _ => rfl⟩
  | icmpp h u => exact ⟨fun _ _ => none, (opIcmpp h u), fun _ => rfl⟩
  | fcmpp h u => exact ⟨fun _ _ => none, (opFcmpp h u), fun _ => rfl⟩
  | pbool h u => exact ⟨fun _ _ => none, (opPbool h u), fun _ => rfl⟩
  | pmov h u => exact ⟨fun _ _ => none, (opPmov h u), fun _ => rfl⟩
  | pcnt h u => exact ⟨fun _ _ => none, (opPcnt h u), fun _ => rfl⟩
  | pfirst h u => exact ⟨fun _ _ => none, (opPfirst h u), fun _ => rfl⟩
  | pqry h u => exact ⟨fun _ _ => none, (opPqry h u), fun _ => rfl⟩
  | mov h u => exact ⟨fun _ _ => none, (opInt 0 (intMov (isXI u)) h u), fun _ => rfl⟩
  | iadd h u => exact ⟨fun _ _ => none, (opInt 1 intIadd h u), fun _ => rfl⟩
  | isub h u => exact ⟨fun _ _ => none, (opInt 2 intIsub h u), fun _ => rfl⟩
  | imul h u => exact ⟨fun _ _ => none, (opInt 3 intImul h u), fun _ => rfl⟩
  | imulhi h u => exact ⟨fun _ _ => none, (opInt 4 intImulhi h u), fun _ => rfl⟩
  | imad h u => exact ⟨fun _ _ => none, (opInt 5 intImad h u), fun _ => rfl⟩
  | imin h u => exact ⟨fun _ _ => none, (opInt 6 intImin h u), fun _ => rfl⟩
  | imax h u => exact ⟨fun _ _ => none, (opInt 7 intImax h u), fun _ => rfl⟩
  | iabs h u => exact ⟨fun _ _ => none, (opInt 8 intIabs h u), fun _ => rfl⟩
  | and h u => exact ⟨fun _ _ => none, (opInt 9 intAnd h u), fun _ => rfl⟩
  | or h u => exact ⟨fun _ _ => none, (opInt 10 intOr h u), fun _ => rfl⟩
  | xor h u => exact ⟨fun _ _ => none, (opInt 11 intXor h u), fun _ => rfl⟩
  | not h u => exact ⟨fun _ _ => none, (opInt 12 intNot h u), fun _ => rfl⟩
  | shl h u => exact ⟨fun _ _ => none, (opInt 13 intShl h u), fun _ => rfl⟩
  | shr h u => exact ⟨fun _ _ => none, (opInt 14 intShr h u), fun _ => rfl⟩
  | sar h u => exact ⟨fun _ _ => none, (opInt 15 intSar h u), fun _ => rfl⟩
  | rotl h u => exact ⟨fun _ _ => none, (opInt 16 intRotl h u), fun _ => rfl⟩
  | popc h u => exact ⟨fun _ _ => none, (opInt 17 intPopc h u), fun _ => rfl⟩
  | clz h u => exact ⟨fun _ _ => none, (opInt 18 intClz h u), fun _ => rfl⟩
  | brev h u => exact ⟨fun _ _ => none, (opInt 19 intBrev h u), fun _ => rfl⟩
  | bfx h u => exact ⟨fun _ _ => none, (opInt 20 intBfx h u), fun _ => rfl⟩
  | bfi h u => exact ⟨fun _ _ => none, (opInt 21 intBfi h u), fun _ => rfl⟩
  | sel h u => exact ⟨fun _ _ => none, (opInt 22 intSel h u), fun _ => rfl⟩
  | lea h u => exact ⟨fun _ _ => none, (opInt 23 intLea h u), fun _ => rfl⟩
  | fadd h u => exact ⟨fun _ _ => none, (opFp 0 fpFadd h u), fun _ => rfl⟩
  | fsub h u => exact ⟨fun _ _ => none, (opFp 1 fpFsub h u), fun _ => rfl⟩
  | fmul h u => exact ⟨fun _ _ => none, (opFp 2 fpFmul h u), fun _ => rfl⟩
  | ffma h u => exact ⟨fun _ _ => none, (opFp 3 fpFfma h u), fun _ => rfl⟩
  | fmin h u => exact ⟨fun _ _ => none, (opFp 4 fpFmin h u), fun _ => rfl⟩
  | fmax h u => exact ⟨fun _ _ => none, (opFp 5 fpFmax h u), fun _ => rfl⟩
  | frcp h u => exact ⟨fun _ _ => none, (opFp 6 fpFrcp h u), fun _ => rfl⟩
  | fdiv h u => exact ⟨fun _ _ => none, (opFp 7 fpFdiv h u), fun _ => rfl⟩
  | fsqrt h u => exact ⟨fun _ _ => none, (opFp 8 fpFsqrt h u), fun _ => rfl⟩
  | frsq h u => exact ⟨fun _ _ => none, (opFp 9 fpFrsq h u), fun _ => rfl⟩
  | fex2 h u => exact ⟨fun _ _ => none, (opFp 10 fpFex2 h u), fun _ => rfl⟩
  | flg2 h u => exact ⟨fun _ _ => none, (opFp 11 fpFlg2 h u), fun _ => rfl⟩
  | fsin h u => exact ⟨fun _ _ => none, (opFp 12 fpFsin h u), fun _ => rfl⟩
  | fcos h u => exact ⟨fun _ _ => none, (opFp 13 fpFcos h u), fun _ => rfl⟩
  | fscale h u => exact ⟨fun _ _ => none, (opFp 14 fpFscale h u), fun _ => rfl⟩
  | fclass h u => exact ⟨fun _ _ => none, (opFp 15 fpFclass h u), fun _ => rfl⟩
  | movL f => exact ⟨fun _ _ => none, (opIntShort (intMov false) (expandL 0 f)), fun _ => rfl⟩
  | iaddL f => exact ⟨fun _ _ => none, (opIntShort intIadd (expandL 1 f)), fun _ => rfl⟩
  | isubL f => exact ⟨fun _ _ => none, (opIntShort intIsub (expandL 2 f)), fun _ => rfl⟩
  | imulL f => exact ⟨fun _ _ => none, (opIntShort intImul (expandL 3 f)), fun _ => rfl⟩
  | imulhiL f => exact ⟨fun _ _ => none, (opIntShort intImulhi (expandL 4 f)), fun _ => rfl⟩
  | imadL f => exact ⟨fun _ _ => none, (opIntShort intImad (expandL 5 f)), fun _ => rfl⟩
  | iminL f => exact ⟨fun _ _ => none, (opIntShort intImin (expandL 6 f)), fun _ => rfl⟩
  | imaxL f => exact ⟨fun _ _ => none, (opIntShort intImax (expandL 7 f)), fun _ => rfl⟩
  | iabsL f => exact ⟨fun _ _ => none, (opIntShort intIabs (expandL 8 f)), fun _ => rfl⟩
  | andL f => exact ⟨fun _ _ => none, (opIntShort intAnd (expandL 9 f)), fun _ => rfl⟩
  | orL f => exact ⟨fun _ _ => none, (opIntShort intOr (expandL 10 f)), fun _ => rfl⟩
  | xorL f => exact ⟨fun _ _ => none, (opIntShort intXor (expandL 11 f)), fun _ => rfl⟩
  | notL f => exact ⟨fun _ _ => none, (opIntShort intNot (expandL 12 f)), fun _ => rfl⟩
  | shlL f => exact ⟨fun _ _ => none, (opIntShort intShl (expandL 13 f)), fun _ => rfl⟩
  | shrL f => exact ⟨fun _ _ => none, (opIntShort intShr (expandL 14 f)), fun _ => rfl⟩
  | sarL f => exact ⟨fun _ _ => none, (opIntShort intSar (expandL 15 f)), fun _ => rfl⟩
  | rotlL f => exact ⟨fun _ _ => none, (opIntShort intRotl (expandL 16 f)), fun _ => rfl⟩
  | popcL f => exact ⟨fun _ _ => none, (opIntShort intPopc (expandL 17 f)), fun _ => rfl⟩
  | clzL f => exact ⟨fun _ _ => none, (opIntShort intClz (expandL 18 f)), fun _ => rfl⟩
  | brevL f => exact ⟨fun _ _ => none, (opIntShort intBrev (expandL 19 f)), fun _ => rfl⟩
  | bfxL f => exact ⟨fun _ _ => none, (opIntShort intBfx (expandL 20 f)), fun _ => rfl⟩
  | bfiL f => exact ⟨fun _ _ => none, (opIntShort intBfi (expandL 21 f)), fun _ => rfl⟩
  | selL f => exact ⟨fun _ _ => none, (opIntShort intSel (expandL 22 f)), fun _ => rfl⟩
  | leaL f => exact ⟨fun _ _ => none, (opIntShort intLea (expandL 23 f)), fun _ => rfl⟩
  | faddL f => exact ⟨fun _ _ => none, (opFpShort fpFadd (expandL 24 f)), fun _ => rfl⟩
  | fsubL f => exact ⟨fun _ _ => none, (opFpShort fpFsub (expandL 25 f)), fun _ => rfl⟩
  | fmulL f => exact ⟨fun _ _ => none, (opFpShort fpFmul (expandL 26 f)), fun _ => rfl⟩
  | ffmaL f => exact ⟨fun _ _ => none, (opFpShort fpFfma (expandL 27 f)), fun _ => rfl⟩
  | fminL f => exact ⟨fun _ _ => none, (opFpShort fpFmin (expandL 28 f)), fun _ => rfl⟩
  | fmaxL f => exact ⟨fun _ _ => none, (opFpShort fpFmax (expandL 29 f)), fun _ => rfl⟩
  | frcpL f => exact ⟨fun _ _ => none, (opFpShort fpFrcp (expandL 30 f)), fun _ => rfl⟩
  | fdivL f => exact ⟨fun _ _ => none, (opFpShort fpFdiv (expandL 31 f)), fun _ => rfl⟩
  | fsqrtL f => exact ⟨fun _ _ => none, (opFpShort fpFsqrt (expandL 32 f)), fun _ => rfl⟩
  | frsqL f => exact ⟨fun _ _ => none, (opFpShort fpFrsq (expandL 33 f)), fun _ => rfl⟩
  | fex2L f => exact ⟨fun _ _ => none, (opFpShort fpFex2 (expandL 34 f)), fun _ => rfl⟩
  | flg2L f => exact ⟨fun _ _ => none, (opFpShort fpFlg2 (expandL 35 f)), fun _ => rfl⟩
  | fsinL f => exact ⟨fun _ _ => none, (opFpShort fpFsin (expandL 36 f)), fun _ => rfl⟩
  | fcosL f => exact ⟨fun _ _ => none, (opFpShort fpFcos (expandL 37 f)), fun _ => rfl⟩
  | fscaleL f => exact ⟨fun _ _ => none, (opFpShort fpFscale (expandL 38 f)), fun _ => rfl⟩
  | fclassL f => exact ⟨fun _ _ => none, (opFpShort fpFclass (expandL 39 f)), fun _ => rfl⟩
  | movi f => exact ⟨fun _ _ => none, (opIntShort (intMov true) (expandI 48 f)), fun _ => rfl⟩
  | movhi f => exact ⟨fun _ _ => none, (opMovhi f), fun _ => rfl⟩
  | iaddi f => exact ⟨fun _ _ => none, (opIntShort intIadd (expandI 50 f)), fun _ => rfl⟩
  | andi f => exact ⟨fun _ _ => none, (opIntShort intAnd (expandI 51 f)), fun _ => rfl⟩
  | ori f => exact ⟨fun _ _ => none, (opIntShort intOr (expandI 52 f)), fun _ => rfl⟩
  | xori f => exact ⟨fun _ _ => none, (opIntShort intXor (expandI 53 f)), fun _ => rfl⟩
  | shli f => exact ⟨fun _ _ => none, (opIntShort intShl (expandI 54 f)), fun _ => rfl⟩
  | shri f => exact ⟨fun _ _ => none, (opIntShort intShr (expandI 55 f)), fun _ => rfl⟩
  | sari f => exact ⟨fun _ _ => none, (opIntShort intSar (expandI 56 f)), fun _ => rfl⟩
  | rep f t => exact ⟨fun _ _ => none, (opRep f t), fun _ => rfl⟩
  | movS16 f => exact ⟨fun _ _ => none, (opIntShort (intMov f.im) (expandS 0 f)), fun _ => rfl⟩
  | iaddS16 f => exact ⟨fun _ _ => none, (opIntShort intIadd (expandS 1 f)), fun _ => rfl⟩
  | isubS16 f => exact ⟨fun _ _ => none, (opIntShort intIsub (expandS 2 f)), fun _ => rfl⟩
  | imulS16 f => exact ⟨fun _ _ => none, (opIntShort intImul (expandS 3 f)), fun _ => rfl⟩
  | andS16 f => exact ⟨fun _ _ => none, (opIntShort intAnd (expandS 4 f)), fun _ => rfl⟩
  | orS16 f => exact ⟨fun _ _ => none, (opIntShort intOr (expandS 5 f)), fun _ => rfl⟩
  | xorS16 f => exact ⟨fun _ _ => none, (opIntShort intXor (expandS 6 f)), fun _ => rfl⟩
  | shlS16 f => exact ⟨fun _ _ => none, (opIntShort intShl (expandS 7 f)), fun _ => rfl⟩
  | shrS16 f => exact ⟨fun _ _ => none, (opIntShort intShr (expandS 8 f)), fun _ => rfl⟩
  | sarS16 f => exact ⟨fun _ _ => none, (opIntShort intSar (expandS 9 f)), fun _ => rfl⟩
  | faddS16 f => exact ⟨fun _ _ => none, (opFpShort fpFadd (expandS 10 f)), fun _ => rfl⟩
  | fsubS16 f => exact ⟨fun _ _ => none, (opFpShort fpFsub (expandS 11 f)), fun _ => rfl⟩
  | fmulS16 f => exact ⟨fun _ _ => none, (opFpShort fpFmul (expandS 12 f)), fun _ => rfl⟩
  | fminS16 f => exact ⟨fun _ _ => none, (opFpShort fpFmin (expandS 13 f)), fun _ => rfl⟩
  | fmaxS16 f => exact ⟨fun _ _ => none, (opFpShort fpFmax (expandS 14 f)), fun _ => rfl⟩
  | iminS16 f => exact ⟨fun _ _ => none, (opIntShort intImin (expandS 15 f)), fun _ => rfl⟩
  | dwadd h u => exact ⟨fun _ _ => none, (opDw dwAdd h u), fun _ => rfl⟩
  | dwsub h u => exact ⟨fun _ _ => none, (opDw dwSub h u), fun _ => rfl⟩
  | dwmul h u => exact ⟨fun _ _ => none, (opDw dwMul h u), fun _ => rfl⟩
  | dwnorm h u => exact ⟨fun _ _ => none, (opDw dwNorm h u), fun _ => rfl⟩
  | dwcvt h u => exact ⟨fun _ _ => none, (opDwcvt h u), fun _ => rfl⟩
  | shfl h u => exact ⟨fun _ _ => none, (opShuffle false h u), fun _ => rfl⟩
  | shflx h u => exact ⟨fun _ _ => none, (opShuffle true h u), fun _ => rfl⟩
  | rfirst h u => exact ⟨fun _ _ => none, (opRfirst h u), fun _ => rfl⟩
  | rlane h u => exact ⟨fun _ _ => none, (opRlane h u), fun _ => rfl⟩
  | wlane h u => exact ⟨fun _ _ => none, (opWlane h u), fun _ => rfl⟩
  | redstep h u => exact ⟨fun _ _ => none, (opRedstep h u), fun _ => rfl⟩
  | red h u => exact ⟨fun _ _ => none, (opRed h u), fun _ => rfl⟩
  | redcmp h u => exact ⟨fun _ _ => none, (opRedcmp h u), fun _ => rfl⟩
  | scan h u => exact ⟨fun _ _ => none, (opScan h u), fun _ => rfl⟩
  | trn h u => exact ⟨fun _ _ => none, (opTrn h u), fun _ => rfl⟩
  | cvt h u => exact ⟨fun _ _ => none, (opCvt h u), fun _ => rfl⟩
  | qblk h u => exact ⟨fun _ _ => none, (opQblk h u), fun _ => rfl⟩
  | dq h u => exact ⟨fun _ _ => none, (opDq h u), fun _ => rfl⟩
  | packh h u => exact ⟨fun _ _ => none, (opPackh h u), fun _ => rfl⟩
  | unpackh h u => exact ⟨fun _ _ => none, (opUnpackh h u), fun _ => rfl⟩
  | srd h u => exact ⟨fun _ _ => none, (opSrd h u), fun _ => rfl⟩
  | swr h u => exact ⟨fun _ _ => none, (opSwr u), fun _ => rfl⟩
  | ldi h u => exact ⟨fun _ _ => none, (opLdi h u), fun _ => rfl⟩
  | ld h u => exact ⟨fun _ _ => none, (opLoad 0 h u), fun _ => rfl⟩
  | st h u => exact ⟨fun _ _ => none, (opStore 1 h u), fun _ => rfl⟩
  | lds h u => exact ⟨fun _ _ => none, (opLoad 2 h u), fun _ => rfl⟩
  | sts h u => exact ⟨fun _ _ => none, (opStore 3 h u), fun _ => rfl⟩
  | ldf h u => exact ⟨fun _ _ => none, (opLoad 4 h u), fun _ => rfl⟩
  | stf h u => exact ⟨fun _ _ => none, (opStore 5 h u), fun _ => rfl⟩
  | atom h u => exact ⟨fun _ _ => none, (opAtomic 6 h u), fun _ => rfl⟩
  | atoms h u => exact ⟨fun _ _ => none, (opAtomic 7 h u), fun _ => rfl⟩
  | fence h u => exact ⟨fun _ _ => none, (opFence u), fun _ => rfl⟩
  | pref h u => exact ⟨fun _ _ => none, opPref, fun _ => rfl⟩
  | ldrec h u => exact ⟨fun _ _ => none, (opLdrec h u), fun _ => rfl⟩
  | strec h u => exact ⟨fun _ _ => none, (opStrec h u), fun _ => rfl⟩
  | barinit h u => exact ⟨fun _ _ => none, (opBarinit h u), fun _ => rfl⟩
  | bararr h u => exact ⟨fun _ _ => none, (opBararr h u), fun _ => rfl⟩
  | barwait h u => exact ⟨fun _ _ => none, (opBarwait h u), fun _ => rfl⟩
  | bartest h u => exact ⟨fun _ _ => none, (opBartest h u), fun _ => rfl⟩
  | barexp h u => exact ⟨fun _ _ => none, (opBarexp h u), fun _ => rfl⟩
  | waitf h u => exact ⟨fun _ _ => none, (opWaitf h u), fun _ => rfl⟩
  | waitc h u => exact ⟨(gateWaitc u), (opWaitc u), fun _ => rfl⟩
  | waitt h u => exact ⟨fun _ _ => none, (opWaitt u), fun _ => rfl⟩
  | tlarm h u => exact ⟨fun _ _ => none, (opTlarm u), fun _ => rfl⟩
  | tlrd h u => exact ⟨fun _ _ => none, (opTlrd h u), fun _ => rfl⟩
  | flagrd h u => exact ⟨gateFlagrd, (opFlagrd h u), fun _ => rfl⟩
  | lcopy h u => exact ⟨fun _ _ => none, (opLcopy h u), fun _ => rfl⟩
  | bseal h u => exact ⟨fun _ _ => none, (pollBseal h), fun _ => rfl⟩
  | bwaitn h u => exact ⟨fun _ _ => none, (pollBwaitn u), fun _ => rfl⟩
  | bwaits h u => exact ⟨fun _ _ => none, (opBwaits u), fun _ => rfl⟩
  | btest h u => exact ⟨fun _ _ => none, (opBtest h u), fun _ => rfl⟩
  | tdef h u => exact ⟨fun _ _ => none, (opTdef h u), fun _ => rfl⟩
  | tload h u => exact ⟨fun _ _ => none, (opTile 1 h u), fun _ => rfl⟩
  | tstore h u => exact ⟨fun _ _ => none, (opTile 2 h u), fun _ => rfl⟩
  | tmcast h u => exact ⟨fun _ _ => none, (opTile 3 h u), fun _ => rfl⟩
  | tred h u => exact ⟨fun _ _ => none, (opTile 4 h u), fun _ => rfl⟩
  | tpeer h u => exact ⟨fun _ _ => none, (opTile 5 h u), fun _ => rfl⟩
  | omap h u => exact ⟨fun _ _ => none, (opOmap h u), fun _ => rfl⟩
  | wbload h u => exact ⟨fun _ _ => none, (opWbload h u), fun _ => rfl⟩
  | mma h u => exact ⟨fun _ _ => none, (opMma h u), fun _ => rfl⟩
  | accz h u => exact ⟨fun _ _ => none, (opAccz h u), fun _ => rfl⟩
  | accld h u => exact ⟨fun _ _ => none, (opAccld h u), fun _ => rfl⟩
  | accdrain h u => exact ⟨fun _ _ => none, (opAccdrain h u), fun _ => rfl⟩
  | kvwalk h u => exact ⟨fun _ _ => none, (opKvwalk h u), fun _ => rfl⟩
  | kvgather h u => exact ⟨fun _ _ => none, (opKvIssue 1 (.gather (vRowsOf u) none) State.gatherCheck h u), fun _ => rfl⟩
  | kvappend h u => exact ⟨fun _ _ => none, (opKvIssue 2 .append (fun _ _ rs => appendCheck rs) h u), fun _ => rfl⟩
  | kvtrunc h u => exact ⟨fun _ _ => none, (opKvtrunc h u), fun _ => rfl⟩
  | kvfork h u => exact ⟨fun _ _ => none, (opKvfork u), fun _ => rfl⟩
  | smerge h u => exact ⟨fun _ _ => none, (opKvIssue 5 .smerge State.mergeCheck h u), fun _ => rfl⟩
  | acq h u => exact ⟨fun _ _ => none, (opAcq false h u), fun _ => rfl⟩
  | acqt h u => exact ⟨fun _ _ => none, (opAcq true h u), fun _ => rfl⟩
  | rel h u => exact ⟨fun _ _ => none, (opRel h u), fun _ => rfl⟩
  | claimq h u => exact ⟨fun _ _ => none, (opClaimq h u), fun _ => rfl⟩
  | fjoin h u => exact ⟨fun _ _ => none, (opFjoin h u), fun _ => rfl⟩
  | fleave h u => exact ⟨fun _ _ => none, pollFleave, fun _ => rfl⟩
  | flockset h u => exact ⟨fun _ _ => none, (opFlockset u), fun _ => rfl⟩
  | launch h u => exact ⟨fun _ _ => none, (opLaunch h u), fun _ => rfl⟩
  | spawn h u => exact ⟨fun _ _ => none, (opSpawn h u), fun _ => rfl⟩
  | tdep h u => exact ⟨fun _ _ => none, (opTdep h u), fun _ => rfl⟩
  | tcancel h u => exact ⟨fun _ _ => none, (opTcancel h u), fun _ => rfl⟩
  | sliceyield h u => exact ⟨fun _ _ => none, opSliceyield, fun _ => rfl⟩
  | region h u => exact ⟨fun _ _ => none, opRegion, fun _ => rfl⟩
  | regionend h u => exact ⟨fun _ _ => none, opRegionend, fun _ => rfl⟩
  | stenq h u => exact ⟨fun _ _ => none, (opStenq u), fun _ => rfl⟩
  | stdeq h u => exact ⟨fun _ _ => none, (opStdeq h u), fun _ => rfl⟩
  | ovfld h u => exact ⟨fun _ _ => none, (opOvfld h u), fun _ => rfl⟩
  | tlbinv h u => exact ⟨fun _ _ => none, (opTlbinv u), fun _ => rfl⟩
  | ctxsave h u => exact ⟨fun _ _ => none, (opCtxsave h u), fun _ => rfl⟩
  | ctxload h u => exact ⟨fun _ _ => none, (opCtxload h u), fun _ => rfl⟩
  | qdestroy h u => exact ⟨fun _ _ => none, (opQdestroy u), fun _ => rfl⟩
  | swrp h u => exact ⟨fun _ _ => none, (opSwrp h u), fun _ => rfl⟩
  | halt h u => exact ⟨fun _ _ => none, (opHalt h u), fun _ => rfl⟩
  | eret h u => exact ⟨fun _ _ => none, (opEret h u), fun _ => rfl⟩
  | fillerIssue _ _ => exact (Bool.false_ne_true hw).elim
  | throttleEntry _ => exact (Bool.false_ne_true hw).elim
  | throttleExit _ => exact (Bool.false_ne_true hw).elim
  | stringBalanceLost _ _ => exact (Bool.false_ne_true hw).elim
  | powerInterval _ _ _ => exact (Bool.false_ne_true hw).elim
  | operatingPointChange _ => exact (Bool.false_ne_true hw).elim
  | yieldExpiry _ => exact (Bool.false_ne_true hw).elim
  | thermalMigrate _ => exact (Bool.false_ne_true hw).elim
  | thermalTrip _ => exact (Bool.false_ne_true hw).elim
  | railUndervolt _ => exact (Bool.false_ne_true hw).elim
  | railOvercurrent _ => exact (Bool.false_ne_true hw).elim
  | coreUngate _ => exact (Bool.false_ne_true hw).elim
  | powerGate _ => exact (Bool.false_ne_true hw).elim
  | loadDataReturn _ _ => exact (Bool.false_ne_true hw).elim
  | storePerformed _ _ => exact (Bool.false_ne_true hw).elim
  | shepherdTest _ => exact (Bool.false_ne_true hw).elim
  | rendezvousComplete _ _ => exact (Bool.false_ne_true hw).elim
  | handlerVector _ => exact (Bool.false_ne_true hw).elim
  | waitcResume _ => exact (Bool.false_ne_true hw).elim
  | barwaitResume _ => exact (Bool.false_ne_true hw).elim
  | waitfResume _ => exact (Bool.false_ne_true hw).elim
  | waittResume _ => exact (Bool.false_ne_true hw).elim
  | batchWaitResume _ => exact (Bool.false_ne_true hw).elim
  | bsealResume _ => exact (Bool.false_ne_true hw).elim
  | relResume _ => exact (Bool.false_ne_true hw).elim
  | fleaveResume _ => exact (Bool.false_ne_true hw).elim
  | fjoinResume _ => exact (Bool.false_ne_true hw).elim
  | flagrdResume _ => exact (Bool.false_ne_true hw).elim
  | stdeqResume _ => exact (Bool.false_ne_true hw).elim
  | stenqResume _ => exact (Bool.false_ne_true hw).elim
  | launchQueueResume _ => exact (Bool.false_ne_true hw).elim
  | lcopyTransferDone _ => exact (Bool.false_ne_true hw).elim
  | engineAsyncFault _ => exact (Bool.false_ne_true hw).elim
  | engineReplay _ => exact (Bool.false_ne_true hw).elim
  | tileAccept _ => exact (Bool.false_ne_true hw).elim
  | tileOpComplete _ => exact (Bool.false_ne_true hw).elim
  | tmcastDelivery _ _ => exact (Bool.false_ne_true hw).elim
  | mmaAFetch _ => exact (Bool.false_ne_true hw).elim
  | wbloadFillDone _ => exact (Bool.false_ne_true hw).elim
  | mmaComplete _ => exact (Bool.false_ne_true hw).elim
  | acczAccldComplete _ => exact (Bool.false_ne_true hw).elim
  | accdrainComplete _ => exact (Bool.false_ne_true hw).elim
  | matrixLateFault _ => exact (Bool.false_ne_true hw).elim
  | kvgatherWalk _ => exact (Bool.false_ne_true hw).elim
  | kvPageDelivery _ _ => exact (Bool.false_ne_true hw).elim
  | kvReturnPass _ => exact (Bool.false_ne_true hw).elim
  | kvappendStep _ => exact (Bool.false_ne_true hw).elim
  | smergeComplete _ => exact (Bool.false_ne_true hw).elim
  | pagerPageIn _ _ => exact (Bool.false_ne_true hw).elim
  | pagerDemotion _ _ => exact (Bool.false_ne_true hw).elim
  | dispatchDecision _ => exact (Bool.false_ne_true hw).elim
  | blockRetire _ => exact (Bool.false_ne_true hw).elim
  | deadlineMissed _ => exact (Bool.false_ne_true hw).elim
  | budgetExhausted _ => exact (Bool.false_ne_true hw).elim
  | regionGap _ => exact (Bool.false_ne_true hw).elim
  | preempt _ _ => exact (Bool.false_ne_true hw).elim
  | waitForSample _ => exact (Bool.false_ne_true hw).elim
  | systemHandler _ _ => exact (Bool.false_ne_true hw).elim
  | eccUncorrectable _ _ _ _ _ => exact (Bool.false_ne_true hw).elim
  | softErrorCorrect _ => exact (Bool.false_ne_true hw).elim
  | doorbell _ _ _ => exact (Bool.false_ne_true hw).elim
  | hostPacketLaunch _ _ => exact (Bool.false_ne_true hw).elim
  | hostPacketWait _ _ => exact (Bool.false_ne_true hw).elim
  | rsizeWrite _ _ _ => exact (Bool.false_ne_true hw).elim
  | resume _ _ => exact (Bool.false_ne_true hw).elim
  | evhead _ _ => exact (Bool.false_ne_true hw).elim
  | hostRegisterWrite _ _ _ => exact (Bool.false_ne_true hw).elim
  | pctlRun _ => exact (Bool.false_ne_true hw).elim
  | pctlReset _ => exact (Bool.false_ne_true hw).elim
  | partitionReset _ => exact (Bool.false_ne_true hw).elim
  | partitionConfigure _ _ _ _ => exact (Bool.false_ne_true hw).elim
  | stileCreate _ _ _ _ => exact (Bool.false_ne_true hw).elim
  | stileDestroy _ => exact (Bool.false_ne_true hw).elim
  | liveUpdate _ => exact (Bool.false_ne_true hw).elim
  | firmwareTakeover => exact (Bool.false_ne_true hw).elim
  | firmwareRollback => exact (Bool.false_ne_true hw).elim
  | watchdog => exact (Bool.false_ne_true hw).elim
  | coldStart _ _ _ => exact (Bool.false_ne_true hw).elim
  | warmStart _ => exact (Bool.false_ne_true hw).elim
  | failedStart _ _ => exact (Bool.false_ne_true hw).elim
  | attestationRequest _ => exact (Bool.false_ne_true hw).elim
  | telemetryRead => exact (Bool.false_ne_true hw).elim
  | linkRetrain _ => exact (Bool.false_ne_true hw).elim
  | linkDown _ => exact (Bool.false_ne_true hw).elim
  | peerTimeout _ => exact (Bool.false_ne_true hw).elim
  | ethDown _ => exact (Bool.false_ne_true hw).elim
  | hostMemoryWrite _ _ => exact (Bool.false_ne_true hw).elim
  | peerAccess _ => exact (Bool.false_ne_true hw).elim
  | hostTimeout _ _ => exact (Bool.false_ne_true hw).elim

end Sys2Proof.Machine
end

