-- ==== Sys2Proof/Laws/Memory.lean ====
section
/-! SUPPORT. The laws of memory: a write gives its byte back and leaves every other address alone, and every operation
that writes memory keeps the canonical form (log 3). -/

namespace Sys2Proof.Machine

theorem memWfFrom_mono {m : List Host.Cell} {lo hi : Nat} (h : lo ≤ hi) (w : memWfFrom hi m = true) :
    memWfFrom lo m = true := by
  cases m with
  | nil => rfl
  | cons e t =>
    obtain ⟨j, b⟩ := e
    simp only [memWfFrom, Bool.and_eq_true, decide_eq_true_eq] at w ⊢
    exact ⟨⟨by omega, w.1.2⟩, w.2⟩

theorem memWfFrom_memWrite {m : List Host.Cell} {lo a : Nat} (b : Byte) (h : lo ≤ a) (w : memWfFrom lo m = true) :
    memWfFrom lo (memWrite m a b) = true := by
  induction m generalizing lo with
  | nil =>
    by_cases hb : b = unlistedByte <;> simp [memWrite, memWfFrom, hb, h]
  | cons e t ih =>
    obtain ⟨j, c⟩ := e
    have w' := w
    simp only [memWfFrom, Bool.and_eq_true, decide_eq_true_eq, bne_iff_ne] at w'
    obtain ⟨⟨hj, hc⟩, ht⟩ := w'
    by_cases h1 : a < j
    · by_cases hb : b = unlistedByte
      · simpa [memWrite, h1, hb] using w
      · simp only [memWrite, h1, hb, if_true, if_false, memWfFrom, Bool.and_eq_true, decide_eq_true_eq, bne_iff_ne]
        exact ⟨⟨h, hb⟩, ⟨by omega, hc⟩, ht⟩
    · by_cases h2 : j = a
      · subst h2
        by_cases hb : b = unlistedByte
        · simp only [memWrite, Nat.lt_irrefl, hb, if_true, if_false]
          exact memWfFrom_mono (by omega) ht
        · simp only [memWrite, Nat.lt_irrefl, hb, if_true, if_false, memWfFrom, Bool.and_eq_true,
            decide_eq_true_eq, bne_iff_ne]
          exact ⟨⟨h, hb⟩, ht⟩
      · simp only [memWrite, h1, h2, if_false, memWfFrom, Bool.and_eq_true, decide_eq_true_eq, bne_iff_ne]
        exact ⟨⟨hj, hc⟩, ih (by omega) ht⟩

/-- One byte written keeps the canonical form. -/
theorem Memory.wf_memWrite {m : List Host.Cell} (a : Nat) (b : Byte) (w : Memory.wf m = true) :
    Memory.wf (memWrite m a b) = true := memWfFrom_memWrite b (Nat.zero_le a) w

/-- Consecutive bytes written keep the canonical form. -/
theorem Memory.wf_memWriteList {m : List Host.Cell} (a : Nat) (bs : List Byte) (w : Memory.wf m = true) :
    Memory.wf (memWriteList m a bs) = true := by
  induction bs generalizing m a with
  | nil => exact w
  | cons b t ih => exact ih (a + 1) (Memory.wf_memWrite a b w)

theorem memRead_of_lt {m : List Host.Cell} {lo a : Nat} (h : a < lo) (w : memWfFrom lo m = true) :
    memRead m a = unlistedByte := by
  induction m generalizing lo with
  | nil => rfl
  | cons e t ih =>
    obtain ⟨j, c⟩ := e
    simp only [memWfFrom, Bool.and_eq_true, decide_eq_true_eq] at w
    have : j ≠ a := by omega
    simp only [memRead, this, if_false]
    exact ih (by omega) w.2

theorem memRead_memWrite_same_from {m : List Host.Cell} {lo : Nat} (a : Nat) (b : Byte) (w : memWfFrom lo m = true) :
    memRead (memWrite m a b) a = b := by
  induction m generalizing lo with
  | nil => by_cases hb : b = unlistedByte <;> simp [memWrite, memRead, hb]
  | cons e t ih =>
    obtain ⟨j, c⟩ := e
    have w' := w
    simp only [memWfFrom, Bool.and_eq_true, decide_eq_true_eq] at w'
    by_cases h1 : a < j
    · by_cases hb : b = unlistedByte
      · simp only [memWrite, h1, hb, if_true]
        exact memRead_of_lt (m := (j, c) :: t) (lo := j) h1 (by
          simp only [memWfFrom, Bool.and_eq_true, decide_eq_true_eq]; exact ⟨⟨Nat.le_refl _, w'.1.2⟩, w'.2⟩)
      · simp [memWrite, h1, hb, memRead]
    · by_cases h2 : j = a
      · subst h2
        by_cases hb : b = unlistedByte
        · simp only [memWrite, Nat.lt_irrefl, hb, if_true, if_false]
          exact memRead_of_lt (by omega) w'.2
        · simp [memWrite, hb, memRead]
      · simp only [memWrite, h1, h2, if_false, memRead]
        exact ih w'.2

/-- A byte just written reads as it was written. -/
theorem memRead_memWrite_same {m : List Host.Cell} (a : Nat) (b : Byte) (w : Memory.wf m = true) :
    memRead (memWrite m a b) a = b := memRead_memWrite_same_from a b w

/-- A write leaves every other address alone. -/
theorem memRead_memWrite_other (m : List Host.Cell) {a x : Nat} (b : Byte) (h : x ≠ a) :
    memRead (memWrite m a b) x = memRead m x := by
  induction m with
  | nil => by_cases hb : b = unlistedByte <;> simp [memWrite, memRead, hb, Ne.symm h]
  | cons e t ih =>
    obtain ⟨j, c⟩ := e
    by_cases h1 : a < j
    · by_cases hb : b = unlistedByte <;> simp [memWrite, h1, hb, memRead, Ne.symm h]
    · by_cases h2 : j = a
      · subst h2
        by_cases hb : b = unlistedByte <;> simp [memWrite, hb, memRead, Ne.symm h]
      · simp only [memWrite, h1, h2, if_false, memRead, ih]

/-- Bytes written leave every address outside them alone. -/
theorem memRead_memWriteList_other (m : List Host.Cell) {a x : Nat} (bs : List Byte)
    (h : x < a ∨ a + bs.length ≤ x) : memRead (memWriteList m a bs) x = memRead m x := by
  induction bs generalizing m a with
  | nil => rfl
  | cons b t ih =>
    simp only [List.length_cons] at h
    rw [memWriteList, ih (a := a + 1) (memWrite m a b) (by omega), memRead_memWrite_other _ _ (by omega)]

/-- Bytes just written read as they were written. -/
theorem memRead_memWriteList_same {m : List Host.Cell} (a : Nat) (bs : List Byte) (w : Memory.wf m = true) {i : Nat}
    (h : i < bs.length) : memRead (memWriteList m a bs) (a + i) = bs[i] := by
  induction bs generalizing m a i with
  | nil => simp at h
  | cons b t ih =>
    cases i with
    | zero =>
      rw [memWriteList, memRead_memWriteList_other _ _ (by omega)]
      simpa using memRead_memWrite_same a b w
    | succ i =>
      rw [memWriteList]
      have := ih (a + 1) (Memory.wf_memWrite a b w) (i := i) (by simpa using h)
      simpa [Nat.add_assoc, Nat.add_comm 1 i] using this

/-- A list of bytes just written reads back whole. -/
theorem memReadList_memWriteList {m : List Host.Cell} (a : Nat) (bs : List Byte) (w : Memory.wf m = true) :
    memReadList (memWriteList m a bs) a bs.length = bs := by
  apply List.ext_getElem
  · simp [memReadList]
  · intro i h h'
    simpa [memReadList] using memRead_memWriteList_same a bs w h'

/-! Physical addresses. -/

/-- A firmware access below the on-chip map always finds its bytes (02 R35). -/
theorem State.longRuns_firmware (s : State) (v : Via) (r : Rights) (k : Nat) (hv : v.fw = true) (fuel : Nat) (a : DWord)
    (n : Nat) (h : a.toNat + n ≤ onChipBase) : ∃ rs, s.longRuns v r k fuel a n = .ok rs := by
  induction fuel generalizing a n with
  | zero => exact ⟨[], rfl⟩
  | succ fuel ih =>
    unfold State.longRuns
    by_cases hn : n = 0
    · exact ⟨[], by simp [hn]⟩
    · have hp : s.place v r k a = .ok (.phys (a.toNat % 2 ^ 52)) := by
        have : inOnChip a.toNat = false := by simp [inOnChip]; omega
        simp [State.place, hv, this]
      have hb : onChipBase < 2 ^ 64 := by decide
      have hm : min n (4096 - a.toNat % 4096) ≤ n := Nat.min_le_left _ _
      have ht : (a + BitVec.ofNat 64 (min n (4096 - a.toNat % 4096))).toNat = a.toNat + min n (4096 - a.toNat % 4096) := by
        rw [BitVec.toNat_add, BitVec.toNat_ofNat, Nat.mod_eq_of_lt (a := min _ _) (by omega), Nat.mod_eq_of_lt (by omega)]
      obtain ⟨rs, hr⟩ := ih (a + BitVec.ofNat 64 (min n (4096 - a.toNat % 4096))) (n - min n (4096 - a.toNat % 4096))
        (by rw [ht]; omega)
      exact ⟨_, by simp only [hn, if_false, hv, Bool.not_true, Bool.false_and, Bool.false_eq_true, hp, hr]; rfl⟩

/-! The operations that write memory. -/

/-- Physical memory written keeps the canonical form. -/
theorem State.writePhys_wf (s : State) (a : Nat) (bs : List Byte) (w : Memory.wf s.mem = true) :
    Memory.wf (s.writePhys a bs).mem = true := Memory.wf_memWriteList a bs w

/-- On-chip storage is no part of memory. -/
@[simp] theorem State.setStore_mem (s : State) (c : Chip) (v : Byte) : (s.setStore c v).mem = s.mem := by
  cases c <;> rfl

/-- The on-chip map is no part of memory. -/
@[simp] theorem State.setChip_mem (s : State) (a : Nat) (v : Byte) : (s.setChip a v).mem = s.mem := s.setStore_mem _ v

/-- The on-chip map is no part of memory. -/
@[simp] theorem State.writeChip_mem (s : State) (a : Nat) (bs : List Byte) : (s.writeChip a bs).mem = s.mem := by
  have bytes : ∀ (l : List (Nat × Byte)) (t : State), (l.foldl (fun s e => s.setChip (a + e.1) e.2) t).mem = t.mem := by
    intro l; induction l with
    | nil => intro t; rfl
    | cons e l ih => intro t; rw [List.foldl_cons, ih, State.setChip_mem]
  have clear : ∀ (f : State → Nat → State), (∀ t i, (f t i).mem = t.mem) → ∀ (l : List Nat) (t : State),
      (l.foldl f t).mem = t.mem := by
    intro f hf l; induction l with
    | nil => intro t; rfl
    | cons i l ih => intro t; rw [List.foldl_cons, ih, hf]
  unfold State.writeChip
  rw [clear _ ?_, bytes]
  intro t i
  dsimp only
  split
  · split
    · exact State.updBlock_mem ..
    · rfl
  · rfl

/-- Runs written keep the canonical form. -/
theorem State.writeRuns_wf (s : State) (rs : List (Place × Nat)) (bs : List Byte) (w : Memory.wf s.mem = true) :
    Memory.wf (s.writeRuns rs bs).mem = true := by
  induction rs generalizing s bs with
  | nil => exact w
  | cons e t ih =>
    obtain ⟨p, n⟩ := e
    simp only [State.writeRuns]
    apply ih
    cases p with
    | phys a => exact s.writePhys_wf a _ w
    | peer d a => exact w
    | onChip a => simpa using w

/-- An element written keeps the canonical form. -/
theorem State.writeTarget_wf (s : State) (t : Target) (bs : List Byte) (w : Memory.wf s.mem = true) :
    Memory.wf (s.writeTarget t bs).mem = true := by
  cases t with
  | glob rs => exact s.writeRuns_wf rs bs w
  | scr u o n => exact w

/-- An element that an agent writes among racing writes keeps the canonical form. -/
theorem State.putBy_wf (s : State) (g : Agent) (k : Nat) (p : Put) (t : Target) (bs : List Byte)
    (w : Memory.wf s.mem = true) : Memory.wf (s.putBy g k p t bs).mem = true := by
  unfold State.putBy
  split
  · exact s.writeTarget_wf t bs w
  · exact State.writeTarget_wf _ t _ w

/-- A record written keeps the canonical form. -/
theorem State.writeRecord_wf (s : State) (p : Nat) (r : FaultRec) (who : Option Nat) (w : Memory.wf s.mem = true) :
    Memory.wf (s.writeRecord p r who).mem = true := by
  simp only [State.writeRecord, State.setPart_mem]
  exact Memory.wf_memWriteList _ _ w

/-- A record made keeps the canonical form. -/
theorem State.postRecord_wf (s : State) (half p : Nat) (r : FaultRec) (who : Option Nat) (w : Memory.wf s.mem = true) :
    Memory.wf (s.postRecord half p r who).mem = true := by
  simp only [State.postRecord]
  split
  · exact w
  · exact s.writeRecord_wf p r who w

theorem memWfFrom_filter {m : List Host.Cell} {lo : Nat} (f : Host.Cell → Bool) (w : memWfFrom lo m = true) :
    memWfFrom lo (m.filter f) = true := by
  induction m generalizing lo with
  | nil => rfl
  | cons e t ih =>
    obtain ⟨j, c⟩ := e
    simp only [memWfFrom, Bool.and_eq_true, decide_eq_true_eq] at w
    by_cases h : f (j, c)
    · simp only [List.filter_cons, h, if_true, memWfFrom, Bool.and_eq_true, decide_eq_true_eq]
      exact ⟨w.1, ih w.2⟩
    · simp only [List.filter_cons, h]
      exact memWfFrom_mono (by omega) (ih w.2)

/-- Memory scrubbed of a share keeps the canonical form. -/
theorem scrub_wf (sh : MemShare) {m : List Host.Cell} (w : Memory.wf m = true) : Memory.wf (scrub sh m) = true :=
  memWfFrom_filter _ w

end Sys2Proof.Machine
end

