-- ==== Sys2Proof/Laws/Past.lean ====
section
/-! SUPPORT. What races leave alone: reading, releasing, acquiring and waiting change nothing but what is kept of the writes and
of the releases, and where nothing is kept a read sees memory as it stands and a write is a plain one. -/

namespace Sys2Proof.Machine

/-- `t` differs from `s` in what is kept of writes and releases alone. -/
def State.pastOf (s t : State) : Prop := t = { s with past := t.past, sync := t.sync }

theorem State.pastOf_refl (s : State) : s.pastOf s := rfl

theorem State.pastOf_trans {s t u : State} (h : s.pastOf t) (g : t.pastOf u) : s.pastOf u := by
  unfold State.pastOf at *
  refine g.trans ?_
  rw [h]

theorem State.pastOf_foldl {β : Type} (f : State → β → State) (h : ∀ (s : State) (b : β), s.pastOf (f s b)) (l : List β) (s : State) :
    s.pastOf (l.foldl f s) := by
  induction l generalizing s with
  | nil => exact s.pastOf_refl
  | cons b t ih => rw [List.foldl_cons]; exact State.pastOf_trans (h s b) (ih _)

theorem State.pastOf_mem {s t : State} (h : s.pastOf t) : t.mem = s.mem := by rw [h]
theorem State.pastOf_warps {s t : State} (h : s.pastOf t) : t.warps = s.warps := by rw [h]
theorem State.pastOf_warp {s t : State} (h : s.pastOf t) (w : Nat) : t.warp w = s.warp w := by rw [h]; rfl
theorem State.pastOf_blocks {s t : State} (h : s.pastOf t) : t.blocks = s.blocks := by rw [h]
theorem State.pastOf_cores {s t : State} (h : s.pastOf t) : t.cores = s.cores := by rw [h]
theorem State.pastOf_parts {s t : State} (h : s.pastOf t) : t.parts = s.parts := by rw [h]
theorem State.pastOf_ops {s t : State} (h : s.pastOf t) : t.ops = s.ops := by rw [h]

theorem State.mapPast_pastOf (s : State) (f : Past → Past) : s.pastOf (s.mapPast f) := by
  unfold State.mapPast; split <;> rfl

theorem State.tell_pastOf (s : State) (p : Past → Bool) (l : List (Nat × Mask)) : s.pastOf (s.tell p l) := s.mapPast_pastOf _
theorem State.learn_pastOf (s : State) (w : Nat) (lanes : Mask) (p : Past → Bool) : s.pastOf (s.learn w lanes p) :=
  s.mapPast_pastOf _
theorem State.publish_pastOf (s : State) (g : Agent) (m : Msg) : s.pastOf (s.publish g m) := s.mapPast_pastOf _
theorem State.releaseBy_pastOf (s : State) (g : Agent) : s.pastOf (s.releaseBy g) := s.mapPast_pastOf _
theorem State.performed_pastOf (s : State) (step agent : Nat) : s.pastOf (s.performed step agent) := s.mapPast_pastOf _
theorem State.adopt_pastOf (s : State) (g : Agent) (key : Nat) : s.pastOf (s.adopt g key) := s.mapPast_pastOf _
theorem State.forget_pastOf (s : State) (key : Nat) : s.pastOf (s.forget key) := s.mapPast_pastOf _
theorem State.inherit_pastOf (s : State) (grid w : Nat) : s.pastOf (s.inherit grid w) := s.mapPast_pastOf _

/-- An acquire changes nothing but what its path has yet to see, and what it has heard (02 R48, R51). -/
theorem State.hear_pastOf (s : State) (g : Agent) (acq : Bool) (rels : List Rel) : s.pastOf (s.hear g acq rels) := by
  unfold State.hear
  split
  · rfl
  · dsimp only
    split
    · exact State.pastOf_trans (t := { s with sync := _ }) rfl (State.tell_pastOf ..)
    · rfl

theorem State.marked_pastOf (t s : State) (g : Agent) (cs : List (Nat × Option Nat)) : t.pastOf (t.marked s g cs) := rfl

/-- A read changes nothing but what its path has yet to see (02 R41). -/
theorem State.sawFrom_pastOf (t s : State) (g : Agent) (k : Nat) (e : Target) : t.pastOf (t.sawFrom s g k e) := by
  unfold State.sawFrom; split <;> rfl

/-- The same for a read with the releases that it reads. -/
theorem State.readBy_pastOf (t s : State) (g : Agent) (k : Nat) (acq : Bool) (e : Target) :
    t.pastOf (t.readBy s g k acq e) :=
  State.pastOf_trans (t.sawFrom_pastOf s g k e) (State.hear_pastOf ..)

theorem State.readNewest_pastOf (s : State) (g : Agent) (acq : Bool) (e : Target) : s.pastOf (s.readNewest g acq e) := by
  unfold State.readNewest
  split
  · rfl
  · exact State.pastOf_trans (s.marked_pastOf s g _) (State.hear_pastOf ..)

/-- A fence changes nothing else either (02 R51). -/
theorem State.fence_pastOf (s : State) (g : Agent) (kind : Nat) : s.pastOf (s.fence g kind) := by
  unfold State.fence
  split
  · rfl
  · dsimp only
    have h1 : ∀ p : Past → Bool, s.pastOf (if kind = 2 then s else s.tell p [(g.key, g.lanes)]) := by
      intro p; split
      · rfl
      · exact s.tell_pastOf ..
    generalize hs : (if kind = 2 then s else s.tell _ [(g.key, g.lanes)]) = s1
    have h1 : s.pastOf s1 := hs ▸ h1 _
    have h2 : ∀ f : Past → Past, s.pastOf (if kind = 3 then s1.mapPast f else s1) := by
      intro f; split
      · exact State.pastOf_trans h1 (s1.mapPast_pastOf f)
      · exact h1
    generalize hs : (if kind = 3 then s1.mapPast _ else s1) = s2
    have h2 : s.pastOf s2 := hs ▸ h2 _
    have h3 : ∀ y : Sync, s.pastOf (if kind = 1 then s2 else { s2.releaseBy g with sync := y }) := by
      intro y; split
      · exact h2
      · exact State.pastOf_trans h2 (State.pastOf_trans (s2.releaseBy_pastOf g) rfl)
    generalize hs : (if kind = 1 then s2 else { s2.releaseBy g with sync := _ }) = s3
    have h3 : s.pastOf s3 := hs ▸ h3 _
    split
    · exact State.pastOf_trans h3 (State.pastOf_trans (t := { s3 with sync := _ }) rfl (State.mapPast_pastOf ..))
    · exact h3

/-- A wait's effect on what its members have yet to see (02 R50). -/
theorem State.learnAll_pastOf (s : State) (a : Actor) (p : Nat → Past → Bool) : s.pastOf (s.learnAll a p) := by
  unfold State.learnAll
  split
  · exact s.pastOf_refl
  · exact State.pastOf_foldl (fun (t : State) (m : Member) => t.learn m.w m.act (p m.w))
      (fun t m => t.learn_pastOf m.w m.act (p m.w)) (s.liveMembers a) s

theorem State.reconverge_pastOf (s : State) (w : Nat) (m : Mask) : s.pastOf (s.reconverge w m) := by
  unfold State.reconverge
  dsimp only
  split
  · rfl
  · exact State.pastOf_trans (t := { s with sync := _ }) rfl (State.mapPast_pastOf ..)

theorem State.kvEnter_pastOf (s : State) (g : Agent) (objs : List Nat) : s.pastOf (s.kvEnter g objs) := by
  unfold State.kvEnter; split
  · rfl
  · exact s.hear_pastOf ..

theorem State.kvLeave_pastOf (s : State) (g : Agent) (objs : List Nat) : s.pastOf (s.kvLeave g objs) := by
  unfold State.kvLeave; split
  · rfl
  · exact State.pastOf_trans (s.releaseBy_pastOf g) rfl

/-! Where nothing is kept of any write, nothing is to be seen or learned. -/

@[simp] theorem State.mapPast_quiet (s : State) (f : Past → Past) (h : s.past = []) : s.mapPast f = s := by
  simp [State.mapPast, h]

@[simp] theorem State.releaseBy_quiet (s : State) (g : Agent) (h : s.past = []) : s.releaseBy g = s := by
  simp [State.releaseBy, State.publish, h]

@[simp] theorem State.fence_quiet (s : State) (g : Agent) (kind : Nat) (h : s.past = []) : s.fence g kind = s := by
  simp [State.fence, h]

@[simp] theorem State.learnAll_quiet (s : State) (a : Actor) (p : Nat → Past → Bool) (h : s.past = []) :
    s.learnAll a p = s := by
  simp [State.learnAll, h]

@[simp] theorem State.kvEnter_quiet (s : State) (g : Agent) (objs : List Nat) (h : s.past = []) : s.kvEnter g objs = s := by
  simp [State.kvEnter, h]

@[simp] theorem State.kvLeave_quiet (s : State) (g : Agent) (objs : List Nat) (h : s.past = []) : s.kvLeave g objs = s := by
  simp [State.kvLeave, h]

/-- A read sees memory as it stands (02 R53). -/
@[simp] theorem State.seeAt_quiet (s : State) (g : Agent) (k : Nat) (wr : Bool) (t : Target) (h : s.past = []) :
    s.seeAt g k wr t = s.readTarget k t := by
  simp [State.seeAt, h]

@[simp] theorem State.see_quiet (s : State) (g : Agent) (k : Nat) (t : Target) (h : s.past = []) :
    s.see g k t = s.readTarget k t := s.seeAt_quiet g k false t h

@[simp] theorem State.sawFrom_quiet (t s : State) (g : Agent) (k : Nat) (e : Target) (h : s.past = []) :
    t.sawFrom s g k e = t := by
  simp [State.sawFrom, h]

@[simp] theorem State.readBy_quiet (t s : State) (g : Agent) (k : Nat) (acq : Bool) (e : Target) (h : s.past = []) :
    t.readBy s g k acq e = t := by
  simp [State.readBy, State.relsRead, State.hear, h]

@[simp] theorem State.readNewest_quiet (s : State) (g : Agent) (acq : Bool) (e : Target) (h : s.past = []) :
    s.readNewest g acq e = s := by
  simp [State.readNewest, h]

/-- A write that no agent can miss is a plain one. -/
theorem State.putBy_quiet (s : State) (g : Agent) (k : Nat) (p : Put) (t : Target) (bs : List Byte) (h : s.past = [])
    (hm : s.missingAt g t = []) : s.putBy g k p t bs = s.writeTarget t bs := by
  simp [State.putBy, h, hm]

end Sys2Proof.Machine
end

