-- ==== Sys2Proof/Laws/PerInstr.lean ====
section
/-! SUPPORT. Facts about every instruction as syntax, one lemma per constructor. -/

namespace Sys2Proof.Laws.EncodedLength

open Sys2Proof.Machine

/-- 04 R90, 06 R144: the encoder lays out exactly the bytes of the instruction's length; an event has none. -/
def Statement (i : Instr) : Prop :=
  2 * (encode i).length = instrLength i ∧ (i.isWord = false → encode i = [])

/-- It holds of every place in the opcode map. -/
theorem of_form (i : Instr) : Statement i := by
  unfold Statement encode instrLength Instr.isWord
  cases h : form i with
  | rep f t =>
    dsimp only
    generalize form t = g
    cases g <;> simp [Form.units, Form.length, units32, units64]
  | _ => simp [Form.units, Form.length, units32, units64]

theorem nop (h : Hdr) (u : Upper) : Statement (.nop h u) := of_form _
theorem bra (h : Hdr) (u : Upper) : Statement (.bra h u) := of_form _
theorem brx (h : Hdr) (u : Upper) : Statement (.brx h u) := of_form _
theorem call (h : Hdr) (u : Upper) : Statement (.call h u) := of_form _
theorem callx (h : Hdr) (u : Upper) : Statement (.callx h u) := of_form _
theorem ret (h : Hdr) (u : Upper) : Statement (.ret h u) := of_form _
theorem rpush (h : Hdr) (u : Upper) : Statement (.rpush h u) := of_form _
theorem rjoin (h : Hdr) (u : Upper) : Statement (.rjoin h u) := of_form _
theorem exit (h : Hdr) (u : Upper) : Statement (.exit h u) := of_form _
theorem yield (h : Hdr) (u : Upper) : Statement (.yield h u) := of_form _
theorem trap (h : Hdr) (u : Upper) : Statement (.trap h u) := of_form _
theorem bpt (h : Hdr) (u : Upper) : Statement (.bpt h u) := of_form _
theorem reti (h : Hdr) (u : Upper) : Statement (.reti h u) := of_form _
theorem icmpp (h : Hdr) (u : Upper) : Statement (.icmpp h u) := of_form _
theorem fcmpp (h : Hdr) (u : Upper) : Statement (.fcmpp h u) := of_form _
theorem pbool (h : Hdr) (u : Upper) : Statement (.pbool h u) := of_form _
theorem pmov (h : Hdr) (u : Upper) : Statement (.pmov h u) := of_form _
theorem pcnt (h : Hdr) (u : Upper) : Statement (.pcnt h u) := of_form _
theorem pfirst (h : Hdr) (u : Upper) : Statement (.pfirst h u) := of_form _
theorem pqry (h : Hdr) (u : Upper) : Statement (.pqry h u) := of_form _
theorem mov (h : Hdr) (u : Upper) : Statement (.mov h u) := of_form _
theorem iadd (h : Hdr) (u : Upper) : Statement (.iadd h u) := of_form _
theorem isub (h : Hdr) (u : Upper) : Statement (.isub h u) := of_form _
theorem imul (h : Hdr) (u : Upper) : Statement (.imul h u) := of_form _
theorem imulhi (h : Hdr) (u : Upper) : Statement (.imulhi h u) := of_form _
theorem imad (h : Hdr) (u : Upper) : Statement (.imad h u) := of_form _
theorem imin (h : Hdr) (u : Upper) : Statement (.imin h u) := of_form _
theorem imax (h : Hdr) (u : Upper) : Statement (.imax h u) := of_form _
theorem iabs (h : Hdr) (u : Upper) : Statement (.iabs h u) := of_form _
theorem and (h : Hdr) (u : Upper) : Statement (.and h u) := of_form _
theorem or (h : Hdr) (u : Upper) : Statement (.or h u) := of_form _
theorem xor (h : Hdr) (u : Upper) : Statement (.xor h u) := of_form _
theorem not (h : Hdr) (u : Upper) : Statement (.not h u) := of_form _
theorem shl (h : Hdr) (u : Upper) : Statement (.shl h u) := of_form _
theorem shr (h : Hdr) (u : Upper) : Statement (.shr h u) := of_form _
theorem sar (h : Hdr) (u : Upper) : Statement (.sar h u) := of_form _
theorem rotl (h : Hdr) (u : Upper) : Statement (.rotl h u) := of_form _
theorem popc (h : Hdr) (u : Upper) : Statement (.popc h u) := of_form _
theorem clz (h : Hdr) (u : Upper) : Statement (.clz h u) := of_form _
theorem brev (h : Hdr) (u : Upper) : Statement (.brev h u) := of_form _
theorem bfx (h : Hdr) (u : Upper) : Statement (.bfx h u) := of_form _
theorem bfi (h : Hdr) (u : Upper) : Statement (.bfi h u) := of_form _
theorem sel (h : Hdr) (u : Upper) : Statement (.sel h u) := of_form _
theorem lea (h : Hdr) (u : Upper) : Statement (.lea h u) := of_form _
theorem fadd (h : Hdr) (u : Upper) : Statement (.fadd h u) := of_form _
theorem fsub (h : Hdr) (u : Upper) : Statement (.fsub h u) := of_form _
theorem fmul (h : Hdr) (u : Upper) : Statement (.fmul h u) := of_form _
theorem ffma (h : Hdr) (u : Upper) : Statement (.ffma h u) := of_form _
theorem fmin (h : Hdr) (u : Upper) : Statement (.fmin h u) := of_form _
theorem fmax (h : Hdr) (u : Upper) : Statement (.fmax h u) := of_form _
theorem frcp (h : Hdr) (u : Upper) : Statement (.frcp h u) := of_form _
theorem fdiv (h : Hdr) (u : Upper) : Statement (.fdiv h u) := of_form _
theorem fsqrt (h : Hdr) (u : Upper) : Statement (.fsqrt h u) := of_form _
theorem frsq (h : Hdr) (u : Upper) : Statement (.frsq h u) := of_form _
theorem fex2 (h : Hdr) (u : Upper) : Statement (.fex2 h u) := of_form _
theorem flg2 (h : Hdr) (u : Upper) : Statement (.flg2 h u) := of_form _
theorem fsin (h : Hdr) (u : Upper) : Statement (.fsin h u) := of_form _
theorem fcos (h : Hdr) (u : Upper) : Statement (.fcos h u) := of_form _
theorem fscale (h : Hdr) (u : Upper) : Statement (.fscale h u) := of_form _
theorem fclass (h : Hdr) (u : Upper) : Statement (.fclass h u) := of_form _
theorem movL (f : LForm) : Statement (.movL f) := of_form _
theorem iaddL (f : LForm) : Statement (.iaddL f) := of_form _
theorem isubL (f : LForm) : Statement (.isubL f) := of_form _
theorem imulL (f : LForm) : Statement (.imulL f) := of_form _
theorem imulhiL (f : LForm) : Statement (.imulhiL f) := of_form _
theorem imadL (f : LForm) : Statement (.imadL f) := of_form _
theorem iminL (f : LForm) : Statement (.iminL f) := of_form _
theorem imaxL (f : LForm) : Statement (.imaxL f) := of_form _
theorem iabsL (f : LForm) : Statement (.iabsL f) := of_form _
theorem andL (f : LForm) : Statement (.andL f) := of_form _
theorem orL (f : LForm) : Statement (.orL f) := of_form _
theorem xorL (f : LForm) : Statement (.xorL f) := of_form _
theorem notL (f : LForm) : Statement (.notL f) := of_form _
theorem shlL (f : LForm) : Statement (.shlL f) := of_form _
theorem shrL (f : LForm) : Statement (.shrL f) := of_form _
theorem sarL (f : LForm) : Statement (.sarL f) := of_form _
theorem rotlL (f : LForm) : Statement (.rotlL f) := of_form _
theorem popcL (f : LForm) : Statement (.popcL f) := of_form _
theorem clzL (f : LForm) : Statement (.clzL f) := of_form _
theorem brevL (f : LForm) : Statement (.brevL f) := of_form _
theorem bfxL (f : LForm) : Statement (.bfxL f) := of_form _
theorem bfiL (f : LForm) : Statement (.bfiL f) := of_form _
theorem selL (f : LForm) : Statement (.selL f) := of_form _
theorem leaL (f : LForm) : Statement (.leaL f) := of_form _
theorem faddL (f : LForm) : Statement (.faddL f) := of_form _
theorem fsubL (f : LForm) : Statement (.fsubL f) := of_form _
theorem fmulL (f : LForm) : Statement (.fmulL f) := of_form _
theorem ffmaL (f : LForm) : Statement (.ffmaL f) := of_form _
theorem fminL (f : LForm) : Statement (.fminL f) := of_form _
theorem fmaxL (f : LForm) : Statement (.fmaxL f) := of_form _
theorem frcpL (f : LForm) : Statement (.frcpL f) := of_form _
theorem fdivL (f : LForm) : Statement (.fdivL f) := of_form _
theorem fsqrtL (f : LForm) : Statement (.fsqrtL f) := of_form _
theorem frsqL (f : LForm) : Statement (.frsqL f) := of_form _
theorem fex2L (f : LForm) : Statement (.fex2L f) := of_form _
theorem flg2L (f : LForm) : Statement (.flg2L f) := of_form _
theorem fsinL (f : LForm) : Statement (.fsinL f) := of_form _
theorem fcosL (f : LForm) : Statement (.fcosL f) := of_form _
theorem fscaleL (f : LForm) : Statement (.fscaleL f) := of_form _
theorem fclassL (f : LForm) : Statement (.fclassL f) := of_form _
theorem movi (f : IForm) : Statement (.movi f) := of_form _
theorem movhi (f : IForm) : Statement (.movhi f) := of_form _
theorem iaddi (f : IForm) : Statement (.iaddi f) := of_form _
theorem andi (f : IForm) : Statement (.andi f) := of_form _
theorem ori (f : IForm) : Statement (.ori f) := of_form _
theorem xori (f : IForm) : Statement (.xori f) := of_form _
theorem shli (f : IForm) : Statement (.shli f) := of_form _
theorem shri (f : IForm) : Statement (.shri f) := of_form _
theorem sari (f : IForm) : Statement (.sari f) := of_form _
theorem rep (f : RepForm) (target : Instr) : Statement (.rep f target) := of_form _
theorem movS16 (f : SForm) : Statement (.movS16 f) := of_form _
theorem iaddS16 (f : SForm) : Statement (.iaddS16 f) := of_form _
theorem isubS16 (f : SForm) : Statement (.isubS16 f) := of_form _
theorem imulS16 (f : SForm) : Statement (.imulS16 f) := of_form _
theorem andS16 (f : SForm) : Statement (.andS16 f) := of_form _
theorem orS16 (f : SForm) : Statement (.orS16 f) := of_form _
theorem xorS16 (f : SForm) : Statement (.xorS16 f) := of_form _
theorem shlS16 (f : SForm) : Statement (.shlS16 f) := of_form _
theorem shrS16 (f : SForm) : Statement (.shrS16 f) := of_form _
theorem sarS16 (f : SForm) : Statement (.sarS16 f) := of_form _
theorem faddS16 (f : SForm) : Statement (.faddS16 f) := of_form _
theorem fsubS16 (f : SForm) : Statement (.fsubS16 f) := of_form _
theorem fmulS16 (f : SForm) : Statement (.fmulS16 f) := of_form _
theorem fminS16 (f : SForm) : Statement (.fminS16 f) := of_form _
theorem fmaxS16 (f : SForm) : Statement (.fmaxS16 f) := of_form _
theorem iminS16 (f : SForm) : Statement (.iminS16 f) := of_form _
theorem dwadd (h : Hdr) (u : Upper) : Statement (.dwadd h u) := of_form _
theorem dwsub (h : Hdr) (u : Upper) : Statement (.dwsub h u) := of_form _
theorem dwmul (h : Hdr) (u : Upper) : Statement (.dwmul h u) := of_form _
theorem dwnorm (h : Hdr) (u : Upper) : Statement (.dwnorm h u) := of_form _
theorem dwcvt (h : Hdr) (u : Upper) : Statement (.dwcvt h u) := of_form _
theorem shfl (h : Hdr) (u : Upper) : Statement (.shfl h u) := of_form _
theorem shflx (h : Hdr) (u : Upper) : Statement (.shflx h u) := of_form _
theorem rfirst (h : Hdr) (u : Upper) : Statement (.rfirst h u) := of_form _
theorem rlane (h : Hdr) (u : Upper) : Statement (.rlane h u) := of_form _
theorem wlane (h : Hdr) (u : Upper) : Statement (.wlane h u) := of_form _
theorem redstep (h : Hdr) (u : Upper) : Statement (.redstep h u) := of_form _
theorem red (h : Hdr) (u : Upper) : Statement (.red h u) := of_form _
theorem redcmp (h : Hdr) (u : Upper) : Statement (.redcmp h u) := of_form _
theorem scan (h : Hdr) (u : Upper) : Statement (.scan h u) := of_form _
theorem trn (h : Hdr) (u : Upper) : Statement (.trn h u) := of_form _
theorem cvt (h : Hdr) (u : Upper) : Statement (.cvt h u) := of_form _
theorem qblk (h : Hdr) (u : Upper) : Statement (.qblk h u) := of_form _
theorem dq (h : Hdr) (u : Upper) : Statement (.dq h u) := of_form _
theorem packh (h : Hdr) (u : Upper) : Statement (.packh h u) := of_form _
theorem unpackh (h : Hdr) (u : Upper) : Statement (.unpackh h u) := of_form _
theorem srd (h : Hdr) (u : Upper) : Statement (.srd h u) := of_form _
theorem swr (h : Hdr) (u : Upper) : Statement (.swr h u) := of_form _
theorem ldi (h : Hdr) (u : Upper) : Statement (.ldi h u) := of_form _
theorem ld (h : Hdr) (u : Upper) : Statement (.ld h u) := of_form _
theorem st (h : Hdr) (u : Upper) : Statement (.st h u) := of_form _
theorem lds (h : Hdr) (u : Upper) : Statement (.lds h u) := of_form _
theorem sts (h : Hdr) (u : Upper) : Statement (.sts h u) := of_form _
theorem ldf (h : Hdr) (u : Upper) : Statement (.ldf h u) := of_form _
theorem stf (h : Hdr) (u : Upper) : Statement (.stf h u) := of_form _
theorem atom (h : Hdr) (u : Upper) : Statement (.atom h u) := of_form _
theorem atoms (h : Hdr) (u : Upper) : Statement (.atoms h u) := of_form _
theorem fence (h : Hdr) (u : Upper) : Statement (.fence h u) := of_form _
theorem pref (h : Hdr) (u : Upper) : Statement (.pref h u) := of_form _
theorem ldrec (h : Hdr) (u : Upper) : Statement (.ldrec h u) := of_form _
theorem strec (h : Hdr) (u : Upper) : Statement (.strec h u) := of_form _
theorem barinit (h : Hdr) (u : Upper) : Statement (.barinit h u) := of_form _
theorem bararr (h : Hdr) (u : Upper) : Statement (.bararr h u) := of_form _
theorem barwait (h : Hdr) (u : Upper) : Statement (.barwait h u) := of_form _
theorem bartest (h : Hdr) (u : Upper) : Statement (.bartest h u) := of_form _
theorem barexp (h : Hdr) (u : Upper) : Statement (.barexp h u) := of_form _
theorem waitf (h : Hdr) (u : Upper) : Statement (.waitf h u) := of_form _
theorem waitc (h : Hdr) (u : Upper) : Statement (.waitc h u) := of_form _
theorem waitt (h : Hdr) (u : Upper) : Statement (.waitt h u) := of_form _
theorem tlarm (h : Hdr) (u : Upper) : Statement (.tlarm h u) := of_form _
theorem tlrd (h : Hdr) (u : Upper) : Statement (.tlrd h u) := of_form _
theorem flagrd (h : Hdr) (u : Upper) : Statement (.flagrd h u) := of_form _
theorem lcopy (h : Hdr) (u : Upper) : Statement (.lcopy h u) := of_form _
theorem bseal (h : Hdr) (u : Upper) : Statement (.bseal h u) := of_form _
theorem bwaitn (h : Hdr) (u : Upper) : Statement (.bwaitn h u) := of_form _
theorem bwaits (h : Hdr) (u : Upper) : Statement (.bwaits h u) := of_form _
theorem btest (h : Hdr) (u : Upper) : Statement (.btest h u) := of_form _
theorem tdef (h : Hdr) (u : Upper) : Statement (.tdef h u) := of_form _
theorem tload (h : Hdr) (u : Upper) : Statement (.tload h u) := of_form _
theorem tstore (h : Hdr) (u : Upper) : Statement (.tstore h u) := of_form _
theorem tmcast (h : Hdr) (u : Upper) : Statement (.tmcast h u) := of_form _
theorem tred (h : Hdr) (u : Upper) : Statement (.tred h u) := of_form _
theorem tpeer (h : Hdr) (u : Upper) : Statement (.tpeer h u) := of_form _
theorem omap (h : Hdr) (u : Upper) : Statement (.omap h u) := of_form _
theorem wbload (h : Hdr) (u : Upper) : Statement (.wbload h u) := of_form _
theorem mma (h : Hdr) (u : Upper) : Statement (.mma h u) := of_form _
theorem accz (h : Hdr) (u : Upper) : Statement (.accz h u) := of_form _
theorem accld (h : Hdr) (u : Upper) : Statement (.accld h u) := of_form _
theorem accdrain (h : Hdr) (u : Upper) : Statement (.accdrain h u) := of_form _
theorem kvwalk (h : Hdr) (u : Upper) : Statement (.kvwalk h u) := of_form _
theorem kvgather (h : Hdr) (u : Upper) : Statement (.kvgather h u) := of_form _
theorem kvappend (h : Hdr) (u : Upper) : Statement (.kvappend h u) := of_form _
theorem kvtrunc (h : Hdr) (u : Upper) : Statement (.kvtrunc h u) := of_form _
theorem kvfork (h : Hdr) (u : Upper) : Statement (.kvfork h u) := of_form _
theorem smerge (h : Hdr) (u : Upper) : Statement (.smerge h u) := of_form _
theorem acq (h : Hdr) (u : Upper) : Statement (.acq h u) := of_form _
theorem acqt (h : Hdr) (u : Upper) : Statement (.acqt h u) := of_form _
theorem rel (h : Hdr) (u : Upper) : Statement (.rel h u) := of_form _
theorem claimq (h : Hdr) (u : Upper) : Statement (.claimq h u) := of_form _
theorem fjoin (h : Hdr) (u : Upper) : Statement (.fjoin h u) := of_form _
theorem fleave (h : Hdr) (u : Upper) : Statement (.fleave h u) := of_form _
theorem flockset (h : Hdr) (u : Upper) : Statement (.flockset h u) := of_form _
theorem launch (h : Hdr) (u : Upper) : Statement (.launch h u) := of_form _
theorem spawn (h : Hdr) (u : Upper) : Statement (.spawn h u) := of_form _
theorem tdep (h : Hdr) (u : Upper) : Statement (.tdep h u) := of_form _
theorem tcancel (h : Hdr) (u : Upper) : Statement (.tcancel h u) := of_form _
theorem sliceyield (h : Hdr) (u : Upper) : Statement (.sliceyield h u) := of_form _
theorem region (h : Hdr) (u : Upper) : Statement (.region h u) := of_form _
theorem regionend (h : Hdr) (u : Upper) : Statement (.regionend h u) := of_form _
theorem stenq (h : Hdr) (u : Upper) : Statement (.stenq h u) := of_form _
theorem stdeq (h : Hdr) (u : Upper) : Statement (.stdeq h u) := of_form _
theorem ovfld (h : Hdr) (u : Upper) : Statement (.ovfld h u) := of_form _
theorem tlbinv (h : Hdr) (u : Upper) : Statement (.tlbinv h u) := of_form _
theorem ctxsave (h : Hdr) (u : Upper) : Statement (.ctxsave h u) := of_form _
theorem ctxload (h : Hdr) (u : Upper) : Statement (.ctxload h u) := of_form _
theorem qdestroy (h : Hdr) (u : Upper) : Statement (.qdestroy h u) := of_form _
theorem swrp (h : Hdr) (u : Upper) : Statement (.swrp h u) := of_form _
theorem halt (h : Hdr) (u : Upper) : Statement (.halt h u) := of_form _
theorem eret (h : Hdr) (u : Upper) : Statement (.eret h u) := of_form _
theorem fillerIssue (core quarter : Nat) : Statement (.fillerIssue core quarter) := of_form _
theorem throttleEntry (core : Nat) : Statement (.throttleEntry core) := of_form _
theorem throttleExit (core : Nat) : Statement (.throttleExit core) := of_form _
theorem stringBalanceLost (core quarter : Nat) : Statement (.stringBalanceLost core quarter) := of_form _
theorem powerInterval (part energyW creditW : Nat) : Statement (.powerInterval part energyW creditW) := of_form _
theorem operatingPointChange (mhz : Nat) : Statement (.operatingPointChange mhz) := of_form _
theorem yieldExpiry (w : Nat) : Statement (.yieldExpiry w) := of_form _
theorem thermalMigrate (core : Nat) : Statement (.thermalMigrate core) := of_form _
theorem thermalTrip (core : Nat) : Statement (.thermalTrip core) := of_form _
theorem railUndervolt (core : Nat) : Statement (.railUndervolt core) := of_form _
theorem railOvercurrent (core : Nat) : Statement (.railOvercurrent core) := of_form _
theorem coreUngate (core : Nat) : Statement (.coreUngate core) := of_form _
theorem powerGate (core : Nat) : Statement (.powerGate core) := of_form _
theorem loadDataReturn (w idx : Nat) : Statement (.loadDataReturn w idx) := of_form _
theorem storePerformed (w idx : Nat) : Statement (.storePerformed w idx) := of_form _
theorem shepherdTest (core : Nat) : Statement (.shepherdTest core) := of_form _
theorem rendezvousComplete (blk inst : Nat) : Statement (.rendezvousComplete blk inst) := of_form _
theorem handlerVector (w : Nat) : Statement (.handlerVector w) := of_form _
theorem waitcResume (w : Nat) : Statement (.waitcResume w) := of_form _
theorem barwaitResume (w : Nat) : Statement (.barwaitResume w) := of_form _
theorem waitfResume (w : Nat) : Statement (.waitfResume w) := of_form _
theorem waittResume (w : Nat) : Statement (.waittResume w) := of_form _
theorem batchWaitResume (w : Nat) : Statement (.batchWaitResume w) := of_form _
theorem bsealResume (w : Nat) : Statement (.bsealResume w) := of_form _
theorem relResume (w : Nat) : Statement (.relResume w) := of_form _
theorem fleaveResume (w : Nat) : Statement (.fleaveResume w) := of_form _
theorem fjoinResume (w : Nat) : Statement (.fjoinResume w) := of_form _
theorem flagrdResume (w : Nat) : Statement (.flagrdResume w) := of_form _
theorem stdeqResume (w : Nat) : Statement (.stdeqResume w) := of_form _
theorem stenqResume (w : Nat) : Statement (.stenqResume w) := of_form _
theorem launchQueueResume (w : Nat) : Statement (.launchQueueResume w) := of_form _
theorem lcopyTransferDone (op : Nat) : Statement (.lcopyTransferDone op) := of_form _
theorem engineAsyncFault (op : Nat) : Statement (.engineAsyncFault op) := of_form _
theorem engineReplay (op : Nat) : Statement (.engineReplay op) := of_form _
theorem tileAccept (w : Nat) : Statement (.tileAccept w) := of_form _
theorem tileOpComplete (op : Nat) : Statement (.tileOpComplete op) := of_form _
theorem tmcastDelivery (op rank : Nat) : Statement (.tmcastDelivery op rank) := of_form _
theorem mmaAFetch (w : Nat) : Statement (.mmaAFetch w) := of_form _
theorem wbloadFillDone (w : Nat) : Statement (.wbloadFillDone w) := of_form _
theorem mmaComplete (w : Nat) : Statement (.mmaComplete w) := of_form _
theorem acczAccldComplete (w : Nat) : Statement (.acczAccldComplete w) := of_form _
theorem accdrainComplete (w : Nat) : Statement (.accdrainComplete w) := of_form _
theorem matrixLateFault (w : Nat) : Statement (.matrixLateFault w) := of_form _
theorem kvgatherWalk (op : Nat) : Statement (.kvgatherWalk op) := of_form _
theorem kvPageDelivery (op page : Nat) : Statement (.kvPageDelivery op page) := of_form _
theorem kvReturnPass (op : Nat) : Statement (.kvReturnPass op) := of_form _
theorem kvappendStep (op : Nat) : Statement (.kvappendStep op) := of_form _
theorem smergeComplete (op : Nat) : Statement (.smergeComplete op) := of_form _
theorem pagerPageIn (part req : Nat) : Statement (.pagerPageIn part req) := of_form _
theorem pagerDemotion (part req : Nat) : Statement (.pagerDemotion part req) := of_form _
theorem dispatchDecision (part : Nat) : Statement (.dispatchDecision part) := of_form _
theorem blockRetire (blk : Nat) : Statement (.blockRetire blk) := of_form _
theorem deadlineMissed (grid : Nat) : Statement (.deadlineMissed grid) := of_form _
theorem budgetExhausted (blk : Nat) : Statement (.budgetExhausted blk) := of_form _
theorem regionGap (blk : Nat) : Statement (.regionGap blk) := of_form _
theorem preempt (blk reason : Nat) : Statement (.preempt blk reason) := of_form _
theorem waitForSample (part : Nat) : Statement (.waitForSample part) := of_form _
theorem systemHandler (part : Nat) (resolved : Bool) : Statement (.systemHandler part resolved) := of_form _
theorem eccUncorrectable (array : Nat) (phys : BitVec 64) (core w item : Nat) : Statement (.eccUncorrectable array phys core w item) := of_form _
theorem softErrorCorrect (array : Nat) : Statement (.softErrorCorrect array) := of_form _
theorem doorbell (part ring : Nat) (tail : BitVec 32) : Statement (.doorbell part ring tail) := of_form _
theorem hostPacketLaunch (part ring : Nat) : Statement (.hostPacketLaunch part ring) := of_form _
theorem hostPacketWait (part ring : Nat) : Statement (.hostPacketWait part ring) := of_form _
theorem rsizeWrite (part ring : Nat) (value : BitVec 32) : Statement (.rsizeWrite part ring value) := of_form _
theorem resume (part : Nat) (value : BitVec 32) : Statement (.resume part value) := of_form _
theorem evhead (part : Nat) (value : BitVec 32) : Statement (.evhead part value) := of_form _
theorem hostRegisterWrite (part offset : Nat) (value : BitVec 32) : Statement (.hostRegisterWrite part offset value) := of_form _
theorem pctlRun (part : Nat) : Statement (.pctlRun part) := of_form _
theorem pctlReset (part : Nat) : Statement (.pctlReset part) := of_form _
theorem partitionReset (part : Nat) : Statement (.partitionReset part) := of_form _
theorem partitionConfigure (part : Nat) (regions : List Nat) (memory : MemShare) (settings : PartSettings) : Statement (.partitionConfigure part regions memory settings) := of_form _
theorem stileCreate (number capacity producer consumer : Nat) : Statement (.stileCreate number capacity producer consumer) := of_form _
theorem stileDestroy (number : Nat) : Statement (.stileDestroy number) := of_form _
theorem liveUpdate (image : FwImage) : Statement (.liveUpdate image) := of_form _
theorem firmwareTakeover : Statement (.firmwareTakeover) := of_form _
theorem firmwareRollback : Statement (.firmwareRollback) := of_form _
theorem watchdog : Statement (.watchdog) := of_form _
theorem coldStart (selfTestPass : Bool) (image0 image1 : FwImage) : Statement (.coldStart selfTestPass image0 image1) := of_form _
theorem warmStart (image : FwImage) : Statement (.warmStart image) := of_form _
theorem failedStart (retry other : FwImage) : Statement (.failedStart retry other) := of_form _
theorem attestationRequest (nonce : BitVec 256) : Statement (.attestationRequest nonce) := of_form _
theorem telemetryRead : Statement (.telemetryRead) := of_form _
theorem linkRetrain (peer : Nat) : Statement (.linkRetrain peer) := of_form _
theorem linkDown (peer : Nat) : Statement (.linkDown peer) := of_form _
theorem peerTimeout (work : PeerWork) : Statement (.peerTimeout work) := of_form _
theorem ethDown (port : Nat) : Statement (.ethDown port) := of_form _
theorem hostMemoryWrite (phys : Nat) (bytes : List (BitVec 8)) : Statement (.hostMemoryWrite phys bytes) := of_form _
theorem peerAccess (kind : PeerAccess) : Statement (.peerAccess kind) := of_form _
theorem hostTimeout (part : Nat) (op : Option Nat) : Statement (.hostTimeout part op) := of_form _

end Sys2Proof.Laws.EncodedLength
end

