-- ==== Sys2Proof/Tests/Slice0.lean ====
section
/-! SUPPORT. Small tests: words of the manual's listings, ill-formed terms, worked examples of the manual, and for each
statement a state and operands that meet its hypotheses. -/

namespace Sys2Proof.Tests

open Sys2Proof Sys2Proof.Machine

set_option Elab.async false

/-! Decoding: words as the manual lists or encodes them, one for each group of the opcode map. -/

/-- 06 R138: `?p0 bra 2f` at offset 0x10 of the worked example, displacement 0x14. -/
theorem test_decode_ctrl : decodeTableWord 64 0x0000_0014_0000_2103 =
    some (.bra ⟨0, false, false, 0, false, 0, .lane⟩ (.xl 0x14)) := by decide +kernel
/-- 18: `icmpp.warp.ne p0, s22, s61`. -/
theorem test_decode_pred : decodeTableWord 64 0x0001_3D16_0007_4007 =
    some (.icmpp ⟨0, false, false, 0, false, 7, .warp⟩ (.x ⟨false, false, false, false, false, 0, 1, 61, 22⟩)) := by
  decide +kernel
/-- 18: `shl.warp s18, s2, 5`. -/
theorem test_decode_int : decodeTableWord 64 0x0000_0502_0127_6D0B =
    some (.shl ⟨0, false, false, 18, false, 7, .warp⟩ (.xi 2 5)) := by decide +kernel
/-- 08: `ffma.rz.f32 v10, v11, s12, -v13`. -/
theorem test_decode_fp : decodeTableWord 64 0x910D_0C0B_00A7_030F =
    some (.ffma ⟨0, false, false, 10, false, 7, .lane⟩ (.x ⟨true, false, false, true, false, 1, 13, 12, 11⟩)) := by
  decide +kernel
/-- 09: `dwadd v14, v10, v12`. -/
theorem test_decode_dw : decodeTableWord 64 0x0000_0C0A_00E7_0013 =
    some (.dwadd ⟨0, false, false, 14, false, 7, .lane⟩ (.x ⟨false, false, false, false, false, 0, 0, 12, 10⟩)) := by
  decide +kernel
/-- 09: `shflx.xor v5, v6, s2, 8`. -/
theorem test_decode_xlane : decodeTableWord 64 0x100F_0206_0057_0117 =
    some (.shflx ⟨0, false, false, 5, false, 7, .lane⟩ (.x ⟨false, false, false, true, false, 0, 15, 2, 6⟩)) := by
  decide +kernel
/-- 09: `packh.bf16 v2, v4, v5`. -/
theorem test_decode_cvt : decodeTableWord 64 0x0000_0504_C027_031B =
    some (.packh ⟨3, false, false, 2, false, 7, .lane⟩ (.x ⟨false, false, false, false, false, 0, 0, 5, 4⟩)) := by
  decide +kernel
/-- 18: `srd.warp s0, ARGLO`. -/
theorem test_decode_spec : decodeTableWord 64 0x0025_0000_0007_401F =
    some (.srd ⟨0, false, false, 0, false, 7, .warp⟩ (.x ⟨false, false, false, false, false, 0, 37, 0, 0⟩)) := by
  decide +kernel
/-- 10: `atom.add.b32.device v5, [s4 + v2*4]`. -/
theorem test_decode_mem : decodeTableWord 64 0x0011_4084_1057_0623 =
    some (.atom ⟨0, false, true, 5, false, 7, .lane⟩ (.m ⟨0, false, 0, 4, 2, true, 2, 4⟩)) := by decide +kernel
/-- 17: `waitf.warp.ge.glb s10, [s0], s11, s12`. -/
theorem test_decode_sync : decodeTableWord 64 0x000C_0B00_20A7_4527 =
    some (.waitf ⟨0, true, false, 10, false, 7, .warp⟩ (.x ⟨false, false, false, false, false, 0, 12, 11, 0⟩)) := by
  decide +kernel
/-- 14: `waitt.warp tl0, s4`. -/
theorem test_decode_wait : decodeTableWord 64 0x0000_0004_0007_412B =
    some (.waitt ⟨0, false, false, 0, false, 7, .warp⟩ (.x ⟨false, false, false, false, false, 0, 0, 0, 4⟩)) := by
  decide +kernel
/-- 15: `lcopy.v8.b32 v2, [s8 + v1*32]`. -/
theorem test_decode_lcopy : decodeTableWord 64 0x0002_C048_0027_002F =
    some (.lcopy ⟨0, false, false, 2, false, 7, .lane⟩ (.m ⟨0, false, 0, 0, 5, true, 1, 8⟩)) := by decide +kernel
/-- 14: `tload.warp s4, h3, s16, tl0`. -/
theorem test_decode_tile : decodeTableWord 64 0x0000_0310_0047_4133 =
    some (.tload ⟨0, false, false, 4, false, 7, .warp⟩ (.x ⟨false, false, false, false, false, 0, 0, 3, 16⟩)) := by
  decide +kernel
/-- 18: `mma.warp.bf16 acc0, o0, w0, s61`. -/
theorem test_decode_mma : decodeTableWord 64 0x003D_0000_3007_4237 =
    some (.mma ⟨0, true, true, 0, false, 7, .warp⟩ (.x ⟨false, false, false, false, false, 0, 61, 0, 0⟩)) := by
  decide +kernel
/-- 18: `kvgather.warp.v s4, s16, tl0`. -/
theorem test_decode_kv : decodeTableWord 64 0x4000_0010_0047_413B =
    some (.kvgather ⟨0, false, false, 4, false, 7, .warp⟩ (.x ⟨false, true, false, false, false, 0, 0, 0, 16⟩)) := by
  decide +kernel
/-- 12: `acq.warp.eng s2, s3`. -/
theorem test_decode_grant : decodeTableWord 64 0x0000_0003_4027_403F =
    some (.acq ⟨1, false, false, 2, false, 7, .warp⟩ (.x ⟨false, false, false, false, false, 0, 0, 0, 3⟩)) := by
  decide +kernel
/-- 19: `launch.warp s4, s8, s10`. -/
theorem test_decode_task : decodeTableWord 64 0x0000_0A08_0047_4043 =
    some (.launch ⟨0, false, false, 4, false, 7, .warp⟩ (.x ⟨false, false, false, false, false, 0, 0, 10, 8⟩)) := by
  decide +kernel
/-- 04 R93, R95, 21 R360: OVFLD (major 0x11, function 0) at warp scope, vd 4, va 8, vb 9, written out field by field. -/
theorem test_decode_sys : decodeTableWord 64 0b00000000_00000000_00001001_00001000_00_0_0_00000100_0_111_01_0_00000_010001_11 =
    some (.ovfld ⟨0, false, false, 4, false, 7, .warp⟩ (.x ⟨false, false, false, false, false, 0, 0, 9, 8⟩)) := by
  decide +kernel
/-- 06 R138: `isub v3, v1, v2` in the L form. -/
theorem test_decode_l : decodeTableWord 32 0x0201_0309 = some (.isubL ⟨3, 1, 2⟩) := by decide +kernel
/-- 08: `movi v1, 100`. -/
theorem test_decode_i : decodeTableWord 32 0x0064_01C1 = some (.movi ⟨1, 100⟩) := by decide +kernel
/-- 08: `fmin v1, 3` in the 16-bit form. -/
theorem test_decode_s : decodeTableWord 16 0x8C3A = some (.fminS16 ⟨true, 3, 1⟩) := by decide +kernel
/-- 04: `rep 4, da, 1` with its target `fadd v0, v8, v16`. -/
theorem test_decode_rep : decodeTableWord 64 0x1008_0061_0000_C3BD =
    some (.rep ⟨0, false, false, true, true, 3⟩ (.faddL ⟨0, 8, 16⟩)) := by decide +kernel
/-- 04 R101, R103: majors 40 to 46 of the 32-bit space are no instructions. -/
theorem test_decode_reserved : decodeTableWord 32 0xA1 = none := by decide +kernel
/-- 04 R101 to R107: the encoder gives the manual's own units back. -/
theorem test_encode : encode (.rep ⟨0, false, false, true, true, 3⟩ (.faddL ⟨0, 8, 16⟩)) = [0xC3BD, 0x0000, 0x0061, 0x1008] ∧
    encode (.fminS16 ⟨true, 3, 1⟩) = [0x8C3A] ∧
    encode (.tload ⟨0, false, false, 4, false, 7, .warp⟩ (.x ⟨false, false, false, false, false, 0, 0, 3, 16⟩)) =
      [0x4133, 0x0047, 0x0310, 0x0000] := by decide +kernel

/-! Well-formedness: a term that passes, and for each check one that it refuses (04 R110). -/

/-- A header at lane scope, width 32, register 1, all lanes. -/
def hdr : Hdr := ⟨0, false, false, 1, false, 7, .lane⟩
/-- The same at warp scope. -/
def hdrW : Hdr := { hdr with scope := .warp }
/-- An X form that names registers 2, 3 and 0. -/
def xf : XForm := ⟨false, false, false, false, false, 0, 0, 3, 2⟩

theorem test_wellFormed : (Instr.iadd hdr (.x xf)).wellFormed = true := by decide +kernel
/-- Check 4: INT at flock scope (08 R168). -/
theorem test_ill_scope : (Instr.iadd { hdr with scope := .flock } (.x xf)).wellFormed = false := by decide +kernel
/-- Check 5: a rounding field that IADD does not use (04 R100). -/
theorem test_ill_field : (Instr.iadd hdr (.x { xf with rnd := 1 })).wellFormed = false := by decide +kernel
/-- Check 6: an odd pair at width 64 (03 R84). -/
theorem test_ill_pair : check (.iadd { hdr with width := 1 } (.x xf)) = some 0x14 := by decide +kernel
/-- REP before an instruction that cannot be repeated (04 R103). -/
theorem test_ill_rep : (Instr.rep ⟨0, false, false, true, true, 3⟩ (.nop hdr (.x xf))).wellFormed = false := by
  decide +kernel
/-- An event is no word. -/
theorem test_ill_event : Instr.telemetryRead.wellFormed = false := by decide +kernel

/-! Worked examples of the manual, each one instruction. -/

/-- A device in which warp 0, alone in its block, issues next (log 7). -/
def base : State := State.reset.withProgram
/-- `base` with its warp changed. -/
def warpIs (f : Warp → Warp) : State := base.updWarp 0 f
/-- `base` with its block changed. -/
def blockIs (f : Block → Block) : State := base.updBlock 0 f
/-- The state after an instruction; the state before where it does not go on. -/
def after (i : Instr) (s : State) : State :=
  match exec i s with
  | .next t => t
  | _ => s
/-- Lane `l` of v`r` after an instruction. -/
def laneAfter (i : Instr) (s : State) (r l : Nat) : Word := ((after i s).warp 0).rawV r l
/-- s`r` after an instruction. -/
def uniAfter (i : Instr) (s : State) (r : Nat) : Word := ((after i s).warp 0).rawS r
/-- STICKY after an instruction. -/
def stickyAfter (i : Instr) (s : State) : Word := ((after i s).warp 0).sticky
/-- An X form at lane scope, all lanes, of `vd`, `va` and `vb`. -/
def x3 (c : Hdr → Upper → Instr) (vd va vb : BitVec 8) : Instr :=
  c { hdr with vd := vd } (.x { xf with va := va, vb := vb })

/-- 03 R85: fadd.x 1.0 + 2^−30 at FP32: value, error term and NX. -/
theorem test_fadd_pair :
    let s := warpIs (fun x => (x.writeV 2 0 0x3F80_0000).writeV 3 0 0x3080_0000)
    let i := Instr.fadd { hdr with x := true, vd := 4 } (.x xf)
    laneAfter i s 4 0 = 0x3F80_0000 ∧ laneAfter i s 5 0 = 0x3080_0000 ∧ stickyAfter i s = 0x10 := by decide +kernel
/-- 03 R86: fadd.x of the largest finite value to itself: infinity, the error-unavailable NaN, OF, NX and ER. -/
theorem test_fadd_overflow :
    let s := warpIs (fun x => (x.writeV 2 0 0x7F7F_FFFF).writeV 3 0 0x7F7F_FFFF)
    let i := Instr.fadd { hdr with x := true, vd := 4 } (.x xf)
    laneAfter i s 4 0 = 0x7F80_0000 ∧ laneAfter i s 5 0 = 0x7FC0_0001 ∧ stickyAfter i s = 0x34 := by decide +kernel
/-- 03 R85: fmul.x of 2^−60 (1 + 2^−23) by itself: the error is below the subnormal range. -/
theorem test_fmul_pair :
    let s := warpIs (fun x => (x.writeV 2 0 0x2180_0001).writeV 3 0 0x2180_0001)
    let i := Instr.fmul { hdr with x := true, vd := 4 } (.x xf)
    laneAfter i s 4 0 = 0x0380_0002 ∧ laneAfter i s 5 0 = 0 ∧ stickyAfter i s = 0x30 := by decide +kernel
/-- 09 R187: the worked double-word sum. -/
theorem test_dwadd :
    let s := warpIs (fun x => (((x.writeV 10 0 0x3F80_0000).writeV 11 0 0x3080_0000).writeV 12 0 0x3380_0000).writeV 13 0
      0x3080_0000)
    let i := Instr.dwadd { hdr with vd := 14 } (.x { xf with va := 10, vb := 12 })
    laneAfter i s 14 0 = 0x3F80_0001 ∧ laneAfter i s 15 0 = 0xB378_0000 ∧ stickyAfter i s = 0 := by decide +kernel
/-- 03 R74: 1.046875 to T8 under dither with DCTR 2 in lane 5. -/
theorem test_cvt_dither :
    let s := warpIs (fun x => { x.writeV 4 5 0x3F86_0000 with dctr := 2 })
    let i := Instr.cvt { hdr with vd := 3 } (.x ⟨false, false, false, false, false, 4, 4, 0, 4⟩)
    laneAfter i s 3 5 = 0x40 ∧ ((after i s).warp 0).dctr = 3 ∧ (stickyAfter i s).getLsbD 4 = true := by decide +kernel
/-- 03 R77: the FP64 value 3.5 x 10^38 to FP32 under RZ is the largest finite value, with OF and NX. -/
theorem test_cvt_overflow :
    let s := warpIs (fun x => { (x.writeV 4 0 0x0000_0000).writeV 5 0 0x47F0_7500 with active := 1 })
    let i := Instr.cvt { hdr with vd := 3 } (.x ⟨false, false, false, false, false, 1, 0x10, 0, 4⟩)
    (laneAfter i s 3 0 = 0x7F7F_FFFF ∧ stickyAfter i s = 0x14) := by decide +kernel
/-- 09 R202: quantising 3.0, 0.6, −1.2, 0.1 to a T4 block. -/
theorem test_qblk :
    let s := warpIs (fun x => (((x.writeV 8 0 0x4040_0000).writeV 9 0 0x3F19_999A).writeV 10 0 0xBF99_999A).writeV 11 0
      0x3DCC_CCCD)
    let i := Instr.qblk { hdr with vd := 20 } (.x ⟨false, false, false, false, false, 0, 8, 30, 8⟩)
    laneAfter i s 20 0 = 0x000C_0206 ∧ laneAfter i s 20 1 = 0 ∧ laneAfter i s 30 7 = 0x7F ∧ laneAfter i s 30 8 = 0 ∧
      stickyAfter i s = 0x18 := by decide +kernel
/-- Four lanes hold 1.0, 2^−24, 2^−24 and −1.0 in v10 (09 R195 to R197). -/
def fourLanes : State :=
  warpIs (fun x => { (((x.writeV 10 0 0x3F80_0000).writeV 10 1 0x3380_0000).writeV 10 2 0x3380_0000).writeV 10 3
    0xBF80_0000 with active := 0xF })
theorem test_red : uniAfter (.red { hdrW with vd := 6 } (.x { xf with va := 10, vb := 0 })) fourLanes 6 = 0x3380_0000 := by
  decide +kernel
theorem test_redcmp :
    uniAfter (.redcmp { hdrW with vd := 4 } (.x { xf with va := 10, vb := 0 })) fourLanes 4 = 0 ∧
      uniAfter (.redcmp { hdrW with vd := 4 } (.x { xf with va := 10, vb := 0 })) fourLanes 5 = 0x3400_0000 ∧
      uniAfter (.redcmp { hdrW with vd := 4 } (.x { xf with va := 10, vb := 0, vc := 1 })) fourLanes 4 = 0x3400_0000 := by
  decide +kernel
/-- The scan of the same lanes: 1.0, 1.0, 1.0, 0. -/
theorem test_scan :
    let i := Instr.scan { hdr with vd := 12 } (.x { xf with va := 10, vb := 0 })
    laneAfter i fourLanes 12 0 = 0x3F80_0000 ∧ laneAfter i fourLanes 12 2 = 0x3F80_0000 ∧ laneAfter i fourLanes 12 3 = 0 ∧
      stickyAfter i fourLanes = 0x10 := by decide +kernel

/-- 06 R138: `?p0 bra 2f` of the worked example, at offset 0x10 with lanes 0 to 9 in p0: the taken lanes go first, and the
others are pending at the next instruction. -/
theorem test_bra_split :
    let s := warpIs (fun x => { x with p := [(0, 0x3FF)], dstack := [.reconv 0x10_0018 0xFFFFFFFF] })
    let x := (after (.bra { hdr with pred := 0, vd := 0 } (.xl 0x14)) s).warp 0
    x.pc = 0x10_0014 ∧ x.active = 0x3FF ∧ x.dstack = [.pending 0x10_0008 0xFFFFFC00, .reconv 0x10_0018 0xFFFFFFFF] := by
  decide +kernel
/-- 06 R137: RJOIN resumes the pending path, with the reconvergence entry left. -/
theorem test_rjoin_pending :
    let s := warpIs (fun x => { x with active := 0x3FF, dstack := [.pending 0x10_0008 0xFFFFFC00, .reconv 0x10_0000 0xFFFFFFFF] })
    let x := (after (.rjoin { hdr with vd := 0 } (.x { xf with va := 0, vb := 0 })) s).warp 0
    x.pc = 0x10_0008 ∧ x.active = 0xFFFFFC00 ∧ x.dstack = [.reconv 0x10_0000 0xFFFFFFFF] := by decide +kernel
/-- A block of the worked example of 12 R233 with a claim and an allocation of SCR. -/
def side (u claim alloc : Nat) : Side :=
  ⟨u, [claim, 0, 0, 0, 0, 0, 0, 0, 0, 0], [alloc, 0, 0, 0, 0, 0, 0, 0, 0, 0]⟩
/-- 12 R233: Q's request of 2 is granted; P's of 1 after it is not; Q's of 1 is, P's being the oldest deferred. -/
theorem test_shepherd :
    let q := fun n => [n, 0, 0, 0, 0, 0, 0, 0, 0, 0]
    testPasses [side 0 6 4, side 1 5 2, side 2 128 119] none 1 (q 2) = true ∧
      testPasses [side 0 6 4, side 1 5 4, side 2 128 119] none 0 (q 1) = false ∧
      testPasses [side 0 6 4, side 1 5 4, side 2 128 119] (some (q 1)) 1 (q 1) = true := by decide +kernel
/-- 08 R172: a sum wraps modulo 2^32. -/
theorem test_iadd_wrap :
    let s := warpIs (fun x => (x.writeV 2 31 0xFFFF_FFFF).writeV 3 31 2)
    laneAfter (x3 .iadd 1 2 3) s 1 31 = 1 ∧ laneAfter (x3 .iadd 1 2 3) s 1 0 = 0 := by decide +kernel
/-- 04 R104: the immediate of MOVI is sign-extended. -/
theorem test_movi : laneAfter (.movi ⟨7, 0xFFFE⟩) base 7 0 = 0xFFFF_FFFE := by decide +kernel
/-- 06 R140: TRAP 3 is recorded past itself, with the selected lanes. -/
theorem test_trap :
    let t := after (.trap { hdr with vd := 0 } (.x { xf with va := 0, vb := 0, vc := 3 })) base
    (t.warp 0).pc = 0x10_0008 ∧ memRead t.mem 0x8000 = 3 ∧ (t.part 0).frTail = 1 ∧ (t.warp 0).susp.isSome = true := by
  decide +kernel
/-- 10 R208: STS then a read of scratch, little-endian. -/
theorem test_sts :
    let s := blockIs (fun b => { b with alloc := [1, 0, 32, 0, 0, 0, 0, 0, 0, 0], scrEpochs := [0] })
    let s := s.updWarp 0 (fun x => { x.writeS 5 0x1122_3344 with active := 1 })
    let t := after (.sts { hdrW with vd := 5 } (.m ⟨0, false, 0, 0, 2, false, 0, 6⟩)) s
    (t.block 0).scrByte 0 = 0x44 ∧ (t.block 0).scrByte 3 = 0x11 ∧ (t.warp 0).stores.length = 1 := by decide +kernel
/-- 12 R245: the last of two arrivals completes the phase. -/
theorem test_bararr :
    let b := Bar.mk 2 1 7 0 0 0 0 0
    b.step 1 0 = some ⟨2, 2, 8, 0, 0, 0, 0, 0⟩ ∧ b.step 2 0 = none := by decide +kernel

/-! Witnesses: for each statement, states and operands that meet its hypotheses, clause by clause. -/

theorem wit_DecodeEncode : (Instr.iadd hdr (.x xf)).wellFormed = true := by decide +kernel

/-- ISUB placed where the next step fetches. -/
def placed : State := base.withFetchWord 32 0x0201_0309
/-- The core of `base` changed. -/
def coreIs (f : Core → Core) : State := base.updCore 0 f
/-- A warp whose TLARM is due, waiting in a WAITT. -/
def armed : State :=
  let i : Instr := .waitt { hdrW with vd := 0 } (.x { xf with va := 4, vb := 0 })
  (blockIs (fun b => { b with timelines := [⟨0, 1, []⟩, ⟨0, 0, []⟩] })).updWarp 0 (fun x =>
    { x with arming := some ⟨0, 0, 0x10_0040, 0⟩, wait := some ⟨.timeline, i, base.selfActor 0 i, [1]⟩ })

theorem wit_StepRunsDecoded :
    placed.agenda = [] ∧ placed.focus = some 0 ∧ (placed.warps.find 0).isSome = true ∧
      (placed.core (placed.warp 0).core).gated = false ∧ placed.nextTurn (placed.warp 0).core = .slot (.warp 0) ∧
      ({ placed.endTurn (placed.warp 0).core with focus := some 0 } : State).decodeAt 0 = .ok (.isubL ⟨3, 1, 2⟩) := by
  decide +kernel
/-- The other turns: the clock's end, a trap and a handler that are due, filler, and a slot in which nothing issues. -/
theorem wit_StepRunsDecoded_turns :
    4 ≤ ((coreIs (fun c => { c with turn := 4 })).core 0).turn ∧
      (warpIs (fun x => { x with asyncTraps := [⟨0x44, 0, 0, 0⟩] })).nextTurn 0 = .boundary 0 ∧ armed.nextTurn 0 = .vector 0 ∧
      (warpIs (fun x => { x with live := 0 })).nextTurn 0 = .slot .nothing ∧
      ((coreIs (fun c => { c with window := [[0, 4000, 0, 0]] })).updWarp 0 (fun x => { x with live := 0 })).nextTurn 0 =
        .slot .filler := by decide +kernel
theorem wit_StepRunsDecoded_selection :
    (base.core 0).gated = false ∧ base.stopped 0 = false ∧ base.stalled 0 (base.partOfCore 0) = false ∧
      (base.core 0).heldBack = false ∧ base.readyWarps 0 0 = [0] ∧ (base.warp 0).age < 256 ∧ base.instDue 0 0 = none ∧
      base.deficit 0 0 = false := by decide +kernel
theorem wit_StepRunsDecoded_event :
    let s := { base with agenda := [Move.event .telemetryRead] }
    s.agenda = .event .telemetryRead :: [] ∧ Instr.telemetryRead.isWord = false := by decide +kernel
theorem wit_StepRunsDecoded_turn :
    let s := { base with agenda := [Move.turn 0] }
    s.agenda = .turn 0 :: [] ∧ (s.core 0).gated = false ∧ s.abreast 0 = true := by decide +kernel

/-- Two cores with a block, core 0 ahead of core 1 by a clock: core 0 waits for it. -/
def ahead : State :=
  let two := { base with blocks := base.blocks.put 1 { base.block 0 with core := 1 } }
  two.updCore 0 (fun c => { c with lap := 1 })
theorem wit_StepRunsDecoded_abreast :
    base.abreast 0 = true ∧ ahead.abreast 0 = false ∧ ahead.decisionDue (ahead.partOfCore 0) = false ∧
      (∃ c rest, (ahead.busyCores (ahead.partOfCore 0)).filter ahead.abreast = c :: rest) ∧
      (let s := { ahead with agenda := [Move.turn 0] }
       s.agenda = .turn 0 :: [] ∧ (s.core 0).gated = false ∧ s.abreast 0 = false) := by
  refine ⟨by decide +kernel, by decide +kernel, by decide +kernel, ⟨1, [], by decide +kernel⟩, by decide +kernel⟩
/-- The events of a clock that has passed wait for the dispatcher, whose decision goes before. -/
theorem wit_StepRunsDecoded_due :
    let s := (base.updPart 0 (fun p => { p with events := some 0 })).updCore 0 (fun c => { c with lap := 1 })
    s.decisionDue (s.partOfCore 0) = true ∧ (s.bump.decideStep 0).isSome = true ∧ s.abreast 0 = false ∧
      ({ s with agenda := [Move.turn 0] } : State).agenda = [Move.turn 0] := by decide +kernel
theorem wit_StepKeepsInv : Inv State.reset ∧ step State.reset = .next { State.reset with timeNs := 1 } :=
  ⟨by unfold Inv; decide, rfl⟩

/-- The agent of a lane copy of warp 0, and the release that its completion is. -/
def copier : Agent := ⟨workKey 1, 1, 2, 0, noFlock, 0, false⟩
def copied : Rel := ⟨.copy 0 0 1, ⟨workKey 1, 2, 0, noFlock, []⟩, true⟩
/-- A byte that a copy of warp 0 has written over 7, which lanes 0 and 1 of the warp have not seen. -/
def raced : State :=
  { base with past := [(memKey 0x2_0800, [⟨⟨3, workKey 1, memKey 0x2_0800, 0⟩, 7, [], copied.origin, false, 2, [(0, 3)],
    [(workKey 1, 1)], [.copy 0 0 1]⟩])] }
theorem wit_RaceRules :
    let t : Target := .glob [(.phys 0x2_0800, 1)]
    let g := base.path 0 1 0
    (∀ q ∈ base.keysOf t, base.pastAt q = []) ∧ Inv base ∧ (raced.keysOf t)[0]? = some (some (memKey 0x2_0800)) ∧
      ((raced.see g 0 t)[0]?).isSome = true ∧
      (∃ r ∈ ((raced.publish copier (.access 9 7 0)).past.find (memKey 0x2_0800)).getD [], r.knownBy copier = true) ∧
      raced.syncs g copied = true ∧ g.lanes ≠ 0 ∧
      (∃ r ∈ ((raced.hear g true [copied]).past.find (memKey 0x2_0800)).getD [], r.carries copied.msg = true) := by
  unfold Inv; decide +kernel

/-- A partition whose fault ring and both held lists are full. -/
def noRoom : State :=
  base.updPart 0 (fun p =>
    { p with frTail := 16, heldRecs := List.replicate 64 (0, base.recordOf (base.selfActor 0 (.nop hdr (.x xf))) 0
      (FaultInfo.of 0 0), none) })

/-- IADD with a rounding field, and a block barrier with one, both refused by check 5. -/
theorem wit_CheckFaults :
    let i := Instr.iadd hdr (.x { xf with rnd := 1 })
    let j := Instr.nop { hdr with vd := 0, scope := .block } (.x { xf with vb := 0, va := 0, rnd := 1 })
    base.focus = some 0 ∧ base.ready 0 = true ∧ base.precheck 0 i = some 0x11 ∧ i.isWord = true ∧ base.precheck 0 j = some 0x11 ∧
      j.isWord = true ∧ scopeOfInstr j = .block ∧ Room base 0 := by
  unfold Room; decide +kernel
theorem wit_CheckFaults_noRoom :
    let i := Instr.iadd hdr (.x { xf with rnd := 1 })
    noRoom.focus = some 0 ∧ noRoom.ready 0 = true ∧ noRoom.precheck 0 i = some 0x11 ∧ ¬ Room noRoom 0 := by
  unfold Room; decide +kernel

theorem wit_IssueConditions :
    let i := Instr.iadd hdrW (.x xf)
    State.reset.focus = none ∧ i.isWord = true ∧
      (let s := warpIs (fun x => { x with live := 0 })
       s.focus = some 0 ∧ (s.warps.find 0).isSome = true ∧ s.ready 0 = false) ∧
      (let j := Instr.iadd { hdrW with pneg := true } (.x xf)
       Runs base 0 j ∧ scopeOfInstr j = .warp ∧ (base.warp 0).selected j = 0) := by
  unfold Runs; decide +kernel
theorem wit_IssueConditions_poison :
    let i := Instr.iadd hdr (.x xf)
    let s := warpIs (fun x => { x with vPoison := [2] })
    Runs s 0 i ∧ scopeOfInstr i = .lane ∧ (started s 0 i).readsPoison (s.selfActor 0 i) i = true := by
  unfold Runs; decide +kernel

theorem wit_IntResults :
    let i := Instr.iadd hdr (.x xf)
    (form i).expand = some (2, 1, hdr, .x xf) ∧ Solo base 0 i ∧
      ∀ l ∈ lanesDone base 0 i, (intLane 1 (intFn 1 (.x xf)) hdr (.x xf) (base.selfActor 0 i) (started base 0 i) (base.warp 0) l).mark
        = false := by
  unfold Solo Runs; decide +kernel
/-- A short form, and one at warp scope. -/
theorem wit_IntResults_forms :
    (form (.iaddS16 ⟨true, 3, 5⟩)).expand.isSome = true ∧ Solo base 0 (.iaddS16 ⟨true, 3, 5⟩) ∧
      Solo base 0 (.movi ⟨7, 0xFFFE⟩) ∧ Solo base 0 (.isubL ⟨3, 1, 2⟩) ∧ Solo base 0 (.iadd hdrW (.x xf)) := by
  unfold Solo Runs; decide +kernel

/-- The least width of a function of INT, and sums on either side of both ends of its signed range. -/
theorem wit_IntFunctions :
    8 ∈ [8, 16, 32, 64] ∧ (0x7F : BitVec 8).toInt + (1 : BitVec 8).toInt = 2 ^ 7 ∧
      (0x7E : BitVec 8).toInt + (1 : BitVec 8).toInt = 2 ^ 7 - 1 ∧
      (0x80 : BitVec 8).toInt + (0xFF : BitVec 8).toInt = -(2 ^ 7) - 1 ∧
      (0x81 : BitVec 8).toInt + (0xFF : BitVec 8).toInt = -(2 ^ 7) := by decide

theorem wit_FpResults :
    let i := Instr.fadd hdr (.x xf)
    let f := fpLane 0 (fpFn 0) hdr (.x xf) (base.selfActor 0 i) (started base 0 i) (base.warp 0)
    (form i).expand = some (3, 0, hdr, .x xf) ∧ Solo base 0 i ∧
      enabledFlags (base.warp 0).trapen (fpGroup hdr.width) (flagsDone base 0 i f) = 0 := by
  unfold Solo Runs; decide +kernel

/-- Finite operands of FP32, with a sum that is not zero and one that is, and a square root's. -/
theorem wit_FpResults_rounded :
    let q (a b : Machine.Num) : FpArgs := ⟨fp32, 0, Rnd.rne 0, false, a, b, .fin false 0 0, 0, 0⟩
    (q (.fin false 3 (-1)) (.fin true 1 0)).f ∈ [fp32, fp64, fp16, bf16] ∧
      (q (.fin false 3 (-1)) (.fin true 1 0)).r.mode ≤ 4 ∧
      (valueOf false 3 (-1) + valueOf true 1 0 : ℚ) ≠ 0 ∧ (valueOf false 1 0 + valueOf true 1 0 : ℚ) = 0 := by
  refine ⟨by decide, by decide, ?_, ?_⟩ <;> norm_num [valueOf]

/-- A warp that traps inexact FP32 results (group 1, flag 4), with an inexact sum in lane 0. -/
def trapping : State :=
  warpIs (fun x => { (x.writeV 2 0 0x3F80_0000).writeV 3 0 0x3080_0000 with trapen := 1 <<< 10 })

theorem wit_CompletionTraps :
    let i := Instr.fadd hdr (.x xf)
    let f := fpLane 0 (fpFn 0) hdr (.x xf) (trapping.selfActor 0 i) (started trapping 0 i) (trapping.warp 0)
    Solo trapping 0 i ∧ Room trapping 0 ∧ scopeOfInstr i = .lane ∧ (form i).expand = some (3, 0, hdr, .x xf) ∧
      enabledFlags (trapping.warp 0).trapen (fpGroup hdr.width) (flagsDone trapping 0 i f) ≠ 0 := by
  unfold Solo Runs Room; decide +kernel
theorem wit_CompletionTraps_marked :
    let i := Instr.iadd { hdr with sat := true } (.x { xf with mb := true })
    let s := warpIs (fun x => (x.writeV 2 5 0x7FFF_FFFF).writeV 3 5 1)
    let f := intLane 1 (intFn 1 (.x { xf with mb := true })) { hdr with sat := true } (.x { xf with mb := true })
      (s.selfActor 0 i) (started s 0 i) (s.warp 0)
    Solo s 0 i ∧ Room s 0 ∧ (form i).expand = some (2, 1, { hdr with sat := true }, .x { xf with mb := true }) ∧
      ∃ l ∈ lanesDone s 0 i, (f l).mark = true := by
  unfold Solo Runs Room; decide +kernel

/-- FP32 operands under RNE. -/
def fq (a b : Machine.Num) : FpArgs := ⟨fp32, 0, Rnd.rne 0, false, a, b, .nan false, 0, 0⟩

theorem wit_MinMaxRule :
    (fq (.fin false 1 0) (.fin false 3 0)).f ∈ [fp32, fp64, fp16, bf16] ∧ below (.fin false 1 0) (.fin false 3 0) ∧
      below (.fin true 0 0) (.fin false 0 0) ∧ below (.inf true) (.inf false) ∧ (fq (.nan true) (.inf true)).b.isNan = false := by
  refine ⟨by decide, ?_, ?_, ?_, by decide⟩ <;> simp [below, valueOf]

theorem wit_LaneResults :
    let i := Instr.dwadd { hdr with vd := 14 } (.x { xf with va := 10, vb := 12 })
    laneMeaning i = some (dwGroup, dwLane dwAdd { hdr with vd := 14 } (.x { xf with va := 10, vb := 12 })) ∧ Solo base 0 i :=
  ⟨rfl, by unfold Solo Runs; decide +kernel⟩

theorem wit_RepRepeats :
    let f : RepForm := ⟨0, false, false, true, true, 3⟩
    let t := Instr.faddL ⟨0, 8, 16⟩
    Solo base 0 (.rep f t) ∧
      stepTarget f (form t) (base.warp 0).repi =
        some (.w64 3 0 { hdr with vd := 0 } (.x { xf with va := 8, vb := 16 }) ⟨false, false, false, false⟩) ∧
      (base.warp 0).trapen = 0 := by
  unfold Solo Runs; decide +kernel

theorem wit_CompareResults :
    Solo base 0 (.icmpp { hdr with vd := 0 } (.x xf)) ∧ Solo base 0 (.fcmpp { hdrW with vd := 0 } (.x xf)) := by
  unfold Solo Runs; decide +kernel

/-- An X form with the predicates p2, p3. -/
theorem wit_PredicateResults :
    Solo base 0 (.pbool { hdr with vd := 3 } (.x { xf with va := 1, vb := 2, vc := 8 })) ∧
      Solo base 0 (.pmov { hdrW with x := true } (.x { xf with vb := 0 })) ∧
      Solo base 0 (.pmov { hdr with x := true } (.x { xf with vb := 0 })) ∧
      Solo base 0 (.pmov { hdrW with vd := 1 } (.x { xf with vb := 0 })) ∧
      Solo base 0 (.pmov { hdr with vd := 1 } (.x { xf with vb := 0 })) ∧
      Solo base 0 (.pcnt { hdrW with vd := 6 } (.x { xf with va := 3, vb := 0 })) ∧
      Solo base 0 (.pfirst { hdrW with vd := 1 } (.x { xf with va := 3, vb := 0 })) ∧
      Solo base 0 (.pqry { hdrW with vd := 2 } (.x { xf with va := 0, vb := 0, vc := 2 })) := by
  unfold Solo Runs; decide +kernel

/-! CTRL. -/

/-- BRA to +0x14 with lanes 0 to 9 selected. -/
def split : Instr := .bra { hdr with pred := 0, vd := 0 } (.xl 0x14)
/-- A warp whose p0 holds lanes 0 to 9. -/
def some10 : State := warpIs (fun x => { x with p := [(0, 0x3FF)] })
/-- CALL to +0x14 by all lanes, and to an odd target. -/
def callTo (d : BitVec 32) : Instr := .call { hdr with vd := 0 } (.xl d)
/-- `n` reconvergence entries. -/
def deep (n : Nat) : State := warpIs (fun x => { x with p := [(0, 0x3FF)], dstack := List.replicate n (.reconv 0x10_0000 1) })
/-- `n` call-stack entries at depth 0. -/
def calls (n : Nat) : State := warpIs (fun x => { x with cstack := List.replicate n ⟨0x10_0008, 0⟩ })

theorem wit_TransferRule :
    transferOf some10 0 split = some (false, 0x10_0014) ∧ Solo some10 0 split ∧ (some10.warp 0).selected split ≠ 0 ∧
      codeAddr 0x10_0014 = true ∧ (some10.warp 0).active &&& ~~~((some10.warp 0).selected split) ≠ 0 ∧
      (some10.warp 0).dstack.length < 32 := by
  unfold Solo Runs; decide +kernel
theorem wit_TransferRule_none :
    Solo base 0 split ∧ (base.warp 0).selected split = 0 ∧ (base.warp 0).p = [] := by
  unfold Solo Runs; decide +kernel
theorem wit_TransferRule_faults :
    transferOf base 0 (callTo 1) = some (true, 0x10_0001) ∧ Solo base 0 (callTo 1) ∧ codeAddr 0x10_0001 = false ∧
      Room base 0 ∧ (base.warp 0).selected (callTo 1) ≠ 0 ∧
      (let s := calls 16; Solo s 0 (callTo 8) ∧ 16 ≤ (s.warp 0).cstack.length ∧ Room s 0 ∧ codeAddr 0x10_0008 = true) ∧
      (let s := deep 32; Solo s 0 split ∧ 32 ≤ (s.warp 0).dstack.length ∧ Room s 0) := by
  unfold Solo Runs Room; decide +kernel

theorem wit_ReturnRule :
    let i := Instr.ret { hdr with vd := 0 } (.x { xf with va := 0, vb := 0 })
    Solo (calls 1) 0 i ∧ ((calls 1).warp 0).cstack = [⟨0x10_0008, 0⟩] ∧ ((calls 1).warp 0).dstack.length = 0 ∧
      (let s := (calls 1).updWarp 0 (fun x => { x with dstack := [.reconv 0 1] })
       Solo s 0 i ∧ (s.warp 0).dstack.length ≠ 0 ∧ Room s 0) ∧
      Solo base 0 i ∧ (base.warp 0).cstack = [] ∧ Room base 0 := by
  unfold Solo Runs Room; decide +kernel

theorem wit_DivergenceRule :
    let push := Instr.rpush { hdr with vd := 0 } (.xl 0x20)
    let join := Instr.rjoin { hdr with vd := 0 } (.x { xf with va := 0, vb := 0 })
    let one := warpIs (fun x => { x with dstack := [.reconv 0x10_0000 1] })
    let two := warpIs (fun x => { x with dstack := [.pending 0x10_0008 0, .pending 0x10_0010 2, .reconv 0x10_0000 1] })
    Solo base 0 push ∧ (base.warp 0).dstack.length < 32 ∧ Solo (deep 32) 0 push ∧ 32 ≤ ((deep 32).warp 0).dstack.length ∧
      Room (deep 32) 0 ∧ Solo one 0 join ∧ topReconv (one.warp 0).dstack = some (one.warp 0).pc ∧
      Solo two 0 join ∧
      topReconv ((two.warp 0).dstack.dropWhile (fun e => e.mask == 0)) = some (two.warp 0).pc ∧
      Solo base 0 join ∧ topReconv (base.warp 0).dstack ≠ some (base.warp 0).pc ∧ Room base 0 := by
  unfold Solo Runs Room; decide +kernel

/-- EXIT of the lanes of p0. -/
def exits : Instr := .exit { hdr with pred := 0, vd := 0 } (.x { xf with va := 0, vb := 0 })
theorem wit_ExitRule :
    Solo base 0 exits ∧ (base.warp 0).selected exits = 0 ∧
      Solo some10 0 exits ∧ (some10.warp 0).selected exits ≠ 0 ∧
      (some10.warp 0).active &&& ~~~((some10.warp 0).selected exits) ≠ 0 ∧
      (let s := some10.updWarp 0 (fun x => { x with active := 0x3FF, dstack := [.pending 0x10_0008 0xFFFFFC00] })
       Solo s 0 exits ∧ (s.warp 0).active &&& ~~~((s.warp 0).selected exits) = 0 ∧
         (s.warp 0).live &&& ~~~((s.warp 0).selected exits) ≠ 0 ∧
         ((s.warp 0).dstack.map (fun e => e.without ((s.warp 0).selected exits))).dropWhile (fun e => e.mask == 0) ≠ []) ∧
      (let s := some10.updWarp 0 (fun x => { x with active := 0x3FF, live := 0x3FF })
       Solo s 0 exits ∧ (s.warp 0).live &&& ~~~((s.warp 0).selected exits) = 0) := by
  unfold Solo Runs; decide +kernel

/-- The lanes of an RPUSH at an odd address are left when the others exit. -/
theorem wit_ExitRule_fault :
    let s := some10.updWarp 0 (fun x => { x with active := 0x3FF, dstack := [.reconv 0x10_0001 0xFFFFFC00] })
    Solo s 0 exits ∧ (s.warp 0).active &&& ~~~((s.warp 0).selected exits) = 0 ∧ (s.warp 0).selected exits ≠ 0 ∧ Room s 0 ∧
      ((s.warp 0).dstack.map (fun e => e.without ((s.warp 0).selected exits))).dropWhile (fun e => e.mask == 0) =
        [.reconv 0x10_0001 0xFFFFFC00] ∧
      codeAddr ((0x10_0001 : DWord) + 8) = false := by
  unfold Solo Runs Room; decide +kernel

theorem wit_TrapAndBreakpoint :
    let t := Instr.trap { hdr with vd := 0 } (.x { xf with va := 0, vb := 0, vc := 3 })
    let tn := Instr.trap { hdr with vd := 0, pred := 0 } (.x { xf with va := 0, vb := 0, vc := 15 })
    let b := Instr.bpt { hdr with vd := 0 } (.x { xf with va := 0, vb := 0 })
    let bn := Instr.bpt { hdr with vd := 0, pred := 0 } (.x { xf with va := 0, vb := 0 })
    Room base 0 ∧ Solo base 0 t ∧ (base.warp 0).selected t ≠ 0 ∧ Solo base 0 tn ∧ (base.warp 0).selected tn = 0 ∧
      Solo base 0 b ∧ (base.warp 0).selected b ≠ 0 ∧ Solo base 0 bn ∧ (base.warp 0).selected bn = 0 := by
  unfold Solo Runs Room; decide +kernel

theorem wit_ExceptionEntry :
    (base.part (base.partOf 0)).ringFull = false ∧ (noRoom.part (noRoom.partOf 0)).ringFull = true := by decide +kernel

theorem wit_VectorAndReti :
    let i := Instr.reti { hdr with vd := 0 } (.x { xf with va := 0, vb := 0 })
    let s := warpIs (fun x => { x with inHandler := true, uepclo := 0x10_0008 })
    (s.warp 0).repi < 64 ∧ Solo s 0 i ∧ (s.warp 0).inHandler = true ∧ (s.warp 0).dstack.length = (s.warp 0).hdDepth ∧
      (s.warp 0).cstack.length = (s.warp 0).hcDepth ∧
      codeAddr (canon57 (((s.warp 0).uepchi.extractLsb' 0 25 ++ (s.warp 0).uepclo).zeroExtend 64)) = true ∧
      Solo base 0 i ∧ (base.warp 0).inHandler = false ∧ Room base 0 := by
  unfold Solo Runs Room; decide +kernel
/-- A handler that has left an entry on a stack, and one whose return PC is odd. -/
theorem wit_VectorAndReti_faults :
    let i := Instr.reti { hdr with vd := 0 } (.x { xf with va := 0, vb := 0 })
    let s (f : Warp → Warp) := warpIs (fun x => f { x with inHandler := true, uepclo := 0x10_0008 })
    let d := s (fun x => { x with dstack := [.reconv 0 1] })
    let c := s (fun x => { x with cstack := [⟨0x10_0008, 0⟩] })
    let o := s (fun x => { x with uepclo := 0x10_0001 })
    (Solo d 0 i ∧ (d.warp 0).dstack.length ≠ (d.warp 0).hdDepth ∧ Room d 0) ∧
      (Solo c 0 i ∧ (c.warp 0).dstack.length = (c.warp 0).hdDepth ∧ (c.warp 0).cstack.length ≠ (c.warp 0).hcDepth ∧ Room c 0) ∧
      (Solo o 0 i ∧ codeAddr (canon57 (((o.warp 0).uepchi.extractLsb' 0 25 ++ (o.warp 0).uepclo).zeroExtend 64)) = false ∧
        Room o 0) := by
  unfold Solo Runs Room; decide +kernel

/-! Rendezvous. -/

/-- A block of two warps, one flock, with warp 0 in focus. -/
def duo : State :=
  { (base.updBlock 0 (fun b => { b with flockSize := 2, lrec := { b.lrec with warps := 2, flock := 2 } })) with
    warps := base.warps.put 1 { placedWarp with slot := 1, quarter := 1, widx := 1 } }
/-- `duo` after warp 1 has arrived at an instruction, with warp 0 in focus. -/
def duoAfter (i : Instr) (f : State → State) : State := { after i { f duo with focus := some 1 } with focus := some 0 }
/-- An X form with no operand. -/
def x0 : XForm := ⟨false, false, false, false, false, 0, 0, 0, 0⟩
/-- A header with no destination at a scope. -/
def hd (sc : Scope) : Hdr := { hdr with vd := 0, scope := sc }
/-- The block barrier. -/
def bar : Instr := .nop (hd .block) (.x x0)

/-- A rendezvous, where there is none. -/
def noInst : Inst := ⟨0, .block, 0, 0, 0, bar, 8, none, [], false, false, none⟩
/-- The first rendezvous of the block. -/
def open1 (s : State) : Inst := (s.block 0).insts.headD noInst
/-- `duo` after both warps have arrived, on the next clock, with the bellwether's quarter to issue. -/
def duoDone (i : Instr) (f : State → State) : State :=
  (after i (duoAfter i f)).updCore 0 (fun c => { c with clock := c.clock + 1, turn := 0 })
/-- An outcome that completes. -/
def resOk (r : Res) : Bool := match r with | .ok _ => true | _ => false
/-- The outcome of a complete rendezvous's operation. -/
def opOf (s : State) : Option Res :=
  (wideOp (open1 s).instr).map (fun op => op (company s 0 (open1 s) 0) (gathered s 0 (open1 s) 0))

theorem wit_RendezvousArrival :
    Arrives duo 0 bar ∧ ¬ Last duo 0 bar ∧ bar.isWord = true ∧ Arrives (duoAfter bar id) 0 bar ∧ Last (duoAfter bar id) 0 bar := by
  unfold Arrives Last Runs; decide +kernel
/-- A member that comes to another site while an open rendezvous lacks it. -/
theorem wit_RendezvousArrival_mismatch :
    let s := (duoAfter bar id).updWarp 1 (fun x => { x with pc := 0x10_0010 })
    let s := s.updBlock 0 (fun b => { b with insts := b.insts.map (fun e => { e with pc := 0x10_0010 }) })
    Runs s 0 bar ∧ scopeOfInstr bar = .block ∧ (started s 0 bar).mismatch .block 0 = true ∧ Room s 0 := by
  unfold Runs Room; decide +kernel
/-- A WAITC and a FLAGRD of a flock: with nothing outstanding, and with a matrix operation. -/
theorem wit_RendezvousArrival_counters :
    let ic := Instr.waitc (hd .flock) (.xi 0 0)
    let ig := Instr.flagrd { hd .flock with vd := 4 } (.xi 0 0)
    let s := duo.updWarp 0 (fun x => { x with matrix := [⟨9, .accz 0 1, 3, 0, 0, false, none⟩] })
    Arrives duo 0 ic ∧ Arrives duo 0 ig ∧ (duo.warp 0).matrixFault 0 = none ∧ (duo.warp 0).loads.length ≤ 0 ∧
      (duo.warp 0).stores.length ≤ 0 ∧ (duo.warp 0).matrix = [] ∧ (duo.warp 0).tileq.length ≤ 0 ∧ Runs s 0 ic ∧ Runs s 0 ig ∧
      (s.warp 0).matrixFault 0 = none ∧ (s.warp 0).matrix ≠ [] := by
  unfold Arrives Runs; decide +kernel

/-- PCNT of a flock: the operation completes. -/
theorem wit_RendezvousOnce :
    let i := Instr.pcnt { hd .flock with vd := 6 } (.x { x0 with va := 3 })
    let s := duoDone i id
    Performs s 0 (open1 s).id (open1 s) 0 ∧ (opOf s).any resOk = true := by
  unfold Performs; decide +kernel
/-- LDS of a flock at an offset outside the block's scratch: the operation faults. -/
theorem wit_RendezvousOnce_fault :
    let s := duoDone (.lds { hd .flock with vd := 2 } (.m ⟨0, false, 0, 0, 2, false, 0, 6⟩)) id
    Performs s 0 (open1 s).id (open1 s) 0 ∧ (open1 s).scope = .flock ∧
      (opOf s).any (fun r => match r with | .fault _ => true | _ => false) = true ∧
      (gathered s 0 (open1 s) 0).canRecord (halfOfCore ((gathered s 0 (open1 s) 0).warp 0).core)
        ((gathered s 0 (open1 s) 0).partOf 0) = true := by
  unfold Performs; decide +kernel

theorem wit_HintsComplete :
    Solo base 0 (.nop (hd .warp) (.x x0)) ∧ Solo base 0 (.fence { hd .lane with vd := 0 } (.m ⟨0, false, 3, 4, 0, false, 0, 0⟩)) ∧
      Solo base 0 (.pref { hd .lane with vd := 0 } (.m ⟨0, false, 0, 0, 0, false, 0, 4⟩)) ∧
      Solo base 0 (.yield (hd .lane) (.x x0)) ∧ (base.warp 0).selected (.yield (hd .lane) (.x x0)) ≠ 0 ∧
      Solo base 0 (.yield { hd .lane with pred := 0 } (.x x0)) ∧
      (base.warp 0).selected (.yield { hd .lane with pred := 0 } (.x x0)) = 0 ∧
      Performs (duoDone bar id) 0 (open1 (duoDone bar id)).id (open1 (duoDone bar id)) 0 := by
  unfold Solo Performs Runs; decide +kernel

/-! XLANE and SPEC. -/

theorem wit_CrossLaneResults :
    let red := Instr.red { hdrW with vd := 6 } (.x { x0 with va := 10 })
    let w := Instr.wlane { hdr with vd := 5, scope := .warp } (.x { x0 with va := 2, vb := 4 })
    Solo fourLanes 0 red ∧ (fourLanes.warp 0).selected red ≠ 0 ∧
      (match xlaneMeaning fourLanes 0 red with
       | some (g, fl, _) => decide (enabledFlags (fourLanes.warp 0).trapen g fl = 0)
       | none => false) = true ∧
      Solo base 0 w := by
  unfold Solo Runs; decide +kernel
theorem wit_CrossLaneResults_forms :
    Solo base 0 (.shfl { hdr with vd := 5 } (.x { x0 with va := 6, vb := 2, ub := true })) ∧
      Solo base 0 (.shflx { hdr with vd := 5 } (.x { x0 with va := 6, vb := 2, ub := true, vc := 15 })) ∧
      Solo base 0 (.rfirst { hdrW with vd := 5 } (.x { x0 with va := 6 })) ∧
      Solo base 0 (.rlane { hdrW with vd := 5 } (.x { x0 with va := 6, vb := 2 })) ∧
      Solo base 0 (.redstep { hdr with vd := 5 } (.x { x0 with va := 6, vc := 0x40 })) ∧
      Solo base 0 (.redcmp { hdrW with vd := 4 } (.x { x0 with va := 10 })) ∧
      Solo base 0 (.scan { hdr with vd := 12 } (.x { x0 with va := 10 })) ∧
      Solo base 0 (.trn { hdr with vd := 16 } (.x { x0 with va := 8, vc := 1 })) := by
  unfold Solo Runs; decide +kernel

theorem wit_SpecialRegisters :
    let r (sc : Scope) (n : BitVec 8) := Instr.srd { hdr with vd := 5, scope := sc } (.x { x0 with vc := n })
    Solo base 0 (r .warp 20) ∧ (base.warp 0).selected (r .warp 20) ≠ 0 ∧ Solo base 0 (r .warp 41) ∧ Solo base 0 (r .lane 1) ∧
      (base.warp 0).selected (r .lane 1) ≠ 0 ∧ Solo base 0 (r .lane 42) ∧ Room base 0 ∧ Solo base 0 (r .warp 1) := by
  unfold Solo Runs Room; decide +kernel
theorem wit_SpecialRegisters_writes :
    let w (n : BitVec 8) := Instr.swr { hd .warp with vd := 0 } (.x { x0 with vc := n, va := 2 })
    (∀ n ∈ [(24 : BitVec 8), 25, 27, 28, 29, 39, 41, 42], Solo base 0 (w n)) ∧
      (41 : BitVec 8) ∉ [(24 : BitVec 8), 25, 27, 28, 29, 39] ∧ Room base 0 := by
  unfold Solo Runs Room; decide +kernel
/-- No lane selected at lane scope. -/
theorem wit_SpecialRegisters_none :
    let i := Instr.srd { hdr with vd := 5, pred := 0 } (.x { x0 with vc := 0 })
    Solo base 0 i ∧ (base.warp 0).selected i = 0 := by
  unfold Solo Runs; decide +kernel

/-! MEM. -/

/-- Whether a check answers ok. -/
def isOk {α β : Type} (x : Except α β) : Bool := match x with | .ok _ => true | .error _ => false
/-- A warp with lanes 0 and 1, s4:5 at 0x10_0800, a data register, and one unit of scratch. -/
def memory : State :=
  (blockIs (fun b => { b with alloc := [1, 0, 32, 0, 0, 0, 0, 0, 0, 0], scrEpochs := [0] })).updWarp 0 (fun x =>
    { ((x.writeS 4 0x10_0800).writeV 2 0 0x55).writeV 1 1 1 with active := 3 })
/-- A memory form of 4-byte elements at [s4 + v1*4]. -/
def mf : MForm := ⟨0, false, 0, 0, 2, true, 1, 4⟩
/-- The same in scratch, from s6:7, which hold 0. -/
def sf : MForm := { mf with base := 6 }
/-- A header of a memory instruction on v2. -/
def mh : Hdr := { hdr with vd := 2 }

/-- The checks of R210 for an instruction of `memory`'s warp. -/
def resolved (i : Instr) (f : MForm) (agent fn : Nat) (r : Rights) (align : Nat) : Bool :=
  isOk ((started memory 0 i).resolve (memory.selfActor 0 i) agent fn (memSpace fn) r (esizeBytes f.esize) align
    ((started memory 0 i).items (memory.selfActor 0 i) f (esizeBytes f.esize)))

theorem wit_LoadsComplete :
    ((Instr.ld, 0) : (Hdr → Upper → Instr) × Nat) ∈ loadForms ∧ Solo memory 0 (.ld mh (.m mf)) ∧
      (started memory 0 (.ld mh (.m mf))).items (memory.selfActor 0 (.ld mh (.m mf))) mf 4 ≠ [] ∧
      (memory.warp 0).loads.length < 63 ∧ resolved (.ld mh (.m mf)) mf 0 0 (Rights.r false) 1 = true ∧
      Solo memory 0 (.lds mh (.m sf)) ∧ resolved (.lds mh (.m sf)) sf 0 2 (Rights.r false) 1 = true := by
  refine ⟨by simp [loadForms], ?_⟩
  unfold Solo Runs; decide +kernel

theorem wit_StoresComplete :
    ((Instr.st, 1) : (Hdr → Upper → Instr) × Nat) ∈ storeForms ∧ Solo memory 0 (.st mh (.m mf)) ∧
      (memory.warp 0).stores.length < 63 ∧ resolved (.st mh (.m mf)) mf 0 1 (Rights.w false) 1 = true ∧ Inv memory ∧
      Solo memory 0 (.sts mh (.m sf)) ∧ resolved (.sts mh (.m sf)) sf 0 3 (Rights.w false) 1 = true := by
  refine ⟨by simp [storeForms], ?_⟩
  unfold Solo Runs Inv; decide +kernel

theorem wit_AtomicsComplete :
    ((Instr.atom, 6) : (Hdr → Upper → Instr) × Nat) ∈ atomicForms ∧ Solo memory 0 (.atom mh (.m { mf with mscope := 4 })) ∧
      resolved (.atom mh (.m { mf with mscope := 4 })) mf 1 6 (Rights.rw false) 4 = true ∧
      Solo memory 0 (.atoms mh (.m sf)) ∧ resolved (.atoms mh (.m sf)) sf 1 7 (Rights.rw false) 4 = true := by
  refine ⟨by simp [atomicForms], ?_⟩
  unfold Solo Runs; decide +kernel

/-- One record, which the store writes whole. -/
theorem wit_RecordsComplete_apart :
    let is := Instr.strec { mh with vd := 20 } (.m { mf with esize := 6 })
    let n := (recFmt { mh with vd := 20 }).recBytes
    (match (started memory 0 is).resolve (memory.selfActor 0 is) 0 11 .global (Rights.w false) n 1
        ((started memory 0 is).recItems (memory.selfActor 0 is) { mf with esize := 6 } n) with
     | .ok rs => rs != [] && !anyMeet (rs.map (fun e => e.2)) && rs.all (fun r => match r.2 with
       | .glob [(.phys _, m)] => m == n
       | _ => false)
     | .error _ => false) = true := by
  decide +kernel

/-- An address that no page holds. -/
theorem wit_AddressesAndFaults :
    let s := memory.updWarp 0 (fun x => x.writeS 4 0x20_0000)
    let i := Instr.ld mh (.m mf)
    Solo s 0 i ∧ Room s 0 ∧
      isOk ((started s 0 i).resolve (s.selfActor 0 i) 0 0 (memSpace 0) (Rights.r false) 4 1
        ((started s 0 i).items (s.selfActor 0 i) mf 4)) = false := by
  unfold Solo Runs Room; decide +kernel

theorem wit_RecordsComplete :
    let il := Instr.ldrec { mh with vd := 20 } (.m { mf with esize := 6 })
    let is := Instr.strec { mh with vd := 20 } (.m { mf with esize := 6 })
    let n := (recFmt { mh with vd := 20 }).recBytes
    Solo memory 0 il ∧ (started memory 0 il).recItems (memory.selfActor 0 il) { mf with esize := 6 } n ≠ [] ∧
      isOk ((started memory 0 il).resolve (memory.selfActor 0 il) 0 10 .global (Rights.r false) n 1
        ((started memory 0 il).recItems (memory.selfActor 0 il) { mf with esize := 6 } n)) = true ∧
      Solo memory 0 is ∧
      isOk ((started memory 0 is).resolve (memory.selfActor 0 is) 0 11 .global (Rights.w false) n 1
        ((started memory 0 is).recItems (memory.selfActor 0 is) { mf with esize := 6 } n)) = true := by
  unfold Solo Runs; decide +kernel

/-- One record at the address that the rule gives, which the store writes whole and no write races with. -/
theorem wit_RecordsComplete_taking :
    let h : Hdr := { mh with vd := 20 }
    let f : MForm := { mf with esize := 6 }
    let il := Instr.ldrec h (.m f)
    let is := Instr.strec h (.m f)
    let taking (i : Instr) : List Item :=
      ((List.range 4).filter (fun k => ((memory.warp 0).selected i >>> (8 * k)) &&& 0xFF != 0)).map (fun k =>
        ⟨0, 8 * k, laneAddr (memory.warp 0) ((started memory 0 i).draw 0) false
          ((memory.warp 0).readPairS ((started memory 0 i).draw 0) f.base.toNat) f (recFmt h).recBytes (8 * k)⟩)
    taking il ≠ [] ∧ taking is ≠ [] ∧ Inv memory ∧
      isOk ((started memory 0 il).resolve (memory.selfActor 0 il) 0 10 .global (Rights.r false) (recFmt h).recBytes 1 (taking il))
        = true ∧
      (match (started memory 0 is).resolve (memory.selfActor 0 is) 0 11 .global (Rights.w false) (recFmt h).recBytes 1
          (taking is) with
       | .ok rs => rs.all (fun r => ((started memory 0 is).keysOf r.2).all (fun q => ((started memory 0 is).pastAt q).isEmpty))
       | .error _ => false) = true := by
  unfold Inv; decide +kernel
/-- The elements of a store lie in physical memory, apart, where no write races; and the atomic meets neither poison nor a
lost peer. -/
theorem wit_StoresComplete_apart :
    let i := Instr.st mh (.m mf)
    let z := started memory 0 i
    let ia := Instr.atom mh (.m { mf with mscope := 4 })
    let y := started memory 0 ia
    (match z.resolve (memory.selfActor 0 i) 0 1 .global (Rights.w false) 4 1 (z.items (memory.selfActor 0 i) mf 4) with
     | .ok rs => !anyMeet (rs.map (fun e => e.2)) && rs.all (fun r => (z.keysOf r.2).all (fun q => (z.pastAt q).isEmpty)
         && (match r.2 with | .glob [(.phys _, n)] => n == 4 | _ => false))
     | .error _ => false) = true ∧
    (match y.resolve (memory.selfActor 0 ia) 1 6 .global (Rights.rw false) 4 4 (y.items (memory.selfActor 0 ia) mf 4) with
     | .ok rs => decide (y.badAccess 1 (rs.map (fun e => e.2)) = none)
     | .error _ => false) = true := by decide +kernel

/-- REP of a load, of a store and of MOVHI, and REPI above the count. -/
theorem wit_RepRepeats_targets :
    let f : RepForm := ⟨0, false, false, false, true, 3⟩
    let l := Instr.ld mh (.m mf)
    let t := Instr.st mh (.m mf)
    let m := Instr.movhi ⟨2, 7⟩
    Solo memory 0 (.rep f l) ∧ Solo memory 0 (.rep f t) ∧ Solo memory 0 (.rep f m) ∧
      (stepTarget f (form l) 0).isSome = true ∧ (stepTarget f (form t) 0).isSome = true ∧ (stepTarget f (form m) 0).isSome = true ∧
      (memory.warp 0).repi = 0 ∧
      (let z := started memory 0 (.rep f l)
       let a := memory.selfActor 0 (.rep f l)
       z.items a mf 4 ≠ [] ∧ isOk (z.resolve a 0 0 .global (Rights.r false) 4 1 (z.items a mf 4)) = true) ∧
      (let z := started memory 0 (.rep f t)
       let a := memory.selfActor 0 (.rep f t)
       isOk (z.resolve a 0 1 .global (Rights.w false) 4 1 (z.items a mf 4)) = true) ∧
      (let s := memory.updWarp 0 (fun x => { x with repi := 5 })
       Solo s 0 (.rep f m) ∧ (stepTarget f (form m) 5).isSome = true ∧ ¬ (s.warp 0).repi < f.count.toNat) := by
  unfold Solo Runs; decide +kernel

/-- PCNT and PQRY of a flock and of a block. -/
theorem wit_PredicateResults_wide :
    let c (sc : Scope) := duoDone (.pcnt { hd sc with vd := 6 } (.x { x0 with va := 3 })) id
    let q (sc : Scope) (n : BitVec 8) := duoDone (.pqry { hd sc with vd := 6 } (.x { x0 with va := 3, vc := n })) id
    (∀ sc ∈ [Scope.flock, .block], Performs (c sc) 0 (open1 (c sc)).id (open1 (c sc)) 0 ∧ (open1 (c sc)).scope = sc ∧
      ∀ n ∈ [(0 : BitVec 8), 2], Performs (q sc n) 0 (open1 (q sc n)).id (open1 (q sc n)) 0 ∧ (open1 (q sc n)).scope = sc) ∧
      (Instr.pqry { hd .warp with vd := 6 } (.x { x0 with va := 3, vc := 1 })).wellFormed = true := by
  unfold Performs; decide +kernel

/-! SYNC, TIMELINE and the batches. -/

/-- `memory` with a barrier object at scratch offset 0. -/
def withBar (b : Bar) : State := memory.writeTarget (.scr 0 0 32) (b.bytes ++ List.replicate 8 0)
/-- A header of a SYNC instruction in scratch, with destination s8. -/
def bh : Hdr := { hdrW with width := 1, vd := 8 }
/-- The object's offset in s6, the phase or count in s10, the bytes in s11. -/
def bf : XForm := { x0 with va := 6, vb := 10, vc := 11 }

/-- Where the object of a SYNC instruction lies. -/
def barTarget (s : State) (i : Instr) (f : XForm) (fn n : Nat) : Option Target :=
  match syncTarget (started s 0 i) (s.selfActor 0 i) fn (syncSpace bh.width) (syncAddr (started s 0 i) (s.selfActor 0 i) bh f) n
    with
  | .ok t => some t
  | .error _ => none

theorem wit_BarrierStep :
    (Bar.mk 2 0 0 0 0 0 0 0).pend < 1 ∧ (1 ≤ (Bar.mk 2 1 0 0 0 0 0 0).pend ∧ (Bar.mk 2 1 0 0 0 0 0 0).pend - 1 = 0) ∧
      ¬ ((Bar.mk 2 2 0 0 0 0 0 0).pend - 1 = 0) ∧ (Bar.mk 65535 65535 65535 0 0 0 0 0).exp < 2 ^ 16 := by decide

theorem wit_BarriersComplete :
    let s := withBar (Bar.mk 2 2 0 0 0 0 0 0)
    let ii := Instr.barinit { bh with vd := 0 } (.x bf)
    let ia := Instr.bararr bh (.x { bf with vb := 0, vc := 0 })
    let iw := Instr.barwait bh (.x { bf with vc := 0 })
    let it := Instr.bartest bh (.x { bf with vc := 0 })
    let ie := Instr.barexp bh (.x { bf with vc := 0 })
    Room s 0 ∧ (∀ i ∈ [ii, ia, iw, it, ie], Solo s 0 i ∧ (s.warp 0).selected i ≠ 0) ∧
      barTarget s ii bf 0 32 = some (.scr 0 0 32) ∧ barTarget s ie { bf with vc := 0 } 4 32 = some (.scr 0 0 32) ∧
      (started s 0 ii).poisonedTarget (.scr 0 0 32) = false ∧
      (((started s 0 ia).barAt (.scr 0 0 32)).step 1 0).isSome = true ∧
      ((started s 0 iw).barAt (.scr 0 0 32)).passed 0 = false := by
  unfold Solo Runs Room; decide +kernel
theorem wit_BarriersComplete_edges :
    (((started (withBar (Bar.mk 2 0 1 0 0 0 0 0)) 0 bar).barAt (.scr 0 0 32)).pend = 0) ∧
      ((started (withBar (Bar.mk 2 2 1 0 0 0 0 0)) 0 bar).barAt (.scr 0 0 32)).passed 0 = true ∧
      2 ^ 32 ≤ ((started (withBar (Bar.mk 1 1 0 0 0 0xFFFFFFFF 0 0)) 0 bar).barAt (.scr 0 0 32)).pbytes + 1 := by
  decide +kernel

theorem wit_WaitInstructions :
    let i := Instr.waitf bh (.x { bf with vc := 12 })
    let s := memory.updWarp 0 (fun x => x.writeS 12 0xC000_0000)
    Solo memory 0 i ∧ barTarget memory i { bf with vc := 12 } 5 4 = some (.scr 0 0 4) ∧ Solo s 0 i ∧ Room s 0 ∧
      (syncReg (started s 0 i) (s.selfActor 0 i) 12).extractLsb' 30 2 = 3 ∧
      (syncReg (started memory 0 i) (memory.selfActor 0 i) 12).extractLsb' 30 2 ≠ (3 : BitVec 2) := by
  unfold Solo Runs Room; decide +kernel
/-- A warp with one matrix operation outstanding. -/
def busy : State := warpIs (fun x => { x with matrix := [⟨9, .accz 0 1, 3, 0, 0, false, none⟩] })
theorem wit_WaitInstructions_counters :
    let ic := Instr.waitc (hd .warp) (.xi 0 0)
    let ig := Instr.flagrd { hd .warp with vd := 4 } (.xi 0 0)
    Solo base 0 ic ∧ (base.warp 0).matrixFault 0 = none ∧ (base.warp 0).loads.length ≤ 0 ∧ (base.warp 0).stores.length ≤ 0 ∧
      (base.warp 0).matrix.length ≤ 0 ∧ (base.warp 0).tileq.length ≤ 0 ∧ (base.warp 0).coveredFlags 0 &&& (base.warp 0).trapen = 0 ∧
      Solo busy 0 ic ∧ (busy.warp 0).matrixFault 0 = none ∧ ¬ (busy.warp 0).matrix.length ≤ 0 ∧
      Solo base 0 ig ∧ (base.warp 0).matrix = [] ∧ Solo busy 0 ig ∧ (busy.warp 0).matrix ≠ [] := by
  unfold Solo Runs; decide +kernel

/-- A block with two timelines, the first with one number issued and none complete. -/
def lines : State := blockIs (fun b => { b with timelines := [⟨0, 1, []⟩, ⟨0, 0, []⟩] })
theorem wit_TimelineInstructions :
    let iw := Instr.waitt (hd .warp) (.x { x0 with va := 4 })
    let ia := Instr.tlarm (hd .warp) (.x { x0 with va := 4, vb := 6 })
    let s1 := lines.updWarp 0 (fun x => x.writeS 4 1)
    let armed := lines.updWarp 0 (fun x => { x with arming := some ⟨0, 1, 0, 0⟩ })
    Solo lines 0 iw ∧ 0 < (lines.blockOf 0).timelines.length ∧ reached (lines.timeline 0 0).counter 0 = true ∧
      Solo s1 0 iw ∧ reached (s1.timeline 0 0).counter 1 = false ∧ s1.failedNext 0 0 = none ∧
      Solo base 0 iw ∧ ¬ 0 < (base.blockOf 0).timelines.length ∧ Room base 0 ∧
      Solo lines 0 ia ∧ (lines.warp 0).arming = none ∧ (lines.warp 0).held = false ∧
      Solo armed 0 ia ∧ (armed.warp 0).arming.isSome = true ∧ Room armed 0 := by
  unfold Solo Runs Room; decide +kernel
/-- A block that holds no timeline. -/
theorem wit_TimelineInstructions_unheld :
    Solo base 0 (.tlarm (hd .warp) (.x { x0 with va := 4, vb := 6 })) ∧
      Solo base 0 (.tlrd { hd .warp with width := 1, vd := 8 } (.x x0)) ∧ ¬ 0 < (base.blockOf 0).timelines.length ∧ Room base 0 := by
  unfold Solo Runs Room; decide +kernel
theorem wit_TimelineInstructions_read :
    Solo lines 0 (.tlrd { hd .warp with width := 1, vd := 8, x := true } (.x { x0 with vc := 1 })) ∧
      Solo lines 0 (.tlrd { hd .warp with width := 1, vd := 8 } (.x { x0 with vc := 1 })) ∧ 1 < (lines.blockOf 0).timelines.length := by
  unfold Solo Runs; decide +kernel

theorem wit_LaneCopies :
    let i := Instr.lcopy { mh with vd := 3 } (.m mf)
    Solo memory 0 i ∧ (started memory 0 i).laneTransfers (memory.warp 0).core < 512 ∧
      (∀ t ∈ transfersOf (started memory 0 i) (memory.selfActor 0 i) { mh with vd := 3 } mf,
        transferFault (memory.blockOf 0).scrBytes t = none) ∧
      (transfersOf (started memory 0 i) (memory.selfActor 0 i) { mh with vd := 3 } mf).length = 2 := by
  unfold Solo Runs; decide +kernel
/-- Engine work of warp 0: the rest of its description beside its kind and registers. -/
def work (k : OpKind) (rs : List Word) (acc : Bool) (f : Option OpFault) : EngOp :=
  { w := 0, blk := 0, kind := k, tl := 0, num := 1, ipc := 0, iword := 0, handleIx := 0, regs := rs, members := [(0, 0, 0)],
    accepted := acc, delivered := [], counted := false, box := none, fault := f }
/-- One batch sealed, with a transfer that is not complete. -/
def sealed : State :=
  { (warpIs (fun x => { x with sealedBatches := [⟨1, [7]⟩], lastBatch := 1 })) with
    ops := [(7, work (.lane 0 0 0 4 0 false) [] true none)] }
theorem wit_LaneCopies_batches :
    let il := Instr.bseal { hd .warp with vd := 24 } (.m ⟨0, false, 0, 0, 0, false, 0, 0⟩)
    let b (n : BitVec 8) : MForm := ⟨n, false, 0, 0, 0, false, 0, 0⟩
    Solo sealed 0 il ∧ (sealed.outstanding 0).length = 1 ∧
      Solo sealed 0 (.bwaitn (hd .warp) (.m (b 1))) ∧ Solo sealed 0 (.bwaitn (hd .warp) (.m (b 0))) ∧
      (∀ c ∈ sealed.outstanding 0, sealed.batchFailed c = false) ∧
      Solo base 0 (.bwaits (hd .warp) (.m { b 0 with oe := true, off := 24 })) ∧ base.outstanding 0 = [] ∧
      earlier (base.warp 0).lastBatch 0 = false ∧ Solo sealed 0 (.btest { hd .warp with vd := 28 } (.m { b 0 with oe := true, off := 24 })) := by
  unfold Solo Runs; decide +kernel

/-! MMA, TILE and KV. -/

/-- Two accumulator units, one timeline, one unit of scratch, and s16 upward all zero. -/
def engines : State :=
  (lines.updBlock 0 (fun b => { b with scrEpochs := [0], omaps := [(0, ⟨false, 3, 32, 0⟩)],
                                       handles := [(3, ⟨0x10_0800, 0, 1, false, [64, 1, 1, 1, 1], [0, 0, 0, 0], [4, 1, 1, 1, 1]⟩),
                                                   (4, ⟨0x10_0800, 3, 2, false, [16, 16, 1, 1, 1], [32, 0, 0, 0], [32, 16, 1, 1, 1]⟩)] })).updWarp
    0 (fun x => { x with accEpochs := [0, 0], wslots := [(0, ⟨some 3, true, []⟩)], abuf := some (⟨false, 3, 32, 0⟩, false, []) })
/-- A header of an MMA instruction in BF16. -/
def m16 : Hdr := { hd .warp with sat := true, x := true }

theorem wit_MatrixIssue :
    let om := Instr.omap m16 (.x { x0 with va := 61, vb := 14 })
    let wb := Instr.wbload m16 (.x { x0 with va := 15, vb := 14 })
    let ld := Instr.accld { hd .warp with vd := 3 } (.x { x0 with va := 10, vb := 11 })
    Solo engines 0 om ∧ hdrTop m16 = 3 ∧ isTapered 3 = false ∧ Solo engines 0 wb ∧ 0 < (engines.warp 0).accEpochs.length ∧
      (∀ r ∈ bPlaces 3 0 0 false, engines.scrBeyond 0 r.1 r.2 = false) ∧ Solo engines 0 ld ∧
      3 + tileCount 0 ≤ 8 * (engines.warp 0).accEpochs.length ∧
      (∀ r ∈ ldPlaces 0 0 0, engines.scrBeyond 0 r.1 r.2 = false) := by
  unfold Solo Runs; decide +kernel
theorem wit_MatrixIssue_zero :
    let az (n : BitVec 8) := Instr.accz { hd .warp with vd := 15 } (.x { x0 with vc := n })
    Solo engines 0 (az 1) ∧ 15 + 1 ≤ 8 * (engines.warp 0).accEpochs.length ∧ Solo engines 0 (az 2) ∧
      8 * (engines.warp 0).accEpochs.length < 15 + 2 ∧ Room engines 0 := by
  unfold Solo Runs Room; decide +kernel
theorem wit_MatrixIssue_handle :
    let wb := Instr.wbload m16 (.x { x0 with ma := true, va := 16, vb := 4 })
    Solo engines 0 wb ∧ (engines.blockOf 0).handles.find 4 =
        some ⟨0x10_0800, 3, 2, false, [16, 16, 1, 1, 1], [32, 0, 0, 0], [32, 16, 1, 1, 1]⟩ ∧ mmaK 3 = 32 := by
  unfold Solo Runs; decide +kernel

theorem wit_MmaAndDrainIssue :
    let mm := Instr.mma m16 (.x { x0 with vc := 61 })
    let z := started engines 0 mm
    Solo engines 0 mm ∧ scopeOfInstr mm = .warp ∧ z.mmaCheck (engines.selfActor 0 mm) m16 { x0 with vc := 61 } = none ∧
      (z.core (engines.warp 0).core).unitBusy (engines.warp 0).quarter = false ∧
      (engines.warp 0).abuf = some (⟨false, 3, 32, 0⟩, false, []) ∧
      ((engines.block 0).omaps.find 0 = some ⟨false, 3, 32, 0⟩) ∧
      (engines.warp 0).wslots.find 0 = some ⟨some 3, true, []⟩ ∧ (engines.warp 0).wPoison.contains 0 = false := by
  unfold Solo Runs; decide +kernel
theorem wit_MmaAndDrainIssue_drain :
    let d := Instr.accdrain (hd .warp) (.x { x0 with va := 16 })
    let s := engines.updWarp 0 (fun x => (x.writeS 21 0xFFFF_FFFF).writeS 22 0xFFFF_FFFF)
    Solo engines 0 d ∧ regN ((started engines 0 d).operandBlock (engines.selfActor 0 d) 16) 7 = 0 ∧
      Solo s 0 d := by
  unfold Solo Runs; decide +kernel

/-- A drain into global memory, with no bias and no flags. -/
theorem wit_MmaAndDrainIssue_global :
    let d := Instr.accdrain (hd .warp) (.x { x0 with va := 16 })
    let s := engines.updWarp 0 (fun x =>
      ((((x.writeS 23 64).writeS 16 0x10_0800).writeS 18 64).writeS 21 0xFFFF_FFFF).writeS 22 0xFFFF_FFFF)
    let rs := (started s 0 d).operandBlock (s.selfActor 0 d) 16
    Solo s 0 d ∧ regN rs 7 = 64 ∧ regN rs 5 = noValue ∧ regN rs 6 = noValue ∧ regN rs 2 = 64 ∧ regPair rs 0 = 0x10_0800 ∧
      isOk ((started s 0 d).engineRuns 0 0 (Rights.w false) 0x10_0800 (drainSpan 0 64)) = true := by
  unfold Solo Runs; decide +kernel

/-- A shape record of FP32, rank 1, extent 64, box 4, at physical 0x2_0800, which 0x10_0800 names. -/
def shaped : State :=
  let r := leBytes 8 0x10_0800 ++ [0, 1, 0, 0] ++ leBytes 4 64 ++ List.replicate 48 0 ++ leBytes 2 4 ++ List.replicate 30 0
  (engines.updWarp 0 (fun x => x.writeS 8 0x10_0800)).writeRuns [(.phys 0x2_0800, 96)] r

theorem wit_EngineIssue :
    let td := Instr.tdef (hd .warp) (.x { x0 with va := 8 })
    Solo shaped 0 td ∧ isCanonical 0x10_0800 = true ∧ isCanonical (0x10_0800 + 95) = true ∧
      (match (started shaped 0 td).engineRead 0 3 0x10_0800 96 with
       | .ok bs => decide (shapeFault 0x10_0800 (shapeOf bs).1 (shapeOf bs).2 = none)
       | .error _ => false) = true := by
  unfold Solo Runs; decide +kernel
theorem wit_EngineIssue_tile :
    let tl (g v : BitVec 8) := Instr.tload { hd .warp with vd := 4 } (.x { x0 with va := 16, vb := g, vc := v })
    ((Instr.tload, 1) : (Hdr → Upper → Instr) × Nat) ∈ tileForms ∧ Solo engines 0 (tl 3 1) ∧
      1 < (engines.blockOf 0).timelines.length ∧ (engines.blockOf 0).handles.find 3 ≠ none ∧
      isOk (match (engines.blockOf 0).handles.find 3 with
        | some g => (match (started engines 0 (tl 3 0)).tileCheck 0 1 g
            ((started engines 0 (tl 3 0)).operandBlock (engines.selfActor 0 (tl 3 0)) 16) with
          | none => .ok ()
          | some _ => .error ())
        | none => (.error () : Except Unit Unit)) = true ∧
      Solo engines 0 (tl 7 0) ∧ (engines.blockOf 0).handles.find 7 = none ∧ Room engines 0 ∧ Solo engines 0 (tl 3 2) ∧
      (engines.blockOf 0).timelines.length ≤ 2 := by
  refine ⟨by simp [tileForms], ?_⟩
  unfold Solo Runs Room; decide +kernel
theorem wit_EngineIssue_kv :
    let s := engines.updWarp 0 (fun x => (x.writeS 19 1).writeS 18 16)
    let kg := Instr.kvgather { hd .warp with vd := 4 } (.x { x0 with va := 16 })
    let ka := Instr.kvappend { hd .warp with vd := 4 } (.x { x0 with va := 16 })
    let kn := Instr.kvgather { hd .warp with vd := 4 } (.x { x0 with va := 16, vc := 2 })
    Solo s 0 kg ∧ ((started s 0 kg).gatherCheck 0 ((started s 0 kg).operandBlock (s.selfActor 0 kg) 16)).isNone = true ∧
      Solo s 0 ka ∧ regN ((started s 0 ka).operandBlock (s.selfActor 0 ka) 16) 2 = 16 ∧ Solo s 0 kn ∧ Room s 0 ∧
      ¬ 2 < (s.blockOf 0).timelines.length := by
  unfold Solo Runs Room; decide +kernel
/-- A fold of one member, and a merge of one row of one element. -/
theorem wit_EngineIssue_merge :
    let s := (engines.updBlock 0 (fun b => { b with fold := some ⟨7, 0, none⟩ })).updWarp 0 (fun x =>
      ((x.writeS 16 1).writeS 17 1).writeS 18 1)
    let sm := Instr.smerge { hd .warp with vd := 4 } (.x { x0 with va := 16 })
    Solo s 0 sm ∧ ((started s 0 sm).mergeCheck 0 ((started s 0 sm).operandBlock (s.selfActor 0 sm) 16)).isNone = true := by
  unfold Solo Runs; decide +kernel

/-- A pool header at 0x10_0000, a descriptor at 0x10_0A00 of length 20 and window 4, and its node at 0x10_0C00 with two
pages; the operand block s16 names the descriptor; the pool's pages lie from 0x10_1000 on. -/
def trees : State :=
  let pool := leBytes 4 64 ++ leBytes 4 100 ++ leBytes 4 0 ++ leBytes 4 0 ++ leBytes 8 0x10_0E00 ++ leBytes 8 0x10_0F00 ++
    List.replicate 32 0
  let desc := leBytes 8 0x10_0C00 ++ List.replicate 120 0 ++ leBytes 4 20 ++ leBytes 4 4 ++ leBytes 8 0x10_0000 ++
    List.replicate 112 0
  let node := leBytes 8 0 ++ leBytes 4 0 ++ leBytes 2 20 ++ leBytes 2 1 ++ leBytes 4 0x4000_0000 ++ leBytes 4 0x4000_0001 ++
    List.replicate 40 0
  { ((((engines.updWarp 0 (fun x => x.writeS 16 0x10_0A00)).writeRuns [(.phys 0x2_0000, 64)] pool).writeRuns
    [(.phys 0x2_0A00, 256)] desc).writeRuns [(.phys 0x2_0C00, 64)] node).writeRuns [(.phys 0x1_4808, 8)]
      (pageEntry 0x2_1000) with parts := engines.parts }
/-- The descriptor of `trees`. -/
def treeDesc : KvDesc :=
  ⟨0x10_0A00, [⟨0x10_0C00, 0, 20, 1, [0x4000_0000, 0x4000_0001, 0, 0, 0, 0, 0, 0]⟩], 20, 4, 0x10_0000⟩
/-- The pool of `trees`. -/
def treePool : KvPool := ⟨0x10_0000, 64, 100, 0, 0, 0x10_0E00, 0x10_0F00, 0, 0⟩
/-- Whether the descriptor and the pool that an instruction finds are these. -/
def findsAs (d : KvDesc) (s : State) (i : Instr) : Bool :=
  let rs := (started s 0 i).operandBlock (s.selfActor 0 i) 16
  let v := (started s 0 i).engineVia (s.warp 0).blk
  !(started s 0 i).kvEarlier 0 s.nextUid (regPair rs 0) &&
  (match (started s 0 i).kvDesc v (regPair rs 0) with | .ok e => decide (e = d) | .error _ => false) &&
    (match (started s 0 i).kvPool v treeDesc.pool with | .ok p => decide (p = treePool) | .error _ => false)

/-- The same of `trees` and its pool. -/
def finds (s : State) (i : Instr) : Bool := findsAs treeDesc s i

theorem wit_KvSteps :
    let w := Instr.kvwalk { hd .warp with vd := 2 } (.x { x0 with va := 16 })
    let at' (n : Word) := trees.updWarp 0 (fun x => x.writeS 18 n)
    Solo (at' 20) 0 w ∧ finds (at' 20) w = true ∧ badEntry treePool.cap treeDesc.path = none ∧
      (((started (at' 20) 0 w).operandBlock ((at' 20).selfActor 0 w) 16).drop 3).all (fun r => r == 0) = true ∧ treeDesc.len ≤ 20 ∧ (3 < treeDesc.len ∧ 3 < treeDesc.win) ∧
      (match chooseNode treeDesc.path 19 with
       | some (_, n) => decide (19 < n.start + n.count) && !entBad treePool.cap (n.ents.getD ((19 - n.start) / 16) 0)
       | none => false) = true := by
  unfold Solo Runs; decide +kernel
/-- A page entry of the path whose index the pool does not hold. -/
theorem wit_KvSteps_bad :
    let w := Instr.kvwalk { hd .warp with vd := 2 } (.x { x0 with va := 16 })
    let s := trees.writeRuns [(.phys 0x2_0C10, 4)] (leBytes 4 0x4000_0064)
    let n : KvNode := ⟨0x10_0C00, 0, 20, 1, [0x4000_0064, 0x4000_0001, 0, 0, 0, 0, 0, 0]⟩
    Solo s 0 w ∧ findsAs { treeDesc with path := [n] } s w = true ∧ badEntry treePool.cap [n] = some n ∧ Room s 0 := by
  unfold Solo Runs Room; decide +kernel
theorem wit_KvSteps_trunc :
    let t := Instr.kvtrunc { hd .warp with vd := 2 } (.x { x0 with va := 16 })
    let s := trees.updWarp 0 (fun x => x.writeS 18 16)
    let tr := truncBack treeDesc 16
    Solo s 0 t ∧ finds s t = true ∧ (16 ≤ treeDesc.len) ∧ (∀ e ∈ tr.freed, entBad treePool.cap e.word = false) ∧
      isOk ((started s 0 t).kvRuns ((started s 0 t).engineVia 0)
        (truncWrites treeDesc treePool tr 16 (min treeDesc.win 16)).1) = true := by
  unfold Solo Runs; decide +kernel
theorem wit_KvSteps_fork :
    let f := Instr.kvfork (hd .warp) (.x { x0 with va := 16 })
    let s := trees.updWarp 0 (fun x => (x.writeS 18 0x10_0B00).writeS 20 16)
    Solo s 0 f ∧ finds s f = true ∧ (started s 0 f).kvEarlier 0 s.nextUid 0x10_0B00 = false ∧ treeDesc.win ≤ 16 ∧ 16 ≤ treeDesc.len ∧ (0x10_0B00 : DWord).toNat % 64 = 0 ∧
      (∀ n ∈ treeDesc.path.filter (fun n => decide (n.start < 16)), n.refs < 65535) ∧
      isOk ((started s 0 f).kvRuns ((started s 0 f).engineVia 0) [(0x10_0B00, List.replicate 256 0)]) = true := by
  unfold Solo Runs; decide +kernel

/-! GRANT, TASK and SYS. -/

/-- ACQ and ACQT of two units of SCR. -/
def acq2 : Instr := .acq { hd .warp with width := 0, vd := 2 } (.xi 0 2)
def acqt2 : Instr := .acqt { hd .warp with width := 0, vd := 2 } (.xi 0 2)
theorem wit_RequestAndGrant :
    Solo base 0 acq2 ∧ grantAmount (.xi 0 2) (base.selfActor 0 acq2) (started base 0 acq2) = 2 ∧ 2 ≤ amountMax 0 ∧
      (base.core 0).reqs.length < 64 ∧ (base.core 0).reqs = [] ∧ Solo base 0 acqt2 := by
  unfold Solo Runs; decide +kernel

/-- `base` after a request has been sent, on the next clock. -/
def asks (i : Instr) (f : State → State) : State := (after i (f base)).updCore 0 (fun c => { c with clock := c.clock + 1 })
/-- What the Shepherd decides on the request at the head of core 0's queue, of a warp 0 that waits alone. -/
def decision (s : State) : Option Decision :=
  match s.headNeed 0, s.openWait 0 with
  | some (.acq r), some q =>
    if r.w = 0 && r.blk = 0 && decide (r.cls < 4) && q.actor.lead = 0 && q.actor.scope == .warp && q.actor.inst.isNone
      && q.actor.rep.isNone && (s.liveMembers q.actor).map (fun m => m.w) == [0] then
      some ((s.bump.popNeed 0).judge 0 r q.actor)
    else none
  | _, _ => none
/-- Another block that holds all of SCR but one unit. -/
def crowded (s : State) : State :=
  { s with blocks := s.blocks.put 1 { placedBlock with claim := [128, 0, 0, 0, 0, 0, 0, 0, 0, 0],
                                                       alloc := [127, 0, 0, 0, 0, 0, 0, 0, 0, 0] } }
/-- A request that waits on the deferred list. -/
def waiting0 : Request := ⟨7, 1, 0, 1, [1, 0, 0, 0, 0, 0, 0, 0, 0, 0], false⟩
theorem wit_RequestAndGrant_decisions :
    decision (asks acq2 id) = some .passes ∧ decision (asks acqt2 id) = some .passes ∧
      decision (asks acq2 (fun s => s.updBlock 0 (fun b => { b with claim := [1, 0, 32, 0, 0, 0, 0, 0, 0, 0] }))) = some .exceeded ∧
      decision (asks acqt2 crowded) = some .fails ∧ decision (asks acq2 crowded) = some .fails ∧
      ((asks acq2 crowded).core 0).deferred.length < Config.deferredMax ∧ Room (asks acq2 crowded) 0 := by
  unfold Room; decide +kernel
/-- One entry of the deferred list is free, and none is. -/
theorem wit_RequestAndGrant_limit :
    let s (n : Nat) := (asks acq2 crowded).updCore 0 (fun c => { c with deferred := List.replicate n waiting0 })
    decision (s 127) = some .fails ∧ ((s 127).core 0).deferred.length = 127 ∧ 127 < Config.deferredMax ∧
      decision (s 128) = some .fails ∧ ((s 128).core 0).deferred.length = 128 ∧ Config.deferredMax ≤ 128 ∧ Room (s 128) 0 := by
  unfold Room; decide +kernel
/-- A request behind one of an earlier clock. -/
theorem wit_RequestAndGrant_behind :
    let s := base.updCore 0 (fun c => { c with clock := 6, reqs := [⟨5, .acq waiting0⟩] })
    Solo s 0 acq2 ∧ (s.core 0).reqs.length < 64 ∧ grantAmount (.xi 0 2) (s.selfActor 0 acq2) (started s 0 acq2) = 2 := by
  unfold Solo Runs; decide +kernel

theorem wit_SafeStateRule : testPasses [side 0 6 4, side 1 5 2, side 2 128 119] none 1 [2, 0, 0, 0, 0, 0, 0, 0, 0, 0] = true := by
  decide +kernel

/-- A block that holds one unit of SCR. -/
def oneUnit : State := blockIs (fun b => { b with alloc := [1, 0, 32, 0, 0, 0, 0, 0, 0, 0], scrEpochs := [0] })
/-- REL of `n` units of SCR. -/
def rel (n : BitVec 24) : Instr := .rel { hd .warp with width := 0 } (.xi 0 n)
theorem wit_ReleaseAndQuery :
    Solo oneUnit 0 (rel 1) ∧ grantAmount (.xi 0 1) (oneUnit.selfActor 0 (rel 1)) (started oneUnit 0 (rel 1)) = 1 ∧
      (oneUnit.warp 0).control = false ∧ 1 ≤ oneUnit.held 0 0 ∧
      (started oneUnit 0 (rel 1)).releaseOps (oneUnit.selfActor 0 (rel 1)) 0 1 = [] ∧ oneUnit.releaseFirst 0 = true ∧
      (let s := oneUnit.updCore 0 (fun c => { c with reqs := [⟨5, .acq waiting0⟩] })
       Solo s 0 (rel 1) ∧ s.releaseFirst 0 = false ∧ (s.core 0).reqs.length < 64) := by
  unfold Solo Runs; decide +kernel
theorem wit_ReleaseAndQuery_faults :
    let s := oneUnit.updWarp 0 (fun x => { x with control := true })
    Room oneUnit 0 ∧ Solo oneUnit 0 (rel 2) ∧ oneUnit.held 0 0 < 2 ∧ Solo oneUnit 0 (rel 0) ∧ Solo oneUnit 0 (rel 129) ∧
      amountMax 0 < 129 ∧ Solo s 0 (rel 1) ∧ (s.warp 0).control = true := by
  unfold Solo Runs Room; decide +kernel
theorem wit_ReleaseAndQuery_reads :
    let q (n : BitVec 8) := Instr.claimq { hd .warp with width := 0, vd := 8 } (.x { x0 with vc := n })
    Solo oneUnit 0 (q 0) ∧ Solo oneUnit 0 (q 1) ∧ Solo oneUnit 0 (q 4) := by
  unfold Solo Runs; decide +kernel

/-- FJOIN, SLICEYIELD, REGION and FLOCKSET of a block. -/
def join8 : Instr := .fjoin { hd .block with vd := 2 } (.x { x0 with va := 8 })
def yields : Instr := .sliceyield (hd .block) (.x x0)
def enters : Instr := .region (hd .block) (.x x0)
def flock1 : Instr := .flockset (hd .block) (.xi 0 1)
/-- The first rendezvous of block 0 may be performed, led by warp 0. -/
abbrev Due (s : State) : Prop := Performs s 0 (open1 s).id (open1 s) 0
/-- The state from which it is performed. -/
def atOp (s : State) : State := gathered s 0 (open1 s) 0

theorem wit_BlockInstructions :
    (Due (duoDone join8 id) ∧ ((atOp (duoDone join8 id)).block 0).fold = none ∧
      (atOp (duoDone join8 id)).keyMembers 0 0 0 = []) ∧
    (Due (duoDone yields id) ∧ ((atOp (duoDone yields id)).preemptible 0 && (atOp (duoDone yields id)).coreWanted 0) = false) ∧
    (Due (duoDone enters id) ∧ ((atOp (duoDone enters id)).block 0).inRegion = false ∧
      (atOp (duoDone enters id)).requested 0 = none) ∧
    (Due (duoDone flock1 id) ∧ 1 ≤ ((atOp (duoDone flock1 id)).block 0).lrec.warps) := by
  unfold Due Performs; decide +kernel
theorem wit_BlockInstructions_leave :
    let l := Instr.fleave (hd .block) (.x x0)
    let e := Instr.regionend (hd .block) (.x x0)
    let s := duoDone l (fun s => s.updBlock 0 (fun b => { b with fold := some ⟨0, 0, none⟩ }))
    let t := duoDone e (fun s => s.updBlock 0 (fun b => { b with inRegion := true }))
    Due s ∧ ((atOp s).block 0).fold.isSome = true ∧ (atOp s).ops = [] ∧
      (∀ v ∈ (atOp s).warpsOfBlock 0, ((atOp s).warp v).loads = [] ∧ ((atOp s).warp v).stores = []) ∧
      Due t ∧ ((atOp t).block 0).inRegion = true := by
  unfold Due Performs; decide +kernel
/-- A block that may be pre-empted and whose core a gang of eight wants; and one whose pre-emption waits for its REGION. -/
def wanted (s : State) : State :=
  let g : Grid := { placedGrid with
    job := 2, queue := 1, next := 0, live := 0, queued := true,
    lrec := { placedRecord with gx := 8, fold := 8, gang := true, scrStart := 128 } }
  { s with grids := (s.grids.put 0 { placedGrid with lrec := { placedRecord with prio := 1 } }).put 1 g }.updBlock 0
    (fun b => { b with lrec := { b.lrec with preempt := true }, inRegion := true, alloc := [128, 0, 32, 0, 0, 0, 0, 0, 0, 0] })
def asked (s : State) : State :=
  s.updBlock 0 (fun b => { b with lrec := { b.lrec with preempt := true }, preemptReq := some 1 })
theorem wit_BlockInstructions_gone :
    (Due (duoDone yields wanted) ∧
      ((atOp (duoDone yields wanted)).preemptible 0 && (atOp (duoDone yields wanted)).coreWanted 0) = true ∧
      ((atOp (duoDone yields wanted)).preemptAll 0 0x82 0).recordsFit 0 = true) ∧
    (Due (duoDone enters asked) ∧ (atOp (duoDone enters asked)).requested 0 = some (0, 1) ∧
      ((atOp (duoDone enters asked)).updBlock 0 (fun b => { b with inRegion := true })).preemptible 0 = true) := by
  unfold Due Performs; decide +kernel

/-- A launch record at 0x10_0800 (19 R323) and a job whose task table stands at 0x10_0A00, with its TCBs all zero. -/
def jobs : State :=
  let r := leBytes 8 0x10_0000 ++ leBytes 8 0 ++ leBytes 4 1 ++ leBytes 4 1 ++ leBytes 4 1 ++ [1, 1, 1, 1] ++ leBytes 8 0 ++
    [1, 0, 0, 0, 1, 0, 0, 0] ++ List.replicate 80 0
  ({ base with jobs := [(1, ⟨0, 1, 0x10_0A00, false, []⟩)],
               stiles := [(5, ⟨1, 0, 0, [], []⟩), (6, ⟨1, 0, 0, [List.replicate 16 9], []⟩)] }.updWarp 0 (fun x =>
    ((x.writeS 8 0x10_0800).writeS 12 0x10_0A00).writeS 14 0x10_0A40)).writeRuns [(.phys 0x2_0800, 128)] r

/-- Whether a task read gives bytes that pass a test. -/
def reads (s : State) (i : Instr) (fn : Nat) (addr : DWord) (n : Nat) (p : List Byte → Bool) : Bool :=
  match taskRead fn addr n (s.selfActor 0 i) (started s 0 i) with
  | .ok bs => p bs
  | .error _ => false

/-- What a task read of `n` bytes leaves, beside the bytes. -/
def loads (s : State) (i : Instr) (fn : Nat) (addr : DWord) (n : Nat) (p : List Byte → State → Bool) : Bool :=
  match taskLoad fn addr n (s.selfActor 0 i) (started s 0 i) with
  | .ok (bs, z) => p bs z
  | .error _ => false

theorem wit_TaskInstructions :
    let l := Instr.launch { hd .warp with vd := 4 } (.x { x0 with va := 8, vb := 10 })
    let sp := Instr.spawn { hd .warp with vd := 5 } (.x { x0 with va := 12, vb := 10 })
    Solo jobs 0 l ∧ (jobs.part 0).destroying.contains 0 = false ∧ jobs.queueFull 0 0 = false ∧
      loads jobs l 0 0x10_0800 128 (fun bs _ => (launchFault 0x10_0800 bs).isNone) = true ∧
      Solo jobs 0 sp ∧ (jobs.jobOf 0).isSome = true ∧ tcbIndex ⟨0, 1, 0x10_0A00, false, []⟩ 0x10_0A00 = some 0 ∧
      reads jobs sp 1 0x10_0A00 64 (fun bs => fieldAt bs 0 4 = 0 &&
        (spawnCheck (started jobs 0 sp) (jobs.selfActor 0 sp) bs).isNone) = true ∧
      (let t := ((started jobs 0 sp).tell (fun r => r.knownBy ((started jobs 0 sp).path 0 (jobs.warp 0).active 4))
         [(tcbKey 0 1 0, 1)]).listTcb 0 1 0
       t.recordsFit 0 = true ∧ (t.runTasks 0 1 0 (2 ^ 32) [.ready 0]).recordsFit 0 = true) := by
  unfold Solo Runs; decide +kernel
/-- A TCB that waits for one other. -/
theorem wit_TaskInstructions_waits :
    let sp := Instr.spawn { hd .warp with vd := 5 } (.x { x0 with va := 12, vb := 10 })
    let s := jobs.writeRuns [(.phys 0x2_0A00, 1)] [1]
    Solo s 0 sp ∧ reads s sp 1 0x10_0A00 64 (fun bs => fieldAt bs 0 4 = 1 &&
      (spawnCheck (started s 0 sp) (s.selfActor 0 sp) bs).isNone) = true ∧
      (((started s 0 sp).tell (fun r => r.knownBy ((started s 0 sp).path 0 (s.warp 0).active 4)) [(tcbKey 0 1 0, 1)]).listTcb
        0 1 0).recordsFit 0 = true := by
  unfold Solo Runs; decide +kernel
/-- An edge to a TCB that has begun, and one from a TCB that is done. -/
theorem wit_TaskInstructions_states :
    let d := Instr.tdep { hd .warp with vd := 6 } (.x { x0 with va := 12, vb := 14 })
    let s := jobs.writeRuns [(.phys 0x2_0A44, 1)] [1]
    let t := jobs.writeRuns [(.phys 0x2_0A04, 1)] [3]
    Solo s 0 d ∧ Room s 0 ∧ reads s d 2 0x10_0A40 64 (fun bs => tcbState bs ≠ 0) = true ∧
      reads s d 2 0x10_0A00 64 (fun bs => tcbState bs ≠ 3) = true ∧
      Solo t 0 d ∧ reads t d 2 0x10_0A00 64 (fun bs => tcbState bs = 3) = true := by
  unfold Solo Runs Room; decide +kernel
theorem wit_TaskInstructions_dep :
    let d := Instr.tdep { hd .warp with vd := 6 } (.x { x0 with va := 12, vb := 14 })
    Solo jobs 0 d ∧ tcbIndex ⟨0, 1, 0x10_0A00, false, []⟩ 0x10_0A40 = some 1 ∧ Room jobs 0 ∧
      reads jobs d 2 0x10_0A00 64 (fun bs => tcbState bs ≠ 3 && tcbState bs = 0 &&
        (match appendSuccessor (started jobs 0 d) 0 0x10_0A00 bs 1 with
         | some ws => isOk ((started jobs 0 d).kvCommit ((started jobs 0 d).path 0 (jobs.warp 0).active 4) [] (pagerVia 0)
             (ws ++ [w4 0x10_0A40 1]))
         | none => false)) = true := by
  unfold Solo Runs Room; decide +kernel
theorem wit_TaskInstructions_stiles :
    let c := Instr.tcancel (hd .warp) (.x { x0 with va := 16 })
    let e := Instr.stenq (hd .warp) (.x { x0 with va := 20, vb := 32 })
    let d := Instr.stdeq { hd .warp with vd := 48 } (.x { x0 with va := 20 })
    let s5 := jobs.updWarp 0 (fun x => x.writeS 20 5)
    let s6 := jobs.updWarp 0 (fun x => x.writeS 20 6)
    Solo jobs 0 c ∧ jobs.job? 0 0 = none ∧ (jobs.job? 0 1).isSome = true ∧
      (∀ j ∈ jobs.job? 0 1, ((started jobs 0 c).cancelJob j false 0).recordsFit 0 = true) ∧ Solo s5 0 e ∧ Solo s6 0 e ∧ Solo s5 0 d ∧ Solo s6 0 d ∧
      (∀ t ∈ s5.stiles.find 5, t.producer = 0 ∧ t.consumer = 0 ∧ t.slots.length < t.capacity ∧ t.slots = []) ∧
      (∀ t ∈ s6.stiles.find 6, t.capacity ≤ t.slots.length ∧ t.slots = [List.replicate 16 9]) ∧
      (s5.part 0).pstate ≠ .resetting := by
  unfold Solo Runs; decide +kernel

/-- A firmware warp in focus, and a user warp in another block of core 0, slot 1. -/
def firm : State :=
  { (warpIs (fun x => { x with fw := true })) with
    warps := (base.warps.put 0 { placedWarp with fw := true }).put 1 { placedWarp with blk := 1, slot := 1, quarter := 1, widx := 0 },
    blocks := base.blocks.put 1 { placedBlock with q0 := 1 } }
/-- A SYS word with vd 4, va 8, vb 9. -/
def sysWord (c : Hdr → Upper → Instr) : Instr := c { hd .warp with vd := 4 } (.x { x0 with va := 8, vb := 9 })

theorem wit_SystemInstructions :
    let o := sysWord .ovfld
    headWord o = some (17, 0, { hd .warp with vd := 4 }, .x { x0 with va := 8, vb := 9 }) ∧ base.focus = some 0 ∧
      base.ready 0 = true ∧ (base.warp 0).fw = false ∧ Room base 0 ∧ scopeOfInstr o = .warp ∧ Solo firm 0 o ∧
      ovfValid 0 = true ∧ ovfValid 0x4000 = false ∧
      (let t := Instr.tlbinv (hd .warp) (.x { x0 with va := 8, vb := 9 })
       Solo firm 0 t ∧ (started firm 0 t).drainsInFlight 0 = false) ∧
      (let q := Instr.qdestroy (hd .warp) (.x { x0 with va := 8 })
       Solo firm 0 q ∧ ((started firm 0 q).destroyQueue 0 0).recordsFit 0 = true) ∧
      (started firm 0 o).canRecord 0 0 = true := by
  unfold Solo Runs Room; decide +kernel
/-- `firm` with a target word in s8, s10:11 at 0x10_1000, where no page is, and the user warp suspended or not. -/
def target (v : Word) (u : Option Susp) : State :=
  (firm.updWarp 0 (fun x => (x.writeS 8 v).writeS 10 0x10_0000)).updWarp 1 (fun x => { x with susp := u })
/-- A suspension of warp 1. -/
def held1 : Susp := ⟨0x40, 0, [1], none, false, false, 0⟩
/-- A SYS word whose vb is the pair s10:11. -/
def sysPair (c : Hdr → Upper → Instr) : Instr := c { hd .warp with vd := 4 } (.x { x0 with va := 8, vb := 10 })

theorem wit_SystemInstructions_targets :
    let h := Instr.halt { hd .warp with vd := 4 } (.x { x0 with va := 8 })
    let q := Instr.qdestroy (hd .warp) (.x { x0 with va := 8 })
    targetWord false 0x100 = some ⟨0, false, 1, 0⟩ ∧ targetWord false 0xFFFF_FFFF = none ∧ targetWord true 0x3_0100 = none ∧
      Solo (target 0x100 none) 0 h ∧ ((target 0x100 none).warps.find 1).isSome = true ∧
      ((target 0x100 none).warp 1).exited = false ∧ Solo (target 0x100 (some held1)) 0 h ∧
      (target 0x700 none).warps.find 7 = none ∧ Solo (target 0x700 none) 0 h ∧
      Solo (target 0x100 (some held1)) 0 (sysPair .eret) ∧ Solo (target 0 none) 0 q := by
  unfold Solo Runs; decide +kernel
/-- The return of a suspended warp in each mode, at a new PC, and at an odd one; the end of a warp; a block to destroy. -/
theorem wit_SystemInstructions_modes :
    let e := sysPair .eret
    let s (v : Word) := target v (some held1)
    targetWord true 0x100 = some ⟨0, false, 1, 0⟩ ∧ targetWord true 0x1_0100 = some ⟨1, false, 1, 0⟩ ∧
      targetWord true 0x2_0100 = some ⟨2, false, 1, 0⟩ ∧ Solo (s 0x100) 0 e ∧ Solo (s 0x1_0100) 0 e ∧ Solo (s 0x2_0100) 0 e ∧
      (((started (s 0x1_0100) 0 e).targets ⟨1, false, 1, 0⟩).any (fun v =>
        ((started (s 0x1_0100) 0 e).resumeGroup v).any (started (s 0x1_0100) 0 e).inInstance)) = false ∧
      codeAddr 0x10_0000 = true ∧ codeAddr 0x10_0001 = false ∧ Room (s 0x1_0100) 0 ∧
      (let t := (s 0x1_0100).updWarp 0 (fun x => x.writeS 10 0x10_0001)
       Solo t 0 e ∧ (t.warp 0).readPairS ((started t 0 e).draw 0) 10 = 0x10_0001) := by
  unfold Solo Runs Room; decide +kernel
/-- ERET 01 of a warp that an operation's fault has suspended in a rendezvous. -/
theorem wit_SystemInstructions_bound :
    let e := sysPair .eret
    let s := (target 0x1_0100 (some { held1 with rendezvous := true })).updBlock 1 (fun b =>
      { b with insts := [{ noInst with arrivals := [⟨1, 1, 1⟩], suspended := true }] })
    Solo s 0 e ∧ ((started s 0 e).targets ⟨1, false, 1, 0⟩).any (fun v =>
      ((started s 0 e).resumeGroup v).any (started s 0 e).inInstance) = true := by
  unfold Solo Runs; decide +kernel
theorem wit_SystemInstructions_images :
    let sv := sysPair .ctxsave
    let s := target 0x8100 (some held1)
    let z := started s 0 sv
    Solo s 0 sv ∧ targetWord false 0x8100 = some ⟨0, true, 1, 0⟩ ∧ z.allSuspended (z.warp 1).blk = true ∧
      z.contextBusy (z.warp 1).blk = false ∧ (0x10_0000 : DWord).toNat % 4096 = 0 ∧ Solo s 0 (sysPair .ctxload) ∧
      Solo (target 0x100 none) 0 sv ∧ (started (target 0x100 none) 0 sv).allSuspended 1 = false := by
  unfold Solo Runs; decide +kernel
/-- The image's bytes find their place, whatever its size is. -/
theorem wit_SystemInstructions_saves :
    let sv := sysPair .ctxsave
    let z := started (target 0x8100 (some held1)) 0 sv
    ∃ rs, z.longRuns (z.via 0) (Rights.w false) (z.draw 8) ((z.imageOf (z.warp 1).blk).size / 4096 + 2) 0x10_0000
      (z.imageOf (z.warp 1).blk).size = .ok rs := by
  refine State.longRuns_firmware _ _ _ _ (by decide +kernel) _ _ _ ?_
  have h : ∀ k, sectionOffset k 5 ≤ 256 + 5 * (4 * 2 ^ 20) := by
    intro k
    have b : ∀ i, sectionBytes k i ≤ 4 * 2 ^ 20 := fun i => Nat.mul_le_mul_left 4 (Nat.le_of_lt (Nat.mod_lt _ (by decide)))
    have := b 0; have := b 1; have := b 2; have := b 3; have := b 4
    simp only [sectionOffset, List.range, List.range.loop, List.map_cons, List.map_nil, List.sum_cons, List.sum_nil]
    omega
  exact Nat.le_trans (Nat.add_le_add_left (h _) _) (by decide)

/-- An image of one block with one warp, which stands in memory as its header alone. -/
def image1 : Image := { size := 256, draw := 0, blk := placedBlock, warps := [(1, placedWarp)], ops := [] }
/-- Firmware that loads it on core 2. -/
def loads2 : State :=
  { target 2 (some held1) with mem := memWriteList base.mem 0x10_0000 image1.header, images := [image1] }
theorem wit_SystemInstructions_loads :
    let i := sysPair .ctxload
    Solo loads2 0 i ∧ targetWord false 2 = some ⟨0, false, 0, 2⟩ ∧ ((started loads2 0 i).imageSlots 2 image1).isSome = true ∧
      loads2.pacing 2 = false ∧ (started loads2 0 i).admits 2 image1.blk.claim image1.blk.alloc = true ∧
      ((started loads2 0 i).updCore 2 (fun c => { c with lastAdmit := some 0 })).pacing 2 = true := by
  unfold Solo Runs; decide +kernel
/-- Room for the image's requests in the Shepherd's queue; and a core whose slots of the image's quarter are taken. -/
theorem wit_SystemInstructions_room :
    let i := sysPair .ctxload
    let s := { loads2 with warps := (List.range 32).foldl (fun m k => m.put (warpId 2 k) placedWarp) loads2.warps }
    (loads2.core 2).reqs.length + (image1.warps.filter (fun e => e.2.leadsNeed e.1)).length ≤ 64 ∧
      Solo s 0 i ∧ (started s 0 i).imageSlots 2 image1 = none := by
  unfold Solo Runs; decide +kernel
theorem wit_SystemInstructions_image :
    let i := sysPair .ctxload
    (started loads2 0 i).imageAt (loads2.selfActor 0 i) 0x10_0000 = .ok image1 := by
  intro i
  have hr : (started loads2 0 i).longRuns ((started loads2 0 i).via (loads2.selfActor 0 i).lead) (Rights.r false)
      ((started loads2 0 i).draw 8) 2 0x10_0000 256 = .ok [(.phys 0x10_0000, 256)] := by decide +kernel
  have hl : image1.header.length = 256 := by decide +kernel
  have hb : (started loads2 0 i).runBytes [(.phys 0x10_0000, 256)] = image1.header := by
    have hm : (started loads2 0 i).mem = memWriteList base.mem 0x10_0000 image1.header := by
      simp [started, State.chargeIssue, loads2]
    have := memReadList_memWriteList 0x10_0000 image1.header (m := base.mem) (by decide +kernel)
    rw [hl] at this
    simp [State.runBytes, State.readTarget, State.readRun, hm, this]
  have hy : image1.bytes = image1.header := by simp [Image.bytes, image1]
  have hi : (started loads2 0 i).images = [image1] := rfl
  have hv : fieldAt image1.header 0 4 = imageVersion := by decide +kernel
  have hs : image1.size = 256 := rfl
  have hc : vecLe image1.blk.claim capacities = true := by decide
  have hn : 256 / 4096 + 2 = 2 := rfl
  have ha : vecLe image1.blk.alloc image1.blk.claim = true := by decide
  unfold State.imageAt
  have hr' := hr
  simp only [BitVec.ofNat_eq_ofNat] at hr'
  simp [hn, hr', hb, hv, hi, hy, hs, hc, ha]
/-- An address at which no image stands. -/
theorem wit_SystemInstructions_lost :
    let i := sysPair .ctxload
    let s := target 2 (some held1)
    Solo s 0 i ∧ Room s 0 ∧ isOk ((started s 0 i).imageAt (s.selfActor 0 i) 0x10_0000) = false := by
  unfold Solo Runs Room; decide +kernel
theorem wit_SystemInstructions_register :
    let w := sysWord .swrp
    let s := firm.updWarp 0 (fun x => x.writeS 9 5)
    Solo s 0 w ∧ ((s.part 0).swrp 5 0).isSome = true ∧ ((s.part 0).swrp 255 0) = none := by
  unfold Solo Runs; decide +kernel

/-- A record of one warp, and one of a flock of two. -/
theorem wit_ReturnFromException :
    ((target 0 (some held1)).warp 1).susp = some held1 ∧ held1.flags &&& 6 = 0 ∧
      (let u : Susp := { held1 with flags := 2, group := [0, 1] }
       let s := (duo.updWarp 0 (fun x => { x with susp := some u })).updWarp 1 (fun x => { x with susp := some u })
       (s.warp 0).susp = some u ∧ u.flags &&& 6 ≠ 0 ∧
         u.group.filter (fun v => (s.warp v).susp.any (fun t => t.group = u.group)) = [0, 1]) := by decide +kernel

/-! Events. -/

/-- Core 0 at the slot of quarter `q` with a window in which quarter 0 has charged `n`, and runs of filler; no warp is there. -/
def charged (q n run : Nat) : State :=
  (base.setCore 0 { Core.reset with turn := q, window := [[n, 0, 0, 0]], fillRun := List.replicate 4 run,
                                    filledNow := List.replicate 4 true }).updWarp 0 (fun x => { x with live := 0 })

theorem wit_StringEvents :
    ((charged 1 4000 0).core 0).turn = 1 ∧ (charged 1 4000 0).selection 0 1 = .filler ∧
      (let s := charged 4 7000 15
       let d := (s.core 0).tick
       (s.core 0).throttled = false ∧ (s.core 0).gated = false ∧ 4 ≤ (s.core 0).turn ∧ (s.settingsOf 0).throtT < imbalance d ∧
         16 ≤ d.fillRun.getD (firstAt (windows d) (listMin (windows d))) 0) ∧
      (let s := base.setCore 0 { Core.reset with throttled := true, turn := 4 }
       (s.core 0).throttled = true ∧ 4 ≤ (s.core 0).turn ∧
         imbalance (s.core 0).tick ≤ (s.settingsOf 0).throtT - (s.settingsOf 0).fillerF) := by decide +kernel
theorem wit_StringEvents_stops :
    base.ownerOf 0 = some 0 ∧ base.canRecord (halfOfCore 0) 0 = true ∧ (base.part 0).configured = true ∧
      base.migrant 0 = none ∧ running base 0 = [0] := by decide +kernel
theorem wit_StringEvents_more :
    let s := blockIs (fun b => { b with lrec := { b.lrec with preempt := true }, inRegion := true })
    let g := State.reset.setCore 5 { Core.reset with gated := true }
    s.migrant 0 = some 0 ∧ (s.bump.preemptAll 0 0xAD 0).recordsFit (s.block 0).part = true ∧ (g.core 5).gated = true ∧
      (g.core 6).gated = false ∧ g.blocks = [] ∧ ((warpIs (fun x => { x with yieldLeft := 1 })).warp 0).yieldLeft = 1 ∧
      base.storageThere 0 0 0 3 = true ∧ base.errorOwner 0 0 0 = some 0 ∧ State.reset.storageThere 4 100 0 0 = true ∧
      State.reset.errorOwner 4 0 100 = none ∧ base.storageThere 7 0 0 0 = true := by decide +kernel

/-- A warp with a load of one cell and a store outstanding; the load meets poison or not. -/
def pending (bad : Option Cause) : State :=
  warpIs (fun x => { x with
    loads := [⟨[⟨false, 2, 31, 7, 0, false⟩], [], bad, [], [], false, 0, 0, false⟩],
    stores := [⟨0, none, [], [], false, false, 0, 0, false⟩] })
/-- A warp with a load and a store of peer 5 outstanding. -/
def peerPending : State :=
  warpIs (fun x => { x with loads := [⟨[⟨false, 2, 31, 7, 0, false⟩], [], none, [5], [], false, 0, 0, false⟩],
                            stores := [⟨0, none, [5], [], false, false, 0, 0, false⟩] })
/-- A warp with a load from the member at core 1, which has left the fold. -/
def leftPending : State :=
  warpIs (fun x => { x with loads := [⟨[⟨false, 2, 31, 7, 0, false⟩], [], none, [], [(9, 1)], false, 0, 0, false⟩] })
theorem wit_LoadAndStoreReturn :
    (pending none).warps.find 0 = some ((pending none).warp 0) ∧
      (∀ b ∈ [none, some (0x44 : Cause)], ((pending b).warp 0).loads[0]? =
        some ⟨[⟨false, 2, 31, 7, 0, false⟩], [], b, [], [], false, 0, 0, false⟩) ∧
      (leftPending.departed 0 [(9, 1)]).isSome = true ∧
      ((pending none).warp 0).stores[0]? = some ⟨0, none, [], [], false, false, 0, 0, false⟩ ∧
      ((peerPending.warp 0).loads[0]?).map (fun q => (q.peers, q.bad, q.done)) = some ([5], none, false) ∧
      ((peerPending.warp 0).stores[0]?).map (fun q => (q.peers, q.bad, q.done)) = some ([5], none, false) := by decide +kernel

/-- `engines` with one engine operation, number 7. -/
def withOp (o : EngOp) : State := { engines with ops := [(7, o)] }
/-- The handle of FP32 at 0x10_0800. -/
def line32 : Handle := ⟨0x10_0800, 0, 1, false, [64, 1, 1, 1, 1], [0, 0, 0, 0], [4, 1, 1, 1, 1]⟩
/-- Eight registers of zero. -/
def zeros : List Word := List.replicate 8 0

theorem wit_EngineEvents :
    let q := (withOp (work (.tile 1 line32) zeros false none)).updWarp 0 (fun x => { x with tileq := [7] })
    let o := work (.tile 1 line32) zeros true none
    let s := withOp o
    let c := work (.lane 0 0x10_0800 0 4 4 false) [] true none
    (q.warp 0).tileq = 7 :: [] ∧ q.slotsUsed (q.warp 0).core < Config.tileSlots ∧ s.ops.find 7 = some o ∧
      isOk (s.bump.runTile 7 1 line32 o) = true ∧ isOk ((withOp c).bump.runTransfer 7 c) = true ∧ c.fault = none ∧
      (match s.bump.boxRuns 0 (Rights.r false) line32 (originOf zeros) with
       | .ok cells => !s.bump.peerPoisons (cells.filterMap (fun c => c.map Target.glob)) &&
           (s.bump.keysOf (.scr 0 0 (s.bump.boxRead (o.agent 7) line32 cells).length)).all (fun q => (s.bump.pastAt q).isEmpty)
       | .error _ => false) = true := by decide +kernel
/-- A weight load by handle. -/
theorem wit_EngineEvents_slot :
    let g : Handle := ⟨0x10_0800, 3, 2, false, [16, 16, 1, 1, 1], [32, 0, 0, 0], [2, 2, 1, 1, 1]⟩
    let o := work (.wbload 0 3 g) zeros true none
    (withOp o).bump.opBehind 7 o = false ∧ isOk ((withOp o).bump.slotBox 7 o g) = true := by decide +kernel
/-- A cast to rank 0 of a fold of one; and one that counts as complete, whose member has left. -/
theorem wit_EngineEvents_cast :
    let o := work (.tile 3 line32) [0, 0, 0, 0, 0, 0, 1, 0x20] true none
    let s := (withOp o).updBlock 0 (fun b => { b with fold := some ⟨7, 0, none⟩ })
    0 ∈ castLeft o ∧ isOk (s.bump.castBox 7 line32 o) = true ∧ isOk (s.bump.castTarget line32 o 0) = true ∧
      castLeft { o with delivered := [0] } = [] ∧
      (let l := { o with counted := true }
       castLeft l = [0] ∧ isOk ((withOp l).bump.castTarget line32 l 0) = false) := by decide +kernel
/-- An operation on an address that no page holds, one with a served fault, and one to a peer. -/
theorem wit_EngineEvents_faults :
    let o := work (.tile 1 { line32 with base := 0x20_0000 }) zeros true none
    let r := work (.tile 1 line32) zeros true (some ⟨0x58, 0, 0, true⟩)
    (o.isLane || o.accepted) = true ∧ o.counted = false ∧ ((withOp o).bump.meetsFault 7 o).isSome = true ∧
      (withOp o).bump.kvTurn 7 o = true ∧ r.fault = some ⟨0x58, 0, 0, true⟩ ∧
      (work (.tile 5 line32) zeros true none).accepted = true := by decide +kernel

/-- A warp whose next matrix operation, number 9, is of a kind. -/
def nextOp (k : MatKind) : State := engines.updWarp 0 (fun x => { x with matrix := [⟨9, k, 0, 0, 0, false, none⟩] })
theorem wit_MatrixEvents :
    (∀ k ∈ [MatKind.accz 0 1, .accld 0 0 0 0, .wbload 0 3 0 0 false, .mma 3 0 [] []],
      ((nextOp k).warp 0).nextMatrix = some (0, ⟨9, k, 0, 0, 0, false, none⟩) ∧ (nextOp k).bump.lateFault 0 k = none) ∧
      (nextOp (.wbload 0 3 0 0 false)).bump.slotBehind 0 0 9 = false := by
  decide +kernel
/-- The A operand of an MMA at the warp's PC. -/
theorem wit_MatrixEvents_fetch :
    let s := ((engines.updWarp 0 (fun x => { x with abuf := none })).putCode
      (unitBytes (unitsOf 4 0x003D_0000_3007_4237))).getD base
    (s.warps.find 0).isSome = true ∧ (s.warp 0).exited = false ∧ (s.warp 0).susp = none ∧ (s.warp 0).abuf = none ∧
      (s.warp 0).stores = [] ∧ s.bump.decodeAt 0 = .ok (.mma m16 (.x { x0 with vc := 61 })) ∧
      (s.block (s.warp 0).blk).omaps.find 0 = some ⟨false, 3, 32, 0⟩ ∧
      s.bump.firstBeyond 0 (aPlaces 3 ⟨false, 3, 32, 0⟩ (s.bump.originWord 0 { x0 with vc := 61 })) = none := by decide +kernel
/-- A drain into scratch with no bias, and an operation whose tiles are not granted. -/
theorem wit_MatrixEvents_drain :
    let d : Drain := ⟨0, false, 0, 0, none, 0, 0x3F80_0000, 0, 0xFFFF_FFFF, 0xFFFF_FFFF, 0, 0, 0⟩
    let k := MatKind.accld 0 0 8190 0
    (nextOp (.drain d)).bump.lateFault 0 (.drain d) = none ∧ ((nextOp k).bump.lateFault 0 k).isSome = true := by decide +kernel

/-- `trees` with an operation of the KV unit. -/
def treeOp (k : OpKind) (rs : List Word) : State := { trees with ops := [(7, work k rs true none)] }
/-- Operands of a gather of one page from position 4: the descriptor, position, pages, destination, no record, no barrier. -/
def gatherRegs : List Word := [0x10_0A00, 0, 0, 2, 0, 0xFFFF_FFFF, 0xFFFF_FFFF, 0]
theorem wit_KvEvents_walk :
    let o := work (.gather false none) gatherRegs true none
    isOk ((treeOp (.gather false none) gatherRegs).bump.gatherWalk o) = true ∧
      (treeOp (.gather false none) gatherRegs).bump.kvTurn 7 o = true := by decide +kernel
/-- The next state of an outcome. -/
def nextOf (r : Host.Outcome State Fault Refusal) (s : State) : State := match r with | .next t => t | _ => s
/-- A gather of one page that lies wholly beyond the length, after its walk. -/
def gathered1 : State :=
  nextOf (execKvgatherWalk 7 (treeOp (.gather false none) [0x10_0A00, 0, 32, 1, 0, 0xFFFF_FFFF, 0xFFFF_FFFF, 0])) base
/-- The gather that an operation has walked, with its delivered pages. -/
def walkOf (s : State) : Option (EngOp × Bool × Gather) :=
  match s.ops.find 7 with
  | some o => (match o.kind with
    | .gather v (some g) => some (o, v, g)
    | _ => none)
  | none => none
theorem wit_KvEvents_delivery :
    (match walkOf gathered1 with
     | some (o, v, g) => o.accepted && o.fault.isNone && decide (0 ∈ presentLeft g o.delivered) &&
         (match (gathered1.bump.reread 7 o g 0).gatherPage 7 o g v 0 with | .ok (some _) => true | _ => false)
     | none => false) = true ∧
      (match walkOf (nextOf (execKvPageDelivery 7 0 gathered1) base) with
       | some (o, _, g) => (List.range g.pages.length).all (fun j => o.delivered.contains j)
       | none => false) = true := by decide +kernel
/-- A page that the walk found absent and the pager has supplied. -/
theorem wit_KvEvents_return :
    let o := work (.gather false none) [0x10_0A00, 0, 0, 1, 0, 0xFFFF_FFFF, 0xFFFF_FFFF, 0] true none
    let g : Gather := ⟨64, 0x10_0000, 20, 4, [.entry 0x10_0C00 0 0x8000_0000], []⟩
    let s := trees.bump
    presentLeft g o.delivered = [] ∧ gatherAbsent g o.delivered = [0] ∧ 0 ∉ g.refused ∧
      (match (s.reread 7 o g 0).gatherPage 7 o g false 0 with | .ok (some _) => true | _ => false) = true := by decide +kernel
/-- An append of one token, and a merge of one row. -/
theorem wit_KvEvents_steps :
    let a := work .append [0x10_0A00, 0, 1, 0, 64, 0, 0xFFFF_FFFF, 0] true none
    let m := work .smerge [1, 1, 1, 0, 64, 0xFFFF_FFFF, 0, 0] true none
    let s := ({ engines with ops := [(7, m)] } : State).updBlock 0 (fun b =>
      { b with fold := some ⟨7, 0, none⟩, scr := (List.range 12).map (fun k => (k, (0 : Byte))) })
    isOk ((treeOp .append a.regs).bump.runAppend 7 a) = true ∧ (treeOp .append a.regs).bump.kvTurn 7 a = true ∧
      (match s.bump.runMerge 7 m with | .ok (_, none) => true | _ => false) = true := by decide +kernel
theorem wit_KvEvents_pager :
    let r : PageReq := ⟨7, 0, 0x10_0C00, 0, 0x10_0000⟩
    let p := base.updPart 0 (fun p => { p with pageReqs := [r, { r with op := 8 }], demoteReqs := [0x10_0000] })
    (p.part 0).pageReqs[0]? = some r ∧ (p.part 0).pageReqs.take 0 = [] ∧
      (p.part 0).pageReqs[1]? = some { r with op := 8 } ∧ r ∈ (p.part 0).pageReqs.take 1 ∧
      (p.part 0).demoteReqs[0]? = some 0x10_0000 := by
  decide +kernel
/-- The move of a page in the second tier, and a page entry that is present. -/
theorem wit_KvEvents_move :
    let p : KvPool := { treePool with free := 2, base2 := 0x10_1000, stack2 := 0x10_0F00 }
    (trees.bump.pageInMove 0 p ⟨7, 0, 0x10_0C00, 0, 0x10_0000⟩ 0x8000_0000).isSome = true ∧
      (match trees.pagerWord 0 (entAddr 0x10_0C00 0) with | .ok n => entPresent (w32 n) | .error _ => false) = true := by
  decide +kernel

/-! What ends each wait: the state of the wait, and the condition under which it ends. -/

/-- A BARWAIT for phase 0 in scratch. -/
def barWait : Instr := .barwait bh (.x { bf with vc := 0 })
/-- Warp 0 waits in it, and the object's phase is `n`. -/
def waitsBar (n : Nat) : State :=
  (after barWait (withBar (Bar.mk 2 2 0 0 0 0 0 0))).writeTarget (.scr 0 0 32) ((Bar.mk 2 2 n 0 0 0 0 0).bytes ++ List.replicate 8 0)
theorem wit_WaitEvents_barrier :
    let a := memory.selfActor 0 barWait
    Waits (waitsBar 1) 0 .barrier barWait a [0, 0, 0] ∧ Waits (waitsBar 0) 0 .barrier barWait a [0, 0, 0] ∧
      (∀ n ∈ [0, 1], (waitsBar n).bump.holderLeft a (syncSpace bh.width) 0 0 = none ∧ (waitsBar n).bump.poisonedTarget (.scr 0 0 32) = false ∧
        (match syncTarget (waitsBar n).bump a 2 (syncSpace bh.width) 0 32 with
         | .ok t => decide (t = .scr 0 0 32)
         | .error _ => false) = true) ∧
      ((waitsBar 1).bump.barAt (.scr 0 0 32)).passed 0 = true ∧ ((waitsBar 0).bump.barAt (.scr 0 0 32)).passed 0 = false := by
  unfold Waits; decide +kernel

/-- 02 R33: a wait on a member that has left meets WINDOW-REVOKED of the atomic agent, and GATED-TARGET once its core is gated. -/
theorem test_holder_gated :
    let a := memory.selfActor 0 barWait
    memory.holderLeft a .window 0 (256 * 6 + 3) = some 0x4B ∧
      (memory.updCore 3 (fun c => { c with gated := true })).holderLeft a .window 0 (256 * 6 + 3) = some 0x4E := by
  decide +kernel

/-- A WAITF for 5 in scratch, and the flag becomes 5. -/
def flagWait : Instr := .waitf bh (.x { bf with vc := 12 })
def waitsFlag : State := (after flagWait ((withBar (Bar.mk 0 0 0 0 0 0 0 0)).updWarp 0 (fun x => x.writeS 10 5))).writeTarget (.scr 0 0 4) [5, 0, 0, 0]
theorem wit_WaitEvents_flag :
    let a := memory.selfActor 0 flagWait
    Waits waitsFlag 0 .flag flagWait a [0, 5, 0, 0] ∧ waitsFlag.bump.holderLeft a (syncSpace bh.width) 0 0 = none ∧ (0 : DWord).extractLsb' 30 2 ≠ (3 : BitVec 2) ∧
      (match syncTarget waitsFlag.bump a 5 (syncSpace bh.width) 0 4 with
       | .ok t => decide (t = .scr 0 0 4)
       | .error _ => false) = true ∧ waitsFlag.bump.poisonedTarget (.scr 0 0 4) = false ∧
      waitfHolds bh (BitVec.ofNat 32 (leNat (waitsFlag.bump.readTarget (waitsFlag.bump.draw 7) (.scr 0 0 4)))) 5 = true := by
  unfold Waits; decide +kernel

/-- A WAITT for number 1, after which the number completes. -/
def lineWait : Instr := .waitt (hd .warp) (.x { x0 with va := 4 })
def waitsLine : State :=
  (after lineWait (lines.updWarp 0 (fun x => x.writeS 4 1))).updBlock 0 (fun b => { b with timelines := [⟨1, 1, []⟩] })
theorem wit_WaitEvents_timeline :
    Waits waitsLine 0 .timeline lineWait (base.selfActor 0 lineWait) [1] ∧ waitsLine.holdsTimeline 0 0 = true ∧
      reached (waitsLine.timeline 0 0).counter 1 = true := by
  unfold Waits; decide +kernel

/-- BWAITN 0, BWAITS up to batch 1, and a BSEAL behind eight batches; then the copies are complete. -/
def batchN : Instr := .bwaitn (hd .warp) (.m ⟨0, false, 0, 0, 0, false, 0, 0⟩)
def batchS : Instr := .bwaits (hd .warp) (.m ⟨0, false, 0, 0, 0, true, 24, 0⟩)
def seals : Instr := .bseal { hd .warp with vd := 24 } (.m ⟨0, false, 0, 0, 0, false, 0, 0⟩)
def waitsBatch (i : Instr) (f : Warp → Warp) : State := { after i (sealed.updWarp 0 f) with ops := [] }
theorem wit_WaitEvents_batches :
    let n := waitsBatch batchN (fun x => x)
    let s := waitsBatch batchS (fun x => x.writeS 24 1)
    let l := waitsBatch seals (fun x => { x with sealedBatches := (List.range 8).map (fun k => ⟨BitVec.ofNat 16 (k + 1), [7]⟩) })
    Waits n 0 .batchN batchN (base.selfActor 0 batchN) [] ∧ (n.outstanding 0).length ≤ 0 ∧
      Waits s 0 .batchS batchS (base.selfActor 0 batchS) [1] ∧ s.batchesTo 0 1 = [] ∧ earlier (s.warp 0).lastBatch 1 = false ∧
      Waits l 0 .bseal seals (base.selfActor 0 seals) [] ∧ (l.outstanding 0).length < 8 := by
  unfold Waits; decide +kernel

/-- A REL that waits for a copy into the unit, which is then done; and one that waits for its turn. -/
def waitsRel : State :=
  { after (rel 1) { oneUnit with ops := [(7, work (.lane 0 0x10_0800 0 4 4 false) [] true none)] } with ops := [] }
def waitsTurn : State :=
  (after (rel 1) (oneUnit.updCore 0 (fun c => { c with clock := 6, reqs := [⟨5, .acq waiting0⟩] }))).updCore 0 (fun c =>
    { c with clock := 7, reqs := c.reqs.tail })
theorem wit_WaitEvents_release :
    let a := oneUnit.selfActor 0 (rel 1)
    Waits waitsRel 0 .rel (rel 1) a [1] ∧ waitsRel.amountCause a 0 1 = none ∧ waitsRel.underflows a 0 1 = false ∧
      waitsRel.releaseOps a 0 1 = [] ∧ waitsRel.releaseBusy a 0 = false ∧ waitsRel.releaseFirst 0 = true ∧
      (let s := waitsRel.updCore 0 (fun c => { c with reqs := [⟨5, .acq waiting0⟩] })
       Waits s 0 .rel (rel 1) a [1] ∧ s.releaseFirst 0 = false ∧ s.requestsFull 0 = false ∧ a.inst = none) ∧
      Waits waitsTurn 0 .release (rel 1) a [1] ∧ waitsTurn.headNeed 0 = some (.release 0) := by
  unfold Waits; decide +kernel

/-- An FLEAVE of a fold member with a store outstanding, which is then performed. -/
def leaves : Instr := .fleave (hd .block) (.x x0)
def leaving0 : State :=
  (duoDone leaves (fun s => s.updBlock 0 (fun b => { b with fold := some ⟨0, 0, none⟩ }))).updWarp 0 (fun x =>
    { x with stores := [⟨0, none, [], [], false, false, 0, 0, false⟩] })
def waitsLeave : State :=
  (after (.rendezvousComplete 0 (open1 leaving0).id) leaving0).updWarp 0 (fun x => { x with stores := [] })
/-- An FJOIN while another member leaves, which has then left. -/
def joining : State :=
  let s := duoDone join8 id
  { s with blocks := s.blocks.put 1 { placedBlock with core := 1, fold := some ⟨0, 0, none⟩ },
           warps := s.warps.put 128 { placedWarp with core := 1, blk := 1, wait := some ⟨.fleave, leaves, base.selfActor 0 leaves, []⟩ } }
def waitsJoin : State :=
  (after (.rendezvousComplete 0 (open1 joining).id) joining).updWarp 128 (fun x => { x with wait := none })
theorem wit_WaitEvents_folds :
    Waits waitsLeave 0 .fleave leaves (company leaving0 0 (open1 leaving0) 0) [] ∧ waitsLeave.ops = [] ∧
      (waitsLeave.block 0).fold.isSome = true ∧
      (∀ v ∈ waitsLeave.warpsOfBlock 0, (waitsLeave.warp v).loads = [] ∧ (waitsLeave.warp v).stores = []) ∧
      Waits waitsJoin 0 .fjoin join8 (company joining 0 (open1 joining) 0) [0] ∧ (waitsJoin.block 0).fold = none ∧
      waitsJoin.keyMembers 0 0 0 = [(1, 1, 0)] ∧ waitsJoin.leaving 1 = false ∧ (waitsJoin.block 0).core ≠ 1 := by
  unfold Waits; decide +kernel

/-- STDEQ of an empty stile and STENQ to a full one, which then has a slot, and room. -/
def dequeues : Instr := .stdeq { hd .warp with vd := 48 } (.x { x0 with va := 20 })
def enqueues : Instr := .stenq (hd .warp) (.x { x0 with va := 20, vb := 32 })
def waitsStile (i : Instr) (n : Word) (t : Stile) : State :=
  let s := after i (jobs.updWarp 0 (fun x => x.writeS 20 n))
  { s with stiles := s.stiles.put n.toNat t }
theorem wit_WaitEvents_stiles :
    let d := waitsStile dequeues 5 ⟨1, 0, 0, [List.replicate 16 9], []⟩
    let e := waitsStile enqueues 6 ⟨1, 0, 0, [], []⟩
    Waits d 0 .stdeq dequeues (base.selfActor 0 dequeues) [5] ∧
      (match d.stileFor 0 5 false with | .ok t => decide (t.slots = List.replicate 16 9 :: []) | .error _ => false) = true ∧
      Waits e 0 .stenq enqueues (base.selfActor 0 enqueues) (6 :: List.replicate 16 0) ∧
      (match e.stileFor 0 6 true with | .ok t => decide (t.slots.length < t.capacity) | .error _ => false) = true := by
  unfold Waits; decide +kernel

/-- A LAUNCH to a full queue, whose entries are then placed. -/
def launches : Instr := .launch { hd .warp with vd := 4 } (.x { x0 with va := 8, vb := 10 })
def waitsQueue : State :=
  let full := (List.range 32).foldl (fun (m : AMap Grid) k => m.put (k + 10) { placedGrid with job := 9, next := 0, queued := true })
    jobs.grids
  { after launches { jobs with grids := full } with grids := jobs.grids }
theorem wit_WaitEvents_queue :
    Waits waitsQueue 0 .launchQueue launches (base.selfActor 0 launches) [0x10_0800, 0] ∧
      reads waitsQueue.bump launches 0 0x10_0800 128 (fun bs => (launchFault 0x10_0800 bs).isNone) = true ∧
      (waitsQueue.part 0).destroying.contains 0 = false ∧ waitsQueue.queueFull 0 0 = false := by
  unfold Waits; decide +kernel

/-- A WAITC and a FLAGRD at a scope that wait for matrix work, after which it is gone. -/
def counts (sc : Scope) : Instr := .waitc (hd sc) (.xi 0 0)
def flags (sc : Scope) : Instr := .flagrd { hd sc with vd := 4 } (.xi 0 0)
def waitsUnit (i : Instr) (n : List MatOp) : State :=
  (after i (duo.updWarp 0 (fun x => { x with matrix := [⟨9, .accz 0 1, 3, 0, 0, false, none⟩] }))).updWarp 0 (fun x =>
    { x with matrix := n })
theorem wit_WaitEvents_counters :
    (∀ sc ∈ [Scope.warp, .flock], Waits (waitsUnit (counts sc) []) 0 .waitc (counts sc) (duo.loneActor 0 (counts sc)) [] ∧
      Waits (waitsUnit (flags sc) []) 0 .flagrd (flags sc) (duo.loneActor 0 (flags sc)) [] ∧
      ((waitsUnit (counts sc) []).warp 0).matrixFault 0 = none ∧ ((waitsUnit (counts sc) []).warp 0).loads.length ≤ 0 ∧
      ((waitsUnit (counts sc) []).warp 0).stores.length ≤ 0 ∧ ((waitsUnit (counts sc) []).warp 0).tileq.length ≤ 0 ∧
      (waitsUnit (counts sc) []).drainTrap (duo.loneActor 0 (counts sc)) 0 = none ∧
      (waitsUnit (counts sc) []).mismatch sc 0 = false ∧ (waitsUnit (flags sc) []).mismatch sc 0 = false) ∧
      (let s := waitsUnit (counts .warp) [⟨9, .accz 0 1, 3, 0, 0, false, none⟩]
       Waits s 0 .waitc (counts .warp) (duo.loneActor 0 (counts .warp)) [] ∧ (s.warp 0).matrixFault 0 = none ∧
         ¬ (s.warp 0).matrix.length ≤ 0) := by
  unfold Waits; decide +kernel
theorem wit_WaitEvents_rendezvous :
    let c := duoDone (counts .flock) id
    let g := duoDone (flags .block) id
    Due c ∧ (open1 c).scope = .flock ∧ (open1 c).instr = counts .flock ∧ (atOp c).drainTrap (company c 0 (open1 c) 0) 0 = none ∧
      Due g ∧ (open1 g).scope = .block ∧ (open1 g).instr = flags .block ∧ (atOp g).drainTrap (company g 0 (open1 g) 0) 0 = none := by
  unfold Due Performs; decide +kernel
theorem wit_WaitEvents_fault :
    let s := duoDone (.lds { hd .flock with vd := 2 } (.m ⟨0, false, 0, 0, 2, false, 0, 6⟩)) id
    Due s ∧ (open1 s).scope = .flock ∧ Room s 0 ∧
      (opOf s).any (fun r => match r with | .fault _ => true | _ => false) = true := by
  unfold Due Performs Room; decide +kernel
theorem wit_WaitEvents_vector :
    armed.mayVector 0 = true ∧ armed.roomFor 0 = true ∧ (armed.warp 0).wait.isSome = true ∧
      (armed.warp 0).dueArming = some ⟨0, 0, 0x10_0040, 0⟩ ∧ codeAddr 0x10_0040 = true := by decide +kernel

/-- A block whose warps have exited; and one that also leaves failed work. -/
def done0 : State := warpIs (fun x => { x with live := 0 })
def failed0 : State := { done0 with ops := [(7, work (.tile 1 line32) zeros true (some ⟨0x58, 0, 0, false⟩))] }
/-- `done0` with entries in its core's queue. -/
def queued (q : List Entry) : State := done0.updCore 0 (fun c => { c with clock := 6, reqs := q })
theorem wit_DispatchEvents :
    (done0.blocks.find 0).isSome = true ∧ (∀ w ∈ done0.warpsOfBlock 0, (done0.warp w).exited = true) ∧
      done0.retireBusy 0 = false ∧ failed0.retireBusy 0 = false ∧ (failed0.bump.orphan 0).isSome = true ∧
      (failed0.bump.orphan 0).any (fun t => t.recordsFit 0) = true ∧ (done0.bump.orphan 0).isNone = true ∧
      done0.headNeed 0 ≠ some (.retire 0) ∧ done0.releaseFirst 0 = true ∧ done0.decisionDue 0 = false ∧ (done0.bump.retireBlock 0).recordsFit 0 = true ∧
      (done0.core 0).deferred = [] := by decide +kernel
/-- The retirement's turn, and a queue that it must join. -/
theorem wit_DispatchEvents_turn :
    let h := queued [⟨5, .retire 0⟩]
    let j := queued [⟨5, .acq waiting0⟩]
    h.headNeed 0 = some (.retire 0) ∧ ((h.bump.popNeed 0).retireBlock 0).recordsFit 0 = true ∧ (h.bump.orphan 0).isNone = true ∧
      j.headNeed 0 ≠ some (.retire 0) ∧ j.releaseFirst 0 = false ∧ j.requestsFull 0 = false ∧
      (∀ e ∈ (j.core 0).reqs, e.need ≠ .retire 0) ∧
      (let d := (done0.updPart 0 (fun p => { p with events := some 0 })).updCore 0 (fun c => { c with lap := 1 })
       d.decisionDue 0 = true ∧ d.headNeed 0 ≠ some (.retire 0) ∧ d.requestsFull 0 = false ∧ (d.bump.orphan 0).isNone = true ∧
         (d.core 0).reqs = []) := by decide +kernel
/-- A decision that first sends its admission request, and one whose request heads the queue. -/
theorem wit_DispatchEvents_decision :
    let d := base.updCore 0 (fun c => { c with clock := 6, reqs := [⟨5, .admission 0⟩] })
    (base.part 0).configured = true ∧ (base.part 0).pstate = .running ∧ base.busyCores 0 = [0] ∧ base.admitting 0 0 = false ∧
      base.settled 0 = true ∧ base.requestsFull 0 = false ∧ d.busyCores 0 = [0] ∧ d.admitting 0 0 = true ∧
      d.headNeed 0 = some (.admission 0) ∧ d.settled 0 = true ∧
      (base.updPart 0 (fun p => { p with events := some 0 })).settled 0 = false ∧
      ((base.updPart 0 (fun p => { p with events := some 0 })).updCore 0 (fun c => { c with lap := 1 })).settled 0 = true := by
  decide +kernel
theorem wit_DispatchEvents_deadline :
    let g : Grid := { placedGrid with lrec := { placedRecord with deadline := 1, gx := 2 } }
    let d : State := { base with grids := base.grids.put 0 g, timeNs := 2 }
    d.grids.find 0 = some g ∧ g.lrec.deadline ≠ 0 ∧ g.lrec.deadline.toNat < d.timeNs ∧ g.nextUnit ≠ [] ∧ g.stopped = false ∧
      g.deadlineSent = false ∧ d.canRecord (d.sliceHalf g.part) g.part = true := by decide +kernel
theorem wit_DispatchEvents_blocks :
    let s := blockIs (fun b => { b with lrec := { b.lrec with budget := 5 }, budget := 0 })
    let r := blockIs (fun b => { b with lrec := { b.lrec with preempt := true, gap := 1 }, gap := 257 })
    let q := blockIs (fun b => { b with lrec := { b.lrec with preempt := true }, inRegion := true })
    s.canTrap 0 = true ∧ (s.block 0).lrec.budget ≠ 0 ∧ (s.block 0).lrec.persistent = false ∧ (s.block 0).budget = 0 ∧
      r.canTrap 0 = true ∧ (r.block 0).lrec.gap ≠ 0 ∧ (r.block 0).inRegion = false ∧ 256 * (r.block 0).lrec.gap < (r.block 0).gap ∧
      q.preemptible 0 = true ∧ (q.bump.preemptAll 0 0x82 1).recordsFit (q.block 0).part = true ∧ r.preemptible 0 = false ∧
      (∀ v ∈ r.gangOf 0, (r.block v).lrec.preempt = true ∧ (r.block v).lrec.persistent = false) := by decide +kernel

/-- A partition with a record for its handler, and an event ring of 16. -/
def handled : State :=
  let r := base.recordOf (base.selfActor 0 bar) 0 (FaultInfo.of 0 0)
  base.updPart 0 (fun p => { p with handlerQ := [(r, none)], evSize := 16 })
/-- Ring 0 of partition 0 at 0x10_0800, of 16 packets, with one packet. -/
def ringed (packet : List Byte) : State :=
  (jobs.updPart 0 (fun p => { p with rings := [(0, ⟨0x10_0C00, 0, 16, 0, 1, false⟩)] })).writeRuns [(.phys 0x2_0C00, 64)]
    (packet ++ List.replicate (64 - packet.length) 0)
theorem wit_HostEvents :
    (handled.part 0).handlerQ ≠ [] ∧ handled.fwPhase = .steady ∧ (handled.part 0).heldRecs = [] ∧
      (handled.part 0).evHeld = [] ∧ (handled.part 0).eventFull = false ∧ (base.part 0).configured = true ∧
      (base.part 0).pstate ≠ .resetting ∧ ((0 : Word) - ((base.part 0).ring 0).head).toNat ≤ ((base.part 0).ring 0).size.toNat ∧
      ((base.part 0).ring 0).size.toNat < ((1 : Word) - ((base.part 0).ring 0).head).toNat ∧ base.sliceRoom 0 = true := by
  decide +kernel
theorem wit_HostEvents_packets :
    (ringed []).bump.nextPacket 0 0 = some .skip ∧
      (ringed ([1, 0, 0, 0] ++ leBytes 4 0 ++ leBytes 8 0x10_0800)).bump.nextPacket 0 0 = some (.launch 0 0x10_0800) ∧
      (ringed ([2, 0, 0, 0] ++ leBytes 4 0 ++ leBytes 8 0x10_0A00 ++ leBytes 4 0xFFFF)).bump.nextPacket 0 0 =
        some (.wait 0x10_0A00 0xFFFF) ∧
      (Bar.ofBytes (List.replicate 32 0)).passed 0xFFFF = true ∧
      isOk ((ringed []).bump.engineRunsAt (pagerVia 0) 3 (Rights.r false) 0x10_0800 128) = true ∧
      (ringed []).sliceRoom 0 = true ∧ ((ringed []).bump.setRing 0 0 ⟨0x10_0C00, 0, 16, 1, 1, false⟩).recordsFit 0 = true ∧
      (ringed []).queueFull 0 0 = false ∧ ((ringed []).part 0).destroying.contains 0 = false ∧
      (ringed []).decisionDue 0 = false := by decide +kernel
theorem wit_HostEvents_partitions :
    powerIn 16 65536 16 = true ∧ powerIn 16 65536 17 = false ∧ (0x1000 : Word).extractLsb' 0 12 = 0 ∧
      ownRegister 0x7FF0 = false ∧
      (let s := base.updPart 0 (fun p => { p with pstate := .stopped })
       (s.part 0).configured = true ∧ (s.part 0).pstate = .stopped) ∧
      (base.part 0).resetReq = false ∧ (base.part 0).takeover = false ∧
      ((base.updPart 0 (fun p => { p with pstate := .resetting })).part 0).pstate = .resetting ∧
      (State.reset.part 1).pstate = .stopped ∧ shareFits ⟨0, 1, 0, 0⟩ = true ∧ settingsFit ⟨4096, 2048, 6144, 8, 0, 0, 16⟩ = true ∧
      State.reset.apart 1 [3] ⟨0, 1, 0, 0⟩ = true ∧ State.reset.stiles.find 65535 = none ∧
      (jobs.stiles.find 5).isSome = true ∧ jobs.stileWaits 5 .stdeq = [] ∧ jobs.stileWaits 5 .stenq = [] := by decide +kernel

/-- FIPS 180-4, which 22 R382 names by SHA-512: the digest of "abc". -/
theorem test_sha512 :
    sha512 [0x61, 0x62, 0x63] = 0xddaf35a193617abacc417349ae20413112e6fa4e89a97ea20a9eeee64b55d39a2192992a274fc1a836ba3c23a3feebbd454d4423643ce80e2a9ac94fa54ca49f := by
  decide +kernel

/-- A key of modulus 2^4096 − 1 and exponent 1. -/
def key1 : List Byte := List.replicate 512 0xFF ++ [1]
/-- An image that this key signs. -/
def goodImage : FwImage := ⟨[1, 2, 3], key1, (Config.rsaMessage (sha512 [1, 2, 3])).zeroExtend 4096, true⟩
/-- The device with its firmware in a phase. -/
def phased (p : FwPhase) : State := { State.reset with fwPhase := p }
/-- The image is accepted where its key is fused, and not under another. -/
theorem wit_FirmwareEvents_images :
    (∀ p, accepted { phased p with fused := sha512 key1 }.fused goodImage = true) ∧
      (∀ p, accepted { phased p with fused := ~~~(sha512 key1) }.fused goodImage = false) ∧ goodImage.sameMajor = true := by
  have hn : 2 ^ 4088 ≤ 2 ^ 4096 - 1 := Nat.le_sub_one_of_lt (Nat.pow_lt_pow_right (by decide) (by decide))
  obtain ⟨n, hk, h1, hl⟩ : ∃ n, keyModulus goodImage.key = n ∧ 1 < n ∧ ∀ m : BitVec 4088, m.toNat < n :=
    ⟨_, (by decide +kernel : keyModulus goodImage.key = 2 ^ 4096 - 1),
      Nat.lt_of_lt_of_le (Nat.one_lt_two_pow (by decide)) hn, fun m => Nat.lt_of_lt_of_le m.isLt hn⟩
  have he : bitsOf (8 * (goodImage.key.length - 512)) (keyExponent goodImage.key) =
    [true, false, false, false, false, false, false, false] := by decide +kernel
  have hm : ∀ m : BitVec 4088, (m.zeroExtend 4096).toNat = m.toNat := fun m => by
    simp only [BitVec.truncate_eq_setWidth, BitVec.toNat_setWidth]
    exact Nat.mod_eq_of_lt (Nat.lt_trans m.isLt (Nat.pow_lt_pow_right (by decide) (by decide)))
  refine ⟨fun p => ?_, fun p => ?_, rfl⟩
  · have hs : signatureFits goodImage = true := by
      unfold signatureFits
      rw [hk, he]
      simp only [powMod, goodImage, hm, Bool.false_eq_true, if_false, if_true]
      rw [Nat.mod_eq_of_lt h1, Nat.mul_one, Nat.mod_eq_of_lt (hl _)]
      exact beq_self_eq_true _
    unfold accepted
    rw [hs]
    simp [goodImage]
  · have hn : (sha512 goodImage.key == ~~~(sha512 key1)) = false := by
      refine beq_eq_false_iff_ne.mpr (fun h => ?_)
      have := congrArg (fun v => BitVec.getLsbD v 0) h
      simp [goodImage] at this
    unfold accepted
    simp only []
    rw [hn, Bool.false_and]
theorem wit_FirmwareEvents :
    (phased .steady).fwPhase = .steady ∧ (phased .takingOver).fwPhase = .takingOver ∧ (phased .failed).fwPhase ≠ .steady ∧
      (phased .failed).fwPhase = .failed ∧ 5 ∉ State.reset.links ∧ base.roomEverywhere = true ∧
      (∀ p ∈ base.configured, base.canRecord (base.sliceHalf p) p = true) ∧ 5 ∉ base.links ∧
      5 ∈ ({ base with links := [5] } : State).links ∧
      inMemory 0 4 = true ∧ Inv State.reset ∧ State.reset.bump.poisonedTarget (.glob [(.phys 0, 4)]) = false ∧
      (base.part 0).configured = true ∧ base.sliceRoom 0 = true := by
  unfold Inv; decide +kernel

end Sys2Proof.Tests
end

section
/-! PROOF. FMIN and FMAX (03 R63): the exact sum has the rational value of the sum, so comparison of numbers is comparison of
their values, so minimumNumber and maximumNumber choose by the statement's order. -/

namespace Sys2Proof.Machine

/-! The kind of a number. -/

@[simp] theorem Num.isNan_nan (s : Bool) : (Num.nan s).isNan = true := rfl
@[simp] theorem Num.isNan_inf (n : Bool) : (Num.inf n).isNan = false := rfl
@[simp] theorem Num.isNan_fin (n : Bool) (m : Nat) (e : Int) : (Num.fin n m e).isNan = false := rfl
@[simp] theorem Num.isSnan_nan (s : Bool) : (Num.nan s).isSnan = s := rfl

/-! The value of a finite number. -/

theorem valueOf_not (n : Bool) (m : Nat) (e : Int) : valueOf (!n) m e = -valueOf n m e := by
  cases n <;> simp [valueOf]

theorem valueOf_eq_zero (n : Bool) (m : Nat) (e : Int) : valueOf n m e = 0 ↔ m = 0 := by
  have hp : (2 : ℚ) ^ e ≠ 0 := zpow_ne_zero e two_ne_zero
  cases n <;> simp [valueOf, hp]

theorem valueOf_lt_zero (n : Bool) (m : Nat) (e : Int) : valueOf n m e < 0 ↔ n = true ∧ m ≠ 0 := by
  have hp : (0 : ℚ) < 2 ^ e := zpow_pos two_pos e
  cases n with
  | false => simpa [valueOf] using mul_nonneg m.cast_nonneg hp.le
  | true => simp [valueOf, hp, Nat.pos_iff_ne_zero]

/-- A finite number in units of a power of two that is no greater than its own. -/
theorem valueOf_in_units (n : Bool) (m : Nat) {e d : Int} (h : d ≤ e) :
    valueOf n m e = ((if n then -((m : Int) * 2 ^ (e - d).toNat) else (m : Int) * 2 ^ (e - d).toNat : Int) : ℚ) * 2 ^ d := by
  have hp : (2 : ℚ) ^ e = 2 ^ (e - d).toNat * 2 ^ d := by
    rw [← zpow_natCast, ← zpow_add₀ two_ne_zero, Int.toNat_of_nonneg (Int.sub_nonneg_of_le h), Int.sub_add_cancel]
  cases n <;> simp [valueOf, hp, mul_assoc]

/-- The value of an exact result without sticky bit. -/
def Ex.value (x : Ex) : ℚ := valueOf x.neg x.m x.e

theorem Ex.value_eq_zero (x : Ex) : x.value = 0 ↔ x.m = 0 := valueOf_eq_zero x.neg x.m x.e

theorem Ex.value_lt_zero (x : Ex) : x.value < 0 ↔ x.neg = true ∧ x.m ≠ 0 := valueOf_lt_zero x.neg x.m x.e

/-- The form in which `sumEx` gives an integer `t` in units of 2^e, where a zero has sign `z`. -/
theorem Ex.value_ofInt (t e : Int) (z : Bool) :
    Ex.value (if t = 0 then ⟨z, 0, e, false⟩ else ⟨decide (t < 0), t.natAbs, e, false⟩) = (t : ℚ) * 2 ^ e := by
  rcases lt_trichotomy t 0 with h | rfl | h
  · simp [Ex.value, valueOf, h, h.ne, Nat.cast_natAbs, abs_of_neg h]
  · simp [Ex.value, valueOf]
  · simp [Ex.value, valueOf, h.not_gt, h.ne', Nat.cast_natAbs, abs_of_pos h]

/-- 08 R178: the exact sum is the sum of the values. -/
theorem sumEx_value (mode : Nat) (n1 : Bool) (m1 : Nat) (e1 : Int) (n2 : Bool) (m2 : Nat) (e2 : Int) :
    (sumEx mode n1 m1 e1 n2 m2 e2).value = valueOf n1 m1 e1 + valueOf n2 m2 e2 := by
  rw [valueOf_in_units n1 m1 (min_le_left e1 e2), valueOf_in_units n2 m2 (min_le_right e1 e2), ← add_mul, ← Int.cast_add]
  exact Ex.value_ofInt _ _ _

/-! Comparison. -/

/-- Comparison of finite numbers is comparison of their values. -/
theorem cmpNum_fin (s : Bool) (m : Nat) (e : Int) (t : Bool) (n : Nat) (k : Int) :
    cmpNum (.fin s m e) (.fin t n k) =
      if valueOf s m e = valueOf t n k then 0 else if valueOf s m e < valueOf t n k then -1 else 1 := by
  have hv : (sumEx 0 s m e (!t) n k).value = valueOf s m e - valueOf t n k := by
    rw [sumEx_value, valueOf_not, sub_eq_add_neg]
  have hz : (sumEx 0 s m e (!t) n k).m = 0 ↔ valueOf s m e = valueOf t n k := by
    rw [← Ex.value_eq_zero, hv, sub_eq_zero]
  have hn : (sumEx 0 s m e (!t) n k).neg = true ∧ (sumEx 0 s m e (!t) n k).m ≠ 0 ↔ valueOf s m e < valueOf t n k := by
    rw [← Ex.value_lt_zero, hv, sub_neg]
  unfold cmpNum
  by_cases h0 : (sumEx 0 s m e (!t) n k).m = 0
  · simp [← hz, h0]
  · simp [← hz, ← hn, h0]

/-- The order by which FMIN and FMAX choose: by value, and −0 below +0. -/
def lesser (a b : Num) : Bool := decide (cmpNum a b < 0) || (cmpNum a b = 0 && a.sign && !b.sign)

/-- Two finite numbers of one value whose signs differ are zeros. -/
theorem zeros_of_valueOf_eq {m n : Nat} {e k : Int} (h : valueOf true m e = valueOf false n k) : m = 0 ∧ n = 0 := by
  have hm : ¬ valueOf false n k < 0 := by simp [valueOf_lt_zero]
  have hm0 : m = 0 := by simpa [← h, valueOf_lt_zero] using hm
  exact ⟨hm0, (valueOf_eq_zero false n k).1 (h ▸ (valueOf_eq_zero true m e).2 hm0)⟩

theorem lesser_fin_iff_below (s : Bool) (m : Nat) (e : Int) (t : Bool) (n : Nat) (k : Int) :
    lesser (.fin s m e) (.fin t n k) = true ↔ below (.fin s m e) (.fin t n k) := by
  simp only [lesser, below, Num.sign, cmpNum_fin]
  rcases lt_trichotomy (valueOf s m e) (valueOf t n k) with h | h | h
  · simp [h, h.ne]
  · have hz : s = true ∧ t = false → m = 0 ∧ n = 0 := by
      rintro ⟨rfl, rfl⟩
      exact zeros_of_valueOf_eq h
    have hs : s = true ∧ t = false ↔ m = 0 ∧ n = 0 ∧ s = true ∧ t = false :=
      ⟨fun hs => ⟨(hz hs).1, (hz hs).2, hs⟩, fun ⟨_, _, hs⟩ => hs⟩
    simpa [h] using hs
  · have hz : ¬ (m = 0 ∧ n = 0) := by
      rintro ⟨rfl, rfl⟩
      simp [valueOf] at h
    simpa [h.not_gt, h.ne'] using fun hm hn => absurd ⟨hm, hn⟩ hz

/-- On numbers, the model's order is the statement's. -/
theorem lesser_iff_below {a b : Num} (ha : a.isNan = false) (hb : b.isNan = false) : lesser a b = true ↔ below a b := by
  cases a with
  | nan s => simp at ha
  | inf m =>
    cases b with
    | nan z => simp at hb
    | inf n => cases m <;> cases n <;> simp [lesser, below, cmpNum, Num.sign]
    | fin t n k => cases m <;> simp [lesser, below, cmpNum]
  | fin s m e =>
    cases b with
    | nan z => simp at hb
    | inf n => cases n <;> simp [lesser, below, cmpNum]
    | fin t n k => exact lesser_fin_iff_below s m e t n k

theorem isNan_of_below : ∀ {a b : Num}, below a b → a.isNan = false ∧ b.isNan = false
  | .nan _, _, h => h.elim
  | .inf _, .nan _, h => h.elim
  | .fin _ _ _, .nan _, h => h.elim
  | .inf _, .inf _, _ => ⟨rfl, rfl⟩
  | .inf _, .fin _ _ _, _ => ⟨rfl, rfl⟩
  | .fin _ _ _, .inf _, _ => ⟨rfl, rfl⟩
  | .fin _ _ _, .fin _ _ _, _ => ⟨rfl, rfl⟩

theorem below_asymm : ∀ {a b : Num}, below a b → ¬ below b a
  | .nan _, _, h, _ => h.elim
  | _, .nan _, _, h => h.elim
  | .inf _, .inf _, h, h' => Bool.noConfusion (h.1.symm.trans h'.2)
  | .inf _, .fin _ _ _, h, h' => Bool.noConfusion (h.symm.trans h')
  | .fin _ _ _, .inf _, h, h' => Bool.noConfusion (h.symm.trans h')
  | .fin _ _ _, .fin _ _ _, h, h' => by
    rcases h with h | ⟨rfl, rfl, rfl, rfl⟩
    · rcases h' with h' | ⟨rfl, rfl, -, -⟩
      · exact h.asymm h'
      · simp [valueOf] at h
    · simp [below, valueOf] at h'

/-! minimumNumber and maximumNumber. -/

theorem isSnan_of_number {a : Num} (h : a.isNan = false) : a.isSnan = false := by
  cases a with
  | nan s => simp at h
  | inf n => rfl
  | fin n m e => rfl

theorem minMax_numbers (max : Bool) {a b : Num} (ha : a.isNan = false) (hb : b.isNan = false) :
    minMax max a b = (if lesser a b != max then a else b, 0) := by
  simp [minMax, lesser, ha, hb, isSnan_of_number, flagIf]

/-- Of two numbers of which the first is the lesser. -/
theorem minMax_of_below (max : Bool) {a b : Num} (h : below a b) : minMax max a b = (if max then b else a, 0) := by
  obtain ⟨ha, hb⟩ := isNan_of_below h
  rw [minMax_numbers max ha hb, (lesser_iff_below ha hb).2 h]
  cases max <;> rfl

/-- Of two numbers of which the second is the lesser. -/
theorem minMax_of_below_swap (max : Bool) {a b : Num} (h : below b a) : minMax max a b = (if max then a else b, 0) := by
  obtain ⟨hb, ha⟩ := isNan_of_below h
  have hl : lesser a b = false := Bool.eq_false_iff.2 fun hab => below_asymm h ((lesser_iff_below ha hb).1 hab)
  rw [minMax_numbers max ha hb, hl]
  cases max <;> rfl

theorem minMax_nan_number (max s : Bool) {b : Num} (hb : b.isNan = false) : minMax max (.nan s) b = (b, flagIf s fIV) := by
  simp [minMax, hb, isSnan_of_number hb]

theorem minMax_number_nan (max s : Bool) {a : Num} (ha : a.isNan = false) : minMax max a (.nan s) = (a, flagIf s fIV) := by
  simp [minMax, ha, isSnan_of_number ha]

theorem minMax_nan_nan (max s z : Bool) : minMax max (.nan s) (.nan z) = (.nan false, flagIf (s || z) fIV) := by
  simp [minMax]

/-! FMIN and FMAX. -/

/-- FMIN and FMAX give what minimumNumber and maximumNumber choose, in the format's bits. -/
theorem fpFmin_fpFmax_of_minMax {q : FpArgs} {lo hi : Num} {g : FlagSet}
    (h : ∀ max, minMax max q.a q.b = (if max then hi else lo, g)) :
    fpFmin q = ⟨(q.f.roundNum q.r lo).1, 0, g⟩ ∧ fpFmax q = ⟨(q.f.roundNum q.r hi).1, 0, g⟩ := by
  simp [fpFmin, fpFmax, h, FpVal.of]

/-- Settles O14: FMIN and FMAX give what `minMax` chooses, and of two numbers `minMax` chooses by `below`. -/
theorem minMaxRule : Obligations.MinMaxRule := by
  unfold Obligations.MinMaxRule
  intro q _ s
  refine ⟨fun h => ?lower, fun h => ?upper, fun ha hb => ?nanFirst, fun hb ha => ?nanSecond, fun z ha hb => ?nans⟩
  case lower => exact fpFmin_fpFmax_of_minMax fun max => minMax_of_below max h
  case upper => exact fpFmin_fpFmax_of_minMax fun max => minMax_of_below_swap max h
  case nanFirst => exact fpFmin_fpFmax_of_minMax fun max => by rw [ite_self, ha, minMax_nan_number max s hb]
  case nanSecond => exact fpFmin_fpFmax_of_minMax fun max => by rw [ite_self, hb, minMax_number_nan max s ha]
  case nans =>
    have hm max : minMax max q.a q.b = (if max then .nan false else .nan false, flagIf (s || z) fIV) := by
      rw [ite_self, ha, hb, minMax_nan_nan max s z]
    exact fpFmin_fpFmax_of_minMax hm

end Sys2Proof.Machine
end

section
/-! PROOF. The operation of a complete rendezvous (06 R130, 07 R158): where a quarter's slot issues it, it is performed once for
the members, and where it completes they go past it. -/

namespace Sys2Proof.Machine

/-! The members. -/

theorem mem_insertByRank {s : State} {sc : Scope} {m n : Member} {l : List Member} :
    n ∈ s.insertByRank sc m l ↔ n = m ∨ n ∈ l := by
  induction l with
  | nil => simp [State.insertByRank]
  | cons k t ih =>
    unfold State.insertByRank
    split
    · simp
    · simp [ih, or_left_comm]

/-- The actor of a rendezvous has the arrived members. -/
theorem mem_members_instActor {s : State} {e : Inst} {v : Nat} {m : Member} :
    m ∈ (s.instActor e v).members ↔ m ∈ e.arrivals := by
  have h : ∀ l : List Member, m ∈ l.foldr (fun m l => s.insertByRank e.scope m l) [] ↔ m ∈ l := by
    intro l
    induction l with
    | nil => simp
    | cons k t ih => rw [List.foldr_cons, mem_insertByRank, ih, List.mem_cons]
  exact h e.arrivals

@[simp] theorem State.warp_chargeInstance (s : State) (a : Actor) (i : Instr) (w : Nat) :
    (s.chargeInstance a i).warp w = s.warp w := by
  unfold State.chargeInstance
  induction s.liveMembers a generalizing s with
  | nil => rfl
  | cons m t ih => rw [List.foldl_cons, ih, State.warp_updCore]

theorem State.meet_pastOf (s : State) (e : Inst) : s.pastOf (s.meet e) := by
  unfold State.meet
  split
  · exact s.pastOf_refl
  · exact s.tell_pastOf _ _

/-- The warps are as before in the state from which an operation is performed. -/
theorem warp_gathered (s : State) (blk : Nat) (e : Inst) (v w : Nat) : (gathered s blk e v).warp w = s.warp w := by
  simp only [gathered, State.warp_chargeInstance, State.pastOf_warp (State.meet_pastOf _ _), State.warp_bump]
  exact State.warp_updCore ..

/-- A complete rendezvous whose operation the bellwether's core does not issue now (06 R133, R163, 07 R158, R161). -/
def State.barsInst (s : State) (e : Inst) (w : Nat) : Bool :=
  let c := s.core (s.warp w).core
  e.suspended || e.waiting || !s.noneSuspended e || e.bell.any (fun b => b.2 = c.clock) || s.stopped (s.warp w).core ||
    c.heldBack || s.stalled (s.warp w).core (s.partOf w)

theorem completeInst_eq {s : State} {blk id w : Nat} {e : Inst}
    (he : (s.block blk).insts.find? (fun e => e.id = id) = some e) (hb : s.bellwether e = some w) :
    s.completeInst blk id = if s.barsInst e w then none
      else (wideOp e.instr).bind (fun op => (s.meet e).performInst e w (guarded e.instr op)) := by
  simp only [State.completeInst, he, hb]
  rfl

/-- A quarter selects an operation only where it is due (07 R158). -/
theorem instDue_of_selection {s : State} {core q blk id : Nat} (h : s.selection core q = .inst blk id) :
    s.instDue core q = some (blk, id) := by
  unfold State.selection at h
  dsimp only at h
  split at h
  · cases h
  · split at h
    · cases h
    · split at h
      · next hd => cases h; exact hd
      · split at h
        · split at h <;> cases h
        · split at h <;> cases h

/-- An operation that is due can be issued by its bellwether's core. -/
theorem completeInst_isSome_of_instDue {s : State} {core q blk id : Nat} (h : s.instDue core q = some (blk, id)) :
    (s.completeInst blk id).isSome = true := by
  obtain ⟨b, -, hb⟩ := List.exists_of_findSome?_eq_some h
  obtain ⟨e, hf, he⟩ := Option.map_eq_some_iff.1 hb
  cases he
  have hdue := List.find?_some hf
  simp only [Bool.and_eq_true] at hdue
  exact hdue.2

/-! The slot taken. -/

theorem core_slot (s : State) (k j : Nat) :
    ∃ n l, (s.endTurn k).bump.core j = { s.core j with turn := n, readyNow := l } := by
  rw [State.core_bump, State.endTurn]
  by_cases h : j = k
  · subst h
    exact ⟨_, _, State.core_updCore_same ..⟩
  · exact ⟨_, _, State.core_updCore_other _ _ h⟩

theorem insertByRank_slot (s : State) (k : Nat) (sc : Scope) (m : Member) (l : List Member) :
    (s.endTurn k).bump.insertByRank sc m l = s.insertByRank sc m l := by
  induction l with
  | nil => rfl
  | cons n t ih =>
    simp only [State.insertByRank, ih]
    rfl

theorem bellwether_slot (s : State) (k : Nat) (e : Inst) : (s.endTurn k).bump.bellwether e = s.bellwether e := by
  have ha : (s.endTurn k).bump.instActor e 0 = s.instActor e 0 := by
    simp only [State.instActor, insertByRank_slot]
  simp only [State.bellwether, ha]
  rfl

/-- The slot taken leaves what a core may issue. -/
theorem barsInst_slot (s : State) (k : Nat) (e : Inst) (w : Nat) : (s.endTurn k).bump.barsInst e w = s.barsInst e w := by
  obtain ⟨n, l, hc⟩ := core_slot s k (s.warp w).core
  have hw : (s.endTurn k).bump.warp w = s.warp w := rfl
  simp only [State.barsInst, State.stopped, State.stalled, hw, hc]
  rfl

/-- The operation that a slot issues, where it completes: its members go past it (06 R130). -/
theorem exec_rendezvousComplete {s t : State} {blk id v : Nat} {e : Inst} {op : Actor → State → Res}
    (h : Performs s blk id e v) (hop : wideOp e.instr = some op)
    (ho : op (company s blk e v) (gathered s blk e v) = .ok t) :
    exec (.rendezvousComplete blk id) s = .next (completed (company s blk e v) e.instr t) := by
  obtain ⟨hturn, hsel, he, hbell, hclean⟩ := h
  have hbars : s.barsInst e v = false := by
    have hc := completeInst_isSome_of_instDue (instDue_of_selection hsel)
    rw [completeInst_eq he hbell] at hc
    by_contra hb
    simp [Bool.eq_true_of_not_eq_false hb] at hc
  have hguard : guarded e.instr op (company s blk e v) (gathered s blk e v) = .ok t := by
    rw [guarded_clean _ _ _ _ fun m hm => ?_, ho]
    rw [warp_gathered]
    exact hclean m (mem_members_instActor.1 hm)
  have hdone : (s.endTurn (s.block blk).core).bump.completeInst blk id =
      some (completed (company s blk e v) e.instr t) := by
    rw [completeInst_eq (s := (s.endTurn (s.block blk).core).bump) he ((bellwether_slot ..).trans hbell), barsInst_slot,
      hbars, hop]
    change State.performInst _ e v _ = _
    rw [performInst_eq]
    exact (congrArg _ hguard).trans (settle_ok ..)
  have harm : exec (.rendezvousComplete blk id) s = execRendezvousComplete blk id s := rfl
  simp [harm, execRendezvousComplete, hturn, hsel, hdone, happens]

end Sys2Proof.Machine
end

section
/-! PROOF. A 64-bit word of the X form, read back from its units (04 R90, R93, R95), and PQRY's mask mode at an illegal scope (06
R148). -/

namespace Sys2Proof

open Sys2Proof.Machine

theorem word64At_units64 (w : BitVec 64) : word64At (units64 w) 0 = w := by
  have join (i : Nat) : w.extractLsb' (i + 16) 16 ++ w.extractLsb' i 16 = w.extractLsb' i 32 :=
    BitVec.extractLsb'_append_extractLsb'_eq_extractLsb' rfl
  have whole : w.extractLsb' 32 32 ++ w.extractLsb' 0 32 = w.extractLsb' 0 64 :=
    BitVec.extractLsb'_append_extractLsb'_eq_extractLsb' rfl
  calc word64At (units64 w) 0
    _ = (w.extractLsb' 48 16 ++ w.extractLsb' 32 16) ++ (w.extractLsb' 16 16 ++ w.extractLsb' 0 16) := rfl
    _ = w.extractLsb' 0 64 := by rw [join 32, join 0, whole]
    _ = w := BitVec.extractLsb'_eq_self

/-- The lowest bit of a field. -/
theorem getLsbD_of_field {n len i : Nat} {w : BitVec n} {b : BitVec len} (h : w.extractLsb' i len = b) (hl : 0 < len) :
    w.getLsbD i = b.getLsbD 0 := by
  simp [← h, hl]

theorem lowBits_unitAt_units64 (w : BitVec 64) : (unitAt (units64 w) 0).extractLsb' 0 2 = w.extractLsb' 0 2 :=
  BitVec.eq_of_getLsbD_eq fun i hi => by
    simp [unitAt, units64]

/-- A word whose low bits are 11 begins no REP pair. -/
theorem isRep_units64 {w : BitVec 64} (h : w.extractLsb' 0 2 = 3) : isRep (unitAt (units64 w) 0) = false := by
  rw [isRep, lowBits_unitAt_units64, h]
  rfl

/-- A word whose low bits are 11 is one of 64 bits. -/
theorem decodeOne_units64 (c : Context) {w : BitVec 64} (h : w.extractLsb' 0 2 = 3) :
    decodeOne c (units64 w) 0 = decode64 c w := by
  have hl := (lowBits_unitAt_units64 w).trans h
  have h0 : (unitAt (units64 w) 0).getLsbD 0 = true := getLsbD_of_field hl (by decide)
  simp only [decodeOne, h0, hl, word64At_units64]
  rfl

/-- A 64-bit word of the X form holds in its fields what the encoder put there. -/
theorem encode64_fields (m fn : Nat) (h : Hdr) (f : XForm) :
    let w := encode64 m fn h (.x f)
    w.extractLsb' 0 2 = 3 ∧ w.extractLsb' 2 6 = BitVec.ofNat 6 m ∧ w.extractLsb' 8 5 = BitVec.ofNat 5 fn ∧
      w.extractLsb' 13 1 = 0 ∧ w.extractLsb' 14 2 = scopeBits h.scope ∧ w.extractLsb' 48 8 = f.vc := by
  refine ⟨?_, ?_, ?_, ?_, ?_, ?_⟩ <;>
    simp (disch := omega) only [encode64, encodeUpper, BitVec.extractLsb'_append_eq_of_add_le,
      BitVec.extractLsb'_append_eq_of_le, BitVec.extractLsb'_eq_self, Nat.sub_self, Nat.reduceSub]
  rfl

theorem scopeOf_scopeBits (s : Scope) : scopeOf (scopeBits s) = s := by cases s <;> rfl

/-- PQRY decodes, before the checks of its fields, with the scope and the mode that it was encoded with. -/
theorem decode64_encode64_pqry (c : Context) (h : Hdr) (f : XForm) :
    ∃ (g : Hdr) (k : XForm),
      decode64 c (encode64 1 6 h (.x f)) = .ok (.pqry g (.x k)) ∧ g.scope = h.scope ∧ k.vc = f.vc := by
  obtain ⟨-, hm, hn, hi, hs, hc⟩ := encode64_fields 1 6 h f
  generalize encode64 1 6 h (.x f) = w at hm hn hi hs hc ⊢
  have h13 : w.getLsbD 13 = false := getLsbD_of_field hi (by decide)
  refine ⟨hdrOf w, xOf w, ?_, (congrArg scopeOf hs).trans (scopeOf_scopeBits _), hc⟩
  have hu : upperOf 1 6 w = .x (xOf w) := by
    rw [upperOf, h13]
    rfl
  have hm' : (w.extractLsb' 2 6).toNat = 1 := by rw [hm]; rfl
  have hn' : (w.extractLsb' 8 5).toNat = 6 := by rw [hn]; rfl
  have make : make64 1 6 (hdrOf w) (.x (xOf w)) = some (.pqry (hdrOf w) (.x (xOf w))) := rfl
  simp [decode64, hm', hn', hu, make, controlLacks]

/-- 06 R148: PQRY's mask mode has warp scope alone. -/
theorem check_pqry_mask {g : Hdr} {k : XForm} (hk : k.vc = 1) (hg : g.scope ≠ .warp) :
    check (.pqry g (.x k)) = some cScope := by
  simp [check, form, Form.use, Form.expand, wordUse, predUse, WordUse.cause, hk, hg]

theorem decode_encode_pqry_mask (c : Context) {h : Hdr} {f : XForm} (hf : f.vc = 1) (hs : h.scope ≠ .warp) :
    decode c (encode (.pqry h (.x f))) = .error cScope := by
  obtain ⟨g, k, hd, hg, hk⟩ := decode64_encode64_pqry c h f
  have hlow := (encode64_fields 1 6 h f).1
  have he : encode (.pqry h (.x f)) = units64 (encode64 1 6 h (.x f)) := rfl
  rw [he, decode, isRep_units64 hlow, decodeOne_units64 c hlow, hd]
  simp [check_pqry_mask (hk.trans hf) (hg ▸ hs)]

end Sys2Proof
end

section
/-! PROOF. PBOOL, PMOV, PCNT, PFIRST and PQRY (06 R148): their effects, on one warp and for the members of a rendezvous. -/

namespace Sys2Proof.Machine

/-! Masks and the lanes that they hold. -/

theorem getLsbD_maskOf (ls : List Nat) {l : Nat} (h : l < 32) : (maskOf ls).getLsbD l = decide (l ∈ ls) := by
  have step : ∀ (m : Mask), (ls.foldl (fun m l => m ||| (1#32 <<< l)) m).getLsbD l = (m.getLsbD l || decide (l ∈ ls)) := by
    induction ls with
    | nil => simp
    | cons k t ih =>
      intro m
      have hk : (1#32 <<< k).getLsbD l = decide (l = k) := by
        rw [Bool.eq_iff_iff]
        simp only [BitVec.getLsbD_shiftLeft, BitVec.getLsbD_one, Bool.and_eq_true, decide_eq_true_eq, Bool.not_eq_true',
          decide_eq_false_iff_not]
        omega
      simp [ih, hk, Bool.or_assoc]
  simpa [maskOf] using step 0

theorem lanesOf_and (p m : Mask) : lanesOf (p &&& m) = (lanesOf m).filter (fun l => p.getLsbD l) := by
  simp [lanesOf, List.filter_filter]

theorem lanesOf_eq_nil {m : Mask} : lanesOf m = [] ↔ m = 0 := by
  refine ⟨fun h => BitVec.eq_of_getLsbD_eq fun l hl => ?_, fun h => by simp [h, lanesOf]⟩
  have hm := mt (mem_lanesOf m l).2 (by simp [h])
  simpa [hl] using hm

/-! Predicates of a warp that has issued. -/

@[simp] theorem Warp.readP_issued (x : Warp) (i : Instr) (p : Nat) : (x.issued i).readP p = x.readP p := by
  simp [Warp.readP]
@[simp] theorem Warp.selected_issued (x : Warp) (i j : Instr) : (x.issued i).selected j = x.selected j := by
  simp [Warp.selected]
@[simp] theorem Warp.width_issued (x : Warp) (i : Instr) : (x.issued i).width = x.width := by
  simp [Warp.width]
@[simp] theorem Warp.exited_issued (x : Warp) (i : Instr) : (x.issued i).exited = x.exited := by
  simp [Warp.exited]
@[simp] theorem Warp.writeP_live (x : Warp) (p : Nat) (m : Mask) : (x.writeP p m).live = x.live := by
  unfold Warp.writeP
  split <;> rfl
theorem Warp.live_foldl_writeV (ls : List Nat) (r : Nat) (b : Nat → Word) (x : Warp) :
    (ls.foldl (fun y l => y.writeV r l (b l)) x).live = x.live := by
  induction ls generalizing x with
  | nil => rfl
  | cons l t ih => rw [List.foldl_cons, ih, Warp.writeV_live]

/-! The issue of one warp. -/

@[simp] theorem scopeOfInstr_pbool (h : Hdr) (u : Upper) : scopeOfInstr (.pbool h u) = h.scope := rfl
@[simp] theorem scopeOfInstr_pmov (h : Hdr) (u : Upper) : scopeOfInstr (.pmov h u) = h.scope := rfl

@[simp] theorem State.selfActor_lead (s : State) (w : Nat) (i : Instr) : (s.selfActor w i).lead = w := rfl
@[simp] theorem State.selfActor_scope (s : State) (w : Nat) (i : Instr) : (s.selfActor w i).scope = scopeOfInstr i := rfl
@[simp] theorem State.selfActor_sel (s : State) (w : Nat) (i : Instr) :
    (s.selfActor w i).self.sel = (s.warp w).selected i := rfl

/-- The draws of an issue are the same for every instruction. -/
theorem draw_started (s : State) (w : Nat) (i : Instr) (n : Nat) : (started s w i).draw n = s.bump.draw n := rfl

/-- The issue of an instruction whose effect is on its warp alone. -/
theorem issue_finished {i : Instr} {op : Actor → State → Res} {s : State} {w : Nat} {f : Warp → Warp} (h : Solo s w i)
    (ho : op (s.selfActor w i) (started s w i) = .ok ((started s w i).setWarp w (f ((s.warp w).issued i))))
    (hl : (f ((s.warp w).issued i)).live = ((s.warp w).issued i).live) :
    issue i op s = .next (finished s w i f) := by
  have hu : (started s w i).setWarp w (f ((s.warp w).issued i)) = (started s w i).updWarp w f := by
    rw [State.updWarp, warp_started]
  have he : (((started s w i).updWarp w f).warp w).exited = false := by
    have hx := (canIssue_of_ready h.1.2.1).2.1
    unfold Warp.exited at hx ⊢
    rw [State.warp_updWarp_same, warp_started, hl, Warp.issued_live, hx]
  exact issue_past h (ho.trans (congrArg Res.ok hu)) he

/-! PBOOL. -/

/-- The bits of PBOOL's table, a result for each lane (06 R148). -/
def tableBits (vc : BitVec 8) (p q : Mask) : Mask :=
  maskOf ((List.range 32).filter (fun l =>
    vc.getLsbD (2 * (if p.getLsbD l then 1 else 0) + (if q.getLsbD l then 1 else 0))))

theorem tableBits_eq (vc : BitVec 8) (p q : Mask) :
    tableBits vc p q =
      (if vc.getLsbD 0 then ~~~p &&& ~~~q else 0) ||| (if vc.getLsbD 1 then ~~~p &&& q else 0) |||
        (if vc.getLsbD 2 then p &&& ~~~q else 0) ||| (if vc.getLsbD 3 then p &&& q else 0) := by
  refine BitVec.eq_of_getLsbD_eq fun l hl => ?_
  have entry (n : Nat) (m : Mask) : (if vc.getLsbD n then m else 0).getLsbD l = (vc.getLsbD n && m.getLsbD l) := by
    cases vc.getLsbD n <;> simp
  rw [tableBits, getLsbD_maskOf _ hl]
  simp only [BitVec.getLsbD_or, entry, BitVec.getLsbD_and, BitVec.getLsbD_not, hl, List.mem_filter, List.mem_range]
  cases p.getLsbD l <;> cases q.getLsbD l <;> simp

theorem exec_pbool {s : State} {w : Nat} {h : Hdr} {f : XForm} (hs : Solo s w (.pbool h (.x f))) :
    let x := s.warp w
    exec (.pbool h (.x f)) s = .next (finished s w (.pbool h (.x f)) (fun y =>
      y.writeP h.vd.toNat (withBits (y.readP h.vd.toNat)
        (tableBits f.vc (if f.ma then ~~~(x.readP f.va.toNat) else x.readP f.va.toNat)
          (if f.mb then ~~~(x.readP f.vb.toNat) else x.readP f.vb.toNat))
        (if h.scope = .warp then y.width else y.selected (.pbool h (.x f)))))) := by
  refine issue_finished (op := opPbool h (.x f)) hs ?_ (Warp.writeP_live _ _ _)
  rw [tableBits_eq]
  simp [opPbool]

/-! PMOV and PFIRST. -/

theorem exec_pmov_toRegister_warp {s : State} {w : Nat} {h : Hdr} {f : XForm} (hs : Solo s w (.pmov h (.x f)))
    (hx : h.x = true) (hw : h.scope = .warp) :
    exec (.pmov h (.x f)) s = .next (finished s w (.pmov h (.x f)) (fun x =>
      x.writeS h.vd.toNat (x.readP f.va.toNat &&& x.width))) := by
  refine issue_finished (op := opPmov h (.x f)) hs ?_ (Warp.writeS_live _ _ _)
  simp [opPmov, hx, hw]

theorem exec_pmov_toRegister_lane {s : State} {w : Nat} {h : Hdr} {f : XForm} (hs : Solo s w (.pmov h (.x f)))
    (hx : h.x = true) (hw : h.scope ≠ .warp) :
    exec (.pmov h (.x f)) s = .next (finished s w (.pmov h (.x f)) (fun x =>
      (lanesOf (x.selected (.pmov h (.x f)))).foldl (fun y l =>
        y.writeV h.vd.toNat l (if (x.readP f.va.toNat).getLsbD l then 1 else 0)) x)) := by
  refine issue_finished (op := opPmov h (.x f)) hs ?_ (Warp.live_foldl_writeV _ _ _ _)
  simp [opPmov, hx, hw]

theorem exec_pmov_toPredicate_warp {s : State} {w : Nat} {h : Hdr} {f : XForm} (hs : Solo s w (.pmov h (.x f)))
    (hx : h.x = false) (hw : h.scope = .warp) :
    exec (.pmov h (.x f)) s = .next (finished s w (.pmov h (.x f)) (fun x =>
      x.writeP h.vd.toNat (x.readS (s.bump.draw 0) f.va.toNat &&& x.width))) := by
  refine issue_finished (op := opPmov h (.x f)) hs ?_ (Warp.writeP_live _ _ _)
  simp [opPmov, hx, hw, draw_started]

theorem exec_pmov_toPredicate_lane {s : State} {w : Nat} {h : Hdr} {f : XForm} (hs : Solo s w (.pmov h (.x f)))
    (hx : h.x = false) (hw : h.scope ≠ .warp) :
    exec (.pmov h (.x f)) s = .next (finished s w (.pmov h (.x f)) (fun x =>
      x.writeP h.vd.toNat (withBits (x.readP h.vd.toNat)
        (maskOf ((lanesOf (x.selected (.pmov h (.x f)))).filter (fun l =>
          x.readV (s.bump.draw 0) f.va.toNat l != 0)))
        (x.selected (.pmov h (.x f)))))) := by
  refine issue_finished (op := opPmov h (.x f)) hs ?_ (Warp.writeP_live _ _ _)
  simp [opPmov, hx, hw, draw_started]

theorem exec_pfirst {s : State} {w : Nat} {h : Hdr} {f : XForm} (hs : Solo s w (.pfirst h (.x f))) :
    exec (.pfirst h (.x f)) s = .next (finished s w (.pfirst h (.x f)) (fun x =>
      x.writeP h.vd.toNat (lowestLane (x.readP f.va.toNat &&& x.selected (.pfirst h (.x f)))))) := by
  refine issue_finished (op := opPfirst h (.x f)) hs ?_ (Warp.writeP_live _ _ _)
  simp [opPfirst]

/-! The participating lanes and the bit of a predicate in each. -/

/-- The lanes of a mask with the bit of a predicate in each. -/
def lanesWith (p m : Mask) : List (Nat × Bool) := (lanesOf m).map (fun l => (l, p.getLsbD l))

theorem filter_lanesWith (p m : Mask) :
    (lanesWith p m).filter (fun e => e.2) = (lanesOf (p &&& m)).map (fun l => (l, true)) := by
  rw [lanesWith, List.filter_map, lanesOf_and]
  exact List.map_congr_left fun l hl => by simpa using (List.mem_filter.1 hl).2

theorem all_lanesWith (p m : Mask) : (∀ e ∈ lanesWith p m, e.2 = true) ↔ ~~~p &&& m = 0 := by
  have hb : ∀ l ∈ lanesOf m, p.getLsbD l = true ↔ ¬ (~~~p).getLsbD l = true := fun l hl => by
    simp [((mem_lanesOf m l).1 hl).1]
  rw [← lanesOf_eq_nil, lanesOf_and, List.filter_eq_nil_iff, lanesWith, List.forall_mem_map]
  exact forall₂_congr hb

theorem participants_self {s : State} {w : Nat} {i : Instr} (h : Solo s w i) (p : Nat) :
    (started s w i).participants (s.selfActor w i) p = lanesWith ((s.warp w).readP p) ((s.warp w).selected i) := by
  have narrow : scopeOfInstr i ≠ .flock ∧ scopeOfInstr i ≠ .block := by
    rcases h.2.2 with hs | ⟨hs, -⟩ <;> simp [hs]
  simp [State.participants, State.selfActor, narrow, lanesWith]

/-- The uniform result of a warp alone goes to its own register. -/
theorem writeUniform_self {s : State} {w : Nat} {i : Instr} (h : Solo s w i) (r : Nat) (v : Word) :
    (started s w i).writeUniform (s.selfActor w i) r v =
      (started s w i).setWarp w (((s.warp w).issued i).writeS r v) := by
  have hx := (canIssue_of_ready h.1.2.1).2.1
  simp [State.writeUniform, State.liveMembers, State.selfActor, State.updWarp, hx]

/-- At flock and block scope the lanes are concatenated by rank. -/
theorem participants_wide (s : State) {a : Actor} (h : a.scope = .flock ∨ a.scope = .block) (p : Nat) :
    s.participants a p = a.members.flatMap (fun m => (lanesOf m.sel).map (fun l =>
      (32 * s.rankIn a.scope m.w + l, ((s.warp m.w).readP p).getLsbD l))) := by
  have wide : (a.scope == .flock || a.scope == .block) = true := by
    rcases h with h | h <;> rw [h] <;> rfl
  simp only [State.participants, wide, if_true, Config.warpWidth, Nat.mul_comm]

/-! PCNT and PQRY. -/

/-- PQRY's value of the participating lanes, mask mode aside (06 R148). -/
def queryOf (vc : BitVec 8) (lanes : List (Nat × Bool)) : Word :=
  if vc = 2 then (match (lanes.filter (fun e => e.2)).head? with | some e => BitVec.ofNat 32 e.1 | none => 0xFFFFFFFF)
  else (if lanes.filter (fun e => e.2) = [] then 0 else 1) ||| (if ∀ e ∈ lanes, e.2 = true then 0 else 2)

theorem opPqry_eq (h : Hdr) (f : XForm) (a : Actor) (s : State) :
    opPqry h (.x f) a s = .ok (s.writeUniform a h.vd.toNat
      (if f.vc = 1 then (s.warp a.lead).readP f.va.toNat &&& a.self.sel
       else queryOf f.vc (s.participants a f.va.toNat))) := by
  have some_set (l : List (Nat × Bool)) : (l.any (fun e => e.2) = true) = ¬ l.filter (fun e => e.2) = [] := by
    simp [List.filter_eq_nil_iff]
  have some_clear (l : List (Nat × Bool)) : (l.any (fun e => !e.2) = true) = ¬ ∀ e ∈ l, e.2 = true := by
    simp
  simp only [opPqry, queryOf, some_set, some_clear, ite_not, List.head?_filter, beq_iff_eq] <;> rfl

theorem exec_pcnt {s : State} {w : Nat} {h : Hdr} {f : XForm} (hs : Solo s w (.pcnt h (.x f))) :
    exec (.pcnt h (.x f)) s = .next (finished s w (.pcnt h (.x f)) (fun x =>
      x.writeS h.vd.toNat (BitVec.ofNat 32 (popMask (x.readP f.va.toNat &&& x.selected (.pcnt h (.x f))))))) := by
  refine issue_finished (op := opPcnt h (.x f)) hs ?_ (Warp.writeS_live _ _ _)
  simp [opPcnt, participants_self hs, filter_lanesWith, writeUniform_self hs, popMask]

theorem exec_pqry {s : State} {w : Nat} {h : Hdr} {f : XForm} (hs : Solo s w (.pqry h (.x f))) :
    let set := (s.warp w).readP f.va.toNat &&& (s.warp w).selected (.pqry h (.x f))
    let clear := ~~~((s.warp w).readP f.va.toNat) &&& (s.warp w).selected (.pqry h (.x f))
    exec (.pqry h (.x f)) s = .next (finished s w (.pqry h (.x f)) (fun x =>
      x.writeS h.vd.toNat (if f.vc = 1 then set
        else if f.vc = 2 then (match (lanesOf set).head? with | some l => BitVec.ofNat 32 l | none => 0xFFFFFFFF)
        else (if set = 0 then 0 else 1) ||| (if clear = 0 then 0 else 2)))) := by
  intro set clear
  refine issue_finished (op := opPqry h (.x f)) hs ?_ (Warp.writeS_live _ _ _)
  rw [opPqry_eq, writeUniform_self hs, participants_self hs]
  simp only [queryOf, filter_lanesWith, all_lanesWith, List.map_eq_nil_iff, lanesOf_eq_nil, List.head?_map]
  rw [State.selfActor_lead, warp_started, Warp.readP_issued, State.selfActor_sel]
  cases (lanesOf set).head? <;> rfl

/-! PCNT and PQRY of a rendezvous. -/

theorem exec_pcnt_wide {s : State} {blk id v : Nat} {e : Inst} {h : Hdr} {f : XForm} (hp : Performs s blk id e v)
    (hi : e.instr = .pcnt h (.x f)) :
    let a := company s blk e v
    let g := gathered s blk e v
    exec (.rendezvousComplete blk id) s = .next (completed a e.instr (g.writeUniform a h.vd.toNat
      (BitVec.ofNat 32 ((g.participants a f.va.toNat).filter (fun n => n.2)).length))) :=
  exec_rendezvousComplete (op := opPcnt h (.x f)) hp (by rw [hi]; rfl) rfl

theorem exec_pqry_wide {s : State} {blk id v : Nat} {e : Inst} {h : Hdr} {f : XForm} (hp : Performs s blk id e v)
    (hi : e.instr = .pqry h (.x f)) (hv : f.vc ≠ 1) :
    let a := company s blk e v
    let g := gathered s blk e v
    exec (.rendezvousComplete blk id) s = .next (completed a e.instr (g.writeUniform a h.vd.toNat
      (queryOf f.vc (g.participants a f.va.toNat)))) :=
  exec_rendezvousComplete (op := opPqry h (.x f)) hp (by rw [hi]; rfl) (by rw [opPqry_eq, if_neg hv])

/-- Settles O18: each instruction of one warp by its own effect, the rendezvous by the effect on the concatenated lanes, and the
mask mode by the scope check. -/
theorem predicateResults : Obligations.PredicateResults := by
  unfold Obligations.PredicateResults
  refine ⟨fun s blk id e v h f hp hsc => ?wide, fun c h f hv _ _ sc hsc => ?mask, fun s w h f => ?narrow⟩
  case wide =>
    have hl := participants_wide (gathered s blk e v) (a := company s blk e v) hsc f.va.toNat
    refine ⟨fun hi => ?_, fun hi hv => ?_, fun hi hv => ?_⟩
    · rw [exec_pcnt_wide hp hi, hl]
      rfl
    · rw [exec_pqry_wide hp hi (by simp [hv]), hl, queryOf, if_neg (by simp [hv])]
      rfl
    · rw [exec_pqry_wide hp hi (by simp [hv]), hl, queryOf, if_pos hv]
      rfl
  case mask =>
    have hne : sc ≠ .warp := by rintro rfl; simp at hsc
    exact decode_encode_pqry_mask c hv hne
  case narrow =>
    exact ⟨exec_pbool, exec_pmov_toRegister_warp, exec_pmov_toRegister_lane, exec_pmov_toPredicate_warp,
      exec_pmov_toPredicate_lane, exec_pcnt, exec_pfirst, exec_pqry⟩

end Sys2Proof.Machine
end

section
/-! PROOF. Decoding what the encoder lays out (04 R90 to R107): the opcode map is read back from an instruction's place in it,
each word from its fields, and the upper word from the form that the checks of R110 allow at that place. -/

namespace Sys2Proof.Machine

/-! The opcode map. -/

/-- The instruction that the opcode map has at a place. -/
def Form.build (g : Form) : Option Instr :=
  match g with
  | .w64 m fn h u => make64 m fn h u
  | .l m f => makeL m f
  | .i m f => makeI m f
  | .s op f => some (makeS op f)
  | .rep f t => some (.rep f t)
  | .event => none

/-- A place whose numbers have room in the word: major 47 is the prefix's alone, and the I forms lie past the L forms. -/
def Form.InMap (g : Form) : Prop :=
  match g with
  | .w64 m fn _ _ => m < 64 ∧ fn < 32
  | .l m _ => m < 40
  | .i m _ => 48 ≤ m ∧ m < 64
  | .s op _ => op < 16
  | _ => True

/-- Every word is the one that the opcode map has at its place. -/
theorem build_form (i : Instr) : (form i).build = if i.isWord then some i else none := by
  cases i <;> rfl

theorem inMap_form (i : Instr) : (form i).InMap := by
  cases i <;> simp [form, Form.InMap]

/-! The fields of an encoded word. -/

@[simp] theorem bit_getLsbD_zero (b : Bool) : (bit b).getLsbD 0 = b := by cases b <;> rfl

theorem getLsbD_append_of_lt {n m i : Nat} (x : BitVec n) (y : BitVec m) (h : i < m) :
    (x ++ y).getLsbD i = y.getLsbD i := by
  rw [BitVec.getLsbD_append, if_pos h]

theorem getLsbD_append_of_le {n m i : Nat} (x : BitVec n) (y : BitVec m) (h : m ≤ i) :
    (x ++ y).getLsbD i = x.getLsbD (i - m) := by
  rw [BitVec.getLsbD_append, if_neg (by omega)]

theorem hdrOf_encode64 (m fn : Nat) (h : Hdr) (u : Upper) : hdrOf (encode64 m fn h u) = h := by
  simp (disch := omega) only [hdrOf, encode64, BitVec.extractLsb'_append_eq_of_add_le, BitVec.extractLsb'_append_eq_of_le,
    BitVec.extractLsb'_eq_self, getLsbD_append_of_lt, getLsbD_append_of_le, scopeOf_scopeBits, Nat.sub_self, Nat.reduceSub,
    bit_getLsbD_zero]

/-- The numbers of a word's place, and its I bit. -/
theorem place_encode64 {m fn : Nat} (hm : m < 64) (hf : fn < 32) (h : Hdr) (u : Upper) :
    let w := encode64 m fn h u
    w.extractLsb' 0 2 = 3 ∧ (w.extractLsb' 2 6).toNat = m ∧ (w.extractLsb' 8 5).toNat = fn ∧
      w.getLsbD 13 = (encodeUpper u).2 := by
  simp (disch := omega) only [encode64, BitVec.extractLsb'_append_eq_of_add_le, BitVec.extractLsb'_append_eq_of_le,
    BitVec.extractLsb'_eq_self, getLsbD_append_of_lt, getLsbD_append_of_le, Nat.sub_self, Nat.reduceSub, bit_getLsbD_zero,
    BitVec.toNat_ofNat, Nat.reducePow, Nat.mod_eq_of_lt, and_self]

theorem xOf_encode64 (m fn : Nat) (h : Hdr) (f : XForm) : xOf (encode64 m fn h (.x f)) = f := by
  simp (disch := omega) only [xOf, encode64, encodeUpper, BitVec.extractLsb'_append_eq_of_add_le,
    BitVec.extractLsb'_append_eq_of_le, BitVec.extractLsb'_eq_self, getLsbD_append_of_lt, getLsbD_append_of_le,
    Nat.sub_self, Nat.reduceSub, bit_getLsbD_zero]

theorem mOf_encode64 (m fn : Nat) (h : Hdr) (f : MForm) : mOf (encode64 m fn h (.m f)) = f := by
  simp (disch := omega) only [mOf, encode64, encodeUpper, BitVec.extractLsb'_append_eq_of_add_le,
    BitVec.extractLsb'_append_eq_of_le, BitVec.extractLsb'_eq_self, getLsbD_append_of_lt, getLsbD_append_of_le,
    Nat.sub_self, Nat.reduceSub, bit_getLsbD_zero]

/-- The form of the upper word is the one that the decoder expects at the place (04 R97 to R99). -/
def upperFits (m fn : Nat) (u : Upper) : Bool :=
  match u with
  | .x _ => !isMMajor m
  | .m _ => isMMajor m
  | .xi _ _ => !isXL m fn
  | .xl _ => isXL m fn

theorem upperOf_encode64 {m fn : Nat} (hm : m < 64) (hf : fn < 32) (h : Hdr) {u : Upper} (hu : upperFits m fn u = true) :
    upperOf m fn (encode64 m fn h u) = u := by
  obtain ⟨-, -, -, hI⟩ := place_encode64 hm hf h u
  rw [upperOf, hI]
  cases u with
  | x f => simpa [encodeUpper, upperFits, xOf_encode64] using hu
  | m f => simpa [encodeUpper, upperFits, mOf_encode64] using hu
  | xi va imm =>
    simp only [upperFits, Bool.not_eq_true'] at hu
    simp (disch := omega) only [hu, encodeUpper, encode64, BitVec.extractLsb'_append_eq_of_add_le, if_true, if_false,
    BitVec.extractLsb'_append_eq_of_le, BitVec.extractLsb'_eq_self, Nat.sub_self, Nat.reduceSub, Bool.false_eq_true]
  | xl imm =>
    simp only [upperFits] at hu
    simp (disch := omega) only [hu, encodeUpper, encode64, BitVec.extractLsb'_append_eq_of_add_le, if_true, if_false,
    BitVec.extractLsb'_append_eq_of_le, BitVec.extractLsb'_eq_self, Nat.sub_self, Nat.reduceSub]

theorem upperFits_of_use {m fn : Nat} {h : Hdr} {u : Upper} (hok : (wordUse m fn h u).fieldsOk = true) :
    upperFits m fn u = true := by
  by_contra hn
  unfold wordUse at hok
  split at hok <;> cases u <;>
   simp [upperFits, isMMajor, isXL] at hn <;>
   simp [WordUse.reserved, ctrlUse, predUse, intUse, fpUse, dwUse, xlaneUse, cvtUse, specUse, memUse, syncUse, waitUse, lcopyUse, tileUse, mmaUse, kvUse, grantUse, taskUse, sysUse, hn] at hok

/-! One word, before the checks of its fields. -/

theorem decode64_encode64 {i : Instr} {m fn : Nat} {h : Hdr} {u : Upper} (hi : make64 m fn h u = some i) (hm : m < 64)
    (hf : fn < 32) (hu : upperFits m fn u = true) : decode64 Context.firmware (encode64 m fn h u) = .ok i := by
  obtain ⟨-, hm', hf', -⟩ := place_encode64 hm hf h u
  simp [decode64, hm', hf', hdrOf_encode64, upperOf_encode64 hm hf h hu, hi, Context.firmware]

theorem word32At_units32 (w : BitVec 32) : word32At (units32 w) 0 = w := by
  have whole : w.extractLsb' 16 16 ++ w.extractLsb' 0 16 = w.extractLsb' 0 32 :=
    BitVec.extractLsb'_append_extractLsb'_eq_extractLsb' rfl
  exact whole.trans BitVec.extractLsb'_eq_self

/-- The low byte of a 32-bit word stands in its first unit. -/
theorem extractLsb'_unitAt_units32 (w : BitVec 32) {i n : Nat} (h : i + n ≤ 16) :
    (unitAt (units32 w) 0).extractLsb' i n = w.extractLsb' i n :=
  BitVec.eq_of_getLsbD_eq fun j hj => by
    have : i + j < 16 := by omega
    simp [unitAt, units32, this]

/-- A word whose low bits are 01 is one of 32 bits. -/
theorem decodeOne_units32 (c : Context) {w : BitVec 32} (h : w.extractLsb' 0 2 = 1) :
    decodeOne c (units32 w) 0 = decode32 w := by
  have hl := (extractLsb'_unitAt_units32 w (i := 0) (n := 2) (by omega)).trans h
  have h0 : (unitAt (units32 w) 0).getLsbD 0 = true := getLsbD_of_field hl (by decide)
  simp only [decodeOne, h0, hl, word32At_units32]
  rfl

theorem fields_encodeL {m : Nat} (hm : m < 64) (f : LForm) :
    let w := encodeL m f
    w.extractLsb' 0 2 = 1 ∧ (w.extractLsb' 2 6).toNat = m ∧
      (⟨w.extractLsb' 8 8, w.extractLsb' 16 8, w.extractLsb' 24 8⟩ : LForm) = f := by
  simp (disch := omega) only [encodeL, BitVec.extractLsb'_append_eq_of_add_le, BitVec.extractLsb'_append_eq_of_le,
    BitVec.extractLsb'_eq_self, Nat.sub_self, Nat.reduceSub, BitVec.toNat_ofNat, Nat.reducePow, Nat.mod_eq_of_lt, and_self]

theorem fields_encodeI {m : Nat} (hm : m < 64) (f : IForm) :
    let w := encodeI m f
    w.extractLsb' 0 2 = 1 ∧ (w.extractLsb' 2 6).toNat = m ∧
      (⟨w.extractLsb' 8 8, w.extractLsb' 16 16⟩ : IForm) = f := by
  simp (disch := omega) only [encodeI, BitVec.extractLsb'_append_eq_of_add_le, BitVec.extractLsb'_append_eq_of_le,
    BitVec.extractLsb'_eq_self, Nat.sub_self, Nat.reduceSub, BitVec.toNat_ofNat, Nat.reducePow, Nat.mod_eq_of_lt, and_self]

theorem fields_encodeS {op : Nat} (ho : op < 16) (f : SForm) :
    let w := encodeS op f
    w.getLsbD 0 = false ∧ (w.extractLsb' 1 4).toNat = op ∧
      (⟨w.getLsbD 15, w.extractLsb' 10 5, w.extractLsb' 5 5⟩ : SForm) = f := by
  simp (disch := omega) only [encodeS, BitVec.extractLsb'_append_eq_of_add_le, BitVec.extractLsb'_append_eq_of_le,
    BitVec.extractLsb'_eq_self, getLsbD_append_of_lt, getLsbD_append_of_le, Nat.sub_self, Nat.reduceSub,
    BitVec.toNat_ofNat, Nat.reducePow, Nat.mod_eq_of_lt, and_true, bit_getLsbD_zero]
  rfl

theorem fields_encodeRep (f : RepForm) :
    let w := encodeRep f
    w.extractLsb' 0 2 = 1 ∧ w.extractLsb' 2 6 = 47 ∧ w.extractLsb' 20 12 = 0 ∧ repOf w = f := by
  simp (disch := omega) only [encodeRep, repOf, BitVec.extractLsb'_append_eq_of_add_le, BitVec.extractLsb'_append_eq_of_le,
    BitVec.extractLsb'_eq_self, getLsbD_append_of_lt, getLsbD_append_of_le, Nat.sub_self, Nat.reduceSub, bit_getLsbD_zero,
    and_self]

theorem makeL_eq_none {m : Nat} (h : 40 ≤ m) (f : LForm) : makeL m f = none := by
  unfold makeL; split <;> first | omega | rfl

theorem isRep_units32 {w : BitVec 32} (h : (w.extractLsb' 2 6).toNat ≠ 47) : isRep (unitAt (units32 w) 0) = false := by
  have h6 : (w.extractLsb' 2 6 == 47) = false := beq_eq_false_iff_ne.2 fun e => h (by rw [e]; rfl)
  rw [isRep, extractLsb'_unitAt_units32 w (by omega), extractLsb'_unitAt_units32 w (by omega), h6, Bool.and_false]

/-- A place in the opcode map whose fields pass the checks is read back; it begins no REP pair. -/
theorem decodeOne_units {i : Instr} (hw : i.isWord = true) (hr : ∀ f t, form i ≠ .rep f t)
    (hok : (form i).use.fieldsOk = true) :
    decodeOne Context.firmware (form i).units 0 = .ok i ∧ isRep (unitAt (form i).units 0) = false := by
  have hb := build_form i
  have hm := inMap_form i
  rw [if_pos hw] at hb
  cases hg : form i with
  | w64 m fn h u =>
    rw [hg] at hb hm hok
    obtain ⟨hm, hf⟩ := hm
    have hlow := (place_encode64 hm hf h u).1
    exact ⟨(decodeOne_units64 _ hlow).trans (decode64_encode64 hb hm hf (upperFits_of_use hok)), isRep_units64 hlow⟩
  | l m f =>
    rw [hg] at hb hm
    have hm : m < 40 := hm
    obtain ⟨hlow, hn, hf⟩ := fields_encodeL (m := m) (by omega) f
    refine ⟨(decodeOne_units32 _ hlow).trans ?_, isRep_units32 (by omega)⟩
    have hb : makeL m f = some i := hb
    simp only [decode32, hn, hf, hb]
  | i m f =>
    rw [hg] at hb hm
    obtain ⟨h48, hm⟩ := hm
    obtain ⟨hlow, hn, hf⟩ := fields_encodeI hm f
    have hb : makeI m f = some i := hb
    have h47 : m ≠ 47 := by omega
    refine ⟨(decodeOne_units32 _ hlow).trans ?_, isRep_units32 (by omega)⟩
    simp only [decode32, hn, hf, hb, makeL_eq_none (m := m) (by omega)]
  | s op f =>
    rw [hg] at hb hm
    obtain ⟨hlow, hn, hf⟩ := fields_encodeS hm f
    have hb : makeS op f = i := Option.some.inj hb
    have hd : decode16 (encodeS op f) = i := by rw [decode16, hn, hf, hb]
    have hu : unitAt (Form.units (.s op f)) 0 = encodeS op f := rfl
    have h1 : ((encodeS op f).extractLsb' 0 2 == 1) = false := beq_eq_false_iff_ne.2 fun e =>
      Bool.false_ne_true (hlow.symm.trans (getLsbD_of_field e (by decide)))
    refine ⟨?_, by rw [isRep, hu, h1, Bool.false_and]⟩
    rw [decodeOne, hu, hlow, hd]
    rfl
  | rep f t => exact absurd hg (hr f t)
  | event => rw [hg] at hb; exact absurd hb (by simp [Form.build])

/-! The decoder. -/

theorem controlScopeBad_firmware (i : Instr) : controlScopeBad Context.firmware i = false := rfl

theorem fieldsOk_of_cause {u : WordUse} (h : u.cause = none) : u.fieldsOk = true := by
  by_contra hf
  unfold WordUse.cause at h
  split at h
  · cases h
  · rw [if_pos (by simp [hf])] at h
    cases h

theorem repTarget_word {t : Instr} (h : (form t).repTarget = true) : t.isWord = true ∧ ∀ g u, form t ≠ .rep g u := by
  refine ⟨?_, fun g u e => ?_⟩
  · by_contra hw
    simp only [Instr.isWord, bne_iff_ne, not_not] at hw
    rw [hw] at h
    cases h
  · rw [e] at h
    cases h

theorem check_rep (f : RepForm) (t : Instr) :
    check (.rep f t) = if !(form t).repTarget then some cRepTarget
      else { (form t).use with fieldsOk := (form t).use.fieldsOk && repFieldsOk f (form t) }.cause := rfl

/-- A word that is no pair decodes to itself. -/
theorem decode_encode_single {i : Instr} (hw : i.isWord = true) (hc : check i = none) (hr : ∀ f t, form i ≠ .rep f t) :
    decode Context.firmware (encode i) = .ok i := by
  have hu : (form i).use.cause = none ∧ encode i = (form i).units := by
    unfold check at hc
    unfold encode
    cases hg : form i with
    | rep f t => exact absurd hg (hr f t)
    | event => simp [Instr.isWord, hg] at hw
    | _ => simpa [hg] using hc
  obtain ⟨hd, hp⟩ := decodeOne_units hw hr (fieldsOk_of_cause hu.1)
  simp [decode, hu.2, hp, hd, controlScopeBad_firmware, hc]

/-- A pair decodes to its prefix and its target. -/
theorem decode_encode_rep {f : RepForm} {t : Instr} (hc : check (.rep f t) = none) :
    decode Context.firmware (encode (.rep f t)) = .ok (.rep f t) := by
  rw [check_rep] at hc
  have ht : (form t).repTarget = true := by
    by_contra hn
    rw [Bool.eq_false_of_not_eq_true hn] at hc
    exact Option.some_ne_none _ hc
  have hcause : ({ (form t).use with fieldsOk := (form t).use.fieldsOk && repFieldsOk f (form t) } : WordUse).cause = none := by
    simpa [ht] using hc
  have hok := fieldsOk_of_cause hcause
  simp only [Bool.and_eq_true] at hok
  obtain ⟨hw, hr⟩ := repTarget_word ht
  obtain ⟨hd, hp⟩ := decodeOne_units hw hr hok.1
  obtain ⟨hlow, hm, hz, hf⟩ := fields_encodeRep f
  have hpre : isRep (unitAt (units32 (encodeRep f) ++ (form t).units) 0) = true := by
    change isRep (unitAt (units32 (encodeRep f)) 0) = true
    rw [isRep, extractLsb'_unitAt_units32 _ (by omega), extractLsb'_unitAt_units32 _ (by omega), hlow, hm]
    rfl
  have hword : word32At (units32 (encodeRep f) ++ (form t).units) 0 = encodeRep f := word32At_units32 _
  have hnext : unitAt (units32 (encodeRep f) ++ (form t).units) 2 = unitAt (form t).units 0 := rfl
  have hone : decodeOne Context.firmware (units32 (encodeRep f) ++ (form t).units) 2 = .ok t := hd
  have he : encode (.rep f t) = units32 (encodeRep f) ++ (form t).units := rfl
  simp [decode, he, hpre, hword, hnext, hp, hone, ht, controlScopeBad_firmware, hf, hz, hcause]

/-- Settles O1: a word is read back from its place in the opcode map, and a REP pair from its prefix and its target's place. -/
theorem decodeEncode : Obligations.DecodeEncode := by
  unfold Obligations.DecodeEncode
  intro i hwf
  obtain ⟨hw, hc⟩ : i.isWord = true ∧ check i = none := by simpa [Instr.wellFormed] using hwf
  by_cases hrep : ∃ f t, form i = .rep f t
  · obtain ⟨f, t, hi⟩ := hrep
    have hb := build_form i
    rw [hi, if_pos hw] at hb
    obtain rfl : Instr.rep f t = i := Option.some.inj hb
    exact decode_encode_rep hc
  · exact decode_encode_single hw hc fun f t e => hrep ⟨f, t, e⟩

end Sys2Proof.Machine
end

section
/-! PROOF. What the manual's words decode to (04 R93 to R108), and what a start leaves (22 R368, R381). -/

namespace Sys2Proof.Machine

/-- Settles O2: each word is decoded by evaluation. -/
theorem decodeWords : Obligations.DecodeWords := by
  unfold Obligations.DecodeWords
  decide +kernel

/-- Memory lists no byte after a reset. -/
theorem mem_reset : State.reset.mem = [] := rfl

/-- Settles O5: an empty memory is in its canonical form. -/
theorem resetInv : Obligations.ResetInv := by
  unfold Obligations.ResetInv Inv
  rw [mem_reset]
  rfl

/-- A partition is at reset where none is listed. -/
theorem part_reset (p : Nat) : State.reset.part p = Part.reset := rfl

/-- Settles O7: nothing is listed after a reset, and an unlisted partition has the defaults. -/
theorem resetLeaves : Obligations.ResetLeaves := by
  unfold Obligations.ResetLeaves
  refine ⟨rfl, rfl, rfl, fun a => by rw [mem_reset]; rfl, fun p => ?_⟩
  rw [part_reset]
  exact ⟨rfl, rfl, rfl, rfl, rfl, rfl, rfl, rfl⟩

end Sys2Proof.Machine
end

section
/-! PROOF. What settling an answer does to the warps of its actor, and to nothing else; what taking an exception does (21 R352 to
R355); and the issue of an instruction that fails a check, faults, traps or sets its own PC (04 R110, 06 R133). -/

namespace Sys2Proof.Machine

/-! Updates of several warps. -/

/-- `t` differs from `s` in its warps alone. -/
def State.warpsOf (s t : State) : Prop := t = { s with warps := t.warps }

theorem State.warpsOf_refl (s : State) : s.warpsOf s := rfl

theorem State.warpsOf_trans {s t u : State} (h : s.warpsOf t) (g : t.warpsOf u) : s.warpsOf u := by
  unfold State.warpsOf at *
  refine g.trans ?_
  rw [h]

theorem State.updWarp_warpsOf (s : State) (w : Nat) (f : Warp → Warp) : s.warpsOf (s.updWarp w f) := rfl

/-- Each element of a list changes a warp of its own number. -/
def State.updWarps {β : Type} (s : State) (l : List β) (k : β → Nat) (g : β → Warp → Warp) : State :=
  l.foldl (fun s b => s.updWarp (k b) (g b)) s

section
variable {β : Type} (s : State) (l : List β) (k : β → Nat) (g : β → Warp → Warp)

theorem State.updWarps_warpsOf : s.warpsOf (s.updWarps l k g) := by
  induction l generalizing s with
  | nil => exact s.warpsOf_refl
  | cons b t ih => exact State.warpsOf_trans (s.updWarp_warpsOf _ _) (ih _)

/-- A warp of none of the numbers is kept. -/
theorem State.find_updWarps_other {v : Nat} (h : ∀ b ∈ l, k b ≠ v) : (s.updWarps l k g).warps.find v = s.warps.find v := by
  induction l generalizing s with
  | nil => rfl
  | cons b t ih =>
    have hb := h b List.mem_cons_self
    exact (ih _ fun c hc => h c (List.mem_cons_of_mem _ hc)).trans (AMap.find_put_other _ _ (Ne.symm hb))

theorem State.warp_updWarps_other {v : Nat} (h : ∀ b ∈ l, k b ≠ v) : (s.updWarps l k g).warp v = s.warp v := by
  rw [State.warp, State.find_updWarps_other s l k g h, State.warp]

/-- What every change keeps of a warp is kept. -/
theorem State.keeps_updWarps {γ : Type} (p : Warp → γ) (h : ∀ b ∈ l, ∀ x, p (g b x) = p x) (v : Nat) :
    p ((s.updWarps l k g).warp v) = p (s.warp v) := by
  induction l generalizing s with
  | nil => rfl
  | cons b t ih =>
    refine (ih _ fun c hc => h c (List.mem_cons_of_mem _ hc)).trans ?_
    by_cases hv : v = k b
    · subst hv
      rw [State.warp_updWarp_same, h b List.mem_cons_self]
    · rw [State.warp_updWarp_other _ _ hv]

/-- What every change preserves of a warp still holds. -/
theorem State.holds_updWarps (P : Warp → Prop) (h : ∀ b ∈ l, ∀ x, P x → P (g b x)) {v : Nat} (hv : P (s.warp v)) :
    P ((s.updWarps l k g).warp v) := by
  induction l generalizing s with
  | nil => exact hv
  | cons b t ih =>
    refine ih _ (fun c hc => h c (List.mem_cons_of_mem _ hc)) ?_
    by_cases e : v = k b
    · subst e
      rw [State.warp_updWarp_same]
      exact h b List.mem_cons_self _ hv
    · rw [State.warp_updWarp_other _ _ e]
      exact hv

/-- What each change makes of a warp, whatever it was, holds of every warp changed. -/
theorem State.makes_updWarps (P : Warp → Prop) (h : ∀ b ∈ l, ∀ x, P (g b x)) {v : Nat} (hv : ∃ b ∈ l, k b = v) :
    P ((s.updWarps l k g).warp v) := by
  induction l generalizing s with
  | nil => obtain ⟨b, hb, -⟩ := hv; cases hb
  | cons c r ih =>
    change P ((State.updWarps (s.updWarp (k c) (g c)) r k g).warp v)
    by_cases hr : ∃ d ∈ r, k d = v
    · exact ih _ (fun d hd => h d (List.mem_cons_of_mem _ hd)) hr
    · rw [State.warp_updWarps_other _ r k g fun d hd e => hr ⟨d, hd, e⟩]
      obtain ⟨b, hb, rfl⟩ := hv
      obtain rfl : b = c := by
        rcases List.mem_cons.1 hb with e | hb
        · exact e
        · exact absurd ⟨b, hb, rfl⟩ hr
      rw [State.warp_updWarp_same]
      exact h b List.mem_cons_self _

end

theorem State.advanceAll_eq (s : State) (a : Actor) (i : Instr) :
    s.advanceAll a i = s.updWarps (s.liveMembers a) (fun m => m.w)
      (fun _ x => (x.unwait.countDither i).advance a.len a.rep) := rfl

theorem State.unwaitAll_eq (s : State) (a : Actor) :
    s.unwaitAll a = s.updWarps (s.liveMembers a) (fun m => m.w) (fun _ x => x.unwait) := rfl

@[simp] theorem State.block_unwaitAll (s : State) (a : Actor) (b : Nat) : (s.unwaitAll a).block b = s.block b := by
  rw [State.unwaitAll_eq, State.block, State.updWarps_warpsOf s]
  rfl

@[simp] theorem State.block_advanceAll (s : State) (a : Actor) (i : Instr) (b : Nat) :
    (s.advanceAll a i).block b = s.block b := by
  rw [State.advanceAll_eq, State.block, State.updWarps_warpsOf s]
  rfl

theorem State.waitAll_eq (s : State) (a : Actor) (k : WaitKind) (i : Instr) (args : List DWord) :
    s.waitAll a k i args = s.updWarps (s.liveMembers a) (fun m => m.w)
      (fun _ x => { x with wait := some ⟨k, i, a, args⟩ }) := rfl

theorem State.suspendAll_eq (s : State) (ws : List Nat) (f : FaultInfo) (flags : BitVec 8) (rdv : Bool) (n : Nat) :
    s.suspendAll ws f flags rdv n = s.updWarps ws (fun w => w)
      (fun _ x => { x with susp := some ⟨f.cause, flags, ws, f.op, f.matrix, rdv, n⟩ }) := rfl

/-! Records. -/

/-- A record goes into a ring with room. -/
theorem State.postRecord_room {s : State} {p : Nat} (h : (s.part p).ringFull = false) (half : Nat) (r : FaultRec)
    (who : Option Nat) : s.postRecord half p r who = s.writeRecord p r who := by
  simp [State.postRecord, h]

/-- A record is held while the ring is full. -/
theorem State.postRecord_full {s : State} {p : Nat} (h : (s.part p).ringFull = true) (half : Nat) (r : FaultRec)
    (who : Option Nat) :
    s.postRecord half p r who = s.setPart p { s.part p with heldRecs := (s.part p).heldRecs ++ [(half, r, who)] } := by
  simp [State.postRecord, h]

/-- `t` differs from `s` in memory, the partitions and the warps alone. -/
def State.recordsOf (s t : State) : Prop := t = { s with mem := t.mem, parts := t.parts, warps := t.warps }

theorem State.recordsOf_trans {s t u : State} (h : s.recordsOf t) (g : t.recordsOf u) : s.recordsOf u := by
  unfold State.recordsOf at *
  refine g.trans ?_
  rw [h]

theorem State.recordsOf_of_warpsOf {s t : State} (h : s.warpsOf t) : s.recordsOf t := by
  unfold State.recordsOf State.warpsOf at *
  rw [h]

theorem State.setPart_recordsOf (s : State) (p : Nat) (x : Part) : s.recordsOf (s.setPart p x) := rfl

theorem State.withMem_recordsOf (s : State) (m : List Host.Cell) : s.recordsOf { s with mem := m } := rfl

theorem State.writeRecord_recordsOf (s : State) (p : Nat) (r : FaultRec) (who : Option Nat) :
    s.recordsOf (s.writeRecord p r who) :=
  State.recordsOf_trans (s.withMem_recordsOf _) (State.setPart_recordsOf _ _ _)

/-- A record made leaves every warp, block and core alone. -/
theorem State.postRecord_recordsOf (s : State) (half p : Nat) (r : FaultRec) (who : Option Nat) :
    s.recordsOf (s.postRecord half p r who) := by
  cases h : (s.part p).ringFull
  · rw [State.postRecord_room h]
    exact s.writeRecord_recordsOf p r who
  · rw [State.postRecord_full h]
    exact s.setPart_recordsOf p _

@[simp] theorem State.warps_postRecord (s : State) (half p : Nat) (r : FaultRec) (who : Option Nat) :
    (s.postRecord half p r who).warps = s.warps := by
  cases h : (s.part p).ringFull
  · rw [State.postRecord_room h]
    exact State.setPart_warps ..
  · rw [State.postRecord_full h, State.setPart_warps]

@[simp] theorem length_leBytes (n v : Nat) : (leBytes n v).length = n := by simp [leBytes]

/-- A record has 64 bytes (21 R352). -/
theorem FaultRec.length_bytes (r : FaultRec) : r.bytes.length = 64 := by
  simp [FaultRec.bytes]

/-! Taking an exception. -/

section
variable (s : State) (a : Actor) (pc : DWord) (f : FaultInfo) (rdv : Bool)

/-- The record that an exception makes, and the state with it. -/
def State.recorded : State :=
  s.postRecord (halfOfCore (s.warp a.lead).core) (s.partOf a.lead) (s.recordOf a pc f) (some (s.recordNo (s.partOf a.lead)))

/-- The suspension that an exception makes of each member. -/
def State.suspOf : Susp :=
  ⟨f.cause, flagBits f a.scope, (s.liveMembers a).map (fun m => m.w), f.op, f.matrix, rdv, s.recordNo (s.partOf a.lead)⟩

theorem State.takeException_eq : s.takeException a pc f rdv = (s.recorded a pc f).updWarps ((s.liveMembers a).map (fun m => m.w))
    (fun w => w) (fun _ x => { x with susp := some (s.suspOf a f rdv) }) := rfl

theorem State.warps_recorded : (s.recorded a pc f).warps = s.warps := s.warps_postRecord ..

theorem State.warp_recorded (v : Nat) : (s.recorded a pc f).warp v = s.warp v := by
  rw [State.warp, State.warps_recorded, State.warp]

/-- Nothing but memory, the partitions and the warps differs. -/
theorem State.takeException_recordsOf : s.recordsOf (s.takeException a pc f rdv) :=
  State.recordsOf_trans (s.postRecord_recordsOf ..) (State.recordsOf_of_warpsOf (State.updWarps_warpsOf ..))

/-- Beside the suspensions an exception makes its record alone. -/
theorem State.takeException_warpsOf : (s.recorded a pc f).warpsOf (s.takeException a pc f rdv) := State.updWarps_warpsOf ..

/-- What a suspension keeps of a warp an exception keeps. -/
theorem State.keeps_takeException {γ : Type} (p : Warp → γ) (h : ∀ x u, p { x with susp := u } = p x) (v : Nat) :
    p ((s.takeException a pc f rdv).warp v) = p (s.warp v) := by
  rw [State.takeException_eq, State.keeps_updWarps _ _ _ _ p (fun _ _ x => h x _), State.warp_recorded]

/-- Every member left is suspended. -/
theorem State.susp_takeException {m : Member} (h : m ∈ s.liveMembers a) :
    ((s.takeException a pc f rdv).warp m.w).susp = some (s.suspOf a f rdv) := by
  rw [State.takeException_eq]
  exact State.makes_updWarps _ _ _ _ (fun x => x.susp = some (s.suspOf a f rdv)) (fun _ _ _ => rfl)
    ⟨m.w, List.mem_map_of_mem h, rfl⟩

/-- Any other warp is kept. -/
theorem State.find_takeException_other {v : Nat} (h : v ∉ (s.liveMembers a).map (fun m => m.w)) :
    (s.takeException a pc f rdv).warps.find v = s.warps.find v := by
  rw [State.takeException_eq, State.find_updWarps_other _ _ _ _ fun b hb e => h ?_, State.warps_recorded]
  exact e ▸ hb

end

/-- Settles O24: the record by where it goes, the members by their suspension, and the frame of both. -/
theorem exceptionEntry : Obligations.ExceptionEntry := by
  unfold Obligations.ExceptionEntry
  intro s a pc f p r t
  have ht : t = { s.recorded a pc f with warps := t.warps } := s.takeException_warpsOf a pc f false
  have hpart : t.part p = (s.recorded a pc f).part p := by rw [ht]; rfl
  have hmem : t.mem = (s.recorded a pc f).mem := by rw [ht]
  refine ⟨fun h => ?room, fun h => ?full, rfl, rfl, rfl, rfl, FaultRec.length_bytes r,
    fun m hm => s.susp_takeException a pc f false hm, fun v => ⟨?_, ?_, ?_, ?_⟩,
    fun v hv => s.find_takeException_other a pc f false hv⟩
  case room =>
    rw [hpart, hmem, State.recorded, State.postRecord_room h]
    simp [State.writeRecord]
    rfl
  case full =>
    rw [hpart, hmem, State.recorded, State.postRecord_full h]
    simp
    exact ⟨rfl, rfl⟩
  · exact s.keeps_takeException a pc f false Warp.pc (fun _ _ => rfl) v
  · exact s.keeps_takeException a pc f false Warp.active (fun _ _ => rfl) v
  · exact s.keeps_takeException a pc f false Warp.v (fun _ _ => rfl) v
  · exact s.keeps_takeException a pc f false Warp.s (fun _ _ => rfl) v

end Sys2Proof.Machine
end

section
/-! PROOF. The issue of an instruction by one warp that fails a check, faults, traps or sets its own PC, and the conditions of
issue (04 R94, R110, 06 R127, R133, 10 R211, 21 R353 to R357). -/

namespace Sys2Proof.Machine

/-! The warp of an issue. -/

/-- A ready warp has not exited. -/
theorem not_exited_of_ready {s : State} {w : Nat} (h : s.ready w = true) : (s.warp w).exited = false :=
  (canIssue_of_ready h).2.1

theorem State.setWarp_setWarp (s : State) (w : Nat) (x y : Warp) : (s.setWarp w x).setWarp w y = s.setWarp w y := by
  simp only [State.setWarp, AMap.put_put]

theorem State.updWarp_setWarp (s : State) (w : Nat) (x : Warp) (f : Warp → Warp) :
    (s.setWarp w x).updWarp w f = s.setWarp w (f x) := by
  rw [State.updWarp, State.warp_setWarp_same, State.setWarp_setWarp]

theorem State.updWarp_updWarp (s : State) (w : Nat) (f g : Warp → Warp) :
    (s.updWarp w f).updWarp w g = s.updWarp w (fun x => g (f x)) := State.updWarp_setWarp ..

theorem started_eq_setWarp (s : State) (w : Nat) (i : Instr) :
    started s w i = (s.bump.chargeIssue w i).setWarp w ((s.warp w).issued i) := by
  rw [started, State.updWarp]
  rfl

/-- A started warp changed by a function is the warp put. -/
theorem started_updWarp (s : State) (w : Nat) (i : Instr) (f : Warp → Warp) :
    (started s w i).updWarp w f = (started s w i).setWarp w (f ((s.warp w).issued i)) := by
  rw [State.updWarp, warp_started]

theorem started_updWarp_id (s : State) (w : Nat) (i : Instr) : (started s w i).updWarp w (fun x => x) = started s w i := by
  rw [started_updWarp, started_eq_setWarp, State.setWarp_setWarp]

theorem finished_id (s : State) (w : Nat) (i : Instr) : finished s w i (fun x => x) = past s w i (started s w i) := by
  rw [finished, started_updWarp_id]

@[simp] theorem blocks_started (s : State) (w : Nat) (i : Instr) : (started s w i).blocks = s.blocks := rfl
@[simp] theorem parts_started (s : State) (w : Nat) (i : Instr) : (started s w i).parts = s.parts := rfl
@[simp] theorem mem_started (s : State) (w : Nat) (i : Instr) : (started s w i).mem = s.mem := rfl
@[simp] theorem block_started (s : State) (w : Nat) (i : Instr) (b : Nat) : (started s w i).block b = s.block b := rfl
@[simp] theorem part_started (s : State) (w : Nat) (i : Instr) (p : Nat) : (started s w i).part p = s.part p := rfl

theorem find_started_other {s : State} {w v : Nat} (i : Instr) (h : v ≠ w) :
    (started s w i).warps.find v = s.warps.find v := by
  rw [started_eq_setWarp]
  exact AMap.find_put_other _ _ h

@[simp] theorem partOf_started (s : State) (w : Nat) (i : Instr) : (started s w i).partOf w = s.partOf w := by
  simp [State.partOf, State.blockOf]

@[simp] theorem canRecord_started (s : State) (w : Nat) (i : Instr) (half p : Nat) :
    (started s w i).canRecord half p = s.canRecord half p := rfl

@[simp] theorem recordNo_started (s : State) (w : Nat) (i : Instr) (p : Nat) :
    (started s w i).recordNo p = s.recordNo p := rfl

/-- The issue keeps the room for a record. -/
theorem room_started {s : State} {w : Nat} (i : Instr) (h : Room s w) :
    (started s w i).canRecord (halfOfCore ((started s w i).warp w).core) ((started s w i).partOf w) = true := by
  simpa [Room] using h

@[simp] theorem State.selfActor_len (s : State) (w : Nat) (i : Instr) : (s.selfActor w i).len = instrLength i := rfl

/-! Actors of one warp. -/

/-- An actor that is warp `w` alone. -/
def Actor.Alone (a : Actor) (w : Nat) : Prop :=
  (∃ m n, a.members = [⟨w, m, n⟩]) ∧ a.lead = w ∧ a.inst = none

theorem alone_selfActor (s : State) (w : Nat) (i : Instr) : (s.selfActor w i).Alone w := ⟨⟨_, _, rfl⟩, rfl, rfl⟩

theorem alone_loneActor (s : State) (w : Nat) (i : Instr) : (s.loneActor w i).Alone w := by
  unfold State.loneActor
  dsimp only
  split
  · exact ⟨⟨_, _, rfl⟩, rfl, rfl⟩
  · exact alone_selfActor s w i

/-- A performer of what concerns a member alone is no rendezvous's. -/
theorem scope_loneActor (s : State) (w : Nat) (i : Instr) :
    (s.loneActor w i).scope ≠ .flock ∧ (s.loneActor w i).scope ≠ .block := by
  unfold State.loneActor
  dsimp only
  split
  · exact ⟨Scope.noConfusion, Scope.noConfusion⟩
  next h => simpa using h

theorem liveMembers_of_alone {t : State} {a : Actor} {w : Nat} (h : a.Alone w) (he : (t.warp w).exited = false) :
    t.liveMembers a = a.members := by
  obtain ⟨⟨m, n, hm⟩, -⟩ := h
  simp [State.liveMembers, hm, he]

theorem members_of_alone {a : Actor} {w : Nat} (h : a.Alone w) : a.members.map (fun m => m.w) = [w] := by
  obtain ⟨⟨m, n, hm⟩, -⟩ := h
  simp [hm]

theorem unwaitAll_of_alone {t : State} {a : Actor} {w : Nat} (h : a.Alone w) (he : (t.warp w).exited = false) :
    t.unwaitAll a = t.updWarp w (fun x => x.unwait) := by
  obtain ⟨m, n, hm⟩ := h.1
  rw [State.unwaitAll, liveMembers_of_alone h he, hm]
  rfl

theorem advanceAll_of_alone {t : State} {a : Actor} {w : Nat} (h : a.Alone w) (i : Instr)
    (he : (t.warp w).exited = false) :
    t.advanceAll a i = t.updWarp w (fun x => (x.unwait.countDither i).advance a.len a.rep) := by
  obtain ⟨m, n, hm⟩ := h.1
  exact advanceAll_single t a i w m n hm he

theorem waitAll_of_alone {t : State} {a : Actor} {w : Nat} (h : a.Alone w) (k : WaitKind) (i : Instr) (q : List DWord)
    (he : (t.warp w).exited = false) :
    t.waitAll a k i q = t.updWarp w (fun x => { x with wait := some ⟨k, i, a, q⟩ }) := by
  obtain ⟨m, n, hm⟩ := h.1
  rw [State.waitAll, liveMembers_of_alone h he, hm]
  rfl

theorem blockAll_of_alone {t : State} {a : Actor} {w : Nat} (h : a.Alone w) (o : Word) (k : BitVec 4) (d : BitVec 24)
    (he : (t.warp w).exited = false) :
    t.blockAll a o k d = t.updWarp w (fun x => { x with blocked := ⟨o, k, d⟩ }) := by
  obtain ⟨m, n, hm⟩ := h.1
  rw [State.blockAll, liveMembers_of_alone h he, hm]
  rfl

/-! The scopes of an instruction that a warp performs alone. -/

theorem narrow_of_solo {s : State} {w : Nat} {i : Instr} (h : Solo s w i) :
    scopeOfInstr i ≠ .flock ∧ scopeOfInstr i ≠ .block := by
  rcases h.2.2 with e | ⟨e, -⟩ <;> rw [e] <;> exact ⟨Scope.noConfusion, Scope.noConfusion⟩

theorem not_exited_of_solo {s : State} {w : Nat} {i : Instr} (h : Solo s w i) : (s.warp w).exited = false :=
  not_exited_of_ready h.1.2.1

/-- A warp that performs alone has not exited in any state that keeps its live mask. -/
theorem not_exited_of_live {s t : State} {w : Nat} {i : Instr} (h : Solo s w i) (hl : (t.warp w).live = (s.warp w).live) :
    (t.warp w).exited = false := by
  rw [Warp.exited, hl]
  exact not_exited_of_solo h

theorem not_exited_started {s : State} {w : Nat} {i : Instr} (h : Solo s w i) : ((started s w i).warp w).exited = false := by
  rw [warp_started, Warp.exited_issued]
  exact not_exited_of_solo h

section
variable {i : Instr} {op : Actor → State → Res} {s t : State} {w : Nat} {f : FaultInfo}

/-- A precise fault of an instruction that a warp performs alone (21 R354). -/
theorem issue_fault (h : Solo s w i) (hr : Room s w) (ho : op (s.selfActor w i) (started s w i) = .fault f) :
    issue i op s = .next (taken s w i f ((started s w i).updWarp w (fun x => x.unwait))) := by
  obtain ⟨hf, hb⟩ := narrow_of_solo h
  rw [issue_solo h, ho, settle_fault_narrow (started s w i) (s.selfActor w i) i f (room_started i hr) hf hb,
    unwaitAll_of_alone (alone_selfActor s w i) (not_exited_started h), State.selfActor_lead, warp_started,
    Warp.issued_pc]
  rfl

/-- A trap on completion of an instruction that a warp performs alone (03 R83, 21 R354). -/
theorem issue_trap (h : Solo s w i) (hr : Room s w) (ho : op (s.selfActor w i) (started s w i) = .trap t f)
    (hl : (t.warp w).exited = false) : issue i op s = .next (taken s w i f (past s w i t)) := by
  rw [issue_solo h, ho, settle_trap (started s w i) t (s.selfActor w i) i f (room_started i hr),
    updInst_none t (s.selfActor w i) _ rfl, advanceAll_of_alone (alone_selfActor s w i) i hl, State.selfActor_lead,
    warp_started, Warp.issued_pc]
  rfl

/-- An instruction that changes its warp, its PC included. -/
theorem issue_jumped {g : Warp → Warp} (h : Solo s w i)
    (ho : op (s.selfActor w i) (started s w i) = .jump ((started s w i).setWarp w (g ((s.warp w).issued i))))
    (hl : (g ((s.warp w).issued i)).live = (s.warp w).live) : issue i op s = .next (jumped s w i g) := by
  have he : (((started s w i).setWarp w (g ((s.warp w).issued i))).warp w).exited = false :=
    not_exited_of_live h (by rw [State.warp_setWarp_same, hl])
  rw [issue_jump h ho, unwaitAll_of_alone (alone_selfActor s w i) he, State.updWarp_setWarp, jumped, started_updWarp]

/-- An instruction that changes nothing and goes on. -/
theorem issue_nothing (h : Solo s w i) (ho : op (s.selfActor w i) (started s w i) = .ok (started s w i)) :
    issue i op s = .next (finished s w i (fun x => x)) := by
  rw [finished_id]
  exact issue_past h ho (not_exited_started h)

end

end Sys2Proof.Machine
end

section
/-! PROOF. A warp that has issued reads its registers as before (02 R59): the issue fixes what its loads have read, and no cell
that they are to fill. -/

namespace Sys2Proof.Machine

section
variable (x : Warp) (i : Instr) (k : Nat)

theorem seenThrough_issued (key : Nat) (u : Bool) (r l : Nat) (old : Word) :
    seenThrough (x.issued i).loads k key u r l old = seenThrough x.loads k key u r l old := by
  unfold Warp.issued
  split
  · rfl
  · exact List.foldl_map

@[simp] theorem Warp.rawV_issued (r l : Nat) : (x.issued i).rawV r l = x.rawV r l := by simp [Warp.rawV]
@[simp] theorem Warp.rawS_issued (r : Nat) : (x.issued i).rawS r = x.rawS r := by simp [Warp.rawS]
@[simp] theorem Warp.cellKey_issued (u : Bool) (r l : Nat) : (x.issued i).cellKey u r l = x.cellKey u r l := by
  simp [Warp.cellKey]

@[simp] theorem Warp.readV_issued (r l : Nat) : (x.issued i).readV k r l = x.readV k r l := by
  simp [Warp.readV, seenThrough_issued]
@[simp] theorem Warp.readS_issued (r : Nat) : (x.issued i).readS k r = x.readS k r := by
  simp [Warp.readS, seenThrough_issued]
@[simp] theorem Warp.readPairS_issued (r : Nat) : (x.issued i).readPairS k r = x.readPairS k r := by
  simp [Warp.readPairS]
@[simp] theorem Warp.reg_issued (u : Bool) (r l : Nat) : (x.issued i).reg k u r l = x.reg k u r l := by
  simp [Warp.reg]
@[simp] theorem Warp.value_issued (u wide : Bool) (r l : Nat) : (x.issued i).value k u wide r l = x.value k u wide r l := by
  simp [Warp.value]
@[simp] theorem Ctx.opnd_issued (c : Ctx) (slot : Nat) (u wide : Bool) (r : BitVec 8) (l : Nat) :
    c.opnd (x.issued i) slot u wide r l = c.opnd x slot u wide r l := by
  simp [Ctx.opnd]

end

end Sys2Proof.Machine
end

section
/-! PROOF. Transfers, returns, the divergence stack, traps and the return from a handler (06 R135 to R142). -/

namespace Sys2Proof.Machine

section
variable {s : State} {w : Nat} {i : Instr}

/-! Transfers. -/

/-- The lanes of a transfer that stay, as a pending path (06 R136). -/
def restLanes (x : Warp) (i : Instr) : Mask := if scopeOfInstr i = .warp then 0 else x.active &&& ~~~(x.selected i)

/-- What a transfer makes of its warp, where `rest` are the lanes that stay. -/
def Warp.transferred (x : Warp) (call : Bool) (target next : DWord) (sel rest : Mask) : Warp :=
  { x with
    pc := target, active := if rest = 0 then x.active else sel,
    dstack := if rest = 0 then x.dstack else .pending next rest :: x.dstack,
    cstack := if call then ⟨next, x.dstack.length + (if rest = 0 then 0 else 1)⟩ :: x.cstack else x.cstack }

theorem Warp.transferred_eq (x : Warp) (call : Bool) (target next : DWord) (sel rest : Mask) :
    (let y := if rest == 0 then x else { x with dstack := .pending next rest :: x.dstack, active := sel }
     let z := if call then { y with cstack := ⟨next, y.dstack.length⟩ :: y.cstack } else y
     { z with pc := target }) = x.transferred call target next sel rest := by
  by_cases h : rest = 0
  · subst h
    cases call <;> rfl
  · have hb : (rest == 0) = false := by simpa using h
    simp only [hb, Warp.transferred, h]
    cases call <;> rfl

theorem restLanes_selfActor (s : State) (w : Nat) (i : Instr) (x : Warp) :
    (if (s.selfActor w i).scope == .warp then 0 else x.active &&& ~~~((s.warp w).selected i)) =
      if scopeOfInstr i = .warp then 0 else x.active &&& ~~~((s.warp w).selected i) := by
  rw [State.selfActor_scope]
  cases scopeOfInstr i <;> rfl

/-- A transfer's effect by its checks, in order (06 R136, R140). -/
theorem transfer_started (call : Bool) (target : DWord) :
    let x := s.warp w
    let next := canon57 (x.pc + BitVec.ofNat 64 (instrLength i))
    transfer call target (s.selfActor w i) (started s w i) =
      if x.selected i = 0 then .ok (started s w i)
      else if codeAddr target = false then .fault (FaultInfo.of 0x1C 0)
      else if call = true ∧ 16 ≤ x.cstack.length then .fault (FaultInfo.of 0x19 0)
      else if restLanes x i ≠ 0 ∧ 32 ≤ x.dstack.length then .fault (FaultInfo.of 0x1A 0)
      else .jump ((started s w i).setWarp w ((x.issued i).transferred call target next (x.selected i) (restLanes x i))) := by
  intro x next
  unfold transfer
  simp only [State.selfActor_lead, State.selfActor_len, State.selfActor_sel, warp_started]
  rw [Warp.transferred_eq]
  simp only [restLanes_selfActor, Warp.issued_pc, Warp.issued_cstack, Warp.issued_dstack, Warp.issued_active, beq_iff_eq, 
    Bool.not_eq_true', Bool.and_eq_true, bne_iff_ne, decide_eq_true_eq]
  rfl

/-- The instructions that transfer control perform a transfer. -/
theorem exec_transfer {call : Bool} {target : DWord} (h : transferOf s w i = some (call, target)) :
    ∃ op, exec i s = issue i op s ∧
      op (s.selfActor w i) (started s w i) = transfer call target (s.selfActor w i) (started s w i) := by
  unfold transferOf at h
  dsimp only at h
  split at h <;> cases h
  case h_1 h imm => exact ⟨opBra (.xl imm), rfl, by simp [opBra, relTarget]⟩
  case h_2 h imm => exact ⟨opCall (.xl imm), rfl, by simp [opCall, relTarget]⟩
  case h_3 h f => exact ⟨opBrx (.x f), rfl, by simp [opBrx, pairTarget]⟩
  case h_4 h f => exact ⟨opCallx (.x f), rfl, by simp [opCallx, pairTarget]⟩

end

/-- Settles O19: each case by the check that decides it. -/
theorem transferRule : Obligations.TransferRule := by
  unfold Obligations.TransferRule
  intro s w i call target ht hs x sel rest next
  obtain ⟨op, he, hop⟩ := exec_transfer ht
  have ho := hop.trans (transfer_started call target)
  have hrest : restLanes x i = rest := rfl
  rw [he]
  refine ⟨fun h0 => ?none, fun h0 hc hd hr => ?go, fun h0 hc room => ?target, fun h0 hc hcall hd room => ?calls,
    fun h0 hc hd hne hr room => ?paths⟩
  case none => exact issue_nothing hs (by rw [ho, if_pos h0])
  case go =>
    have h1 : ¬ (call = true ∧ 16 ≤ x.cstack.length) := fun h => by have := hd h.1; omega
    have h2 : ¬ (restLanes x i ≠ 0 ∧ 32 ≤ x.dstack.length) := fun h => by have := hr h.1; omega
    rw [if_neg h0, if_neg (by simp [hc]), if_neg h1, if_neg h2] at ho
    exact issue_jumped hs ho (Warp.issued_live ..)
  case target => exact issue_fault hs room (by rw [ho, if_neg h0, if_pos hc])
  case calls => exact issue_fault hs room (by rw [ho, if_neg h0, if_neg (by simp [hc]), if_pos ⟨hcall, hd⟩])
  case paths =>
    have h1 : ¬ (call = true ∧ 16 ≤ x.cstack.length) := fun h => by have := hd h.1; omega
    exact issue_fault hs room (by rw [ho, if_neg h0, if_neg (by simp [hc]), if_neg h1, if_pos ⟨hne, hr⟩])

end Sys2Proof.Machine
end

section
/-! PROOF. RET, RPUSH, RJOIN, TRAP, BPT, vectoring and RETI (06 R135 to R142). -/

namespace Sys2Proof.Machine

/-! RET. -/

/-- RET by its checks (06 R140). -/
theorem opRet_started (s : State) (w : Nat) (i : Instr) :
    opRet (s.selfActor w i) (started s w i) =
      match (s.warp w).cstack with
      | [] => .fault (FaultInfo.of 0x19 0)
      | e :: t =>
        if e.depth ≠ (s.warp w).dstack.length then .fault (FaultInfo.of 0x1A 2)
        else .jump ((started s w i).setWarp w { (s.warp w).issued i with cstack := t, pc := e.ret }) := by
  simp only [opRet, State.selfActor_lead, warp_started, Warp.issued_cstack, Warp.issued_dstack]
  rfl

/-- Settles O20: each case of the call stack by its own answer. -/
theorem returnRule : Obligations.ReturnRule := by
  unfold Obligations.ReturnRule
  intro s w h u hs x
  have he : exec (.ret h u) s = issue (.ret h u) opRet s := rfl
  have ho := opRet_started s w (.ret h u)
  rw [he]
  refine ⟨fun e t hst hd => ?_, fun e t hst hd room => ?_, fun hst room => ?_⟩ <;> rw [hst] at ho
  · exact issue_jumped hs (ho.trans (if_neg (not_not.2 hd))) (Warp.issued_live ..)
  · exact issue_fault hs room (ho.trans (if_pos hd))
  · exact issue_fault hs room ho

/-! RPUSH and RJOIN. -/

theorem opRpush_started (s : State) (w : Nat) (i : Instr) (imm : BitVec 32) :
    opRpush (.xl imm) (s.selfActor w i) (started s w i) =
      if 32 ≤ (s.warp w).dstack.length then .fault (FaultInfo.of 0x1A 0)
      else .ok ((started s w i).setWarp w ((fun x : Warp =>
        { x with dstack := .reconv (x.pc + imm.signExtend 64) x.active :: x.dstack }) ((s.warp w).issued i))) := by
  simp only [opRpush, State.selfActor_lead, warp_started, Warp.issued_dstack, Config.divergenceDepth]
  rfl

/-- The divergence stack without the entries of no lane that stand on top (06 R137). -/
def Warp.liveStack (x : Warp) : List DivEntry := x.dstack.dropWhile (fun e => e.mask == 0)

/-- RJOIN by what is topmost of the stack without its empty entries (06 R137). -/
theorem opRjoin_started (s : State) (w : Nat) (i : Instr) :
    opRjoin (s.selfActor w i) (started s w i) =
      let x := s.warp w
      if topReconv x.liveStack ≠ some x.pc then .fault (FaultInfo.of 0x1A 1)
      else
        match x.liveStack with
        | [] => .fault (FaultInfo.of 0x1A 1)
        | .pending pc m :: t => .jump ((started s w i).setWarp w { x.issued i with dstack := t, pc := pc, active := m })
        | .reconv _ m :: t =>
          .ok (((started s w i).reconverge w m).setWarp w { x.issued i with dstack := t, active := m }) := by
  simp only [opRjoin, State.selfActor_lead, warp_started, Warp.issued_dstack, Warp.issued_pc]
  rfl

/-- Settles O21: RPUSH by the depth of the stack, RJOIN by its topmost entry. -/
theorem divergenceRule : Obligations.DivergenceRule := by
  unfold Obligations.DivergenceRule
  intro s w h u imm x st
  have hpush : exec (.rpush h (.xl imm)) s = issue (.rpush h (.xl imm)) (opRpush (.xl imm)) s := rfl
  have hjoin : exec (.rjoin h u) s = issue (.rjoin h u) opRjoin s := rfl
  have opush := opRpush_started s w (.rpush h (.xl imm)) imm
  have ojoin := opRjoin_started s w (.rjoin h u)
  rw [hpush, hjoin]
  refine ⟨fun hs hd => ?_, fun hs hd room => ?_, fun hs ht pc m t hst => ?_, fun hs m t hst => ?_, fun hs ht room => ?_⟩
  · exact issue_finished hs (opush.trans (if_neg (Nat.not_le.2 hd))) rfl
  · exact issue_fault hs room (opush.trans (if_pos hd))
  · have ho := ojoin.trans (if_neg (not_not.2 ht))
    rw [show (s.warp w).liveStack = _ from hst] at ho
    exact issue_jumped hs ho (Warp.issued_live ..)
  · have ht : topReconv st = some x.pc := by rw [hst]; rfl
    have ho := ojoin.trans (if_neg (not_not.2 ht))
    rw [show (s.warp w).liveStack = _ from hst] at ho
    have hw : ((started s w (.rjoin h u)).reconverge w m).warp w = x.issued (.rjoin h u) := by
      rw [State.pastOf_warp (State.reconverge_pastOf ..), warp_started]
    refine issue_past hs (ho.trans (congrArg Res.ok ?_)) (not_exited_of_live hs ?_)
    · rw [State.updWarp, hw]
    · rw [State.warp_updWarp_same, hw]
      exact Warp.issued_live ..
  · exact issue_fault hs room (ojoin.trans (if_pos ht))

/-! TRAP and BPT. -/

theorem firstSel_selfActor (s : State) (w : Nat) (i : Instr) : (s.selfActor w i).firstSel = (s.warp w).selected i := by
  have one (m : Member) : (([m].find? (fun m => m.sel != 0)).map (fun m => m.sel)).getD 0 = m.sel := by
    by_cases h : m.sel = 0
    · simp [List.find?, h]
    · have hb : (m.sel != 0) = true := by simpa using h
      rw [List.find?_cons_of_pos (p := fun m : Member => m.sel != 0) hb]
      rfl
  exact one _

theorem opTrap_started (s : State) (w : Nat) (i : Instr) (f : XForm) :
    opTrap (.x f) (s.selfActor w i) (started s w i) =
      if (s.warp w).selected i = 0 then .ok (started s w i)
      else .trap (started s w i)
        { FaultInfo.of (BitVec.ofNat 8 f.vc.toNat) 0 with lanes := (s.warp w).selected i } := by
  simp only [opTrap, firstSel_selfActor, beq_iff_eq]

theorem opBpt_started (s : State) (w : Nat) (i : Instr) :
    opBpt (s.selfActor w i) (started s w i) =
      if (s.warp w).selected i = 0 then .ok (started s w i) else .fault (FaultInfo.of 0x18 0) := by
  simp only [opBpt, State.selfActor_sel, beq_iff_eq]
  rfl

/-- Settles O23: with a lane selected by the trap or the fault, with none by nothing. -/
theorem trapAndBreakpoint : Obligations.TrapAndBreakpoint := by
  unfold Obligations.TrapAndBreakpoint
  intro s w h f room
  have htrap : exec (.trap h (.x f)) s = issue (.trap h (.x f)) (opTrap (.x f)) s := rfl
  have hbpt : exec (.bpt h (.x f)) s = issue (.bpt h (.x f)) opBpt s := rfl
  have otrap := opTrap_started s w (.trap h (.x f)) f
  have obpt := opBpt_started s w (.bpt h (.x f))
  rw [htrap, hbpt]
  refine ⟨fun hs hsel => ?_, fun hs hsel => ?_, fun hs hsel => ?_, fun hs hsel => ?_⟩
  · rw [finished_id]
    exact issue_trap hs room (otrap.trans (if_neg hsel)) (not_exited_started hs)
  · exact issue_nothing hs (otrap.trans (if_pos hsel))
  · exact issue_fault hs room (obpt.trans (if_neg hsel))
  · exact issue_nothing hs (obpt.trans (if_pos hsel))

/-! Vectoring and RETI. -/

/-- The upper word of the saved PC holds the PC's upper bits and REPI. -/
theorem uepchi_fields (n : Nat) (pc : DWord) :
    let y := (BitVec.ofNat 32 n <<< 26) ||| (pc.extractLsb' 32 25).zeroExtend 32
    y.extractLsb' 0 25 = pc.extractLsb' 32 25 ∧ (n < 64 → (y.extractLsb' 26 6).toNat = n) := by
  refine ⟨BitVec.eq_of_getLsbD_eq fun j hj => ?_, fun hn => ?_⟩
  · simp [hj, show j < 26 by omega, show j < 32 by omega]
  · refine (congrArg BitVec.toNat (a₂ := BitVec.ofNat 6 n) (BitVec.eq_of_getLsbD_eq fun j hj => ?_)).trans ?_
    · have h1 : (pc.extractLsb' 32 25).getLsbD (26 + j) = false := BitVec.getLsbD_of_ge _ _ (by omega)
      simp [hj, show 26 + j < 32 by omega, show j < 32 by omega, h1]
      simp only [← BitVec.getLsbD_eq_getElem, BitVec.getLsbD_ofNat, hj, show j < 32 by omega, decide_true]
    · simp
      omega

/-- RETI by its checks (06 R142). -/
theorem opReti_started (s : State) (w : Nat) (i : Instr) :
    opReti (s.selfActor w i) (started s w i) =
      let x := s.warp w
      let pc := canon57 ((x.uepchi.extractLsb' 0 25 ++ x.uepclo).zeroExtend 64)
      if !x.inHandler then .fault (FaultInfo.of 0x1F 0)
      else if x.dstack.length ≠ x.hdDepth then .fault (FaultInfo.of 0x1A 3)
      else if x.cstack.length ≠ x.hcDepth then .fault (FaultInfo.of 0x19 0)
      else if !codeAddr pc then .fault (FaultInfo.of 0x1C 0)
      else .jump ((started s w i).setWarp w ((fun x : Warp => { x with
        pc := pc, repi := (x.uepchi.extractLsb' 26 6).toNat, active := x.uemask &&& x.live, inHandler := false })
          (x.issued i))) := by
  simp only [opReti, State.selfActor_lead, warp_started, Warp.issued_dstack, Warp.issued_cstack, Warp.issued_uepchi,
    Warp.issued_uepclo, Warp.issued_inHandler, Warp.issued_hdDepth, Warp.issued_hcDepth]
  rfl

/-- Settles O25: vectoring field by field, RETI by its checks. -/
theorem vectorAndReti : Obligations.VectorAndReti := by
  unfold Obligations.VectorAndReti
  intro s w h u handler x y
  have he : exec (.reti h u) s = issue (.reti h u) opReti s := rfl
  have ho := opReti_started s w (.reti h u)
  obtain ⟨hpc, hrep⟩ := uepchi_fields x.repi x.pc
  rw [he]
  refine ⟨⟨rfl, hpc, hrep, rfl, rfl, rfl, rfl, rfl, rfl, rfl, rfl, rfl⟩, fun hs hh hd hc => fun hp => ?_, fun hs hh room => ?_,
    fun hs hh hd room => ?_, fun hs hh hd hc room => ?_, fun hs hh hd hc hp room => ?_⟩
  · refine issue_jumped hs (ho.trans ?_) (Warp.issued_live ..)
    simp only [x] at hh hd hc
    simp only [hh, hd, hc, ne_eq, not_true_eq_false, if_false, Bool.not_true, Bool.false_eq_true]
    rw [if_neg (by simpa using hp)]
  · exact issue_fault hs room (ho.trans (by simp [x] at hh; simp [hh]))
  · exact issue_fault hs room (ho.trans (by simp [x] at hh hd; simp [hh, hd]))
  · exact issue_fault hs room (ho.trans (by simp [x] at hh hd hc; simp [hh, hd, hc]))
  · exact issue_fault hs room (ho.trans (by simp [x] at hh hd hc hp; simp [hh, hd, hc, hp]))

end Sys2Proof.Machine
end

section
/-! PROOF. EXIT (06 R138): the lanes gone from every mask, the entry resumed, and the rendezvous of the block. -/

namespace Sys2Proof.Machine

/-! Leaving lanes. -/

/-- Where an entry of the divergence stack resumes: a reconvergence entry behind its RJOIN (06 R138). -/
def DivEntry.resume (e : DivEntry) : DWord :=
  match e with
  | .reconv rpc _ => rpc + 8
  | .pending pc _ => pc

/-- The stack of a warp once some lanes are gone, without the entries of no lane that stand on top. -/
def Warp.stackWithout (x : Warp) (l : Mask) : List DivEntry :=
  (x.dstack.map (fun e => e.without l)).dropWhile (fun e => e.mask == 0)

theorem popExit_eq (pc : DWord) (st : List DivEntry) :
    popExit pc st = match st.dropWhile (fun e => e.mask == 0) with
      | [] => (pc, 0, [])
      | e :: t => (e.resume, e.mask, t) := by
  induction st with
  | nil => rfl
  | cons e t ih =>
    cases e with
    | reconv rpc m =>
      by_cases h : m = 0
      · simpa [popExit, List.dropWhile_cons, DivEntry.mask, h] using ih
      · have hb : (m == 0) = false := by simpa using h
        simp only [popExit, List.dropWhile_cons, DivEntry.mask, hb]
        rfl
    | pending pc m =>
      by_cases h : m = 0
      · simpa [popExit, List.dropWhile_cons, DivEntry.mask, h] using ih
      · have hb : (m == 0) = false := by simpa using h
        simp only [popExit, List.dropWhile_cons, DivEntry.mask, hb]
        rfl

section
variable (x : Warp) (l : Mask) (next : DWord)

/-- Lanes stay active: they go on. -/
theorem Warp.exitLanes_active (h : x.active &&& ~~~l ≠ 0) :
    x.exitLanes l next = { x with
      live := x.live &&& ~~~l, uemask := x.uemask &&& ~~~l, dstack := x.dstack.map (fun e => e.without l),
      active := x.active &&& ~~~l, pc := next } := by
  have hb : (x.active &&& ~~~l != 0) = true := by simpa using h
  simp only [Warp.exitLanes, hb, if_true]

/-- No lane stays active, and some are left: the stack is popped. -/
theorem Warp.exitLanes_popped (h : x.active &&& ~~~l = 0) (hl : x.live &&& ~~~l ≠ 0) :
    x.exitLanes l next = { x with
      live := x.live &&& ~~~l, uemask := x.uemask &&& ~~~l,
      dstack := (popExit next (x.dstack.map (fun e => e.without l))).2.2,
      active := (popExit next (x.dstack.map (fun e => e.without l))).2.1,
      pc := (popExit next (x.dstack.map (fun e => e.without l))).1 } := by
  have hb : (x.active &&& ~~~l != 0) = false := by simpa using h
  have hc : (x.live &&& ~~~l == 0) = false := by simpa using hl
  simp only [Warp.exitLanes, hb, hc, Bool.false_eq_true, if_false]

/-- No lane is left: the warp has exited. -/
theorem Warp.exitLanes_gone (h : x.active &&& ~~~l = 0) (hl : x.live &&& ~~~l = 0) :
    x.exitLanes l next = { x with
      live := 0, uemask := x.uemask &&& ~~~l, dstack := (popExit next (x.dstack.map (fun e => e.without l))).2.2, active := 0,
      pc := (popExit next (x.dstack.map (fun e => e.without l))).1, wait := none, blocked := Blocked.none, arming := none,
      heldArm := none, loads := x.loads.map (fun q => { q with cells := [], reads := [] }) } := by
  have hb : (x.active &&& ~~~l != 0) = false := by simpa using h
  simp only [Warp.exitLanes, hb, hl, Bool.false_eq_true, if_false, beq_self_eq_true, if_true]

end

theorem Warp.pc_exitLanes (x : Warp) (l : Mask) (next : DWord) :
    (x.exitLanes l next).pc = if x.active &&& ~~~l ≠ 0 then next
      else (popExit next (x.dstack.map (fun e => e.without l))).1 := by
  by_cases h : x.active &&& ~~~l = 0
  · rw [if_neg (not_not.2 h)]
    by_cases hl : x.live &&& ~~~l = 0
    · rw [Warp.exitLanes_gone x l next h hl]
    · rw [Warp.exitLanes_popped x l next h hl]
  · rw [Warp.exitLanes_active x l next h, if_pos h]

/-- What EXIT keeps of a warp. -/
theorem Warp.keeps_exitLanes {γ : Type} (p : Warp → γ) (x : Warp) (l : Mask) (next : DWord)
    (h : ∀ live ue st act pc wait bl ar ha loads, p { x with
      live := live, uemask := ue, dstack := st, active := act, pc := pc, wait := wait, blocked := bl, arming := ar,
      heldArm := ha, loads := loads } = p x) : p (x.exitLanes l next) = p x := by
  by_cases ha : x.active &&& ~~~l = 0
  · by_cases hl : x.live &&& ~~~l = 0
    · rw [Warp.exitLanes_gone x l next ha hl]
      exact h ..
    · rw [Warp.exitLanes_popped x l next ha hl]
      exact h _ _ _ _ _ x.wait x.blocked x.arming x.heldArm x.loads
  · rw [Warp.exitLanes_active x l next ha]
    exact h _ _ _ _ _ x.wait x.blocked x.arming x.heldArm x.loads

theorem Warp.live_exitLanes (x : Warp) (l : Mask) (next : DWord) : (x.exitLanes l next).live = x.live &&& ~~~l := by
  by_cases ha : x.active &&& ~~~l = 0
  · by_cases hl : x.live &&& ~~~l = 0
    · rw [Warp.exitLanes_gone x l next ha hl, hl]
    · rw [Warp.exitLanes_popped x l next ha hl]
  · rw [Warp.exitLanes_active x l next ha]

theorem Warp.uemask_exitLanes (x : Warp) (l : Mask) (next : DWord) : (x.exitLanes l next).uemask = x.uemask &&& ~~~l := by
  by_cases ha : x.active &&& ~~~l = 0
  · by_cases hl : x.live &&& ~~~l = 0
    · rw [Warp.exitLanes_gone x l next ha hl]
    · rw [Warp.exitLanes_popped x l next ha hl]
  · rw [Warp.exitLanes_active x l next ha]

@[simp] theorem Warp.pc_exitLanes_issued (x : Warp) (i : Instr) (l : Mask) (next : DWord) :
    ((x.issued i).exitLanes l next).pc = (x.exitLanes l next).pc := by
  simp only [Warp.pc_exitLanes, Warp.issued_active, Warp.issued_dstack]

/-! The rendezvous of a block after an exit. -/

/-- The blocks alone differ. -/
theorem State.closeInsts_blocksOf (s : State) (b : Nat) : s.closeInsts b = { s with blocks := (s.closeInsts b).blocks } := by
  unfold State.closeInsts
  split <;> rfl

@[simp] theorem State.warps_closeInsts (s : State) (b : Nat) : (s.closeInsts b).warps = s.warps := by
  rw [State.closeInsts_blocksOf]
@[simp] theorem State.warp_closeInsts (s : State) (b w : Nat) : (s.closeInsts b).warp w = s.warp w := by
  rw [State.warp, State.warps_closeInsts, State.warp]

theorem State.block_closeInsts_other (s : State) {b c : Nat} (h : c ≠ b) : (s.closeInsts b).block c = s.block c := by
  unfold State.closeInsts
  split
  · rfl
  · exact State.block_updBlock_other _ _ h

theorem State.block_closeInsts_same (s : State) (b : Nat) :
    (s.closeInsts b).block b = { s.block b with insts := ((s.closeInsts b).block b).insts } := by
  unfold State.closeInsts
  split
  · rfl
  · rw [State.block_updBlock_same]

/-! The effect. -/

section
variable (s : State) (w : Nat) (i : Instr)

/-- The warp once the lanes that EXIT selects are gone. -/
def exitWarp : Warp :=
  ((s.warp w).issued i).exitLanes ((s.warp w).selected i) (canon57 ((s.warp w).pc + BitVec.ofNat 64 (instrLength i)))

/-- The state in which they are gone. -/
def exitState : State :=
  (((started s w i).setWarp w (exitWarp s w i)).mapPast (fun r => r.seen w ((s.warp w).selected i))).closeInsts (s.warp w).blk

theorem opExit_started :
    opExit (s.selfActor w i) (started s w i) =
      if (s.warp w).selected i = 0 then .ok (started s w i)
      else if codeAddr ((s.warp w).exitLanes ((s.warp w).selected i)
          (canon57 ((s.warp w).pc + BitVec.ofNat 64 (instrLength i)))).pc then .jump (exitState s w i)
      else .fault (FaultInfo.of 0x1C 0) := by
  simp only [opExit, State.selfActor_lead, State.selfActor_sel, State.selfActor_len, warp_started, Warp.issued_pc,
    Warp.issued_blk, Warp.pc_exitLanes_issued, beq_iff_eq]
  rfl

/-- The state after EXIT. -/
def afterExit : State := (exitState s w i).unwaitAll (s.selfActor w i)

/-- Beside the warp, what is kept of races and the block's rendezvous, nothing differs from the issue. -/
theorem afterExit_frame : ∃ ws ps sy bs,
    afterExit s w i = { started s w i with warps := ws, past := ps, sync := sy, blocks := bs } := by
  have h1 := State.updWarps_warpsOf (exitState s w i) ((exitState s w i).liveMembers (s.selfActor w i)) (fun m => m.w)
    (fun _ x => x.unwait)
  have h2 := State.closeInsts_blocksOf
    (((started s w i).setWarp w (exitWarp s w i)).mapPast (fun r => r.seen w ((s.warp w).selected i))) (s.warp w).blk
  have h3 := State.mapPast_pastOf ((started s w i).setWarp w (exitWarp s w i)) (fun r => r.seen w ((s.warp w).selected i))
  let X := (started s w i).setWarp w (exitWarp s w i)
  let M := X.mapPast (fun r => r.seen w ((s.warp w).selected i))
  let E := exitState s w i
  have h1 : afterExit s w i = { E with warps := (afterExit s w i).warps } := State.updWarps_warpsOf ..
  have h2 : E = { M with blocks := E.blocks } := State.closeInsts_blocksOf M (s.warp w).blk
  have h3 : M = { X with past := M.past, sync := M.sync } := X.mapPast_pastOf _
  exact ⟨(afterExit s w i).warps, M.past, M.sync, E.blocks,
    h1.trans (congrArg (fun z : State => { z with warps := (afterExit s w i).warps })
      (h2.trans (congrArg (fun z : State => { z with blocks := E.blocks }) h3)))⟩

theorem warp_exitState : (exitState s w i).warp w = exitWarp s w i := by
  rw [exitState, State.warp_closeInsts, State.pastOf_warp (State.mapPast_pastOf ..), State.warp_setWarp_same]

/-- What the end of a wait keeps of a warp stands as EXIT left it. -/
theorem keeps_afterExit {γ : Type} (p : Warp → γ) (h : ∀ x : Warp, p x.unwait = p x) :
    p ((afterExit s w i).warp w) = p (exitWarp s w i) := by
  rw [afterExit, State.unwaitAll_eq, State.keeps_updWarps _ _ _ _ p (fun _ _ x => h x), warp_exitState]

theorem find_afterExit_other {v : Nat} (h : v ≠ w) : (afterExit s w i).warps.find v = s.warps.find v := by
  have hm : ∀ m ∈ (exitState s w i).liveMembers (s.selfActor w i), m.w ≠ v := by
    intro m hm
    obtain rfl : m = ⟨w, (s.warp w).active, (s.warp w).selected i⟩ := 
      List.mem_singleton.1 (List.mem_filter.1 hm).1
    exact Ne.symm h
  rw [afterExit, State.unwaitAll_eq, State.find_updWarps_other _ _ _ _ hm, exitState, State.warps_closeInsts,
    State.pastOf_warps (State.mapPast_pastOf ..)]
  exact (AMap.find_put_other _ _ h).trans (find_started_other i h)

theorem block_afterExit (b : Nat) : (afterExit s w i).block b = (exitState s w i).block b := by
  rw [afterExit, State.block_unwaitAll]

theorem block_afterExit_other {b : Nat} (h : b ≠ (s.warp w).blk) : (afterExit s w i).block b = s.block b := by
  rw [block_afterExit, exitState, State.block_closeInsts_other _ h, State.block,
    State.pastOf_blocks (State.mapPast_pastOf ..)]
  rfl

theorem block_afterExit_same :
    (afterExit s w i).block (s.warp w).blk =
      { s.block (s.warp w).blk with insts := ((afterExit s w i).block (s.warp w).blk).insts } := by
  rw [block_afterExit, exitState, State.block_closeInsts_same]
  simp only [State.block, State.pastOf_blocks (State.mapPast_pastOf ..)]
  rfl

end

/-- Settles O22: with no lane selected by nothing; else by the state once the lanes are gone, or the fault of the place to
resume. -/
theorem exitRule : Obligations.ExitRule := by
  unfold Obligations.ExitRule
  intro s w h u hs i x l next left
  have he : exec i s = issue i opExit s := rfl
  have ho := opExit_started s w i
  rw [he]
  refine ⟨fun h0 => ?none, fun h0 hc => ?go, fun ha h0 room e rest hst hc => ?target⟩
  case none => exact issue_nothing hs (ho.trans (if_pos h0))
  case target =>
    refine issue_fault hs room (ho.trans ((if_neg h0).trans (if_neg ?_)))
    rw [Warp.pc_exitLanes, if_neg (not_not.2 ha), popExit_eq, show (x.dstack.map _).dropWhile _ = _ from hst]
    have hr : codeAddr e.resume = false := by cases e <;> exact hc
    simp [hr]
  case go =>
    obtain ⟨ws, ps, sy, bs, hf⟩ := afterExit_frame s w i
    have kept {γ : Type} (p : Warp → γ) (hu : ∀ x : Warp, p x.unwait = p x) := keeps_afterExit s w i p hu
    refine ⟨afterExit s w i, issue_jump hs (ho.trans ((if_neg h0).trans (if_pos hc))),
      fun v hv => find_afterExit_other s w i hv, by rw [hf]; rfl, by rw [hf]; rfl, by rw [hf]; rfl, by rw [hf]; rfl,
      by rw [hf]; rfl, by rw [hf]; rfl, fun b hb => block_afterExit_other s w i hb, block_afterExit_same s w i,
      ?_, ?_, ?_, ?_, ?_, ?_, ?_, ?_, fun ha => ?act, fun ha hl e rest hst => ?pop, fun ha hl => ?gone⟩
    · rw [kept Warp.live fun _ => rfl, exitWarp, Warp.live_exitLanes, Warp.issued_live]
    · rw [kept Warp.v fun _ => rfl, exitWarp, Warp.keeps_exitLanes Warp.v, Warp.issued_v] <;> intros <;> rfl
    · rw [kept Warp.s fun _ => rfl, exitWarp, Warp.keeps_exitLanes Warp.s, Warp.issued_s] <;> intros <;> rfl
    · rw [kept Warp.p fun _ => rfl, exitWarp, Warp.keeps_exitLanes Warp.p, Warp.issued_p] <;> intros <;> rfl
    · rw [kept Warp.cstack fun _ => rfl, exitWarp, Warp.keeps_exitLanes Warp.cstack, Warp.issued_cstack] <;> intros <;> rfl
    · rw [kept Warp.sticky fun _ => rfl, exitWarp, Warp.keeps_exitLanes Warp.sticky, Warp.issued_sticky] <;> intros <;> rfl
    · rw [kept Warp.stores fun _ => rfl, exitWarp, Warp.keeps_exitLanes Warp.stores, Warp.issued_stores] <;> intros <;> rfl
    · rw [kept Warp.uemask fun _ => rfl, exitWarp, Warp.uemask_exitLanes, Warp.issued_uemask]
    case act =>
      have hx : exitWarp s w i = _ := Warp.exitLanes_active _ _ _ (by rw [Warp.issued_active]; exact ha)
      rw [kept Warp.active fun _ => rfl, kept Warp.pc fun _ => rfl, kept Warp.loads fun _ => rfl,
        kept Warp.dstack fun _ => rfl, hx]
      simp only [Warp.issued_active, Warp.issued_dstack]
      exact ⟨rfl, rfl, rfl, rfl⟩
    case pop =>
      have hx : exitWarp s w i = _ := Warp.exitLanes_popped _ _ _ (by rw [Warp.issued_active]; exact ha)
        (by rw [Warp.issued_live]; exact hl)
      rw [kept Warp.active fun _ => rfl, kept Warp.pc fun _ => rfl, kept Warp.loads fun _ => rfl,
        kept Warp.dstack fun _ => rfl, hx]
      have hl' : ((s.warp w).dstack.map (fun e => e.without ((s.warp w).selected i))).dropWhile (fun e => e.mask == 0) = _ := hst
      simp only [Warp.issued_dstack, popExit_eq, hl', true_and]
      refine ⟨rfl, ?_⟩
      cases e <;> rfl
    case gone =>
      have hx : exitWarp s w i = _ := Warp.exitLanes_gone _ _ _ (by rw [Warp.issued_active]; exact ha)
        (by rw [Warp.issued_live]; exact hl)
      have hwait : ((afterExit s w i).warp w).wait = none := by
        refine State.holds_updWarps _ _ _ _ (fun x => x.wait = none) (fun _ _ _ _ => rfl) ?_
        rw [warp_exitState, hx]
      rw [kept Warp.active fun _ => rfl, kept Warp.exited fun _ => rfl, hwait, kept Warp.arming fun _ => rfl,
        kept Warp.loads fun _ => rfl, hx]
      refine ⟨rfl, rfl, rfl, rfl, fun q hq => ?_⟩
      obtain ⟨q', -, rfl⟩ := List.mem_map.1 hq
      rfl

end Sys2Proof.Machine
end

section
/-! PROOF. The checks before an instruction's own (04 R110), and when a word issues (06 R127, 04 R94, 21 R357, 10 R211). -/

namespace Sys2Proof.Machine

section
variable {gate : Nat → State → Option Res} {op : Actor → State → Res} {s : State} {w : Nat} {i : Instr}

/-- A ready warp exists. -/
theorem exists_of_ready (h : s.ready w = true) : (s.warps.find w).isNone = false := by
  simpa [Option.isSome_iff_ne_none] using (canIssue_of_ready h).1

/-- A word that fails a check (04 R110). -/
theorem issueWith_cause {c : Cause} (hf : s.focus = some w) (hr : s.ready w = true) (hp : s.precheck w i = some c) :
    issueWith gate i op s = issued (settle (started s w i) (s.loneActor w i) i (Res.cause c)) := by
  unfold issueWith
  simp only [hf, exists_of_ready hr, hr, hp]
  rfl

/-- A word that passes the checks, at a scope below flock. -/
theorem issueWith_narrow (hs : Runs s w i) (hl : scopeOfInstr i ≠ .flock) (hb : scopeOfInstr i ≠ .block) :
    issueWith gate i op s =
      if scopeOfInstr i = .warp ∧ (s.warp w).selected i = 0 then
        issued (settle (started s w i) (s.selfActor w i) i (.ok (started s w i)))
      else issued (settle (started s w i) (s.selfActor w i) i (guarded i op (s.selfActor w i) (started s w i))) := by
  obtain ⟨hf, hr, hp⟩ := hs
  have wide : (((s.selfActor w i).scope == .flock) || ((s.selfActor w i).scope == .block)) = false := by
    simp [hl, hb]
  have skip : (((s.selfActor w i).scope == .warp) && (s.selfActor w i).members.all (fun m => m.sel == 0)) =
      decide (scopeOfInstr i = .warp ∧ (s.warp w).selected i = 0) := by
    simp [State.selfActor, Bool.beq_eq_decide_eq]
  unfold issueWith
  simp only [hf, exists_of_ready hr, hr, hp, wide, skip, decide_eq_true_eq]
  rfl

theorem issueWith_noWarp (h : s.focus = none) : issueWith gate i op s = .fault .noWarp := by
  simp only [issueWith, h]

theorem issueWith_notReady (hf : s.focus = some w) (hw : (s.warps.find w).isSome = true) (hr : s.ready w = false) :
    issueWith gate i op s = .fault .notReady := by
  have hn : (s.warps.find w).isNone = false := by simpa [Option.isSome_iff_ne_none] using hw
  simp only [issueWith, hf, hn, hr]
  rfl

/-- A settled effect that leaves the warp going on past the instruction. -/
theorem settle_past {t : State} (hl : (t.warp w).exited = false) :
    settle (started s w i) (s.selfActor w i) i (.ok t) = some (past s w i t) := by
  rw [settle_ok, updInst_none t (s.selfActor w i) _ rfl, advanceAll_of_alone (alone_selfActor s w i) i hl]
  rfl

end

/-! Faults of a warp alone. -/

/-- A precise fault of what concerns one warp alone, brought into the state that the issue has begun. -/
theorem settle_lone {s : State} {w : Nat} {i : Instr} {f : FaultInfo} (hr : s.ready w = true) (room : Room s w) :
    settle (started s w i) (s.loneActor w i) i (.fault f) =
      some (((started s w i).unwaitAll (s.loneActor w i)).takeException (s.loneActor w i) (s.warp w).pc f false) := by
  obtain ⟨hf, hb⟩ := scope_loneActor s w i
  have hlead := (alone_loneActor s w i).2.1
  rw [settle_fault_narrow (started s w i) (s.loneActor w i) i f (by rw [hlead]; exact room_started i room) hf hb, hlead,
    warp_started, Warp.issued_pc]

theorem settle_noRoom {s : State} {a : Actor} {i : Instr} {f : FaultInfo}
    (h : s.canRecord (halfOfCore (s.warp a.lead).core) (s.partOf a.lead) = false) : settle s a i (.fault f) = none := by
  simp [settle, h]

theorem flagBits_narrow (f : FaultInfo) {sc : Scope} (hf : sc ≠ .flock) (hb : sc ≠ .block) (ha : f.async = false)
    (hr : f.replay = false) : flagBits f sc = 0 := by
  simp [flagBits, ha, hr, hf, hb]

section
variable {s : State} {w : Nat} (i : Instr) (f : FaultInfo) (hr : s.ready w = true)

/-- The state after a precise fault of one warp alone. -/
def loneFault (s : State) (w : Nat) (i : Instr) (f : FaultInfo) : State :=
  ((started s w i).unwaitAll (s.loneActor w i)).takeException (s.loneActor w i) (s.warp w).pc f false

include hr

theorem unwaitAll_loneActor :
    (started s w i).unwaitAll (s.loneActor w i) = (started s w i).updWarp w (fun x => x.unwait) :=
  unwaitAll_of_alone (alone_loneActor s w i) (by rw [warp_started, Warp.exited_issued]; exact not_exited_of_ready hr)

/-- The members left are the warp alone. -/
theorem liveMembers_loneFault :
    (((started s w i).updWarp w (fun x => x.unwait)).liveMembers (s.loneActor w i)).map (fun m => m.w) = [w] := by
  rw [liveMembers_of_alone (alone_loneActor s w i), members_of_alone (alone_loneActor s w i)]
  rw [State.warp_updWarp_same, warp_started]
  exact (Warp.exited_issued _ _).trans (not_exited_of_ready hr)

/-- What neither the issue, the end of a wait nor a suspension changes of a warp. -/
theorem keeps_loneFault {γ : Type} (p : Warp → γ) (hp : ∀ x u, p { x with susp := u } = p x)
    (hu : ∀ x : Warp, p x.unwait = p x) (v : Nat) : p ((loneFault s w i f).warp v) = p ((started s w i).warp v) := by
  rw [loneFault, unwaitAll_loneActor i hr, State.keeps_takeException _ _ _ _ _ p hp]
  by_cases h : v = w
  · subst h
    rw [State.warp_updWarp_same, hu]
  · rw [State.warp_updWarp_other _ _ h]

theorem susp_loneFault (ha : f.async = false) (hrep : f.replay = false) :
    ((loneFault s w i f).warp w).susp =
      some ⟨f.cause, 0, [w], f.op, f.matrix, false, s.recordNo (s.partOf w)⟩ := by
  obtain ⟨hf, hb⟩ := scope_loneActor s w i
  have hlead := (alone_loneActor s w i).2.1
  have hm := liveMembers_loneFault i hr
  obtain ⟨m, hm', he⟩ := List.mem_map.1 (hm ▸ List.mem_singleton.2 rfl : w ∈ _)
  have h := State.susp_takeException ((started s w i).updWarp w (fun x => x.unwait)) (s.loneActor w i) (s.warp w).pc f false hm'
  rw [he] at h
  rw [loneFault, unwaitAll_loneActor i hr, h, State.suspOf, hm, flagBits_narrow f hf hb ha hrep, hlead]
  have hb : (((started s w i).updWarp w (fun x => x.unwait)).warp w).blk = (s.warp w).blk := by
    rw [State.warp_updWarp_same, warp_started]
    exact Warp.issued_blk _ _
  have hp : ((started s w i).updWarp w (fun x => x.unwait)).partOf w = s.partOf w := by
    rw [State.partOf, State.blockOf, hb]
    rfl
  rw [hp]
  rfl

theorem find_loneFault_other {v : Nat} (h : v ≠ w) : (loneFault s w i f).warps.find v = s.warps.find v := by
  rw [loneFault, unwaitAll_loneActor i hr, State.find_takeException_other _ _ _ _ _
    (by rw [liveMembers_loneFault i hr]; simpa using h)]
  exact (AMap.find_put_other _ _ h).trans (find_started_other i h)

theorem blocks_loneFault : (loneFault s w i f).blocks = s.blocks := by
  rw [loneFault, unwaitAll_loneActor i hr, State.takeException_recordsOf]
  rfl

end

/-- Settles O8: a failed check is settled as a precise fault of the warp alone. -/
theorem checkFaults : Obligations.CheckFaults := by
  unfold Obligations.CheckFaults
  intro s w i c hw hf hr hp
  obtain ⟨gate, op, hx⟩ := exec_word i hw
  rw [hx, issueWith_cause hf hr hp]
  refine ⟨fun room => ⟨loneFault s w i (FaultInfo.of c 0), ?_, ?_, ?_, ?_, ?_, ?_, ?_, ?_, ?_, ?_, ?_, rfl⟩, fun room => ?_⟩
  · rw [Res.cause, settle_lone hr room]
    rfl
  · exact susp_loneFault i _ hr rfl rfl
  · rw [loneFault, unwaitAll_loneActor i hr, State.keeps_takeException _ _ _ _ _ Warp.wait (fun _ _ => rfl),
      State.warp_updWarp_same]
    rfl
  · rw [keeps_loneFault i _ hr Warp.pc (fun _ _ => rfl) (fun _ => rfl), warp_started, Warp.issued_pc]
  · rw [keeps_loneFault i _ hr Warp.v (fun _ _ => rfl) (fun _ => rfl), warp_started, Warp.issued_v]
  · rw [keeps_loneFault i _ hr Warp.s (fun _ _ => rfl) (fun _ => rfl), warp_started, Warp.issued_s]
  · rw [keeps_loneFault i _ hr Warp.p (fun _ _ => rfl) (fun _ => rfl), warp_started, Warp.issued_p]
  · rw [keeps_loneFault i _ hr Warp.active (fun _ _ => rfl) (fun _ => rfl), warp_started, Warp.issued_active]
  · exact blocks_loneFault i _ hr
  · exact flagBits_narrow _ (scope_loneActor s w i).1 (scope_loneActor s w i).2 rfl rfl
  · obtain ⟨h1, h2⟩ := scope_loneActor s w i
    simp [State.recordOf, h1, h2, FaultInfo.of]
  · rw [Res.cause, settle_noRoom]
    · rfl
    · rw [(alone_loneActor s w i).2.1]
      simpa [Room] using room

/-- Settles O9: the conditions of issue in order, and the poison of a source behind them. -/
theorem issueConditions : Obligations.IssueConditions := by
  unfold Obligations.IssueConditions
  refine ⟨fun s i hw => ?_, fun s w i hw hs hl hst hpf hpo => ?_⟩
  · obtain ⟨gate, op, hx⟩ := exec_word i hw
    rw [hx]
    refine ⟨fun hf => issueWith_noWarp hf, fun w hf he hr => issueWith_notReady hf he hr, fun w hs hsc hsel => ?_⟩
    have he : ((started s w i).warp w).exited = false := by
      rw [warp_started, Warp.exited_issued]
      exact not_exited_of_ready hs.2.1
    rw [issueWith_narrow hs (by rw [hsc]; decide) (by rw [hsc]; decide), if_pos ⟨hsc, hsel⟩, settle_past he, finished_id]
    rfl
  · obtain ⟨gate, op, hx⟩ := exec_word i hw
    have he : ((started s w i).warp w).exited = false := by
      rw [warp_started, Warp.exited_issued]
      exact not_exited_of_ready hs.2.1
    have hreg : (started s w i).registerPoison (s.selfActor w i) i = (started s w i).updWarp w (fun x =>
        x.trapDue (if poisonAgent i = 1 then 0x4C else 0x44) (poisonAgent i) (s.warp w).pc (recordWord i)) := by
      rw [State.registerPoison, liveMembers_of_alone (alone_selfActor s w i) he]
      simp [State.selfActor]
    have hg : guarded i op (s.selfActor w i) (started s w i) = .ok ((started s w i).updWarp w (fun x =>
        x.trapDue (if poisonAgent i = 1 then 0x4C else 0x44) (poisonAgent i) (s.warp w).pc (recordWord i))) := by
      rw [guarded, hpo, hst, hpf, hreg]
      rfl
    rw [hx, issueWith_narrow hs (by rw [hl]; decide) (by rw [hl]; decide), if_neg (by rw [hl]; simp), hg,
      settle_past (by rw [State.warp_updWarp_same, warp_started]; exact (Warp.exited_issued _ _).trans (not_exited_of_ready hs.2.1)),
      started_updWarp, finished, started_updWarp, ← Warp.issued_pc (s.warp w) i]
    rfl

end Sys2Proof.Machine
end

section
/-! PROOF. What a step runs: the turns of the focus's core, the events of the agenda, and what a core ahead of its partition's
string clock waits for (01 R14, 07 R158, 20 R351, 21 R359). -/

namespace Sys2Proof.Machine

/-! What a fetch changes: the translations that its core holds. -/

/-- `t` is `s` but for what the cores hold. -/
def State.coresOf (s t : State) : Prop := t = { s with cores := t.cores }

theorem State.setCore_coresOf (s : State) (c : Nat) (x : Core) : s.coresOf (s.setCore c x) := rfl

theorem State.fillTlb_cases (s : State) (core part k : Nat) (a : DWord) :
    s.fillTlb core part k a = s ∨ ∃ l, s.fillTlb core part k a = s.setCore core { s.core core with tlb := l } := by
  unfold State.fillTlb
  dsimp only
  split
  · exact .inl rfl
  · exact .inr ⟨_, rfl⟩

theorem State.afterFetch_cases (s : State) (w : Nat) :
    s.afterFetch w = s ∨ ∃ l, s.afterFetch w = s.setCore (s.warp w).core { s.core (s.warp w).core with tlb := l } := by
  unfold State.afterFetch
  dsimp only
  split
  · exact .inl rfl
  · exact s.fillTlb_cases _ _ _ _

theorem State.afterFetch_coresOf (s : State) (w : Nat) : s.coresOf (s.afterFetch w) := by
  rcases s.afterFetch_cases w with h | ⟨l, h⟩ <;> rw [h]
  · rfl
  · exact s.setCore_coresOf _ _

theorem State.turn_afterFetch (s : State) (w core : Nat) : ((s.afterFetch w).core core).turn = (s.core core).turn := by
  rcases s.afterFetch_cases w with h | ⟨l, h⟩ <;> rw [h]
  by_cases e : core = (s.warp w).core
  · subst e
    rw [State.core_setCore_same]
  · rw [State.core_setCore_other _ _ e]

/-! The end of a clock. -/

@[simp] theorem Core.turn_enterThrottle (c : Core) : c.enterThrottle.turn = c.turn := by
  unfold Core.enterThrottle; split <;> rfl
@[simp] theorem Core.clock_enterThrottle (c : Core) : c.enterThrottle.clock = c.clock := by
  unfold Core.enterThrottle; split <;> rfl

theorem Core.turn_endClock (c : Core) (p : Part) : (c.endClock p).turn = 0 := by
  unfold Core.endClock
  dsimp only
  split
  · rw [Core.turn_enterThrottle]; rfl
  · split <;> rfl

theorem Core.clock_endClock (c : Core) (p : Part) : (c.endClock p).clock = (c.clock + 1) % 2 ^ 64 := by
  unfold Core.endClock
  dsimp only
  split
  · rw [Core.clock_enterThrottle]; rfl
  · split <;> rfl

theorem State.trapBlock_recordsOf (s : State) (u : Nat) (c : Cause) : s.recordsOf (s.trapBlock u c) := by
  unfold State.trapBlock
  dsimp only
  split
  · rfl
  · exact State.takeException_recordsOf ..

/-- A block that is cancelled leaves what its core keeps in mind, but for the halt of issue. -/
theorem State.core_killBlock {γ : Type} (s : State) (u k : Nat) (p : Core → γ) (hp : ∀ c b, p { c with recWait := b } = p c) :
    p ((s.killBlock u).core k) = p (s.core k) := by
  unfold State.killBlock
  dsimp only
  split
  · have h := (s.updBlock u (fun b => { b with killReq := false })).trapBlock_recordsOf u cCancelled
    rw [h]
    rfl
  · by_cases e : k = (s.block u).core
    · subst e
      rw [State.updCore, State.core_setCore_same, hp]
      rfl
    · rw [State.updCore, State.core_setCore_other _ _ e]
      rfl

theorem State.core_killPending {γ : Type} (s : State) (core k : Nat) (p : Core → γ)
    (hp : ∀ c b, p { c with recWait := b } = p c) : p ((s.killPending core).core k) = p (s.core k) := by
  unfold State.killPending
  induction s.blocks.keysWhere (fun _ b => b.core = core && b.killReq) generalizing s with
  | nil => rfl
  | cons u us ih => rw [List.foldl_cons, ih, s.core_killBlock u k p hp]

theorem State.clockTick_ends (s : State) (core : Nat) (h : (s.core core).gated = false) :
    ((s.clockTick core).core core).turn = 0 ∧
      ((s.clockTick core).core core).clock = ((s.core core).clock + 1) % 2 ^ 64 := by
  simp only [State.clockTick, h, Bool.false_eq_true, if_false]
  rw [State.core_killPending _ _ _ Core.turn (fun _ _ => rfl), State.core_killPending _ _ _ Core.clock (fun _ _ => rfl),
    State.core_setCore_same]
  exact ⟨Core.turn_endClock _ _, Core.clock_endClock _ _⟩

/-! Which turn a step takes. -/

section
variable {s : State} {core : Nat}

theorem step_event {i : Instr} {rest : List Move} (h : s.agenda = .event i :: rest) (hi : i.isWord = false) :
    step s = exec i { s with agenda := rest } := by
  simp [step, h, stepMove, hi]

theorem step_turn {rest : List Move} (h : s.agenda = .turn core :: rest) (hg : (s.core core).gated = false) :
    step s = if s.abreast core then stepTurn core { s with agenda := rest } else .next { s with agenda := rest } := by
  have hg' : (({ s with agenda := rest } : State).core core).gated = false := hg
  have ha : ({ s with agenda := rest } : State).abreast core = s.abreast core := rfl
  simp only [step, h, stepMove, hg', ha]
  cases s.abreast core <;> rfl

/-- With no move on the agenda the focus's core goes on, or what it waits for comes. -/
theorem step_focus {v : Nat} (ha : s.agenda = []) (hf : s.focus = some v) (hv : (s.warps.find v).isSome = true)
    (hg : (s.core (s.warp v).core).gated = false) :
    step s = if s.abreast (s.warp v).core then stepTurn (s.warp v).core s
      else (stepBehind (s.warp v).core s).getD (.next { s with timeNs := (s.timeNs + 1) % 2 ^ 64 }) := by
  have hn : (s.warps.find v).isNone = false := by simpa [Option.isSome_iff_ne_none] using hv
  simp [step, ha, stepFocus, hf, hn, hg]

theorem stepTurn_warp {w : Nat} (h : s.nextTurn core = .slot (.warp w)) :
    stepTurn core s = runWarp w { s.endTurn core with focus := some w } := by
  simp [stepTurn, h]

theorem runWarp_next {w : Nat} {z t : State} {i : Instr} (hd : z.decodeAt w = .ok i)
    (h : exec i (z.afterFetch w) = .next t) : runWarp w z = .next t := by
  simp [runWarp, hd, h]

theorem runWarp_notReady {w : Nat} {z : State} {i : Instr} (hd : z.decodeAt w = .ok i)
    (h : exec i (z.afterFetch w) = .fault .notReady) : runWarp w z = .next (z.stall (z.warp w).core) := by
  simp [runWarp, hd, h]

/-- The end of a clock is due once the four quarters have had their slots. -/
theorem nextTurn_clock (h : 4 ≤ (s.core core).turn) : s.nextTurn core = .clock := by
  simp [State.nextTurn, h]

/-- A quarter with one warp ready, none overdue, no rendezvous due and no deficit picks that warp. -/
theorem selection_single {q w : Nat} (hg : (s.core core).gated = false) (hst : s.stopped core = false)
    (hsl : s.stalled core (s.partOfCore core) = false) (hb : (s.core core).heldBack = false)
    (hr : s.readyWarps core q = [w]) (ha : (s.warp w).age < 256) (hi : s.instDue core q = none)
    (hd : s.deficit core q = false) : s.selection core q = .warp w := by
  have none_overdue : s.overriding [w] = none := by
    simp [State.overriding, Nat.not_le.2 ha]
  simp only [State.selection, hg, hst, hsl, hb, hr, none_overdue, hi, hd, State.nearest, List.foldl_cons, List.foldl_nil,
    Bool.or_self, Bool.false_and, Bool.false_eq_true, if_false]

end

/-- Settles O3: the turns of a step, each by what the core's next turn is. -/
theorem stepRunsDecoded : Obligations.StepRunsDecoded := by
  unfold Obligations.StepRunsDecoded
  refine ⟨fun s v ha hf hv hg hab => ?_, ?_, fun s i rest h hi => step_event h hi, fun s core rest h hg => ?_,
    fun s v ha hf hv => ?_⟩
  · intro core
    have hstep : step s = stepTurn core s := by rw [step_focus ha hf hv hg, if_pos hab]
    rw [hstep]
    refine ⟨fun w i ht => ?_, fun h4 => ?_, fun w ht => ?_, fun w ht => ?_, fun b e t ht hx => ?_, fun t ht hx => ?_,
      fun ht => ?_⟩
    · intro z hd
      have frame := z.afterFetch_coresOf w
      rw [stepTurn_warp ht]
      refine ⟨fun t => runWarp_next hd, runWarp_notReady hd, ?_, ?_, ?_, ?_, ?_⟩
      · rw [frame]; rfl
      · rw [frame]; rfl
      · rw [frame]; rfl
      · rw [frame]; rfl
      · rw [z.turn_afterFetch w core]
        exact congrArg Core.turn (State.core_setCore_same s core _)
    · exact ⟨by simp only [stepTurn, nextTurn_clock h4], s.clockTick_ends core hg⟩
    · simp only [stepTurn, ht]
    · simp only [stepTurn, ht]
    · simp only [stepTurn, ht, hx]
    · simp only [stepTurn, ht, hx]
    · simp only [stepTurn, ht]
  · intro s core q w hg hst hsl hb hr hage hi hd
    exact selection_single hg hst hsl hb hr hage hi hd
  · exact ⟨fun h' => by rw [step_turn h hg, if_pos h'], fun h' => by rw [step_turn h hg, if_neg (by simp [h'])]⟩
  · intro core hg hab
    have hstep : step s = (stepBehind core s).getD (.next { s with timeNs := (s.timeNs + 1) % 2 ^ 64 }) := by
      rw [step_focus ha hf hv hg, if_neg (by simp [core, hab])]
    rw [hstep]
    refine ⟨fun hdue t ht => ?_, fun hdue c rest hc => ?_⟩
    · simp [stepBehind, hdue, ht]
    · simp [stepBehind, hdue, hc]

end Sys2Proof.Machine
end

section
/-! PROOF. Instructions performed lane by lane: which effect each word of INT, FP, DW and CVT has, what its lanes read, and how it
completes or traps (08 R168 to R182, 09 R186 to R204, 03 R82, R83). -/

namespace Sys2Proof.Machine

/-! The effect of each word, by its form (04 R102, R104, R105). -/

/-- A form of INT or FP has the effect of its 64-bit expansion. -/
theorem exec_expand {i : Instr} {mj fn : Nat} {h : Hdr} {u : Upper} (he : (form i).expand = some (mj, fn, h, u))
    (hm : mj = 2 ∨ mj = 3) (s : State) : exec i s = issue i (opTarget mj fn h u) s := by
  cases i
  case movS16 f =>
    obtain ⟨im, a, b⟩ := f
    cases im <;> (cases he; rfl)
  all_goals rcases hm with rfl | rfl
  all_goals cases he
  all_goals rfl

/-- The remaining register instructions are performed lane by lane by what their lanes give. -/
theorem exec_laneMeaning {i : Instr} {g : Nat} {m : Actor → State → Warp → Nat → LaneOut}
    (h : laneMeaning i = some (g, m)) :
    ∃ mark detail, ∀ s, exec i s = issue i (fun a s => lanewise a s g mark detail (m a s)) s := by
  unfold laneMeaning at h
  split at h
  all_goals cases h
  all_goals exact ⟨_, _, fun _ => rfl⟩

/-- So is a repeat of one. -/
theorem opTarget_meaning {p : Stepped} {g : Nat} {m : Actor → State → Warp → Nat → LaneOut}
    (h : repeatMeaning p = some (g, m)) (f : RepForm) (t : Instr) (a : Actor) (s : State)
    (hp : stepTarget f (form t) (s.warp a.lead).repi = some p) :
    ∃ mark detail, opRep f t a s = lanewise a s g mark detail (m a s) := by
  unfold opRep
  rw [hp]
  unfold repeatMeaning at h
  split at h
  all_goals cases h
  all_goals exact ⟨_, _, rfl⟩

/-! What a lane reads is the same before the issue and after it. -/

/-- A lane's function that the issue does not change. -/
def Blind (f : Warp → Nat → LaneOut) : Prop := ∀ (x : Warp) (i : Instr) (l : Nat), f (x.issued i) l = f x l

section
variable (a : Actor) (s : State) (h : Hdr) (u : Upper)

theorem blind_intLane (fn : Nat) (g : IntArgs → IntVal) : Blind (intLane fn g h u a s) := by
  intro x i l
  cases u <;> simp [intLane, intArgs]

theorem blind_fpLane (fn : Nat) (g : FpArgs → FpVal) : Blind (fpLane fn g h u a s) := by
  intro x i l
  cases u <;> simp [fpLane, fpArgs]

theorem dwPart_issued (f : Fmt) (wide : Bool) (c : Ctx) (x : Warp) (i : Instr) (slot : Nat) (uni : Bool) (r : BitVec 8)
    (lo neg : Bool) (l : Nat) : dwPart f wide c (x.issued i) slot uni r lo neg l = dwPart f wide c x slot uni r lo neg l := by
  simp [dwPart]

theorem blind_dwLane (g : Fmt → Word → Num → Num → Num → Num → Nat × Nat × FlagSet) : Blind (dwLane g h u a s) := by
  intro x i l
  cases u <;> simp [dwLane, dwPart_issued]

theorem blind_dwcvtLane : Blind (dwcvtLane h u a s) := by
  intro x i l
  cases u <;> simp [dwcvtLane, dwPart_issued]

theorem blind_cvtLane : Blind (cvtLane h u a s) := by
  intro x i l
  cases u <;> simp [cvtLane]

theorem groupElem_issued (x : Warp) (i : Instr) (k : Nat) (w : BitVec 2) (r l j : Nat) :
    groupElem (x.issued i) k w r l j = groupElem x k w r l j := by
  simp [groupElem]

theorem blockValues_issued (x : Warp) (i : Instr) (k : Nat) (m : Mask) (f : XForm) (b : Nat) :
    blockValues (x.issued i) k m h f b = blockValues x k m h f b := by
  simp [blockValues, groupElem_issued]

theorem blind_qblkLane : Blind (qblkLane h u a s) := by
  intro x i l
  cases u <;> simp [qblkLane, groupElem_issued, blockValues_issued]

theorem blind_dqLane : Blind (dqLane h u a s) := by
  intro x i l
  cases u <;> simp [dqLane]

theorem blind_packhLane : Blind (packhLane h u a s) := by
  intro x i l
  cases u <;> simp [packhLane]

theorem blind_unpackhLane : Blind (unpackhLane h u a s) := by
  intro x i l
  cases u <;> simp [unpackhLane]

theorem blind_movhiLane (f : IForm) : Blind (movhiLane f s) := by
  intro x i l
  simp [movhiLane]

end

theorem blind_laneMeaning {i : Instr} {g : Nat} {m : Actor → State → Warp → Nat → LaneOut}
    (h : laneMeaning i = some (g, m)) (a : Actor) (s : State) : Blind (m a s) := by
  unfold laneMeaning at h
  split at h <;> cases h
  case h_1 => exact blind_dwLane _ _ _ _ _
  case h_2 => exact blind_dwLane _ _ _ _ _
  case h_3 => exact blind_dwLane _ _ _ _ _
  case h_4 => exact blind_dwLane _ _ _ _ _
  case h_5 => exact blind_dwcvtLane _ _ _ _
  case h_6 => exact blind_cvtLane _ _ _ _
  case h_7 => exact blind_qblkLane _ _ _ _
  case h_8 => exact blind_dqLane _ _ _ _
  case h_9 => exact blind_packhLane _ _ _ _
  case h_10 => exact blind_unpackhLane _ _ _ _
  case h_11 => exact blind_movhiLane _ _
  case h_12 => exact fun _ _ _ => rfl

theorem blind_repeatMeaning {p : Stepped} {g : Nat} {m : Actor → State → Warp → Nat → LaneOut}
    (h : repeatMeaning p = some (g, m)) (a : Actor) (s : State) : Blind (m a s) := by
  unfold repeatMeaning at h
  split at h
  case h_1 => cases h; exact blind_intLane _ _ _ _ _ _
  case h_2 => cases h; exact blind_fpLane _ _ _ _ _ _
  case h_14 => cases h
  all_goals exact blind_laneMeaning h a s

/-! Completion and traps of an instruction performed lane by lane. -/

section
variable {i : Instr} {s : State} {w : Nat} {op : Actor → State → Res} {group : Nat} {mark : Cause} {detail : Nat}
  {f : Warp → Nat → LaneOut}

/-- What the lanes raise, for the trap that may follow. -/
def lanesRaised (s : State) (w : Nat) (i : Instr) (f : Nat → LaneOut) : List (Nat × FlagSet × Bool) :=
  (lanesDone s w i).map (fun l => (l, (f l).flags, (f l).mark))

/-- The lanes' results as `lanewise` collects them. -/
theorem lanewiseOuts_started (hf : Blind f) : lanewiseOuts (s.selfActor w i) (started s w i) f =
    (lanesDone s w i).map (fun l => (l, f (s.warp w) l)) := by
  have same : ∀ l, f ((s.warp w).issued i) l = f (s.warp w) l := hf _ i
  unfold lanewiseOuts lanesDone
  rw [State.selfActor_lead, warp_started]
  simp only [same]
  by_cases h : scopeOfInstr i = .warp <;> simp [h, State.selfActor]

theorem lanewiseOuts_map (hf : Blind f) :
    (lanewiseOuts (s.selfActor w i) (started s w i) f).map (fun o => (o.1, o.2.flags, o.2.mark)) =
      lanesRaised s w i (f (s.warp w)) := by
  rw [lanewiseOuts_started hf, List.map_map]
  rfl

theorem outFlags_started (hf : Blind f) : outFlags (lanewiseOuts (s.selfActor w i) (started s w i) f) =
    flagsDone s w i (f (s.warp w)) := by
  rw [lanewiseOuts_started hf, outFlags, flagsDone, List.foldl_map]

/-- Without an enabled flag and without a mark no trap follows. -/
theorem trapOf_none {trapen : Word} {outs : List (Nat × FlagSet × Bool)} {whole : Option Mask}
    (he : enabledFlags trapen group (outs.foldl (fun g o => g ||| o.2.1) 0) = 0)
    (hm : outs.any (fun o => o.2.2) = false) : trapOf trapen group outs mark detail whole = none := by
  simp only [trapOf, he, hm]
  split <;> rfl

/-- The warp with the lanes' results and flags. -/
def lanesWritten (s : State) (w : Nat) (i : Instr) (f : Nat → LaneOut) (x : Warp) : Warp :=
  ((lanesDone s w i).foldl (fun y l => y.writeLane (scopeOfInstr i == .warp) l (f l).writes) x).raise (flagsDone s w i f)

/-- The effect of an instruction performed lane by lane: the results and flags, then the trap if one follows. -/
theorem lanewise_started (hf : Blind f) : lanewise (s.selfActor w i) (started s w i) group mark detail f =
    match trapOf (s.warp w).trapen group (lanesRaised s w i (f (s.warp w))) mark detail
      (if scopeOfInstr i == .warp then some ((s.warp w).selected i) else none) with
    | some t => .trap ((started s w i).updWarp w (lanesWritten s w i (f (s.warp w)))) t
    | none => .ok ((started s w i).updWarp w (lanesWritten s w i (f (s.warp w)))) := by
  have houts := lanewiseOuts_started (s := s) (w := w) (i := i) hf
  unfold lanewiseOuts at houts
  unfold lanewise
  dsimp only
  rw [houts, started_updWarp, State.selfActor_lead, warp_started, Warp.issued_trapen]
  simp only [List.map_map, List.foldl_map, Function.comp_def]
  rfl

theorem live_lanesWritten (g : Nat → LaneOut) (x : Warp) : (lanesWritten s w i g x).live = x.live := by
  rw [lanesWritten, Warp.raise_live, Warp.regsOf_lanes]

theorem p_lanesWritten (g : Nat → LaneOut) (x : Warp) : (lanesWritten s w i g x).p = x.p := by
  rw [lanesWritten, Warp.raise_p, Warp.regsOf_lanes]

/-- An instruction performed lane by lane that meets no trap completes, and the predicates are kept. -/
theorem lanes_complete (h : Solo s w i)
    (ho : op (s.selfActor w i) (started s w i) = lanewise (s.selfActor w i) (started s w i) group mark detail f)
    (hf : Blind f) (he : enabledFlags (s.warp w).trapen group (flagsDone s w i (f (s.warp w))) = 0)
    (hm : ∀ l ∈ lanesDone s w i, (f (s.warp w) l).mark = false) :
    ∃ t, issue i op s = .next t ∧ RegistersOnly s t w i (fun l => (f (s.warp w) l).writes) ∧
      (t.warp w).sticky = (s.warp w).sticky ||| (flagsDone s w i (f (s.warp w))).zeroExtend 32 ∧
      (t.warp w).p = (s.warp w).p ∧ Written (s.warp w) (t.warp w) i (fun l => (f (s.warp w) l).writes) := by
  have ht : ∀ whole, trapOf (s.warp w).trapen group
      ((lanewiseOuts (s.selfActor w i) (started s w i) f).map (fun o => (o.1, o.2.flags, o.2.mark))) mark detail
      whole = none := by
    intro whole
    rw [lanewiseOuts_started hf]
    refine trapOf_none ?_ ?_
    · simpa only [List.foldl_map, flagsDone] using he
    · simpa [List.any_eq_false] using hm
  obtain ⟨t, hx, frame, hw, hs⟩ := issue_lanewise h ho ht
  rw [outFlags_started hf] at hs
  have same : ∀ l, f ((s.warp w).issued i) l = f (s.warp w) l := hf _ i
  simp only [same] at frame hw
  refine ⟨t, hx, frame, hs, ?_, hw⟩
  have hnone := ho.trans (lanewise_started hf)
  rw [← lanewiseOuts_map hf, ht, started_updWarp] at hnone
  obtain rfl := Host.Outcome.next.inj (hx.symm.trans (issue_setWarp h hnone ((live_lanesWritten _ _).trans (Warp.issued_live _ _))))
  rw [State.warp_setWarp_same, Warp.advance_p, Warp.countDither_p, Warp.unwait_p, p_lanesWritten, Warp.issued_p]

end

end Sys2Proof.Machine
end

section
/-! PROOF. INT, DW, CVT and their traps on completion (08 R168 to R175, 09 R187 to R204, 03 R82, R83). -/

namespace Sys2Proof.Machine

section
variable {s : State} {w : Nat} {i : Instr}

/-- INT raises no flag. -/
theorem flagsDone_int (fn : Nat) (g : IntArgs → IntVal) (h : Hdr) (u : Upper) (a : Actor) (z : State) (x : Warp) :
    flagsDone s w i (intLane fn g h u a z x) = 0 := by
  unfold flagsDone
  induction lanesDone s w i with
  | nil => rfl
  | cons l ls ih => exact (congrArg (fun g => ls.foldl _ g) (BitVec.or_zero : (0 : FlagSet) ||| 0 = 0)).trans ih

theorem Warp.raise_zero (x : Warp) : x.raise 0 = x := by
  simp [Warp.raise]

end

/-- Settles O10: INT is performed lane by lane, and raises nothing. -/
theorem intResults : Obligations.IntResults := by
  unfold Obligations.IntResults
  intro s w i fn h u hf hs hm f
  obtain ⟨t, hx, frame, hst, hp, hw⟩ := lanes_complete (op := opTarget 2 fn h u) (group := 0) hs rfl
    (blind_intLane (s.selfActor w i) (started s w i) h u fn (intFn fn u))
    (by rw [flagsDone_int]; exact BitVec.zero_and) hm
  refine ⟨t, (exec_expand hf (.inl rfl) s).trans hx, frame, ?_, hp, hw⟩
  rw [hst, flagsDone_int]
  exact BitVec.or_zero

/-- Settles O15: each of these is performed lane by lane by what its lanes give. -/
theorem laneResults : Obligations.LaneResults := by
  unfold Obligations.LaneResults
  intro s w i g m hl hs f he hm
  obtain ⟨mark, detail, hx⟩ := exec_laneMeaning hl
  rw [hx]
  exact lanes_complete hs rfl (blind_laneMeaning hl _ _) he hm

section
variable {s : State} {w : Nat} {i : Instr} {op : Actor → State → Res} {group : Nat} {mark : Cause} {detail : Nat}
  {f : Warp → Nat → LaneOut}

/-- The lanes that raised or marked, as a mask. -/
theorem maskOf_raised (f : Nat → LaneOut) (p : FlagSet × Bool → Bool) :
    maskOf (((lanesRaised s w i f).filter (fun o => p o.2)).map (fun o => o.1)) =
      maskOf ((lanesDone s w i).filter (fun l => p ((f l).flags, (f l).mark))) := by
  rw [lanesRaised, List.filter_map, List.map_map]
  congr 1
  exact List.map_id _

theorem foldl_lanesRaised (f : Nat → LaneOut) :
    (lanesRaised s w i f).foldl (fun g o => g ||| o.2.1) (0 : FlagSet) = flagsDone s w i f := by
  rw [lanesRaised, List.foldl_map, flagsDone]

/-- TRAPEN enables nothing where it is 0. -/
theorem enabledFlags_zero (g : Nat) (e : FlagSet) : enabledFlags 0 g e = 0 := by
  simp [enabledFlags]

/-- An enabled flag traps, the lowest of those raised (03 R83). -/
theorem trapOf_flag {f : Nat → LaneOut} {trapen : Word} (he : enabledFlags trapen group (flagsDone s w i f) ≠ 0) :
    trapOf trapen group (lanesRaised s w i f) mark detail none = some
      { FaultInfo.of (BitVec.ofNat 8 (0x20 + 6 * group + lowestFlag (enabledFlags trapen group (flagsDone s w i f)))) 0 with
        lanes := maskOf ((lanesDone s w i).filter (fun l =>
          (f l).flags.getLsbD (lowestFlag (enabledFlags trapen group (flagsDone s w i f))))) } := by
  have ht : trapen ≠ 0 := fun h => he (by rw [h, enabledFlags_zero])
  unfold trapOf
  dsimp only
  rw [foldl_lanesRaised, if_neg (by simpa using fun h : trapen = 0#32 => absurd h ht), if_pos (by simpa using he),
    maskOf_raised f (fun e => e.1.getLsbD (lowestFlag (enabledFlags trapen group (flagsDone s w i f))))]
  rfl

/-- Without one, a marked lane traps with the instruction's own cause (08 R175). -/
theorem trapOf_mark {f : Nat → LaneOut} {trapen : Word} (he : enabledFlags trapen group (flagsDone s w i f) = 0)
    (hm : ∃ l ∈ lanesDone s w i, (f l).mark = true) :
    trapOf trapen group (lanesRaised s w i f) mark detail none = some
      { FaultInfo.of mark detail with lanes := maskOf ((lanesDone s w i).filter (fun l => (f l).mark)) } := by
  obtain ⟨l, hl, hlm⟩ := hm
  have hany : (lanesRaised s w i f).any (fun o => o.2.2) = true :=
    List.any_eq_true.2 ⟨_, List.mem_map_of_mem hl, hlm⟩
  unfold trapOf
  dsimp only
  rw [foldl_lanesRaised, hany, he, if_neg (by simp), if_neg (by simp), if_pos rfl, maskOf_raised f (fun e => e.2)]
  rfl

/-- A trap on completion of an instruction performed lane by lane, at lane scope. -/
theorem lanes_trap {t : FaultInfo} (h : Solo s w i) (hr : Room s w) (hl : scopeOfInstr i = .lane)
    (ho : op (s.selfActor w i) (started s w i) = lanewise (s.selfActor w i) (started s w i) group mark detail f)
    (hf : Blind f)
    (ht : trapOf (s.warp w).trapen group (lanesRaised s w i (f (s.warp w))) mark detail none = some t) :
    issue i op s = .next (taken s w i t (finished s w i (lanesWritten s w i (f (s.warp w))))) := by
  have hlane : (scopeOfInstr i == .warp) = false := by rw [hl]; rfl
  have htrap := ho.trans (lanewise_started hf)
  rw [hlane, if_neg Bool.false_ne_true, ht] at htrap
  refine issue_trap h hr htrap ?_
  rw [State.warp_updWarp_same, warp_started, Warp.exited, live_lanesWritten, Warp.issued_live]
  exact not_exited_of_solo h

/-- The results at lane scope. -/
theorem lanesWritten_lane (g : Nat → LaneOut) (hl : scopeOfInstr i = .lane) :
    lanesWritten s w i g = fun x =>
      ((lanesDone s w i).foldl (fun y l => y.writeLane false l (g l).writes) x).raise (flagsDone s w i g) := by
  funext x
  rw [lanesWritten, hl]
  rfl

end

/-- Settles O13: the lowest enabled flag traps, and without one a marked lane. -/
theorem completionTraps : Obligations.CompletionTraps := by
  unfold Obligations.CompletionTraps
  intro s w i fn h u hs hr hl
  constructor
  · intro hx f en he
    rw [exec_expand hx (.inr rfl) s, lanes_trap (op := opTarget 3 fn h u) (group := fpGroup h.width) hs hr hl rfl
      (blind_fpLane (s.selfActor w i) (started s w i) h u fn (fpFn fn)) (trapOf_flag he), lanesWritten_lane _ hl]
  · intro hx f hm
    rw [exec_expand hx (.inl rfl) s, lanes_trap (op := opTarget 2 fn h u) (group := 0) hs hr hl rfl
      (blind_intLane (s.selfActor w i) (started s w i) h u fn (intFn fn u))
      (trapOf_mark (by rw [flagsDone_int]; exact BitVec.zero_and) hm), lanesWritten_lane _ hl]
    simp only [flagsDone_int, Warp.raise_zero]
    rfl

end Sys2Proof.Machine
end

section
/-! PROOF. Comparisons into predicates and special registers (06 R143, R146, R147, R150 to R152). -/

namespace Sys2Proof.Machine

section
variable {s : State} {w : Nat} {i : Instr} {op : Actor → State → Res} {f : Warp → Warp}

/-- An instruction that changes its warp by `f` and goes on past itself. -/
theorem issue_updWarp (h : Solo s w i) (ho : op (s.selfActor w i) (started s w i) = .ok ((started s w i).updWarp w f))
    (hl : (f ((s.warp w).issued i)).live = (s.warp w).live) : issue i op s = .next (finished s w i f) :=
  issue_finished h (ho.trans (by rw [started_updWarp])) (hl.trans (Warp.issued_live _ _).symm)

/-- The same for an effect that is given as the warp it leaves. -/
theorem issue_setWarp_eq {y : Warp} (h : Solo s w i)
    (ho : op (s.selfActor w i) (started s w i) = .ok ((started s w i).setWarp w y)) (hy : y = f ((s.warp w).issued i))
    (hl : y.live = (s.warp w).live) : issue i op s = .next (finished s w i f) := by
  subst hy
  exact issue_finished h ho (hl.trans (Warp.issued_live _ _).symm)

end

/-- What an instruction does to its warp is read at the issued warp. -/
theorem finished_congr {s : State} {w : Nat} {i : Instr} {f g : Warp → Warp}
    (h : f ((s.warp w).issued i) = g ((s.warp w).issued i)) : finished s w i f = finished s w i g := by
  rw [finished, finished, started_updWarp, started_updWarp, h]

/-! Comparisons. -/

section
variable {s : State} {w : Nat} {i : Instr} {g : Nat} {pd : BitVec 8} {f : Warp → Nat → Bool × FlagSet}

/-- The predicate that a comparison leaves. -/
def comparedP (s : State) (w : Nat) (i : Instr) (pd : BitVec 8) (f : Nat → Bool × FlagSet) (x : Warp) : Mask :=
  let set := maskOf ((lanesDone s w i).filter (fun l => (f l).1))
  if scopeOfInstr i = .warp then (if set = 0 then 0 else x.width) else withBits (x.readP pd.toNat) set (x.selected i)

/-- The lanes of a performer are those of its scope. -/
theorem lanes_selfActor (s : State) (w : Nat) (i : Instr) :
    (if (s.selfActor w i).scope == .warp then [0] else lanesOf (s.selfActor w i).self.sel) = lanesDone s w i := by
  unfold lanesDone
  by_cases h : scopeOfInstr i = .warp <;> simp [h, State.selfActor, Actor.self]

/-- Comparisons that raise no enabled flag write the predicate and the flags. -/
theorem predResult_started (hf : ∀ l, f ((s.warp w).issued i) l = f (s.warp w) l)
    (he : enabledFlags (s.warp w).trapen g ((lanesDone s w i).foldl (fun g l => g ||| (f (s.warp w) l).2) 0) = 0) :
    predResult pd g f (s.selfActor w i) (started s w i) = .ok ((started s w i).updWarp w (fun x =>
      (x.writeP pd.toNat (comparedP s w i pd (f (s.warp w)) x)).raise
        ((lanesDone s w i).foldl (fun g l => g ||| (f (s.warp w) l).2) 0))) := by
  unfold predResult
  dsimp only
  rw [State.selfActor_lead, warp_started, lanes_selfActor]
  simp only [hf, List.map_map, Function.comp_def, List.foldl_map, List.filter_map, List.map_id']
  rw [trapOf_none (by simpa only [List.foldl_map, Warp.issued_trapen] using he)
    (by simp [List.any_eq_false])]
  rw [started_updWarp, comparedP]
  simp only [State.selfActor_scope, beq_iff_eq, Actor.self, State.selfActor, Warp.selected_issued, List.headD_cons]

/-- A comparison of one warp. -/
theorem issue_compare {m : Actor → State → Warp → Nat → Bool × FlagSet} (hs : Solo s w i)
    (hf : ∀ x l, m (s.selfActor w i) (started s w i) (x.issued i) l = m (s.selfActor w i) (started s w i) x l)
    (he : enabledFlags (s.warp w).trapen g ((lanesDone s w i).foldl (fun g l =>
      g ||| (m (s.selfActor w i) (started s w i) (s.warp w) l).2) 0) = 0) :
    issue i (fun a s => predResult pd g (m a s) a s) s = .next (finished s w i (fun x =>
      (x.writeP pd.toNat (comparedP s w i pd (m (s.selfActor w i) (started s w i) (s.warp w)) x)).raise
        ((lanesDone s w i).foldl (fun g l => g ||| (m (s.selfActor w i) (started s w i) (s.warp w) l).2) 0))) :=
  issue_updWarp hs (predResult_started (hf _) he) (by simp)

/-- Settles O17: both compare their lanes and write one predicate. -/
theorem compareResults : Obligations.CompareResults := by
  unfold Obligations.CompareResults
  intro s w h u fp i c f flags set hs he
  cases fp with
  | false =>
    refine (issue_compare (pd := h.vd) (g := 0) (m := fun a s => icmppLane h u (ctxOf a s)) hs (fun x l => ?_) he).trans ?_
    · cases u <;> simp [icmppLane]
    · rfl
  | true =>
    refine (issue_compare (pd := h.vd) (g := fpGroup h.width) (m := fun a s => fcmppLane h u (ctxOf a s)) hs (fun x l => ?_)
      he).trans ?_
    · cases u <;> simp [fcmppLane]
    · rfl

end

/-! Special registers. -/

/-- What SRD of a special register latches in its warp (06 R152). -/
def latched (s : State) (n : Nat) (x : Warp) : Warp :=
  if n = 20 then { x with clockHi := w32 ((s.core x.core).clock / 2 ^ 32) }
  else if n = 22 then { x with timeHi := w32 (s.timeNs / 2 ^ 32) } else x

/-- The issue charges the core and leaves its clock. -/
theorem clock_started (s : State) (w : Nat) (i : Instr) (c : Nat) : ((started s w i).core c).clock = (s.core c).clock := by
  have h : (started s w i).core c = ((s.bump).chargeIssue w i).core c := rfl
  rw [h, State.chargeIssue]
  dsimp only
  by_cases e : c = (s.bump.warp w).core
  · subst e
    rw [State.updCore, State.core_setCore_same]
    rfl
  · rw [State.updCore, State.core_setCore_other _ _ e]
    rfl

theorem latch_started (s : State) (w : Nat) (i : Instr) (n : Nat) :
    (started s w i).latch w n = (started s w i).updWarp w (latched s n) := by
  unfold State.latch latched
  by_cases h : n = 20
  · simp only [h, if_true, clock_started]
  · by_cases h' : n = 22
    · simp only [h', if_true]
      rfl
    · simp only [h, h', if_false, started_updWarp_id]

section
variable {s : State} {w : Nat} {h : Hdr} {f : XForm}

theorem opSrd_started (hd : Hdr) : opSrd h (.x f) (s.selfActor w (.srd hd (.x f))) (started s w (.srd hd (.x f))) =
    if 42 ≤ f.vc.toNat then .fault (FaultInfo.of cSpecialIndex 0)
    else if (f.vc.toNat = 1 && hd.scope == .warp) = true then .fault (FaultInfo.of cSpecialIndex 1)
    else if ((s.warp w).selected (.srd hd (.x f)) == 0) = true then .ok (started s w (.srd hd (.x f)))
    else if (hd.scope == .warp) = true then
      .ok ((started s w (.srd hd (.x f))).updWarp w (fun x =>
        (latched s f.vc.toNat x).writeS h.vd.toNat ((started s w (.srd hd (.x f))).special w f.vc.toNat 0)))
    else .ok ((started s w (.srd hd (.x f))).updWarp w (fun x =>
        (lanesOf ((s.warp w).selected (.srd hd (.x f)))).foldl (fun y l =>
          y.writeV h.vd.toNat l ((started s w (.srd hd (.x f))).special w f.vc.toNat l)) (latched s f.vc.toNat x))) := by
  simp only [opSrd, State.selfActor_lead, latch_started, State.updWarp_updWarp]
  rfl

end

theorem live_latched (s : State) (n : Nat) (x : Warp) : (latched s n x).live = x.live := by
  unfold latched; split
  · rfl
  · split <;> rfl

theorem live_writeVs (ls : List Nat) (r : Nat) (v : Nat → Word) (x : Warp) :
    (ls.foldl (fun y l => y.writeV r l (v l)) x).live = x.live := by
  induction ls generalizing x with
  | nil => rfl
  | cons l ls ih => rw [List.foldl_cons, ih, Warp.writeV_live]

section
variable {s : State} {w : Nat} {hd : Hdr} {f : XForm}

theorem opSwr_started : opSwr (.x f) (s.selfActor w (.swr hd (.x f))) (started s w (.swr hd (.x f))) =
    if 42 ≤ f.vc.toNat then .fault (FaultInfo.of cSpecialIndex 0)
    else match ((s.warp w).issued (.swr hd (.x f))).writeSpecial f.vc.toNat
        ((s.warp w).readS ((started s w (.swr hd (.x f))).draw 0) f.va.toNat) with
      | none => .fault (FaultInfo.of cSpecialIndex 2)
      | some y => .ok ((started s w (.swr hd (.x f))).setWarp w y) := by
  simp only [opSwr, State.selfActor_lead, warp_started, Warp.readS_issued] <;> rfl

/-- A special register that SWR writes. -/
theorem exec_swr {g : Warp → Word → Warp} {n : Nat} (hs : Solo s w (.swr hd (.x f))) (hn : f.vc.toNat = n) (h42 : n < 42)
    (hg : ∀ (x : Warp) (v : Word), x.writeSpecial n v = some (g x v)) (hl : ∀ x v, (g x v).live = x.live) :
    exec (.swr hd (.x f)) s = .next (finished s w (.swr hd (.x f)) (fun x =>
      g x ((s.warp w).readS ((started s w (.swr hd (.x f))).draw 0) f.va.toNat))) := by
  refine issue_setWarp_eq (op := opSwr (.x f)) hs ?_ rfl ((hl _ _).trans (Warp.issued_live _ _))
  rw [opSwr_started, hn, if_neg (Nat.not_le.2 h42), hg]

theorem toNat_vc {n : Nat} (h : f.vc = BitVec.ofNat 8 n) (hn : n < 256) : f.vc.toNat = n := by
  rw [h, BitVec.toNat_ofNat, Nat.mod_eq_of_lt hn]

/-- SWR writes no other register. -/
theorem writeSpecial_none {x : Warp} {v : Word} (h : f.vc ∉ ([24, 25, 27, 28, 29, 39] : List (BitVec 8))) :
    x.writeSpecial f.vc.toNat v = none := by
  have hne : ∀ n, n < 256 → BitVec.ofNat 8 n ∈ ([24, 25, 27, 28, 29, 39] : List (BitVec 8)) → f.vc.toNat ≠ n := by
    intro n hn hm e
    exact h ((BitVec.eq_of_toNat_eq (by rw [e, BitVec.toNat_ofNat, Nat.mod_eq_of_lt hn]) : f.vc = BitVec.ofNat 8 n) ▸ hm)
  have h24 := hne 24 (by decide) (by decide)
  have h25 := hne 25 (by decide) (by decide)
  have h27 := hne 27 (by decide) (by decide)
  have h28 := hne 28 (by decide) (by decide)
  have h29 := hne 29 (by decide) (by decide)
  have h39 := hne 39 (by decide) (by decide)
  unfold Warp.writeSpecial
  split
  case h_7 => rfl
  all_goals contradiction

end

/-- Settles O30: each index of SRD and SWR by the branch of its check. -/
theorem specialRegisters : Obligations.SpecialRegisters := by
  unfold Obligations.SpecialRegisters
  refine ⟨fun s w h f => ?_, fun s w h f => ?_⟩
  · intro i n _ hs
    have ho : opSrd h (.x f) (s.selfActor w i) (started s w i) = _ := opSrd_started h
    have hx : exec i s = issue i (opSrd h (.x f)) s := rfl
    rw [hx]
    refine ⟨fun hn h1 hsel hsc => ?_, fun hn hsel hsc => ?_, fun hn hsel hsc => ?_, fun hn hr => ?_, fun hn hsc hr => ?_⟩
    · rw [if_neg (Nat.not_le.2 hn), if_neg (by simpa using h1), if_neg (by simpa using hsel), if_pos (by simp [hsc])] at ho
      exact issue_updWarp hs ho ((Warp.writeS_live _ _ _).trans ((live_latched _ _ _).trans (Warp.issued_live _ _)))
    · rw [if_neg (Nat.not_le.2 hn), if_neg (by simp [hsc]), if_neg (by simpa using hsel), if_neg (by simp [hsc])] at ho
      refine (issue_updWarp hs ho ((live_writeVs _ _ _ _).trans ((live_latched _ _ _).trans (Warp.issued_live _ _)))).trans ?_
      exact congrArg _ (finished_congr (by rw [Warp.selected_issued]; rfl))
    · rw [if_neg (Nat.not_le.2 hn), if_neg (by simp [hsc]), if_pos (by simpa using hsel)] at ho
      exact issue_nothing hs ho
    · exact issue_fault hs hr (ho.trans (if_pos hn))
    · exact issue_fault hs hr (ho.trans ((if_neg (by rw [show f.vc.toNat = 1 from hn]; decide)).trans (if_pos (by simp [hsc, show f.vc.toNat = 1 from hn]))))
  · intro i v hs
    refine ⟨fun hc => ?_, fun hc => ?_, fun hc => ?_, fun hc => ?_, fun hc => ?_, fun hc => ?_, fun hc hn hr => ?_, fun hn hr => ?_⟩
    · exact exec_swr hs (toNat_vc hc (by decide)) (by decide) (fun _ _ => rfl) (fun _ _ => rfl)
    · exact exec_swr hs (toNat_vc hc (by decide)) (by decide) (fun _ _ => rfl) (fun _ _ => rfl)
    · exact exec_swr hs (toNat_vc hc (by decide)) (by decide) (fun _ _ => rfl) (fun _ _ => rfl)
    · exact exec_swr hs (toNat_vc hc (by decide)) (by decide) (fun _ _ => rfl) (fun _ _ => rfl)
    · exact exec_swr hs (toNat_vc hc (by decide)) (by decide) (fun _ _ => rfl) (fun _ _ => rfl)
    · exact exec_swr hs (toNat_vc hc (by decide)) (by decide) (fun _ _ => rfl) (fun _ _ => rfl)
    · refine issue_fault (op := opSwr (.x f)) hs hr ?_
      rw [opSwr_started, if_neg (Nat.not_le.2 hn), writeSpecial_none hc]
      rfl
    · exact issue_fault (op := opSwr (.x f)) hs hr (opSwr_started.trans (if_pos hn))

end Sys2Proof.Machine
end

section
/-! PROOF. The cross-lane instructions of one warp (09 R190 to R198): each writes what the rule gives into the lanes of its scope,
as an instruction performed lane by lane does. -/

namespace Sys2Proof.Machine

/-! The lanes of one warp. -/

section
variable {s : State} {w : Nat} {i : Instr}

/-- The warp with the writes of the lanes of its scope. -/
def lanesPut (s : State) (w : Nat) (i : Instr) (f : Nat → List (Nat × Word)) (x : Warp) : Warp :=
  (lanesDone s w i).foldl (fun y l => y.writeLane (scopeOfInstr i == .warp) l (f l)) x

theorem lanesDone_ne_nil (hsel : (s.warp w).selected i ≠ 0) : lanesDone s w i ≠ [] := by
  unfold lanesDone
  split
  · exact List.cons_ne_nil _ _
  · exact fun h => hsel (lanesOf_eq_nil.1 h)

/-- The same flags of every lane are those flags. -/
theorem flagsDone_same (hsel : (s.warp w).selected i ≠ 0) (f : Nat → List (Nat × Word)) (g : FlagSet) :
    flagsDone s w i (fun l => ⟨f l, g, false⟩) = g := by
  have hor : ∀ (ls : List Nat) (e : FlagSet), e = g → ls.foldl (fun b _ => b ||| g) e = g := by
    intro ls
    induction ls with
    | nil => exact fun _ h => h
    | cons l ls ih => intro e h; exact ih _ (by subst h; exact BitVec.or_self)
  unfold flagsDone
  match h : lanesDone s w i with
  | [] => exact absurd h (lanesDone_ne_nil hsel)
  | l :: ls => exact hor ls _ (BitVec.zero_or)

/-- An instruction of one warp that writes `f l` in the lanes of its scope and raises flags, none of them enabled. -/
theorem lanes_put {op : Actor → State → Res} {g : Nat} {flags : FlagSet} {f : Nat → List (Nat × Word)} (h : Solo s w i)
    (hsel : (s.warp w).selected i ≠ 0) (he : enabledFlags (s.warp w).trapen g flags = 0)
    (ho : op (s.selfActor w i) (started s w i) =
      .ok ((started s w i).updWarp w (fun x => (lanesPut s w i f x).raise flags))) :
    ∃ t, issue i op s = .next t ∧ RegistersOnly s t w i f ∧ (t.warp w).p = (s.warp w).p ∧
      (t.warp w).sticky = (s.warp w).sticky ||| flags.zeroExtend 32 ∧ Written (s.warp w) (t.warp w) i f := by
  have hflags := flagsDone_same hsel f flags
  have hblind : Blind (fun _ l => ⟨f l, flags, false⟩) := fun _ _ _ => rfl
  have hnone : trapOf (s.warp w).trapen g (lanesRaised s w i (fun l => ⟨f l, flags, false⟩)) cIntegerOverflow 0
      (if scopeOfInstr i == .warp then some ((s.warp w).selected i) else none) = none := by
    refine trapOf_none ?_ ?_
    · rw [foldl_lanesRaised, hflags, he]
    · simp [lanesRaised, List.any_eq_false]
  have hlane : op (s.selfActor w i) (started s w i) =
      lanewise (s.selfActor w i) (started s w i) g cIntegerOverflow 0 (fun _ l => ⟨f l, flags, false⟩) := by
    rw [ho, lanewise_started hblind, hnone]
    refine congrArg (fun k => Res.ok ((started s w i).updWarp w k)) (funext fun x => ?_)
    rw [lanesWritten, hflags, lanesPut]
  obtain ⟨t, hx, frame, hst, hp, hw⟩ := lanes_complete h hlane hblind (by rw [hflags, he]) (fun _ _ => rfl)
  exact ⟨t, hx, frame, hp, by rw [hst, hflags], hw⟩

/-- A performer at warp scope does its operation once. -/
theorem lanesPut_warp (hs : scopeOfInstr i = .warp) (f : Nat → List (Nat × Word)) (x : Warp) :
    lanesPut s w i f x = x.writeLane true 0 (f 0) := by
  simp [lanesPut, lanesDone, hs]

theorem lanesPut_lane (hs : scopeOfInstr i = .lane) (f : Nat → List (Nat × Word)) (x : Warp) :
    lanesPut s w i f x = (lanesOf ((s.warp w).selected i)).foldl (fun y l => y.writeLane false l (f l)) x := by
  simp only [lanesPut, lanesDone, hs]
  rfl

theorem actorRank_self (z : State) (hf : scopeOfInstr i ≠ .flock) (hb : scopeOfInstr i ≠ .block) (v : Nat) :
    z.actorRank (s.selfActor w i) v = 0 := by
  simp [State.actorRank, hf, hb]

theorem rankWarp_self (z : State) (hf : scopeOfInstr i ≠ .flock) (hb : scopeOfInstr i ≠ .block) (r : Nat) :
    z.rankWarp (s.selfActor w i) r = w := by
  simp [State.rankWarp, hf, hb]

/-- The lanes that take part are the selected ones. -/
theorem selectedLanes_self (hf : scopeOfInstr i ≠ .flock) (hb : scopeOfInstr i ≠ .block) :
    (started s w i).selectedLanes (s.selfActor w i) = (lanesOf ((s.warp w).selected i)).map (fun l => (w, l, l)) := by
  unfold State.selectedLanes
  simp only [actorRank_self _ hf hb, Nat.zero_mul, Nat.zero_add]
  simp [State.selfActor]

/-- A lane's value in the concatenated lanes of one warp. -/
theorem laneValue_self (hf : scopeOfInstr i ≠ .flock) (hb : scopeOfInstr i ≠ .block) (wide : Bool) (r : BitVec 8) {l : Nat}
    (hl : l < 32) : (started s w i).laneValue (s.selfActor w i) wide r l =
      (s.warp w).value ((started s w i).draw 0) false wide r.toNat l := by
  rw [State.laneValue, rankWarp_self _ hf hb, warp_started, Warp.value_issued]
  rw [show l % Config.warpWidth = l from Nat.mod_eq_of_lt hl]

/-- Writes in lanes of one warp. -/
theorem writeLanes_self {α : Type} (es : List α) (hes : es ≠ []) (lane : α → Nat) (f : α → List (Nat × Word)) (z : State) :
    z.writeLanes (es.map (fun e => ⟨w, lane e, f e⟩)) =
      z.updWarp w (fun x => es.foldl (fun y e => y.writeLane false (lane e) (f e)) x) := by
  unfold State.writeLanes
  rw [List.foldl_map]
  induction es generalizing z with
  | nil => exact absurd rfl hes
  | cons e es ih =>
    cases es with
    | nil => rfl
    | cons e' es =>
      rw [List.foldl_cons, ih (List.cons_ne_nil _ _), State.updWarp_updWarp]
      rfl

/-- Writes in the selected lanes of one warp. -/
theorem writeLanes_selected (hsel : (s.warp w).selected i ≠ 0) (hl : scopeOfInstr i = .lane) (f : Nat → List (Nat × Word)) :
    (started s w i).writeLanes ((lanesOf ((s.warp w).selected i)).map (fun l => ⟨w, l, f l⟩)) =
      (started s w i).updWarp w (lanesPut s w i f) := by
  rw [writeLanes_self _ (fun h => hsel (lanesOf_eq_nil.1 h)) (fun l => l) f]
  exact congrArg _ (funext fun x => (lanesPut_lane hl f x).symm)

/-- One result in the lanes of the scope. -/
theorem spread_self (h : Solo s w i) (hsel : (s.warp w).selected i ≠ 0) (ws : List (Nat × Word)) :
    (started s w i).spread (s.selfActor w i) ws = (started s w i).updWarp w (lanesPut s w i (fun _ => ws)) := by
  obtain ⟨hf, hb⟩ := narrow_of_solo h
  rcases h.2.2 with hl | ⟨hl, -⟩
  · rw [State.spread, State.selfActor_scope, hl, if_neg (by decide), selectedLanes_self hf hb, List.map_map]
    exact writeLanes_selected hsel hl (fun _ => ws)
  · rw [State.spread, State.selfActor_scope, hl, if_pos (by decide), State.selfActor_lead]
    exact congrArg _ (funext fun x => (lanesPut_warp hl (fun _ => ws) x).symm)

/-- The flags of a cross-lane operation, where none is enabled. -/
theorem crossFinish_self (h : Solo s w i) (hsel : (s.warp w).selected i ≠ 0) {g : Nat} {all : FlagSet}
    (he : enabledFlags (s.warp w).trapen g all = 0) (t : State) (outs : List (Nat × Nat × FlagSet)) :
    crossFinish (s.selfActor w i) (started s w i) t g all outs = .ok (t.updWarp w (fun x => x.raise all)) := by
  have hm : (started s w i).liveMembers (s.selfActor w i) = [⟨w, (s.warp w).active, (s.warp w).selected i⟩] :=
    liveMembers_of_alone (alone_selfActor s w i) (not_exited_started h)
  have hit : ([⟨w, (s.warp w).active, (s.warp w).selected i⟩] : List Member).filter (fun m => m.sel != 0) =
      [⟨w, (s.warp w).active, (s.warp w).selected i⟩] := by simpa using hsel
  unfold crossFinish
  dsimp only
  rw [hm, hit]
  simp only [List.foldl_cons, List.foldl_nil, warp_started, Warp.issued_trapen, he]
  rfl

end

/-! The scope that the checks allow (04 R110). -/

/-- A 64-bit word that a warp runs passes the checks of its fields. -/
theorem checked_of_runs {s : State} {w : Nat} {i : Instr} {mj fn : Nat} {h : Hdr} {u : Upper} (hr : Runs s w i)
    (hf : form i = .w64 mj fn h u) : (wordUse mj fn h u).cause = none := by
  have hc : check i = (wordUse mj fn h u).cause := by
    rw [check, hf]
    rfl
  have hp := hr.2.2
  unfold State.precheck at hp
  rw [hc] at hp
  dsimp only at hp
  split at hp
  · cases hp
  · split at hp
    · cases hp
    · assumption

theorem scopeOk_of_cause {u : WordUse} (h : u.cause = none) : u.scopeOk = true := by
  unfold WordUse.cause at h
  split at h
  · cases h
  next hs => simpa using hs

section
variable {s : State} {w : Nat} {h : Hdr} {f : XForm} {i : Instr}

theorem xlane_scope {fn : Nat} (hs : Solo s w i) (hf : form i = .w64 5 fn h (.x f)) :
    (xlaneUse fn h (.x f)).scopeOk = true := scopeOk_of_cause (checked_of_runs hs.1 hf)

/-- SHFL, SHFLX, REDSTEP, SCAN and TRN of one warp are at lane scope. -/
theorem xlane_lane {fn : Nat} (hs : Solo s w i) (hf : form i = .w64 5 fn h (.x f)) (hi : scopeOfInstr i = h.scope)
    (hn : fn ∈ [0, 1, 5, 8, 9]) : scopeOfInstr i = .lane := by
  have hok := xlane_scope hs hf
  obtain ⟨hnf, -⟩ := narrow_of_solo hs
  rw [hi] at hnf ⊢
  fin_cases hn
  all_goals simp [xlaneUse] at hok
  all_goals tauto

/-- RLANE and WLANE are at warp scope. -/
theorem xlane_warp {fn : Nat} (hs : Solo s w i) (hf : form i = .w64 5 fn h (.x f)) (hi : scopeOfInstr i = h.scope)
    (hn : fn = 3 ∨ fn = 4) : scopeOfInstr i = .warp := by
  have hok := xlane_scope hs hf
  rw [hi]
  rcases hn with rfl | rfl
  · simpa [xlaneUse] using hok
  · simpa [xlaneUse] using hok

end

end Sys2Proof.Machine
end

section
/-! PROOF. What each cross-lane instruction of one warp gives (09 R190 to R198). -/

namespace Sys2Proof.Machine

section
variable {s : State} {w : Nat}

theorem updWarp_raise_zero (z : State) (f : Warp → Warp) :
    z.updWarp w f = z.updWarp w (fun x => (f x).raise 0) := congrArg _ (funext fun x => ((f x).raise_zero).symm)

theorem updWarp_raise (z : State) (f : Warp → Warp) (g : FlagSet) :
    z.updWarp w (fun x => (f x).raise g) = (z.updWarp w f).updWarp w (fun x => x.raise g) :=
  (State.updWarp_updWarp z w f (fun x => x.raise g)).symm

theorem laneCount_started (i : Instr) {sc : Scope} (hf : sc ≠ .flock) (hb : sc ≠ .block) :
    (started s w i).laneCount sc w = s.laneCount sc w := by
  simp [State.laneCount, hf, hb]

theorem laneCount_le {sc : Scope} (hf : sc ≠ .flock) (hb : sc ≠ .block) : s.laneCount sc w ≤ 32 := by
  unfold State.laneCount
  rw [if_neg (by simp [hf, hb])]
  split <;> decide

/-- A shuffle within one warp reads one of its lanes. -/
theorem shflSource_lt {mode k n l b : Nat} (hn : n ≤ 32) (hl : l < 32) : shflSource mode k n l b < 32 := by
  have pick : ∀ {c : Bool} {m : Nat}, (if (c && decide (m < n)) = true then m else l) < 32 := by
    intro c m
    split
    next h => exact lt_of_lt_of_le (of_decide_eq_true (Bool.and_eq_true_iff.1 h).2) hn
    · exact hl
  exact pick

theorem mem_selected_lt {m : Mask} {l : Nat} (h : l ∈ lanesOf m) : l < 32 := ((mem_lanesOf m l).1 h).1

/-- SHFL and SHFLX (09 R191). -/
theorem opShuffle_started {seg : Bool} {h : Hdr} {f : XForm} {i : Instr} (hs : Solo s w i) (hl : scopeOfInstr i = .lane)
    (hsel : (s.warp w).selected i ≠ 0) :
    opShuffle seg h (.x f) (s.selfActor w i) (started s w i) = .ok ((started s w i).updWarp w (lanesPut s w i (fun l =>
      pairWrites (h.width == 1) h.vd ((s.warp w).value ((started s w i).draw 0) false (h.width == 1) f.va.toNat
        (shflSource (f.vc.toNat % 4) (if seg then f.vc.toNat / 4 else log2Up (s.laneCount (scopeOfInstr i) w) 12 0)
          (s.laneCount (scopeOfInstr i) w) l
          ((s.warp w).reg ((started s w i).draw 2) f.ub f.vb.toNat l).toNat))))) := by
  obtain ⟨hf, hb⟩ := narrow_of_solo hs
  have hm : (started s w i).liveMembers (s.selfActor w i) = [⟨w, (s.warp w).active, (s.warp w).selected i⟩] :=
    liveMembers_of_alone (alone_selfActor s w i) (not_exited_started hs)
  rw [← writeLanes_selected hsel hl]
  unfold opShuffle
  dsimp only
  rw [hm, selectedLanes_self hf hb, List.map_map, State.selfActor_scope, State.selfActor_lead, laneCount_started i hf hb]
  refine congrArg (fun ls => Res.ok ((started s w i).writeLanes ls)) (List.map_congr_left fun l hmem => ?_)
  have hlane := mem_selected_lt hmem
  simp only [Function.comp_apply, List.head?_cons, Option.map_some, Option.getD_some, ite_self, warp_started, Warp.reg_issued]
  rw [laneValue_self hf hb _ _ (shflSource_lt (laneCount_le hf hb) hlane)]

/-- RFIRST (09 R192). -/
theorem opRfirst_started {h : Hdr} {f : XForm} {i : Instr} (hs : Solo s w i) (hsel : (s.warp w).selected i ≠ 0) :
    opRfirst h (.x f) (s.selfActor w i) (started s w i) = .ok ((started s w i).updWarp w (lanesPut s w i (fun _ =>
      match (lanesOf ((s.warp w).selected i)).head? with
      | some l => pairWrites (h.width == 1) h.vd
          ((s.warp w).value ((started s w i).draw 0) false (h.width == 1) f.va.toNat l)
      | none => []))) := by
  obtain ⟨hf, hb⟩ := narrow_of_solo hs
  have hsp := spread_self hs hsel
  unfold State.spread at hsp
  rw [selectedLanes_self hf hb] at hsp
  unfold opRfirst
  dsimp only
  rw [selectedLanes_self hf hb]
  match hls : lanesOf ((s.warp w).selected i) with
  | [] => exact absurd (lanesOf_eq_nil.1 hls) hsel
  | l :: ls =>
    have hlane : l < 32 := mem_selected_lt (hls ▸ List.mem_cons_self)
    rw [hls] at hsp
    simp only [List.map_cons, List.head?_cons]
    rw [laneValue_self hf hb _ _ hlane, ← hsp]
    split <;> rfl

/-- RLANE (09 R192). -/
theorem opRlane_started {h : Hdr} {f : XForm} {i : Instr} (hl : scopeOfInstr i = .warp) :
    opRlane h (.x f) (s.selfActor w i) (started s w i) = .ok ((started s w i).updWarp w (lanesPut s w i (fun _ =>
      pairWrites (h.width == 1) h.vd ((s.warp w).value ((started s w i).draw 0) false (h.width == 1) f.va.toNat
        (laneIndex (s.warp w) ((started s w i).draw 4) f))))) := by
  have hx : laneIndex ((s.warp w).issued i) ((started s w i).draw 4) f = laneIndex (s.warp w) ((started s w i).draw 4) f := by
    simp [laneIndex, Warp.width]
  rw [started_updWarp, lanesPut_warp hl]
  simp only [opRlane, State.selfActor_lead, warp_started, hx, Warp.value_issued]

/-- WLANE (09 R192). -/
theorem opWlane_started {h : Hdr} {f : XForm} {i : Instr} :
    opWlane h (.x f) (s.selfActor w i) (started s w i) = .ok ((started s w i).updWarp w (fun x =>
      if (x.selected i).getLsbD (laneIndex (s.warp w) ((started s w i).draw 4) f) then
        x.writeLane false (laneIndex (s.warp w) ((started s w i).draw 4) f)
          (pairWrites (h.width == 1) h.vd ((s.warp w).value ((started s w i).draw 0) true (h.width == 1) f.va.toNat 0))
      else x)) := by
  have hx : laneIndex ((s.warp w).issued i) ((started s w i).draw 4) f = laneIndex (s.warp w) ((started s w i).draw 4) f := by
    simp [laneIndex, Warp.width]
  rw [started_updWarp]
  simp only [opWlane, State.selfActor_lead, State.selfActor_sel, warp_started, hx, Warp.value_issued, Warp.selected_issued]
  split
  · rfl
  · rw [started_eq_setWarp, State.setWarp_setWarp]

/-- The lanes of one warp for a reduction. -/
theorem redLanes_started (i : Instr) (m n : Mask) (h : Hdr) (f : XForm) (op : Nat) :
    redLanes (started s w i) (s.selfActor w i).self h f op =
      redLanes (started s w i) ⟨w, (s.warp w).active, (s.warp w).selected i⟩ h f op := rfl

theorem part_ovf_started (i : Instr) : ((started s w i).part ((started s w i).partOf w)).ovf = (s.part (s.partOf w)).ovf := by
  rw [partOf_started, part_started]

/-- REDSTEP (09 R194). -/
theorem opRedstep_started {h : Hdr} {f : XForm} {i : Instr} (hs : Solo s w i) (hl : scopeOfInstr i = .lane)
    (hsel : (s.warp w).selected i ≠ 0) (z : List (Nat × FlagSet))
    (hz : z = butterfly (s.part (s.partOf w)).ovf h (f.vc.toNat % 16)
      (redLanes (started s w i) ⟨w, (s.warp w).active, (s.warp w).selected i⟩ h f (f.vc.toNat % 16)) (2 ^ (f.vc.toNat / 16)))
    (he : enabledFlags (s.warp w).trapen (fpGroup h.width)
      (orFlags ((lanesOf ((s.warp w).selected i)).map (fun l => (z.getD l (0, 0)).2))) = 0) :
    opRedstep h (.x f) (s.selfActor w i) (started s w i) = .ok ((started s w i).updWarp w (fun x =>
      (lanesPut s w i (fun l => redWrites h (z.getD l (0, 0)).1) x).raise
        (orFlags ((lanesOf ((s.warp w).selected i)).map (fun l => (z.getD l (0, 0)).2))))) := by
  rw [updWarp_raise, ← writeLanes_selected hsel hl]
  unfold opRedstep
  dsimp only
  rw [State.selfActor_lead, part_ovf_started]
  subst hz
  simp only [List.map_map, Function.comp_def]
  exact crossFinish_self hs hsel he _ _

/-- RED (09 R195). -/
theorem opRed_started {h : Hdr} {f : XForm} {i : Instr} (hs : Solo s w i) (hsel : (s.warp w).selected i ≠ 0)
    (z : Nat × FlagSet)
    (hz : z = butterflies (s.part (s.partOf w)).ovf h f.vc.toNat
      (redLanes (started s w i) ⟨w, (s.warp w).active, (s.warp w).selected i⟩ h f f.vc.toNat)
      (if (s.warp w).control then [] else [16, 8, 4, 2, 1]) 0)
    (he : enabledFlags (s.warp w).trapen (fpGroup h.width) z.2 = 0) :
    opRed h (.x f) (s.selfActor w i) (started s w i) = .ok ((started s w i).updWarp w (fun x =>
      (lanesPut s w i (fun _ => redWrites h z.1) x).raise z.2)) := by
  obtain ⟨hf, hb⟩ := narrow_of_solo hs
  have hwide : ((scopeOfInstr i == .flock) || (scopeOfInstr i == .block)) = false := by simp [hf, hb]
  rw [updWarp_raise, ← spread_self hs hsel]
  unfold opRed
  dsimp only
  rw [State.selfActor_lead, part_ovf_started, State.selfActor_scope, hwide, warp_started, Warp.issued_control]
  have hmem : (s.selfActor w i).members = [⟨w, (s.warp w).active, (s.warp w).selected i⟩] := rfl
  simp only [hmem, List.find?_cons, actorRank_self _ hf hb, decide_true, Bool.false_eq_true, if_false, Nat.sub_self,
    List.range_zero, List.foldl_nil]
  subst hz
  exact crossFinish_self hs hsel he _ _

/-- REDCMP (09 R196). -/
theorem opRedcmp_started {h : Hdr} {f : XForm} {i : Instr} (hs : Solo s w i) (hsel : (s.warp w).selected i ≠ 0)
    (z : Nat × Nat × FlagSet)
    (hz : z = redcmpVal (fpFmt h.width) (s.part (s.partOf w)).ovf (f.vc == 1)
      ((lanesOf ((s.warp w).selected i)).map (fun l =>
        ((s.warp w).value ((started s w i).draw 0) false (h.width == 1) f.va.toNat l).toNat % 2 ^ (fpFmt h.width).width)))
    (he : enabledFlags (s.warp w).trapen (fpGroup h.width) z.2.2 = 0) :
    opRedcmp h (.x f) (s.selfActor w i) (started s w i) = .ok ((started s w i).updWarp w (fun x =>
      (lanesPut s w i (fun _ => pairWrites (h.width == 1) h.vd (BitVec.ofNat 64 z.1) ++ (if f.vc == 1 then [] else
        pairWrites (h.width == 1) (h.vd + (if h.width == 1 then 2 else 1)) (BitVec.ofNat 64 z.2.1))) x).raise z.2.2)) := by
  obtain ⟨hf, hb⟩ := narrow_of_solo hs
  have hvals : ((started s w i).selectedLanes (s.selfActor w i)).map (fun e =>
      ((started s w i).laneValue (s.selfActor w i) (h.width == 1) f.va e.2.2).toNat % 2 ^ (fpFmt h.width).width) =
      (lanesOf ((s.warp w).selected i)).map (fun l =>
        ((s.warp w).value ((started s w i).draw 0) false (h.width == 1) f.va.toNat l).toNat % 2 ^ (fpFmt h.width).width) := by
    rw [selectedLanes_self hf hb, List.map_map]
    refine List.map_congr_left fun l hm => ?_
    simp only [Function.comp_apply]
    rw [laneValue_self hf hb _ _ (mem_selected_lt hm)]
  rw [updWarp_raise, ← spread_self hs hsel]
  unfold opRedcmp
  dsimp only
  rw [hvals, State.selfActor_lead, part_ovf_started, ← hz]
  exact crossFinish_self hs hsel he _ _

/-- TRN (09 R198). -/
theorem opTrn_started {h : Hdr} {f : XForm} {i : Instr} (hl : scopeOfInstr i = .lane) (hsel : (s.warp w).selected i ≠ 0) :
    opTrn h (.x f) (s.selfActor w i) (started s w i) = .ok ((started s w i).updWarp w (lanesPut s w i (fun l =>
      (List.range (2 ^ (f.vc.toNat + 1))).map (fun j => (h.vd.toNat + j,
        (s.warp w).readV ((started s w i).draw 0) (f.va.toNat + l % 2 ^ (f.vc.toNat + 1))
          (l / 2 ^ (f.vc.toNat + 1) * 2 ^ (f.vc.toNat + 1) + j)))))) := by
  rw [← writeLanes_selected hsel hl]
  simp only [opTrn, State.selfActor_lead, State.selfActor_sel, warp_started, Warp.readV_issued]

/-! SCAN. -/

theorem length_scanVals (ovf : Word) (h : Hdr) (op : Nat) (excl first : Bool) (acc : Nat) (vs : List Nat) :
    (scanVals ovf h op excl first acc vs).length = vs.length := by
  induction vs generalizing first acc with
  | nil => rfl
  | cons v t ih => exact congrArg (· + 1) (ih _ _)

/-- Elements paired with the values of a list, in order, are those with the value at each one's place. -/
theorem zip_eq_map_findIdx {ls : List Nat} {β : Type} (vs : List β) (d : β) (hn : ls.Nodup) (hl : vs.length = ls.length) :
    List.zip ls vs = ls.map (fun l => (l, vs.getD (ls.findIdx (fun j => j = l)) d)) := by
  induction ls generalizing vs with
  | nil => rfl
  | cons k t ih =>
    cases vs with
    | nil => cases hl
    | cons v vs =>
      obtain ⟨hk, ht⟩ := List.nodup_cons.1 hn
      have hlen : vs.length = t.length := Nat.succ.inj hl
      rw [List.zip_cons_cons, List.map_cons, ih vs ht hlen]
      congr 1
      · simp [List.findIdx_cons]
      · refine List.map_congr_left fun l hm => ?_
        have hne : k ≠ l := fun e => hk (e ▸ hm)
        simp [List.findIdx_cons, hne]

/-- SCAN (09 R197). -/
theorem opScan_started {h : Hdr} {f : XForm} {i : Instr} (hs : Solo s w i) (hl : scopeOfInstr i = .lane)
    (hsel : (s.warp w).selected i ≠ 0) (z : List (Nat × FlagSet))
    (hz : z = scanVals (s.part (s.partOf w)).ovf h (f.vc.toNat % 16) (f.vc.getLsbD 4) true (redIdentity h (f.vc.toNat % 16))
      ((lanesOf ((s.warp w).selected i)).map (fun l =>
        ((s.warp w).value ((started s w i).draw 0) false (h.width == 1) f.va.toNat l).toNat % 2 ^ redWidth h)))
    (he : enabledFlags (s.warp w).trapen (fpGroup h.width) (orFlags (z.map (fun e => e.2))) = 0) :
    opScan h (.x f) (s.selfActor w i) (started s w i) = .ok ((started s w i).updWarp w (fun x =>
      (lanesPut s w i (fun l =>
        redWrites h (z.getD ((lanesOf ((s.warp w).selected i)).findIdx (fun j => j = l)) (0, 0)).1) x).raise
        (orFlags (z.map (fun e => e.2))))) := by
  obtain ⟨hf, hb⟩ := narrow_of_solo hs
  have hlen : z.length = (lanesOf ((s.warp w).selected i)).length := by rw [hz, length_scanVals, List.length_map]
  have hvals : ((started s w i).selectedLanes (s.selfActor w i)).map (fun e =>
      ((started s w i).laneValue (s.selfActor w i) (h.width == 1) f.va e.2.2).toNat % 2 ^ redWidth h) =
      (lanesOf ((s.warp w).selected i)).map (fun l =>
        ((s.warp w).value ((started s w i).draw 0) false (h.width == 1) f.va.toNat l).toNat % 2 ^ redWidth h) := by
    rw [selectedLanes_self hf hb, List.map_map]
    refine List.map_congr_left fun l hm => ?_
    simp only [Function.comp_apply]
    rw [laneValue_self hf hb _ _ (mem_selected_lt hm)]
  have hsnd : ((lanesOf ((s.warp w).selected i)).zip z).map (fun o => o.2.2) = z.map (fun e => e.2) := by
    rw [← List.map_snd_zip (l₁ := lanesOf ((s.warp w).selected i)) (l₂ := z) hlen.le, List.map_map, List.map_snd_zip hlen.le]
    rfl
  have hwrites : ((lanesOf ((s.warp w).selected i)).zip z).map (fun o => (⟨w, o.1, redWrites h o.2.1⟩ : LaneWrite)) =
      (lanesOf ((s.warp w).selected i)).map (fun l => ⟨w, l,
        redWrites h (z.getD ((lanesOf ((s.warp w).selected i)).findIdx (fun j => j = l)) (0, 0)).1⟩) := by
    rw [zip_eq_map_findIdx z (0, 0) (nodup_lanesOf _) hlen, List.map_map]
    rfl
  rw [updWarp_raise, ← writeLanes_selected hsel hl, ← hwrites, ← hsnd]
  unfold opScan
  dsimp only
  rw [hvals, State.selfActor_lead, part_ovf_started, ← hz, selectedLanes_self hf hb, List.zip_map_left, List.map_map]
  rw [← hsnd] at he
  simp only [List.map_map, Function.comp_def, Prod.map]
  exact crossFinish_self hs hsel he _ _

end

end Sys2Proof.Machine
end

section
/-! PROOF. The statement about the cross-lane instructions of one warp (09 R190 to R198). -/

namespace Sys2Proof.Machine

/-- An instruction that raises nothing writes its lanes. -/
theorem lanes_put_plain {s : State} {w : Nat} {i : Instr} {op : Actor → State → Res} {f : Nat → List (Nat × Word)}
    (h : Solo s w i) (hsel : (s.warp w).selected i ≠ 0)
    (ho : op (s.selfActor w i) (started s w i) = .ok ((started s w i).updWarp w (lanesPut s w i f))) :
    ∃ t, issue i op s = .next t ∧ RegistersOnly s t w i f ∧ (t.warp w).p = (s.warp w).p ∧
      (t.warp w).sticky = (s.warp w).sticky ||| (0 : FlagSet).zeroExtend 32 ∧ Written (s.warp w) (t.warp w) i f :=
  lanes_put (g := 0) h hsel BitVec.zero_and (ho.trans (congrArg Res.ok (updWarp_raise_zero _ _)))

/-- One warp's cross-lane instruction gives its meaning. -/
theorem exec_xlane {s : State} {w : Nat} {i : Instr} {g : Nat} {flags : FlagSet} {f : Nat → List (Nat × Word)}
    (hm : xlaneMeaning s w i = some (g, flags, f)) (hs : Solo s w i) (hsel : (s.warp w).selected i ≠ 0)
    (he : enabledFlags (s.warp w).trapen g flags = 0) :
    ∃ t, exec i s = .next t ∧ RegistersOnly s t w i f ∧ (t.warp w).p = (s.warp w).p ∧
      (t.warp w).sticky = (s.warp w).sticky ||| flags.zeroExtend 32 ∧ Written (s.warp w) (t.warp w) i f := by
  unfold xlaneMeaning at hm
  split at hm
  case h_1 h f =>
    cases hm
    exact lanes_put_plain (op := opShuffle false h (.x f)) hs hsel
      (opShuffle_started hs (xlane_lane hs rfl rfl (by decide)) hsel)
  case h_2 h f =>
    cases hm
    exact lanes_put_plain (op := opShuffle true h (.x f)) hs hsel
      (opShuffle_started hs (xlane_lane hs rfl rfl (by decide)) hsel)
  case h_3 h f =>
    cases hm
    exact lanes_put_plain (op := opRfirst h (.x f)) hs hsel (opRfirst_started hs hsel)
  case h_4 h f =>
    cases hm
    exact lanes_put_plain (op := opRlane h (.x f)) hs hsel (opRlane_started (xlane_warp hs rfl rfl (.inl rfl)))
  case h_5 h f =>
    cases hm
    exact lanes_put (op := opRedstep h (.x f)) hs hsel he
      (opRedstep_started hs (xlane_lane hs rfl rfl (by decide)) hsel _ rfl he)
  case h_6 h f =>
    cases hm
    exact lanes_put (op := opRed h (.x f)) hs hsel he (opRed_started hs hsel _ rfl he)
  case h_7 h f =>
    cases hm
    have ho := opRedcmp_started hs hsel _ rfl he
    simp only [beq_iff_eq] at ho
    exact lanes_put (op := opRedcmp h (.x f)) hs hsel he (by simpa only [beq_iff_eq] using ho)
  case h_8 h f =>
    cases hm
    exact lanes_put (op := opScan h (.x f)) hs hsel he
      (opScan_started hs (xlane_lane hs rfl rfl (by decide)) hsel _ rfl he)
  case h_9 h f =>
    cases hm
    exact lanes_put_plain (op := opTrn h (.x f)) hs hsel (opTrn_started (xlane_lane hs rfl rfl (by decide)) hsel)
  case h_10 => cases hm

/-- The partner of a lane in a butterfly step is another of the 32 lanes. -/
theorem partner_lane : ∀ j < 5, ∀ l < 32, l ^^^ 2 ^ j < 32 ∧ l ^^^ 2 ^ j ≠ l := by decide

/-- Settles O29: each cross-lane instruction by what it writes, WLANE, and the pairs of a butterfly step. -/
theorem crossLaneResults : Obligations.CrossLaneResults := by
  unfold Obligations.CrossLaneResults
  refine ⟨fun s w i g flags f hm hs hsel he => exec_xlane hm hs hsel he, fun s w h f => ?_, fun ovf h op j y l hj hl _ => ?_⟩
  · intro i x b v hs
    refine issue_updWarp (op := opWlane h (.x f)) hs opWlane_started ?_
    split
    · exact (congrArg Warp.live (Warp.regsOf_writeLane _ _ _ _)).trans (Warp.issued_live _ _)
    · exact Warp.issued_live _ _
  · obtain ⟨hp, hne⟩ := partner_lane j hj l hl
    refine ⟨?_, hp, hne⟩
    have hw : l < Config.warpWidth := hl
    simp [butterfly, hw, List.getD]

end Sys2Proof.Machine
end

section
/-! PROOF. The rendezvous (06 R129 to R134, 07 R158): an arrival, a mismatch, a member that waits for its counters, and the one
performance for all members; and the hints and fences (02 R51, 06 R140). -/

namespace Sys2Proof.Machine

/-! The operation of a complete rendezvous. -/

section
variable {s : State} {blk id v : Nat} {e : Inst} {op : Actor → State → Res}

/-- A slot that issues an operation settles what it answers (06 R130, R133). -/
theorem exec_rendezvous_settle (h : Performs s blk id e v) (hop : wideOp e.instr = some op) :
    exec (.rendezvousComplete blk id) s = happens "RENDEZVOUS_COMPLETE"
      (settle (gathered s blk e v) (company s blk e v) e.instr (op (company s blk e v) (gathered s blk e v))) := by
  obtain ⟨hturn, hsel, he, hbell, hclean⟩ := h
  have hbars : s.barsInst e v = false := by
    have hc := completeInst_isSome_of_instDue (instDue_of_selection hsel)
    rw [completeInst_eq he hbell] at hc
    by_contra hb
    simp [Bool.eq_true_of_not_eq_false hb] at hc
  have hguard : guarded e.instr op (company s blk e v) (gathered s blk e v) = op (company s blk e v) (gathered s blk e v) :=
    guarded_clean _ _ _ _ fun m hm => by
      rw [warp_gathered]
      exact hclean m (mem_members_instActor.1 hm)
  have hdone : (s.endTurn (s.block blk).core).bump.completeInst blk id =
      settle (gathered s blk e v) (company s blk e v) e.instr (op (company s blk e v) (gathered s blk e v)) := by
    rw [completeInst_eq (s := (s.endTurn (s.block blk).core).bump) he ((bellwether_slot ..).trans hbell), barsInst_slot,
      hbars, hop]
    change State.performInst _ e v _ = _
    rw [performInst_eq]
    exact congrArg _ hguard
  have harm : exec (.rendezvousComplete blk id) s = execRendezvousComplete blk id s := rfl
  simp only [harm, execRendezvousComplete, hturn, hsel, hdone, beq_self_eq_true, decide_true, Bool.and_self, if_true]

end

/-! What completing changes. -/

@[simp] theorem State.warps_updInst (s : State) (a : Actor) (f : Inst → Option Inst) : (s.updInst a f).warps = s.warps := by
  unfold State.updInst; split <;> rfl
@[simp] theorem State.mem_updInst (s : State) (a : Actor) (f : Inst → Option Inst) : (s.updInst a f).mem = s.mem := by
  unfold State.updInst; split <;> rfl
@[simp] theorem State.parts_updInst (s : State) (a : Actor) (f : Inst → Option Inst) : (s.updInst a f).parts = s.parts := by
  unfold State.updInst; split <;> rfl
@[simp] theorem State.warp_updInst (s : State) (a : Actor) (f : Inst → Option Inst) (w : Nat) :
    (s.updInst a f).warp w = s.warp w := by
  rw [State.warp, State.warps_updInst, State.warp]
@[simp] theorem State.liveMembers_updInst (s : State) (a b : Actor) (f : Inst → Option Inst) :
    (s.updInst a f).liveMembers b = s.liveMembers b := by
  simp only [State.liveMembers, State.warp_updInst]

/-- The members left are the same where nobody has exited in between. -/
theorem State.liveMembers_congr {s t : State} {a : Actor} (h : ∀ v, (t.warp v).live = (s.warp v).live) :
    t.liveMembers a = s.liveMembers a := by
  simp only [State.liveMembers, Warp.exited, h]

theorem advance_wait (x : Warp) (len : Nat) (rep : Option Nat) : (x.advance len rep).wait = x.wait := by
  unfold Warp.advance; split
  · split <;> rfl
  · rfl

theorem countDither_wait (x : Warp) (i : Instr) : (x.countDither i).wait = x.wait := by
  unfold Warp.countDither; split <;> rfl

section
variable (a : Actor) (i : Instr) (t : State)

theorem completed_mem : (completed a i t).mem = t.mem := by
  rw [completed, State.advanceAll_eq, State.updWarps_warpsOf (t.updInst a _)]
  exact State.mem_updInst ..

theorem completed_parts : (completed a i t).parts = t.parts := by
  rw [completed, State.advanceAll_eq, State.updWarps_warpsOf (t.updInst a _)]
  exact State.parts_updInst ..

/-- What going past an instruction keeps of a warp. -/
theorem keeps_completed {γ : Type} (p : Warp → γ) (h : ∀ x : Warp, p ((x.unwait.countDither i).advance a.len a.rep) = p x)
    (u : Nat) : p ((completed a i t).warp u) = p (t.warp u) := by
  rw [completed, State.advanceAll_eq, State.keeps_updWarps _ _ _ _ p (fun _ _ x => h x), State.warp_updInst]

theorem wait_completed {m : Member} (hm : m ∈ t.liveMembers a) : ((completed a i t).warp m.w).wait = none := by
  rw [completed, State.advanceAll_eq]
  refine State.makes_updWarps _ _ _ _ (fun x => x.wait = none) (fun _ _ x => ?_)
    ⟨m, by rw [State.liveMembers_updInst]; exact hm, rfl⟩
  rw [advance_wait, countDither_wait]
  rfl

end

/-- What a wait keeps of a warp, as each member of an actor waits. -/
theorem keeps_waitAll {γ : Type} (p : Warp → γ) (h : ∀ x q, p { x with wait := q } = p x) (s : State) (a : Actor)
    (k : WaitKind) (i : Instr) (q : List DWord) (v : Nat) : p ((s.waitAll a k i q).warp v) = p (s.warp v) := by
  rw [State.waitAll_eq]
  exact State.keeps_updWarps _ _ _ _ p (fun _ _ x => h x _) v

/-- A fault of a rendezvous's operation keeps its members, suspended (06 R133). -/
theorem settle_fault_wide {s : State} {a : Actor} {i : Instr} {f : FaultInfo} (hs : a.scope = .flock ∨ a.scope = .block)
    (room : s.canRecord (halfOfCore (s.warp a.lead).core) (s.partOf a.lead) = true) :
    settle s a i (.fault f) = some (((s.updInst a (fun e => some { e with suspended := true, waiting := false })).waitAll a
      .rendezvous i []).takeException a (s.warp a.lead).pc f true) := by
  have wide : (a.scope == .flock || a.scope == .block) = true := by rcases hs with h | h <;> rw [h] <;> rfl
  simp [settle, room, wide]

/-- Settles O27: a completion by what it keeps of each warp, a fault by the suspension of the members left. -/
theorem rendezvousOnce : Obligations.RendezvousOnce := by
  unfold Obligations.RendezvousOnce
  intro s blk id e v op hp hop a g
  have hx := exec_rendezvous_settle hp hop
  refine ⟨fun t ht => ⟨?_, completed_mem a _ t, fun u => ⟨?_, ?_, ?_⟩, fun m hm => wait_completed a _ t hm⟩,
    fun f hsc hf room => ?_⟩
  · rw [hx, ht]
    rfl
  · exact keeps_completed a _ t Warp.v (fun x => by simp) u
  · exact keeps_completed a _ t Warp.s (fun x => by simp) u
  · exact keeps_completed a _ t Warp.p (fun x => by simp) u
  · have hw := settle_fault_wide (i := e.instr) (f := f) (a := a) (s := g) hsc room
    rw [hx, hf, hw]
    refine ⟨_, rfl, fun m hm => ⟨?_, ?_⟩⟩
    · rw [State.keeps_takeException _ _ _ _ _ Warp.pc (fun _ _ => rfl),
        keeps_waitAll Warp.pc (fun _ _ => rfl), State.warp_updInst, warp_gathered]
    · have hlive : ((g.updInst a (fun e => some { e with suspended := true, waiting := false })).waitAll a .rendezvous
          e.instr []).liveMembers a = g.liveMembers a := by
        refine State.liveMembers_congr fun u => ?_
        rw [keeps_waitAll Warp.live (fun _ _ => rfl), State.warp_updInst]
      refine ⟨_, State.susp_takeException _ a _ f true (by rw [hlive]; exact hm), rfl, rfl, ?_⟩
      rw [State.suspOf, hlive]

/-! Hints and fences. -/

section
variable {s : State} {w : Nat}

theorem agentOf_self (z : State) (i : Instr) (scope : Nat) :
    z.agentOf (s.selfActor w i) w scope = z.path w (s.warp w).active scope := by
  simp [State.agentOf, Actor.actOf, State.selfActor]

theorem opFence_started {h : Hdr} {f : MForm} (hs : Solo s w (.fence h (.m f))) :
    let z := started s w (.fence h (.m f))
    opFence (.m f) (s.selfActor w (.fence h (.m f))) z =
      .ok (z.fence (z.path w (s.warp w).active f.mscope.toNat) f.order.toNat) := by
  intro z
  have hm : z.liveMembers (s.selfActor w (.fence h (.m f))) =
      [⟨w, (s.warp w).active, (s.warp w).selected (.fence h (.m f))⟩] :=
    liveMembers_of_alone (alone_selfActor s w _) (not_exited_started hs)
  unfold opFence
  dsimp only
  rw [hm]
  simp only [List.foldl_cons, List.foldl_nil, agentOf_self]

end

theorem State.chargeInstance_coresOf (s : State) (a : Actor) (i : Instr) : s.coresOf (s.chargeInstance a i) := by
  unfold State.chargeInstance
  induction s.liveMembers a generalizing s with
  | nil => rfl
  | cons m ms ih => exact (ih (s.updCore _ _)).trans rfl

/-- The state from which an operation is performed holds memory and partitions as they were. -/
theorem mem_gathered (s : State) (blk : Nat) (e : Inst) (v : Nat) : (gathered s blk e v).mem = s.mem := by
  have h := State.chargeInstance_coresOf ((s.endTurn (s.block blk).core).bump.meet e)
    (((s.endTurn (s.block blk).core).bump.meet e).instActor e v) e.instr
  have hm : ((s.endTurn (s.block blk).core).bump.meet e).mem = s.mem :=
    (State.pastOf_mem (s := (s.endTurn (s.block blk).core).bump) (State.meet_pastOf _ e)).trans rfl
  exact (congrArg State.mem h).trans hm

theorem parts_gathered (s : State) (blk : Nat) (e : Inst) (v : Nat) : (gathered s blk e v).parts = s.parts := by
  have h := State.chargeInstance_coresOf ((s.endTurn (s.block blk).core).bump.meet e)
    (((s.endTurn (s.block blk).core).bump.meet e).instActor e v) e.instr
  have hm : ((s.endTurn (s.block blk).core).bump.meet e).parts = s.parts :=
    (State.pastOf_parts (s := (s.endTurn (s.block blk).core).bump) (State.meet_pastOf _ e)).trans rfl
  exact (congrArg State.parts h).trans hm

/-- Settles O28: each of them changes nothing beside what is kept of races; the barrier by its completion. -/
theorem hintsComplete : Obligations.HintsComplete := by
  unfold Obligations.HintsComplete
  refine ⟨fun s w h u => ⟨fun i hi hs => ?_, fun f hu hs => ?_, fun hs hsel => ?_, fun hs hsel => ?_⟩,
    fun s blk id e v h u he hp => ?_⟩
  · rcases List.mem_cons.1 hi with rfl | hi
    · exact issue_nothing (op := opNop) hs rfl
    · obtain rfl := List.mem_singleton.1 hi
      exact issue_nothing (op := opPref) hs rfl
  · subst hu
    refine issue_past (op := opFence (.m f)) hs (opFence_started hs) (not_exited_of_live hs ?_)
    rw [State.pastOf_warp (State.fence_pastOf ..), warp_started, Warp.issued_live]
  · refine issue_updWarp (op := opYield) hs ?_ (Warp.issued_live _ _)
    rw [opYield, State.selfActor_sel, if_neg (by simpa using hsel), State.selfActor_lead]
  · refine issue_nothing (op := opYield) hs ?_
    rw [opYield, State.selfActor_sel, if_pos (by simpa using hsel)]
  · have hx := exec_rendezvousComplete (op := opNop) hp (by rw [he]; rfl) rfl
    have keep {γ : Type} (p : Warp → γ) (h : ∀ x : Warp, p ((x.unwait.countDither e.instr).advance
        (company s blk e v).len (company s blk e v).rep) = p x) (u : Nat) :
        p ((completed (company s blk e v) e.instr (gathered s blk e v)).warp u) = p (s.warp u) := by
      rw [keeps_completed _ _ _ p h, warp_gathered]
    refine ⟨_, hx, (completed_mem ..).trans (mem_gathered ..), (completed_parts ..).trans (parts_gathered ..),
      fun u => ⟨keep Warp.v (fun x => by simp) u, keep Warp.s (fun x => by simp) u, keep Warp.p (fun x => by simp) u,
        keep Warp.active (fun x => by simp) u⟩, fun m hm => wait_completed _ _ _ ?_⟩
    rw [State.liveMembers_congr fun u => congrArg Warp.live (warp_gathered s blk e v u)]
    exact hm

end Sys2Proof.Machine
end

section
/-! PROOF. Coming to a rendezvous (06 R129 to R134): the arrival recorded, the bellwether named by the last, a mismatch, and a
member that waits for its counters first. -/

namespace Sys2Proof.Machine

/-! What a rendezvous asks of the warps of a block. -/

theorem AMap.mem_of_find {β : Type} {m : AMap β} {k : Nat} {c : β} (h : m.find k = some c) : (k, c) ∈ m := by
  induction m with
  | nil => cases h
  | cons e t ih =>
    obtain ⟨j, d⟩ := e
    by_cases hj : j = k
    · subst hj
      have hd : d = c := by simpa [AMap.find] using h
      exact hd ▸ List.mem_cons_self
    · exact List.mem_cons_of_mem _ (ih (by simpa [AMap.find, hj] using h))

theorem AMap.mem_keysWhere {β : Type} {m : AMap β} {p : Nat → β → Bool} {v : Nat} :
    v ∈ m.keysWhere p ↔ ∃ b, (v, b) ∈ m ∧ p v b = true := by
  simp [AMap.keysWhere]

/-- A value put where one of the same kind was found lists the same keys. -/
theorem AMap.mem_keysWhere_put {β : Type} {m : AMap β} {k : Nat} {b c : β} {p : Nat → β → Bool} (hf : m.find k = some c)
    (hp : p k b = p k c) (v : Nat) : v ∈ (m.put k b).keysWhere p ↔ v ∈ m.keysWhere p := by
  rw [AMap.mem_keysWhere, AMap.mem_keysWhere]
  induction m with
  | nil => cases hf
  | cons e t ih =>
    obtain ⟨j, d⟩ := e
    have hmem := AMap.mem_of_find hf
    unfold AMap.put
    split
    · constructor
      · rintro ⟨x, hx, hpx⟩
        rcases List.mem_cons.1 hx with hx | hx
        · cases hx
          exact ⟨c, hmem, hp ▸ hpx⟩
        · exact ⟨x, hx, hpx⟩
      · rintro ⟨x, hx, hpx⟩
        exact ⟨x, List.mem_cons_of_mem _ hx, hpx⟩
    · by_cases hj : j = k
      · subst hj
        have hd : d = c := by simpa [AMap.find] using hf
        subst hd
        rw [if_pos rfl]
        constructor
        · rintro ⟨x, hx, hpx⟩
          rcases List.mem_cons.1 hx with hx | hx
          · cases hx
            exact ⟨d, List.mem_cons_self, hp ▸ hpx⟩
          · exact ⟨x, List.mem_cons_of_mem _ hx, hpx⟩
        · rintro ⟨x, hx, hpx⟩
          rcases List.mem_cons.1 hx with hx | hx
          · cases hx
            exact ⟨b, List.mem_cons_self, hp ▸ hpx⟩
          · exact ⟨x, List.mem_cons_of_mem _ hx, hpx⟩
      · rw [if_neg hj]
        have ht : AMap.find t k = some c := by simpa [AMap.find, hj] using hf
        simp only [List.mem_cons, or_and_right, exists_or, ih ht]

theorem allArrived_congr {s t : State} {b : Nat} (e : Inst) (hm : ∀ v, v ∈ t.warpsOfBlock b ↔ v ∈ s.warpsOfBlock b)
    (hf : ∀ v, t.flockIdOf v = s.flockIdOf v) (he : ∀ v, (t.warp v).exited = (s.warp v).exited) :
    t.allArrived b e = s.allArrived b e := by
  rw [Bool.eq_iff_iff]
  simp only [State.allArrived, List.all_eq_true, List.mem_filter, hm, hf, he]

/-! The arrival. -/

section
variable {s : State} {w : Nat} {i : Instr}

/-- The warp that has arrived: its wait and its owner. -/
def waiting (s : State) (w : Nat) (i : Instr) (x : Warp) : Warp :=
  { x with
    wait := some ⟨.rendezvous, i, { s.selfActor w i with inst := some (arrival s w i).2.id }, []⟩
    blocked := ⟨ownerBlock (s.blockOf w).index, 4, x.pc.extractLsb' 0 24⟩ }

/-- An arrival changes the warp's block and the next number, beside the warp. -/
theorem addArrival_cases (z : State) (sc : Scope) :
    ((z.addArrival sc w i).1 = z.setBlock (z.warp w).blk ((z.addArrival sc w i).1.block (z.warp w).blk) ∨
      (z.addArrival sc w i).1 = { z with nextUid := z.nextUid + 1 }.setBlock (z.warp w).blk
        ((z.addArrival sc w i).1.block (z.warp w).blk)) ∧
    (∃ l, (z.addArrival sc w i).1.block (z.warp w).blk = { z.block (z.warp w).blk with insts := l }) ∧
    (z.addArrival sc w i).2 ∈ ((z.addArrival sc w i).1.block (z.warp w).blk).insts ∧
    ⟨w, (z.warp w).active, (z.warp w).selected i⟩ ∈ (z.addArrival sc w i).2.arrivals := by
  unfold State.addArrival
  dsimp only
  split
  next e he =>
    rw [State.block_setBlock_same]
    refine ⟨.inl rfl, ⟨_, rfl⟩, ?_, by simp⟩
    exact List.mem_map.2 ⟨e, List.mem_of_find?_eq_some he, if_pos rfl⟩
  next he =>
    rw [State.block_setBlock_same]
    exact ⟨.inr rfl, ⟨_, rfl⟩, by simp, by simp⟩

theorem warps_addArrival (z : State) (sc : Scope) : (z.addArrival sc w i).1.warps = z.warps := by
  rcases (addArrival_cases (w := w) (i := i) z sc).1 with h | h <;> rw [h] <;> rfl

theorem cores_addArrival (z : State) (sc : Scope) : (z.addArrival sc w i).1.cores = z.cores := by
  rcases (addArrival_cases (w := w) (i := i) z sc).1 with h | h <;> rw [h] <;> rfl

theorem mem_addArrival (z : State) (sc : Scope) : (z.addArrival sc w i).1.mem = z.mem := by
  rcases (addArrival_cases (w := w) (i := i) z sc).1 with h | h <;> rw [h] <;> rfl

theorem flockSize_addArrival (z : State) (sc : Scope) (b : Nat) :
    ((z.addArrival sc w i).1.block b).flockSize = (z.block b).flockSize := by
  obtain ⟨hs, ⟨l, hl⟩, -⟩ := addArrival_cases (w := w) (i := i) z sc
  by_cases h : b = (z.warp w).blk
  · subst h
    rw [hl]
  · rcases hs with hs | hs <;> rw [hs, State.block_setBlock_other _ _ h]
    rfl

/-- Whether all members have arrived is asked of the same warps after the arrival as before. -/
theorem allArrived_waiting (hw : (s.warps.find w).isSome = true) (e : Inst) :
    ((arrival s w i).1.updWarp w (waiting s w i)).allArrived (s.warp w).blk e = (started s w i).allArrived (s.warp w).blk e := by
  have hwarps : (arrival s w i).1.warps = (started s w i).warps := warps_addArrival _ _
  have hwarp : ∀ v, (arrival s w i).1.warp v = (started s w i).warp v := fun v => by rw [State.warp, hwarps, State.warp]
  have keep {γ : Type} (p : Warp → γ) (hp : ∀ x, p (waiting s w i x) = p x) (v : Nat) :
      p (((arrival s w i).1.updWarp w (waiting s w i)).warp v) = p ((started s w i).warp v) := by
    by_cases h : v = w
    · subst h
      rw [State.warp_updWarp_same, hp, hwarp]
    · rw [State.warp_updWarp_other _ _ h, hwarp]
  have hsize : ∀ b, (((arrival s w i).1.updWarp w (waiting s w i)).block b).flockSize = ((started s w i).block b).flockSize :=
    fun b => flockSize_addArrival (started s w i) (scopeOfInstr i) b
  refine allArrived_congr e (fun v => ?_) (fun v => ?_) (fun v => ?_)
  · have hfind : (started s w i).warps.find w = some ((s.warp w).issued i) := by
      rw [started_eq_setWarp]
      exact AMap.find_put_same _ _ _
    have hf : (arrival s w i).1.warps.find w = some ((s.warp w).issued i) := by rw [hwarps, hfind]
    refine (AMap.mem_keysWhere_put hf ?_ v).trans ?_
    · rw [hwarp, warp_started]
      rfl
    · rw [hwarps]
      rfl
  · simp only [State.flockIdOf, State.flockSizeOf, State.blockOf, keep Warp.widx (fun _ => rfl), keep Warp.blk (fun _ => rfl),
      hsize]
  · exact keep Warp.exited (fun _ => rfl) v

/-- The arrival, with the bellwether named by the last. -/
theorem arrived_eq (hw : (s.warps.find w).isSome = true) :
    arrived s w i =
      if (started s w i).allArrived (s.warp w).blk (arrival s w i).2 then
        ((arrival s w i).1.updWarp w (waiting s w i)).updInst { s.selfActor w i with inst := some (arrival s w i).2.id }
          (fun e => some { e with bell := some (w, (s.core (s.warp w).core).clock) })
      else (arrival s w i).1.updWarp w (waiting s w i) := by
  have hblk : ((started s w i).warp w).blk = (s.warp w).blk := by rw [warp_started, Warp.issued_blk]
  have hcore : ((started s w i).warp w).core = (s.warp w).core := by rw [warp_started, Warp.issued_core]
  have hown : ((started s w i).blockOf w).index = (s.blockOf w).index := by rw [State.blockOf, hblk, block_started, State.blockOf]
  rw [← allArrived_waiting hw]
  unfold arrived State.arrive
  dsimp only
  rw [selfActor_started, hblk, hcore, hown, clock_started]
  rfl

theorem find_addArrival (z : State) (sc : Scope) (v : Nat) : (z.addArrival sc w i).1.warps.find v = z.warps.find v := by
  rw [warps_addArrival]

/-- The warps after an arrival: the one that arrived waits, the others are kept. -/
theorem warp_arrived (hw : (s.warps.find w).isSome = true) : (arrived s w i).warp w = waiting s w i ((s.warp w).issued i) := by
  have hwarp : (arrival s w i).1.warp w = (s.warp w).issued i := by
    rw [State.warp, arrival, find_addArrival]
    exact warp_started s w i
  rw [arrived_eq hw]
  split
  · rw [State.warp_updInst, State.warp_updWarp_same, hwarp]
  · rw [State.warp_updWarp_same, hwarp]

theorem find_arrived_other (hw : (s.warps.find w).isSome = true) {v : Nat} (h : v ≠ w) :
    (arrived s w i).warps.find v = s.warps.find v := by
  have hfind : (arrival s w i).1.warps.find v = s.warps.find v := by
    rw [arrival, find_addArrival, find_started_other i h]
  rw [arrived_eq hw]
  split
  · rw [State.warps_updInst]
    exact (AMap.find_put_other _ _ h).trans hfind
  · exact (AMap.find_put_other _ _ h).trans hfind

theorem mem_arrived (hw : (s.warps.find w).isSome = true) : (arrived s w i).mem = s.mem := by
  have hmem : (arrival s w i).1.mem = s.mem := mem_addArrival _ _
  rw [arrived_eq hw]
  split
  · rw [State.mem_updInst]
    exact hmem
  · exact hmem

/-- The last to arrive is the bellwether. -/
theorem bell_arrived (hw : (s.warps.find w).isSome = true) (hl : Last s w i) :
    ∃ f ∈ ((arrived s w i).block (s.warp w).blk).insts, f.id = (arrival s w i).2.id ∧
      f.bell = some (w, (s.core (s.warp w).core).clock) := by
  have hblk : ((started s w i).warp w).blk = (s.warp w).blk := by rw [warp_started, Warp.issued_blk]
  obtain ⟨-, -, hin, -⟩ := addArrival_cases (w := w) (i := i) (started s w i) (scopeOfInstr i)
  rw [hblk] at hin
  have hlead : (((arrival s w i).1.updWarp w (waiting s w i)).warp w).blk = (s.warp w).blk := by
    rw [State.warp_updWarp_same, State.warp, arrival, find_addArrival]
    exact hblk
  have hall : (started s w i).allArrived (s.warp w).blk (arrival s w i).2 = true := hl
  rw [arrived_eq hw, if_pos hall]
  unfold State.updInst
  dsimp only
  rw [State.selfActor_lead, hlead, State.block_updBlock_same]
  refine ⟨{ (arrival s w i).2 with bell := some (w, (s.core (s.warp w).core).clock) }, ?_, rfl, rfl⟩
  exact List.mem_filterMap.2 ⟨(arrival s w i).2, hin, if_pos rfl⟩

end

/-! A member that waits for its counters first, and a mismatch. -/

section
variable {gate : Nat → State → Option Res} {op : Actor → State → Res} {s t : State} {w : Nat} {i : Instr}

/-- A member at wider scope meets its gate, and then comes to the rendezvous (10 R223, 06 R129). -/
theorem issueWith_wide (hr : Runs s w i) (hsc : scopeOfInstr i = .flock ∨ scopeOfInstr i = .block) :
    issueWith gate i op s = match gate w (started s w i) with
      | some r => issued (settle (started s w i) (s.loneActor w i) i r)
      | none => issued ((started s w i).join (scopeOfInstr i) w i) := by
  obtain ⟨hf, hrdy, hp⟩ := hr
  have wide : (((s.selfActor w i).scope == .flock) || ((s.selfActor w i).scope == .block)) = true := by
    rcases hsc with h | h <;> simp [h]
  unfold issueWith
  simp only [hf, exists_of_ready hrdy, hrdy, hp, wide] <;> rfl

/-- A member that has passed its gate arrives (06 R129). -/
theorem issueWith_arrives (ha : Arrives s w i) (hg : gate w (started s w i) = none) :
    issueWith gate i op s = .next (arrived s w i) := by
  obtain ⟨hr, hsc, hm⟩ := ha
  rw [issueWith_wide hr hsc, hg]
  dsimp only
  rw [State.join, hm, if_neg Bool.false_ne_true]
  rfl

theorem loneActor_started : (started s w i).loneActor w i = s.loneActor w i := by
  rw [State.loneActor, selfActor_started, State.loneActor]

/-- A member that waits at its gate waits alone. -/
theorem settle_lone_wait {k : WaitKind} {q : List DWord} (hr : s.ready w = true) :
    settle (started s w i) (s.loneActor w i) i (.wait (started s w i) k q) =
      some ((started s w i).updWarp w (fun x => { x with wait := some ⟨k, i, s.loneActor w i, q⟩ })) := by
  have he : ((started s w i).warp w).exited = false := by
    rw [warp_started, Warp.exited_issued]
    exact not_exited_of_ready hr
  rw [settle_wait, updInst_none _ _ _ (alone_loneActor s w i).2.2, waitAll_of_alone (alone_loneActor s w i) _ _ _ he]

/-- What such a wait leaves. -/
theorem lone_wait_leaves {k : WaitKind} {q : List DWord} :
    let t := (started s w i).updWarp w (fun x => { x with wait := some ⟨k, i, s.loneActor w i, q⟩ })
    ∃ r, (t.warp w).wait = some r ∧ r.kind = k ∧ t.blocks = s.blocks ∧ (t.warp w).pc = (s.warp w).pc ∧
      ∀ v, v ≠ w → t.warps.find v = s.warps.find v := by
  intro t
  have hw : t.warp w = { (s.warp w).issued i with wait := some ⟨k, i, s.loneActor w i, q⟩ } := by
    rw [State.warp_updWarp_same, warp_started]
  refine ⟨⟨k, i, s.loneActor w i, q⟩, by rw [hw], rfl, rfl, by rw [hw]; exact Warp.issued_pc _ _, fun v hv => ?_⟩
  exact (AMap.find_put_other _ _ hv).trans (find_started_other i hv)

end

/-! The gates of WAITC and FLAGRD. -/

section
variable {s : State} {w : Nat}

@[simp] theorem Warp.length_loads_issued (x : Warp) (i : Instr) : (x.issued i).loads.length = x.loads.length := by
  unfold Warp.issued
  split
  · rfl
  · exact List.length_map _

theorem matrixFault_issued (x : Warp) (i : Instr) (n : Nat) : (x.issued i).matrixFault n = x.matrixFault n := by
  simp [Warp.matrixFault]

/-- A member with its counters at or below the limits of a WAITC passes its gate (10 R223). -/
theorem gateWaitc_started {i : Instr} {va : BitVec 8} {imm : BitVec 24}
    (hf : (s.warp w).matrixFault (imm.toNat / 64 ^ 2 % 64) = none) :
    gateWaitc (.xi va imm) w (started s w i) =
      if (s.warp w).loads.length ≤ imm.toNat / 64 ^ 0 % 64 ∧ (s.warp w).stores.length ≤ imm.toNat / 64 ^ 1 % 64 ∧
        (s.warp w).matrix.length ≤ imm.toNat / 64 ^ 2 % 64 ∧ (s.warp w).tileq.length ≤ imm.toNat / 64 ^ 3 % 64 then none
      else some (.wait (started s w i) .waitc []) := by
  have lims : ∀ k < 4, (waitcLimits (.xi va imm)).getD k 63 = imm.toNat / 64 ^ k % 64 := by
    intro k hk
    simp [waitcLimits, List.getD, hk]
  unfold gateWaitc counterGate
  dsimp only
  simp only [lims 0 (by decide), lims 1 (by decide), lims 2 (by decide), lims 3 (by decide), warp_started, matrixFault_issued,
    hf, Warp.length_loads_issued, Warp.issued_stores, Warp.issued_matrix, Warp.issued_tileq, Bool.and_eq_true, decide_eq_true_eq, and_assoc]

theorem gateFlagrd_started {i : Instr} (hf : (s.warp w).matrixFault 0 = none) :
    gateFlagrd w (started s w i) = if (s.warp w).matrix = [] then none else some (.wait (started s w i) .flagrd []) := by
  unfold gateFlagrd
  simp only [warp_started, matrixFault_issued, hf, Warp.issued_matrix]

theorem matrixFault_nil {x : Warp} (h : x.matrix = []) (n : Nat) : x.matrixFault n = none := by
  simp [Warp.matrixFault, h]

end

/-- An instruction that is neither WAITC nor FLAGRD meets nothing before its arrival. -/
theorem exec_ungated {i : Instr} (hw : i.isWord = true) (h : ∀ h u, i ≠ .waitc h u ∧ i ≠ .flagrd h u) :
    ∃ op, ∀ s, exec i s = issue i op s := by
  cases i
  case waitc hd u => exact absurd rfl (h hd u).1
  case flagrd hd u => exact absurd rfl (h hd u).2
  all_goals cases hw
  all_goals exact ⟨_, fun _ => rfl⟩

/-- Settles O26: the arrival, the mismatch, and the waits of WAITC and FLAGRD before it. -/
theorem rendezvousArrival : Obligations.RendezvousArrival := by
  unfold Obligations.RendezvousArrival
  refine ⟨fun s w i hword ha hkind => ?_, fun s w i hword hu hr hsc hm room => ?_, fun s w h va imm => ?_⟩
  · intro t e
    have hr := ha.1
    have hex : (s.warps.find w).isSome = true := (canIssue_of_ready hr.2.1).1
    have hx : exec i s = .next t := by
      rcases hkind with hu | ⟨h, va, imm, rfl, hf, hl, hst, hm, htq⟩ | ⟨h, u, rfl, hm⟩
      · obtain ⟨op, hop⟩ := exec_ungated hword hu
        rw [hop]
        exact issue_arrives ha
      · refine issueWith_arrives (op := opWaitc (.xi va imm)) ha ((gateWaitc_started hf).trans (if_pos ?_))
        exact ⟨hl, hst, hm, htq⟩
      · exact issueWith_arrives (op := opFlagrd h u) ha ((gateFlagrd_started (matrixFault_nil hm 0)).trans (if_pos hm))
    have hwarp : t.warp w = waiting s w i ((s.warp w).issued i) := warp_arrived hex
    refine ⟨hx, by rw [hwarp]; rfl, by rw [hwarp]; exact Warp.issued_pc _ _, by rw [hwarp]; exact Warp.issued_v _ _,
      by rw [hwarp]; exact Warp.issued_s _ _, by rw [hwarp]; rfl, mem_arrived hex, fun v hv => find_arrived_other hex hv, ?_,
      fun hl => bell_arrived hex hl⟩
    have hin := (addArrival_cases (w := w) (i := i) (started s w i) (scopeOfInstr i)).2.2.2
    rw [warp_started, Warp.issued_active, Warp.selected_issued] at hin
    exact List.any_eq_true.2 ⟨_, hin, by simp⟩
  · obtain ⟨op, hop⟩ := exec_ungated hword hu
    have hx : exec i s = .next (loneFault s w i (FaultInfo.of cFlockMismatch 0)) := by
      rw [hop, issue, issueWith_wide hr hsc]
      dsimp only
      rw [State.join, hm, if_pos rfl, Res.cause, loneActor_started, settle_lone hr.2.1 room]
      rfl
    refine ⟨_, hx, susp_loneFault i _ hr.2.1 rfl rfl, ?_, blocks_loneFault i _ hr.2.1,
      fun v hv => find_loneFault_other i _ hr.2.1 hv⟩
    rw [keeps_loneFault i _ hr.2.1 Warp.pc (fun _ _ => rfl) (fun _ => rfl), warp_started, Warp.issued_pc]
  · intro ic ig x lim hsc
    refine ⟨fun hr hf hl => ?_, fun hr hf hm => ?_⟩
    · have hx : exec ic s = issueWith (gateWaitc (.xi va imm)) ic (opWaitc (.xi va imm)) s := rfl
      obtain ⟨q, hq⟩ := lone_wait_leaves (s := s) (w := w) (i := ic) (k := .waitc) (q := [])
      refine ⟨_, q, ?_, hq⟩
      rw [hx, issueWith_wide hr hsc, gateWaitc_started hf, if_neg hl]
      dsimp only
      rw [settle_lone_wait hr.2.1]
      rfl
    · have hx : exec ig s = issueWith gateFlagrd ig (opFlagrd h (.xi va imm)) s := rfl
      obtain ⟨q, hq⟩ := lone_wait_leaves (s := s) (w := w) (i := ig) (k := .flagrd) (q := [])
      refine ⟨_, q, ?_, hq⟩
      rw [hx, issueWith_wide hr hsc, gateFlagrd_started hf, if_neg hm]
      dsimp only
      rw [settle_lone_wait hr.2.1]
      rfl

end Sys2Proof.Machine
end

section
/-! PROOF. The addresses of a memory access by one warp, and the precise fault where a lane fails a check (10 R207, R210). -/

namespace Sys2Proof.Machine

section
variable {s : State} {w : Nat} {i : Instr}

@[simp] theorem laneAddr_issued (x : Warp) (i : Instr) (k : Nat) (u : Bool) (b : DWord) (f : MForm) (n l : Nat) :
    laneAddr (x.issued i) k u b f n l = laneAddr x k u b f n l := by
  simp [laneAddr]

theorem firstMember_self (h : Solo s w i) : (started s w i).firstMember (s.selfActor w i) = w := by
  rw [State.firstMember, liveMembers_of_alone (alone_selfActor s w i) (not_exited_started h)]
  rfl

/-- The accesses of one warp: one in each lane performed, at the address formed there. -/
theorem items_self (h : Solo s w i) (f : MForm) (size : Nat) :
    (started s w i).items (s.selfActor w i) f size = (lanesDone s w i).map (fun l =>
      ⟨w, l, laneAddr (s.warp w) ((started s w i).draw 0) (scopeOfInstr i == .warp)
        ((s.warp w).readPairS ((started s w i).draw 0) f.base.toNat) f size l⟩) := by
  have hm : (s.selfActor w i).members = [⟨w, (s.warp w).active, (s.warp w).selected i⟩] := rfl
  unfold State.items lanesDone
  dsimp only
  rw [firstMember_self h, hm]
  simp only [List.flatMap_cons, List.flatMap_nil, List.append_nil, warp_started, Warp.readPairS_issued, laneAddr_issued,
    State.selfActor_scope]
  rcases h.2.2 with hl | ⟨hl, hs⟩
  · simp [hl]
  · simpa [hl] using hs

theorem loadsFull_self (h : Solo s w i) : (started s w i).loadsFull (s.selfActor w i) =
    decide (Config.counterMax ≤ (s.warp w).loads.length) := by
  rw [State.loadsFull, liveMembers_of_alone (alone_selfActor s w i) (not_exited_started h)]
  simp [State.selfActor]

theorem storesFull_self (h : Solo s w i) : (started s w i).storesFull (s.selfActor w i) =
    decide (Config.counterMax ≤ (s.warp w).stores.length) := by
  rw [State.storesFull, liveMembers_of_alone (alone_selfActor s w i) (not_exited_started h)]
  simp [State.selfActor]

theorem loads_not_full (h : Solo s w i) (hn : (s.warp w).loads.length < 63) :
    (started s w i).loadsFull (s.selfActor w i) = false := by
  rw [loadsFull_self h]
  exact decide_eq_false (Nat.not_le.2 hn)

theorem stores_not_full (h : Solo s w i) (hn : (s.warp w).stores.length < 63) :
    (started s w i).storesFull (s.selfActor w i) = false := by
  rw [storesFull_self h]
  exact decide_eq_false (Nat.not_le.2 hn)

end

section
variable {a : Actor} {s : State} {f : MForm} {h : Hdr} {fn : Nat} {e : FaultInfo}

/-- A load whose lanes do not all pass the checks. -/
theorem opLoad_error (hi : s.items a f (esizeBytes f.esize) ≠ []) (hf : s.loadsFull a = false)
    (hr : s.resolve a 0 fn (memSpace fn) (Rights.r (f.mscope == 5)) (esizeBytes f.esize)
      (if f.order == 0 then 1 else esizeBytes f.esize) (s.items a f (esizeBytes f.esize)) = .error e) :
    opLoad fn h (.m f) a s = .fault e := by
  unfold opLoad
  dsimp only
  rw [if_neg (mt List.isEmpty_iff.1 hi), hf, if_neg Bool.false_ne_true, hr]

theorem opStore_error (hi : s.items a f (esizeBytes f.esize) ≠ []) (hf : s.storesFull a = false)
    (hr : s.resolve a 0 fn (memSpace fn) (Rights.w (f.mscope == 5)) (esizeBytes f.esize)
      (if f.order == 0 then 1 else esizeBytes f.esize) (s.items a f (esizeBytes f.esize)) = .error e) :
    opStore fn h (.m f) a s = .fault e := by
  unfold opStore
  dsimp only
  rw [if_neg (mt List.isEmpty_iff.1 hi), hf, if_neg Bool.false_ne_true, hr]

theorem opAtomic_error (hi : s.items a f (esizeBytes f.esize) ≠ []) (hl : s.loadsFull a = false)
    (hf : s.storesFull a = false)
    (hr : s.resolve a 1 fn (memSpace fn) (Rights.rw (f.mscope == 5)) (esizeBytes f.esize) (esizeBytes f.esize)
      (s.items a f (esizeBytes f.esize)) = .error e) :
    opAtomic fn h (.m f) a s = .fault e := by
  unfold opAtomic
  dsimp only
  rw [if_neg (mt List.isEmpty_iff.1 hi), hl, hf, ite_self, if_neg Bool.false_ne_true, hr]

end

/-- The loads are performed by one operation. -/
theorem exec_loadForms {e : (Hdr → Upper → Instr) × Nat} (he : e ∈ loadForms) (h : Hdr) (u : Upper) (s : State) :
    exec (e.1 h u) s = issue (e.1 h u) (opLoad e.2 h u) s := by
  simp only [loadForms, List.mem_cons, List.not_mem_nil, or_false] at he
  rcases he with rfl | rfl | rfl <;> rfl

theorem exec_storeForms {e : (Hdr → Upper → Instr) × Nat} (he : e ∈ storeForms) (h : Hdr) (u : Upper) (s : State) :
    exec (e.1 h u) s = issue (e.1 h u) (opStore e.2 h u) s := by
  simp only [storeForms, List.mem_cons, List.not_mem_nil, or_false] at he
  rcases he with rfl | rfl | rfl <;> rfl

theorem exec_atomicForms {e : (Hdr → Upper → Instr) × Nat} (he : e ∈ atomicForms) (h : Hdr) (u : Upper) (s : State) :
    exec (e.1 h u) s = issue (e.1 h u) (opAtomic e.2 h u) s := by
  simp only [atomicForms, List.mem_cons, List.not_mem_nil, or_false] at he
  rcases he with rfl | rfl <;> rfl

/-- Settles O34: the address is that of 10 R207 in each lane performed, and a failed check is the fault of the access. -/
theorem addressesAndFaults : Obligations.AddressesAndFaults := by
  unfold Obligations.AddressesAndFaults
  refine ⟨fun s w i f size h => items_self h f size, fun s w h f e agent r align fault => ?_⟩
  intro i z a size its forms hs hi hl hst room hr
  have hlf : z.loadsFull a = false := loads_not_full hs hl
  have hsf : z.storesFull a = false := stores_not_full hs hst
  rcases forms with ⟨he, rfl, rfl, rfl⟩ | ⟨he, rfl, rfl, rfl⟩ | ⟨he, rfl, rfl, rfl⟩
  · rw [exec_loadForms he]
    exact issue_fault hs room (opLoad_error hi hlf hr)
  · rw [exec_storeForms he]
    exact issue_fault hs room (opStore_error hi hsf hr)
  · rw [exec_atomicForms he]
    exact issue_fault hs room (opAtomic_error hi hlf hsf hr)

end Sys2Proof.Machine
end

section
/-! PROOF. Loads of one warp (10 R208, R211 to R214): what an access leaves as it was, and the load that is counted. -/

namespace Sys2Proof.Machine

/-! What an access changes. -/

/-- `t` is `s` but for the TLBs, what is kept of races, the reads that leave the device, and the warps. -/
def State.glanceOf (s t : State) : Prop :=
  t = { s with cores := t.cores, past := t.past, sync := t.sync, outputs := t.outputs, warps := t.warps }

theorem State.glanceOf_refl (s : State) : s.glanceOf s := rfl

theorem State.glanceOf_trans {s t u : State} (h : s.glanceOf t) (g : t.glanceOf u) : s.glanceOf u := by
  unfold State.glanceOf at *
  rw [g, h]

theorem State.glanceOf_pastOf {s t : State} (h : s.pastOf t) : s.glanceOf t := by
  unfold State.glanceOf
  rw [h]

theorem State.glanceOf_coresOf {s t : State} (h : s.coresOf t) : s.glanceOf t := by
  unfold State.glanceOf
  rw [h]

theorem State.glanceOf_updWarp (s : State) (w : Nat) (f : Warp → Warp) : s.glanceOf (s.updWarp w f) := rfl

section
variable {s t : State} (h : s.glanceOf t)
include h

theorem State.glanceOf_mem : t.mem = s.mem := by rw [h]
theorem State.glanceOf_blocks : t.blocks = s.blocks := by rw [h]
theorem State.glanceOf_poison : t.poison = s.poison := by rw [h]
theorem State.glanceOf_parts : t.parts = s.parts := by rw [h]
theorem State.glanceOf_grids : t.grids = s.grids := by rw [h]
theorem State.glanceOf_ops : t.ops = s.ops := by rw [h]
theorem State.glanceOf_freeCtr : t.freeCtr = s.freeCtr := by rw [h]
theorem State.glanceOf_foldsOf (fn : Nat) (ts : List Target) : t.foldsOf fn ts = s.foldsOf fn ts := by rw [h]; rfl

end

/-- `t` is `s` but for the outputs. -/
def State.outputsOf (s t : State) : Prop := t = { s with outputs := t.outputs }

theorem State.outputsOf_trans {s t u : State} (h : s.outputsOf t) (g : t.outputsOf u) : s.outputsOf u := by
  unfold State.outputsOf at *
  rw [g, h]

theorem State.outputsOf_foldl {β : Type} (f : State → β → State) (h : ∀ (s : State) (b : β), s.outputsOf (f s b)) (l : List β)
    (s : State) : s.outputsOf (l.foldl f s) := by
  induction l generalizing s with
  | nil => rfl
  | cons b t ih => exact State.outputsOf_trans (h s b) (ih _)

theorem State.notePeerReads_outputsOf (s : State) (ts : List Target) : s.outputsOf (s.notePeerReads ts) := by
  refine State.outputsOf_foldl _ (fun s t => ?_) ts s
  cases t with
  | scr => rfl
  | glob rs =>
    refine State.outputsOf_foldl _ (fun s e => ?_) rs s
    split <;> rfl

theorem State.coresOf_trans {s t u : State} (h : s.coresOf t) (g : t.coresOf u) : s.coresOf u := by
  unfold State.coresOf at *
  rw [g, h]

theorem State.coresOf_foldl {β : Type} (f : State → β → State) (h : ∀ (s : State) (b : β), s.coresOf (f s b)) (l : List β)
    (s : State) : s.coresOf (l.foldl f s) := by
  induction l generalizing s with
  | nil => rfl
  | cons b t ih => exact State.coresOf_trans (h s b) (ih _)

theorem State.fillTlb_coresOf (s : State) (core part k : Nat) (a : DWord) : s.coresOf (s.fillTlb core part k a) := by
  unfold State.fillTlb
  dsimp only
  split <;> rfl

theorem State.fillFor_coresOf (s : State) (a : Actor) (sp : Space) (its : List Item) : s.coresOf (s.fillFor a sp its) := by
  unfold State.fillFor
  split
  · split
    · rfl
    · exact State.coresOf_foldl _ (fun s _ => s.fillTlb_coresOf ..) its s
  · rfl

theorem State.sawAll_pastOf (s : State) (a : Actor) (f : MForm) (rs : List (Item × Target)) : s.pastOf (s.sawAll a f rs) :=
  State.pastOf_foldl _ (fun t _ => t.readBy_pastOf ..) rs s

theorem State.released_pastOf (s : State) (a : Actor) (f : MForm) : s.pastOf (s.released a f) := by
  unfold State.released
  split
  · exact State.pastOf_foldl _ (fun s _ => s.releaseBy_pastOf _) _ s
  · exact s.pastOf_refl

/-! The warp of an access. -/

/-- `y` is `x` but for the loads and stores in flight. -/
def Warp.queuesOf (x y : Warp) : Prop := y = { x with loads := y.loads, stores := y.stores }

theorem Warp.queuesOf_trans {x y z : Warp} (h : x.queuesOf y) (g : y.queuesOf z) : x.queuesOf z := by
  unfold Warp.queuesOf at *
  rw [g, h]

/-- What has been read no more than fixes the reads of loads in flight. -/
def sameLoads (p q : List PendLoad) : Prop := p.map (fun l => { l with reads := [] }) = q.map (fun l => { l with reads := [] })

theorem Warp.sameLoads_fixReads (x : Warp) (p : PendLoad → LateRead → Bool) : sameLoads (x.fixReads p).loads x.loads := by
  simp [sameLoads, Warp.fixReads, Function.comp_def]

theorem Warp.sameLoads_issued (x : Warp) (i : Instr) : sameLoads (x.issued i).loads x.loads := by
  unfold Warp.issued
  split
  · rfl
  · exact x.sameLoads_fixReads _

theorem fixReads_none (x : Warp) : x.fixReads (fun _ _ => false) = x := by
  simp [Warp.fixReads]

section
variable {s : State} {w : Nat} {i : Instr}

theorem liveMembers_self {z : State} (h : Solo s w i) (hl : (z.warp w).live = (s.warp w).live) :
    z.liveMembers (s.selfActor w i) = [⟨w, (s.warp w).active, (s.warp w).selected i⟩] :=
  liveMembers_of_alone (alone_selfActor s w i) (not_exited_of_live h hl)

/-- An access of a warp fixes what its loads in flight have read. -/
theorem fixReads_self (h : Solo s w i) (ts : List Target) : ∃ p, (started s w i).fixReads (s.selfActor w i) ts =
    (started s w i).setWarp w (((s.warp w).issued i).fixReads p) := by
  unfold State.fixReads
  rw [liveMembers_self h (by rw [warp_started]; exact Warp.issued_live _ _)]
  simp only [List.foldl_cons, List.foldl_nil]
  split
  · exact ⟨_, started_updWarp ..⟩
  · refine ⟨fun _ _ => false, ?_⟩
    rw [fixReads_none, ← started_updWarp s w i (fun x => x), started_updWarp_id]

/-- An access of a warp before its own effect: the reads fixed, and the TLB filled. -/
theorem accessed_self (h : Solo s w i) (ts : List Target) (sp : Space) (its : List Item) : ∃ p,
    ((started s w i).setWarp w (((s.warp w).issued i).fixReads p)).coresOf
      (((started s w i).fixReads (s.selfActor w i) ts).fillFor (s.selfActor w i) sp its) := by
  obtain ⟨p, hp⟩ := fixReads_self h ts
  exact ⟨p, hp ▸ State.fillFor_coresOf ..⟩

/-- The instruction neither dithers nor repeats: it goes on past itself and nothing else. -/
def plain (i : Instr) : Prop := usesDither i = false ∧ ∀ f t, i ≠ .rep f t

/-- A plain instruction is past at the next address. -/
theorem warp_past_plain (hp : plain i) (t : State) : (past s w i t).warp w = { t.warp w with
    pc := canon57 ((t.warp w).pc + BitVec.ofNat 64 (instrLength i)), wait := none, blocked := Blocked.none } := by
  have hrep : (s.selfActor w i).rep = none := by
    cases i
    case rep f t => exact absurd rfl (hp.2 f t)
    all_goals rfl
  rw [past, State.warp_updWarp_same, hrep, Warp.countDither, hp.1, if_neg Bool.false_ne_true]
  rfl

/-- A memory instruction's frame from what its effect does to the warps and to engine work. -/
theorem memoryFrame_past {t : State} (hp : plain i) (hv : ∀ v, v ≠ w → t.warps.find v = s.warps.find v) (ho : t.ops = s.ops)
    (hw : ((s.warp w).issued i).queuesOf (t.warp w)) : MemoryFrame s (past s w i t) w i := by
  refine ⟨fun v hne => (AMap.find_put_other _ _ hne).trans (hv v hne), ho, ?_⟩
  rw [warp_past_plain hp, hw, warp_started, Warp.issued_pc]

@[simp] theorem mem_past (t : State) : (past s w i t).mem = t.mem := rfl
@[simp] theorem blocks_past (t : State) : (past s w i t).blocks = t.blocks := rfl
@[simp] theorem block_past (t : State) (b : Nat) : (past s w i t).block b = t.block b := rfl
@[simp] theorem parts_past (t : State) : (past s w i t).parts = t.parts := rfl
@[simp] theorem part_past (t : State) (p : Nat) : (past s w i t).part p = t.part p := rfl
@[simp] theorem grids_past (t : State) : (past s w i t).grids = t.grids := rfl
@[simp] theorem poison_past (t : State) : (past s w i t).poison = t.poison := rfl

/-! The load that is counted. -/

/-- A load is counted on the warp that performs it. -/
theorem pushLoads_self {t : State} (h : Solo s w i) (hl : (t.warp w).live = (s.warp w).live)
    (hpc : (t.warp w).pc = (s.warp w).pc) (bad : Option Cause) (fn : Nat) (ts : List Target) (atomic : Bool)
    (cells : List (Nat × LoadCell)) (reads : List (Nat × LateRead)) :
    t.pushLoads (s.selfActor w i) bad fn ts atomic cells reads = t.updWarp w (fun x => { x with loads := x.loads ++
      [⟨(cells.filter (fun c => c.1 = w)).map (fun c => c.2), (reads.filter (fun c => c.1 = w)).map (fun c => c.2), bad,
        peersOf ts, t.foldsOf fn ts, atomic, (s.warp w).pc, recordWord i, false⟩] }) := by
  unfold State.pushLoads
  rw [liveMembers_self h hl, State.selfActor_lead, hpc]
  rfl

theorem pushStores_self {t : State} (h : Solo s w i) (hl : (t.warp w).live = (s.warp w).live)
    (hpc : (t.warp w).pc = (s.warp w).pc) (bad : Option Cause) (fn : Nat) (ts : List Target) (atomic : Bool) :
    t.pushStores (s.selfActor w i) bad fn ts atomic = t.updWarp w (fun x => { x with stores := x.stores ++
      [⟨t.freeCtr, bad, peersOf ts, t.foldsOf fn ts, atomic, memSpace fn == .scratch, (s.warp w).pc, recordWord i,
        false⟩] }) := by
  unfold State.pushStores
  rw [liveMembers_self h hl, State.selfActor_lead, hpc]
  rfl

theorem mem_of_resolve {a : Actor} {agent fn size align : Nat} {sp : Space} {r : Rights} {its : List Item} {z : State}
    {rs : List (Item × Target)} (h : z.resolve a agent fn sp r size align its = .ok rs) {e : Item × Target} (he : e ∈ rs) :
    e.1 ∈ its ∧ z.checkElem (z.via a.lead) (z.warp a.lead).blk agent sp r (z.draw 8) e.1.addr size align = .ok e.2 := by
  unfold State.resolve at h
  dsimp only at h
  split at h
  · rw [Except.ok.injEq] at h
    subst h
    obtain ⟨p, hp, hq⟩ := List.mem_filterMap.1 he
    obtain ⟨x, hx, rfl⟩ := List.mem_map.1 hp
    dsimp only at hq
    split at hq
    next t ht =>
      cases hq
      exact ⟨hx, ht⟩
    · cases hq
  · cases h

/-- Every access of an instruction of one warp is the warp's. -/
theorem w_of_resolve (h : Solo s w i) {f : MForm} {agent fn size align n : Nat} {sp : Space} {r : Rights}
    {rs : List (Item × Target)} (hr : (started s w i).resolve (s.selfActor w i) agent fn sp r size align
      ((started s w i).items (s.selfActor w i) f n) = .ok rs) : ∀ e ∈ rs, e.1.w = w := by
  intro e he
  have hm := (mem_of_resolve hr he).1
  rw [items_self h] at hm
  obtain ⟨l, -, hl⟩ := List.mem_map.1 hm
  rw [← hl]

theorem agentAt_self {x : Item} (hx : x.w = w) (f : MForm) :
    (started s w i).agentAt (s.selfActor w i) x f.mscope.toNat = laneAgent (started s w i) s w f x := by
  rw [State.agentAt, hx, agentOf_self]
  rfl

/-- Of cells that are all the warp's, every one is kept. -/
theorem own_cells {β γ : Type} {l : List γ} {f : γ → List (Nat × β)} (h : ∀ e ∈ l, ∀ c ∈ f e, c.1 = w) :
    ((l.flatMap f).filter (fun c => c.1 = w)).map (fun c => c.2) = l.flatMap (fun e => (f e).map (fun c => c.2)) := by
  rw [List.filter_eq_self.2 (fun c hc => by
    obtain ⟨e, he, hc⟩ := List.mem_flatMap.1 hc
    simpa using h e he c hc), List.map_flatMap]

/-- The late reads of a load of one warp. -/
theorem lateReads_self {f : MForm} {bad : Option Cause} {fill : Filling} {rs : List (Item × Target)}
    (hw : ∀ e ∈ rs, e.1.w = w) :
    ((lateReads (s.selfActor w i) f bad (fun _ => fill) rs).filter (fun c => c.1 = w)).map (fun c => c.2) =
      mayReadLate s w f bad fill rs := by
  unfold lateReads mayReadLate
  have hacq : (acquires f || bad.isSome || !(peersOf (rs.map (fun e => e.2))).isEmpty) = true ↔
      (f.order = 1 ∨ f.order = 3 ∨ bad.isSome = true ∨ peersOf (rs.map (fun e => e.2)) ≠ []) := by
    simp [acquires, or_assoc]
  by_cases hc : (acquires f || bad.isSome || !(peersOf (rs.map (fun e => e.2))).isEmpty) = true
  · rw [if_pos hc, if_pos (hacq.1 hc)]
    rfl
  · rw [if_neg hc, if_neg (mt hacq.2 hc), List.filter_eq_self.2, List.map_map]
    · refine List.map_congr_left fun e he => ?_
      simp [hw e he, Actor.actOf, State.selfActor]
    · intro c hc
      obtain ⟨e, he, rfl⟩ := List.mem_map.1 hc
      simpa using hw e he

end

end Sys2Proof.Machine
end

section
/-! PROOF. LD, LDS and LDF complete at issue (10 R214). -/

namespace Sys2Proof.Machine

/-- A load whose lanes pass the checks. -/
theorem opLoad_ok {a : Actor} {s : State} {f : MForm} {h : Hdr} {fn : Nat} {rs : List (Item × Target)}
    (hi : s.items a f (esizeBytes f.esize) ≠ []) (hf : s.loadsFull a = false)
    (hr : s.resolve a 0 fn (memSpace fn) (Rights.r (f.mscope == 5)) (esizeBytes f.esize)
      (if f.order == 0 then 1 else esizeBytes f.esize) (s.items a f (esizeBytes f.esize)) = .ok rs) :
    opLoad fn h (.m f) a s = .ok (((((s.fixReads a (rs.map (fun e => e.2))).fillFor a (memSpace fn)
      (s.items a f (esizeBytes f.esize))).notePeerReads (rs.map (fun e => e.2))).sawAll a f rs).pushLoads a
        (s.badLoad (rs.map (fun e => e.2))) fn (rs.map (fun e => e.2)) false
        (rs.flatMap (fun e => cellsOf e.1.w (a.scope == .warp) h.vd.toNat e.1.lane
          (loadWords (s.see (s.agentAt a e.1 f.mscope.toNat) (s.draw 6) e.2) h.x)))
        (lateReads a f (s.badLoad (rs.map (fun e => e.2))) (fun _ => .elem (a.scope == .warp) h.vd.toNat h.x) rs)) := by
  unfold opLoad
  dsimp only
  rw [if_neg (mt List.isEmpty_iff.1 hi), hf, if_neg Bool.false_ne_true, hr]

section
variable {s : State} {w : Nat} {i : Instr}

/-- A state reached by an access alone: the warp has its reads fixed, and nothing else of it differs. -/
structure Glanced (s : State) (w : Nat) (i : Instr) (t : State) : Prop where
  frame : (started s w i).glanceOf t
  warp : ∃ p, t.warps = ((started s w i).setWarp w (((s.warp w).issued i).fixReads p)).warps

theorem Glanced.warp_eq {t : State} (g : Glanced s w i t) : ∃ p, t.warp w = ((s.warp w).issued i).fixReads p := by
  obtain ⟨p, hp⟩ := g.warp
  refine ⟨p, ?_⟩
  rw [State.warp, hp]
  exact State.warp_setWarp_same _ _ _

theorem Glanced.find_other {t : State} (g : Glanced s w i t) {v : Nat} (hv : v ≠ w) :
    t.warps.find v = s.warps.find v := by
  obtain ⟨p, hp⟩ := g.warp
  rw [hp]
  exact (AMap.find_put_other _ _ hv).trans (find_started_other i hv)

theorem glanced_access (h : Solo s w i) (ts : List Target) (sp : Space) (its : List Item) :
    Glanced s w i (((started s w i).fixReads (s.selfActor w i) ts).fillFor (s.selfActor w i) sp its) := by
  obtain ⟨p, hp⟩ := accessed_self h ts sp its
  exact ⟨State.glanceOf_trans ((started s w i).glanceOf_updWarp w (fun _ => _)) (State.glanceOf_coresOf hp), p, by rw [hp]⟩

theorem glanced_seen (h : Solo s w i) (ts : List Target) (sp : Space) (its : List Item) (f : MForm)
    (rs : List (Item × Target)) : Glanced s w i (((((started s w i).fixReads (s.selfActor w i) ts).fillFor (s.selfActor w i)
      sp its).notePeerReads ts).sawAll (s.selfActor w i) f rs) := by
  have g := glanced_access h ts sp its
  have ho := State.notePeerReads_outputsOf (((started s w i).fixReads (s.selfActor w i) ts).fillFor (s.selfActor w i) sp its) ts
  have hp := State.sawAll_pastOf ((((started s w i).fixReads (s.selfActor w i) ts).fillFor (s.selfActor w i) sp
    its).notePeerReads ts) (s.selfActor w i) f rs
  refine ⟨State.glanceOf_trans (State.glanceOf_trans g.frame ?_) (State.glanceOf_pastOf hp), ?_⟩
  · unfold State.glanceOf
    rw [ho]
  · obtain ⟨p, hq⟩ := g.warp
    exact ⟨p, by rw [hp, ho]; exact hq⟩

/-- What a load that has been counted leaves. -/
theorem load_leaves {t : State} (h : Solo s w i) (hp : plain i) (g : Glanced s w i t) {l : PendLoad} :
    let y := past s w i (t.updWarp w (fun x => { x with loads := x.loads ++ [l] }))
    MemoryFrame s y w i ∧ y.mem = s.mem ∧ y.blocks = s.blocks ∧ y.poison = s.poison ∧ y.parts = s.parts ∧ y.grids = s.grids ∧
      (y.warp w).stores = (s.warp w).stores ∧ LoadsKept s y w (s.warp w).loads.length ∧
      (y.warp w).loads.drop (s.warp w).loads.length = [l] := by
  intro y
  obtain ⟨p, hx⟩ := g.warp_eq
  have hw : (t.updWarp w (fun x => { x with loads := x.loads ++ [l] })).warp w =
      { ((s.warp w).issued i).fixReads p with loads := (((s.warp w).issued i).fixReads p).loads ++ [l] } := by
    rw [State.warp_updWarp_same, hx]
  have hloads : (y.warp w).loads = (((s.warp w).issued i).fixReads p).loads ++ [l] := by
    rw [warp_past_plain hp, hw]
  have hlen : (((s.warp w).issued i).fixReads p).loads.length = (s.warp w).loads.length := by
    simp [Warp.fixReads]
  refine ⟨memoryFrame_past hp (fun v hv => ?_) (State.glanceOf_ops g.frame :) (by rw [hw]; rfl), (State.glanceOf_mem g.frame :),
    (State.glanceOf_blocks g.frame :), (State.glanceOf_poison g.frame :), (State.glanceOf_parts g.frame :), (State.glanceOf_grids g.frame :), ?_,
    ?_, ?_⟩
  · exact (AMap.find_put_other _ _ hv).trans (g.find_other hv)
  · rw [warp_past_plain hp, hw]
    exact Warp.issued_stores _ _
  · rw [LoadsKept, hloads, ← hlen, List.take_left]
    exact (Warp.sameLoads_fixReads _ _).trans (Warp.sameLoads_issued _ _)
  · rw [hloads, ← hlen, List.drop_left]

end

theorem plain_loadForms {e : (Hdr → Upper → Instr) × Nat} (he : e ∈ loadForms) (h : Hdr) (f : MForm) : plain (e.1 h (.m f)) := by
  simp only [loadForms, List.mem_cons, List.not_mem_nil, or_false] at he
  rcases he with rfl | rfl | rfl <;> exact ⟨rfl, fun _ _ => Instr.noConfusion⟩

/-- The cells that a load of one warp fills, as its lanes' paths see memory. -/
theorem loadCells_self {s : State} {w : Nat} {i : Instr} {h : Hdr} {f : MForm} {rs : List (Item × Target)}
    (hsc : scopeOfInstr i = h.scope) (hw : ∀ e ∈ rs, e.1.w = w) :
    ((rs.flatMap (fun e => cellsOf e.1.w ((s.selfActor w i).scope == .warp) h.vd.toNat e.1.lane
      (loadWords ((started s w i).see ((started s w i).agentAt (s.selfActor w i) e.1 f.mscope.toNat) ((started s w i).draw 6) e.2)
        h.x))).filter (fun c => c.1 = w)).map (fun c => c.2) = loadCells (started s w i) s w h f rs := by
  rw [own_cells]
  · refine List.flatMap_congr fun e he => ?_
    rw [hw e he, agentAt_self (hw e he), State.selfActor_scope, hsc]
  · intro e he c hc
    obtain ⟨n, -, rfl⟩ := List.mem_map.1 hc
    exact hw e he

/-- Settles O31: the access fixes what earlier loads have read, and the load is counted with its cells. -/
theorem loadsComplete : Obligations.LoadsComplete := by
  unfold Obligations.LoadsComplete
  intro s w h f e he rs i z a size its ts hs hi hl hr
  have hp : plain i := plain_loadForms he h f
  have hsc : scopeOfInstr i = h.scope := by
    simp only [loadForms, List.mem_cons, List.not_mem_nil, or_false] at he
    rcases he with rfl | rfl | rfl <;> rfl
  have hw : ∀ x ∈ rs, x.1.w = w := w_of_resolve hs hr
  have g := glanced_seen hs ts (memSpace e.2) its f rs
  obtain ⟨p, hx⟩ := g.warp_eq
  have hpush := pushLoads_self hs (t := (((z.fixReads a ts).fillFor a (memSpace e.2) its).notePeerReads ts).sawAll a f rs)
    (by rw [hx]; exact Warp.issued_live _ _) (by rw [hx]; exact Warp.issued_pc _ _) (z.badLoad ts) e.2 ts false
    (rs.flatMap (fun e => cellsOf e.1.w (a.scope == .warp) h.vd.toNat e.1.lane
      (loadWords (z.see (z.agentAt a e.1 f.mscope.toNat) (z.draw 6) e.2) h.x)))
    (lateReads a f (z.badLoad ts) (fun _ => .elem (a.scope == .warp) h.vd.toNat h.x) rs)
  have ho := (opLoad_ok (h := h) hi (loads_not_full hs hl) hr).trans (congrArg Res.ok hpush)
  rw [loadCells_self hsc hw, lateReads_self hw, State.glanceOf_foldsOf g.frame, State.selfActor_scope, hsc] at ho
  refine ⟨_, (exec_loadForms he h (.m f) s).trans (issue_past hs ho (not_exited_of_live hs ?_)), load_leaves hs hp g⟩
  rw [State.warp_updWarp_same, hx]
  exact Warp.issued_live _ _

end Sys2Proof.Machine
end

section
/-! PROOF. What a store to elements outside the on-chip map leaves as it was (10 R212 to R214, R219). -/

namespace Sys2Proof.Machine

/-! Tables through a function. -/

theorem AMap.find_mapVal {β : Type} (f : Nat → β → β) (m : AMap β) (k : Nat) :
    (m.mapVal f).find k = (m.find k).map (f k) := by
  induction m with
  | nil => rfl
  | cons e t ih =>
    obtain ⟨j, b⟩ := e
    by_cases h : j = k
    · subst h
      simp [AMap.mapVal, AMap.find]
    · simpa [AMap.mapVal, AMap.find, h] using ih

theorem find_putBytes (m : AMap Byte) (o : Nat) (bs : List Byte) {k : Nat} (h : k < o ∨ o + bs.length ≤ k) :
    (putBytes m o bs).find k = m.find k := by
  induction bs generalizing m o with
  | nil => rfl
  | cons b t ih =>
    rw [List.length_cons] at h
    rw [putBytes, ih _ _ (by omega), AMap.find_put_other _ _ (by omega)]

/-! The frame of a store. -/

/-- `t` is `s` with bytes of some elements written: warps, engine work and where blocks run are as they were. -/
structure StoreFrame (s t : State) (ts : List Target) : Prop where
  warps : t.warps = s.warps
  ops : t.ops = s.ops
  ctr : t.freeCtr = s.freeCtr
  cores : ∀ u, (t.block u).core = (s.block u).core
  owners : OwnersKept s t
  bytes : BytesKept s t ts

section
variable {s t u : State} {ts ts' : List Target}

theorem ownersKept_refl (s : State) : OwnersKept s s := ⟨fun _ => rfl, fun _ => rfl⟩

theorem ownersKept_trans (h : OwnersKept s t) (g : OwnersKept t u) : OwnersKept s u := by
  refine ⟨fun p => ?_, fun x => (g.2 x).trans (h.2 x)⟩
  rw [g.1 p, h.1 p]

theorem bytesKept_trans (h : BytesKept s t ts) (g : BytesKept t u ts) : BytesKept s u ts :=
  ⟨fun p hp => (g.1 p hp).trans (h.1 p hp), fun b o ho => (g.2 b o ho).trans (h.2 b o ho)⟩

theorem bytesKept_mono (h : BytesKept s t ts) (hs : ∀ e ∈ ts, e ∈ ts') : BytesKept s t ts' :=
  ⟨fun p hp => h.1 p (fun e he => hp e (hs e he)), fun b o ho => h.2 b o (fun e he => ho e (hs e he))⟩

theorem StoreFrame.refl (s : State) (ts : List Target) : StoreFrame s s ts :=
  ⟨rfl, rfl, rfl, fun _ => rfl, ownersKept_refl s, fun _ _ => rfl, fun _ _ _ => rfl⟩

theorem StoreFrame.trans (h : StoreFrame s t ts) (g : StoreFrame t u ts) : StoreFrame s u ts :=
  ⟨g.warps.trans h.warps, g.ops.trans h.ops, g.ctr.trans h.ctr, fun b => (g.cores b).trans (h.cores b),
    ownersKept_trans h.owners g.owners, bytesKept_trans h.bytes g.bytes⟩

theorem StoreFrame.mono (h : StoreFrame s t ts) (hs : ∀ e ∈ ts, e ∈ ts') : StoreFrame s t ts' :=
  { h with bytes := bytesKept_mono h.bytes hs }

theorem StoreFrame.foldsOf (h : StoreFrame s t ts) (fn : Nat) (es : List Target) : t.foldsOf fn es = s.foldsOf fn es := by
  unfold State.foldsOf
  split
  · rfl
  · refine congrArg List.eraseDups (List.filterMap_congr fun e _ => ?_)
    cases e
    · rfl
    · simp only [h.cores]

theorem StoreFrame.warp (h : StoreFrame s t ts) (w : Nat) : t.warp w = s.warp w := by rw [State.warp, h.warps]; rfl

/-- What leaves blocks, memory, partitions and grids leaves all that a store leaves. -/
theorem StoreFrame.of_same (hw : t.warps = s.warps) (ho : t.ops = s.ops) (hc : t.freeCtr = s.freeCtr)
    (hb : t.blocks = s.blocks) (hm : t.mem = s.mem) (hp : t.parts = s.parts) (hg : t.grids = s.grids) : StoreFrame s t ts := by
  have block : ∀ u, t.block u = s.block u := fun u => by rw [State.block, hb]; rfl
  have part : ∀ p, t.part p = s.part p := fun p => by rw [State.part, hp]; rfl
  exact ⟨hw, ho, hc, fun u => by rw [block], ⟨fun p => by rw [part], fun g => by rw [hg]⟩, fun p _ => by rw [hm],
    fun u o _ => by rw [block]⟩

theorem StoreFrame.of_pastOf (h : s.pastOf t) : StoreFrame s t ts := by
  apply StoreFrame.of_same <;> rw [h]

theorem StoreFrame.foldl {β : Type} (f : State → β → State) (l : List β)
    (h : ∀ (s : State), ∀ b ∈ l, StoreFrame s (f s b) ts) (s : State) : StoreFrame s (l.foldl f s) ts := by
  induction l generalizing s with
  | nil => exact StoreFrame.refl s ts
  | cons b t ih => exact (h s b (List.mem_cons_self ..)).trans (ih (fun s b hb => h s b (List.mem_cons_of_mem _ hb)) _)

end

/-- A block's bytes written or its poison cleared. -/
theorem StoreFrame.updBlock (s : State) (b : Nat) (f : Block → Block) {ts : List Target} (hc : (f (s.block b)).core = (s.block b).core)
    (hb : ∀ o, (∀ e ∈ ts, ¬ holdsScratch e b o) → (f (s.block b)).scrByte o = (s.block b).scrByte o) :
    StoreFrame s (s.updBlock b f) ts := by
  refine ⟨rfl, rfl, rfl, fun u => ?_, ownersKept_refl s, fun _ _ => rfl, fun u o ho => ?_⟩
  · by_cases h : u = b
    · subst h
      rw [State.updBlock, State.block_setBlock_same, hc]
    · rw [State.updBlock, State.block_setBlock_other _ _ h]
  · by_cases h : u = b
    · subst h
      rw [State.updBlock, State.block_setBlock_same, hb o ho]
    · rw [State.updBlock, State.block_setBlock_other _ _ h]

/-- Bytes of physical memory written. -/
theorem StoreFrame.writePhys (s : State) (a : Nat) (bs : List Byte) {ts : List Target}
    (h : ∀ p, a ≤ p → p < a + bs.length → ∃ e ∈ ts, holdsPhys e p) : StoreFrame s (s.writePhys a bs) ts := by
  refine ⟨rfl, rfl, rfl, fun _ => rfl, ⟨fun p => ?_, fun g => ?_⟩, fun p hp => ?_, fun _ _ _ => rfl⟩
  · simp only [State.part, State.writePhys, AMap.find_mapVal]
    cases s.parts.find p <;> rfl
  · simp only [State.writePhys, AMap.find_mapVal, Option.map_map]
    rfl
  · refine memRead_memWriteList_other _ _ ?_
    by_contra hc
    obtain ⟨e, he, hh⟩ := h p (by omega) (by omega)
    exact hp e he hh

/-- No run of an element lies in the on-chip map. -/
def offChip (t : Target) : Prop :=
  match t with
  | .glob rs => ∀ e ∈ rs, ∀ a, e.1 ≠ .onChip a
  | .scr _ _ _ => True

theorem StoreFrame.writeRuns {rs : List (Place × Nat)} (qs : List (Place × Nat)) (hs : ∀ e ∈ qs, e ∈ rs) (hc : offChip (.glob rs))
    (s : State) (bs : List Byte) : StoreFrame s (s.writeRuns qs bs) [.glob rs] := by
  induction qs generalizing s bs with
  | nil => exact StoreFrame.refl s _
  | cons e t ih =>
    obtain ⟨p, n⟩ := e
    have hin : (p, n) ∈ rs := hs _ (List.mem_cons_self ..)
    refine StoreFrame.trans ?_ (ih (fun e he => hs e (List.mem_cons_of_mem _ he)) _ _)
    cases p with
    | phys a =>
      refine StoreFrame.writePhys s a _ fun q h1 h2 => ⟨_, List.mem_singleton.2 rfl, (.phys a, n), hin, a, rfl, h1, ?_⟩
      rw [List.length_take] at h2
      omega
    | peer d a => exact StoreFrame.of_same rfl rfl rfl rfl rfl rfl rfl
    | onChip a => exact absurd rfl (hc _ hin a)

/-- An element written with no more bytes than it holds. -/
theorem StoreFrame.writeTarget (s : State) (t : Target) (bs : List Byte) (hc : offChip t)
    (hn : ∀ u o n, t = .scr u o n → bs.length ≤ n) : StoreFrame s (s.writeTarget t bs) [t] := by
  cases t with
  | glob rs => exact StoreFrame.writeRuns rs (fun _ h => h) hc s bs
  | scr u o n =>
    refine StoreFrame.updBlock s u (fun b => b.scrWrite o bs) rfl fun k hk => ?_
    have hk := hk _ (List.mem_singleton.2 rfl)
    have hlen := hn u o n rfl
    unfold Block.scrByte Block.scrWrite
    dsimp only
    rw [find_putBytes _ _ _ (by
      by_contra hc
      exact hk ⟨rfl, by omega, by omega⟩)]

/-! A write that takes its place among those that race with it. -/

theorem Placing.length_byte (a : Placing) (s : State) (g : Agent) (p : Put) (elem : Nat) (r : Past) (n : Nat) (q : Option Nat)
    (cur new : Byte) : (a.byte s g p elem r n q cur new).bytes.length = a.bytes.length + 1 := by
  unfold Placing.byte
  cases q <;> simp

theorem length_foldl_byte {γ : Type} (l : List γ) (f : Placing → γ → Placing)
    (h : ∀ a e, (f a e).bytes.length = a.bytes.length + 1) (a : Placing) :
    (l.foldl f a).bytes.length = a.bytes.length + l.length := by
  induction l generalizing a with
  | nil => rfl
  | cons e t ih => rw [List.foldl_cons, ih, h, List.length_cons]; omega

theorem length_flatten_pieces {β : Type} (ns : List Nat) (l : List β) : (pieces ns l).flatten.length ≤ l.length := by
  induction ns generalizing l with
  | nil => exact Nat.zero_le _
  | cons n t ih =>
    have := ih (l.drop n)
    simp only [pieces, List.flatten_cons, List.length_append, List.length_take, List.length_drop] at *
    omega

/-- A fold over units that adds at most a byte for each element of a unit. -/
theorem length_foldl_units {γ : Type} (us : List (List γ)) (f : Placing → List γ → Placing)
    (h : ∀ a u, (f a u).bytes.length ≤ a.bytes.length + u.length) (a : Placing) :
    (us.foldl f a).bytes.length ≤ a.bytes.length + us.flatten.length := by
  induction us generalizing a with
  | nil => exact Nat.le_refl _
  | cons u t ih =>
    have h1 := ih (f a u)
    have h2 := h a u
    rw [List.foldl_cons, List.flatten_cons, List.length_append]
    omega

/-- No more bytes are placed than the element has. -/
theorem State.length_coherent (s : State) (g : Agent) (k : Nat) (p : Put) (ms : List (Nat × Mask)) (t : Target) (bs : List Byte) :
    (s.coherent g k p ms t bs).bytes.length ≤ (s.keysOf t).length := by
  unfold State.coherent
  dsimp only
  refine (length_foldl_units _ _ (fun a u => ?_) _).trans ?_
  · rw [length_foldl_byte _ _ (fun _ _ => Placing.length_byte ..), List.length_zip]
    exact Nat.add_le_add_left (Nat.min_le_right _ _) _
  · refine (Nat.zero_add _).le.trans ((length_flatten_pieces _ _).trans ?_)
    rw [List.length_zip]
    exact Nat.min_le_left _ _

theorem StoreFrame.putBy (s : State) (g : Agent) (k : Nat) (p : Put) (t : Target) (bs : List Byte) (hc : offChip t)
    (hn : ∀ u o n, t = .scr u o n → bs.length ≤ n) : StoreFrame s (s.putBy g k p t bs) [t] := by
  unfold State.putBy
  split
  · exact StoreFrame.writeTarget s t bs hc hn
  · refine StoreFrame.trans (t := { s with past := _, sync := _ }) (StoreFrame.of_pastOf rfl) (StoreFrame.writeTarget _ t _ hc ?_)
    rintro u o n rfl
    refine (State.length_coherent ..).trans ?_
    simp [State.keysOf]

/-! Atomics. -/

theorem StoreFrame.amoStep (s : State) (g : Agent) (acq rel : Bool) (ovf : Word) (code size : Nat) (t : Target) (v c : Nat)
    (hc : offChip t) (hn : ∀ u o n, t = .scr u o n → size ≤ n) :
    StoreFrame s (s.amoStep g acq rel ovf code size t v c).2 [t] := by
  unfold State.amoStep
  split
  · exact StoreFrame.of_same rfl rfl rfl rfl rfl rfl rfl
  · refine StoreFrame.trans (StoreFrame.putBy s g _ _ t _ hc ?_) (StoreFrame.of_pastOf (State.hear_pastOf ..))
    intro u o n h
    rw [length_leBytes]
    exact hn u o n h

theorem StoreFrame.amoAll (g : Item → Agent) (acq rel : Bool) (ovf : Word) (code size : Nat) {ts : List Target}
    (es : List (Item × Target × Nat × Nat)) (hs : ∀ e ∈ es, e.2.1 ∈ ts ∧ offChip e.2.1 ∧ ∀ u o n, e.2.1 = .scr u o n → size ≤ n)
    (s : State) : StoreFrame s (s.amoAll g acq rel ovf code size es).2 ts := by
  induction es generalizing s with
  | nil => exact StoreFrame.refl s ts
  | cons e r ih =>
    obtain ⟨i, t, v, c⟩ := e
    obtain ⟨hin, hc, hn⟩ := hs _ (List.mem_cons_self ..)
    have step := (StoreFrame.amoStep s (g i) acq rel ovf code size t v c hc hn).mono (ts' := ts) (by
      intro e he
      rw [List.mem_singleton.1 he]
      exact hin)
    exact step.trans (ih (fun e he => hs e (List.mem_cons_of_mem _ he)) _)

theorem mem_insertKeyed {β : Type} {e f : Nat × β} {l : List (Nat × β)} (h : f ∈ insertKeyed e l) : f = e ∨ f ∈ l := by
  induction l with
  | nil => exact Or.inl (List.mem_singleton.1 h)
  | cons x t ih =>
    unfold insertKeyed at h
    split at h
    · exact List.mem_cons.1 h
    · rcases List.mem_cons.1 h with rfl | h
      · exact Or.inr (List.mem_cons_self ..)
      · exact (ih h).imp_right (List.mem_cons_of_mem _)

/-- The lanes in the order in which they act are those lanes. -/
theorem State.mem_laneOrder {β : Type} {s : State} {meet : Bool} {l : List β} {b : β} (h : b ∈ s.laneOrder meet l) : b ∈ l := by
  unfold State.laneOrder at h
  split at h
  · obtain ⟨e, he, rfl⟩ := List.mem_map.1 h
    have mem : ∀ (q : List (β × Nat)), e ∈ q.foldr (fun e t => insertKeyed (Config.freeNat (s.draw 9) e.2, e.1) t) [] →
        ∃ x ∈ q, x.1 = e.2 := by
      intro q
      induction q with
      | nil => exact fun h => absurd h List.not_mem_nil
      | cons x q ih =>
        intro h
        rcases mem_insertKeyed h with rfl | h
        · exact ⟨x, List.mem_cons_self .., rfl⟩
        · obtain ⟨y, hy, he⟩ := ih h
          exact ⟨y, List.mem_cons_of_mem _ hy, he⟩
    obtain ⟨x, hx, hxe⟩ := mem _ he
    rw [← hxe]
    exact (List.of_mem_zip hx).1
  · exact h

/-- The elements of one access are of its size where they lie in scratch. -/
theorem size_of_resolve {z : State} {a : Actor} {agent fn size align : Nat} {sp : Space} {r : Rights} {its : List Item}
    {rs : List (Item × Target)} (h : z.resolve a agent fn sp r size align its = .ok rs) {e : Item × Target} (he : e ∈ rs)
    {u o n : Nat} (ht : e.2 = .scr u o n) : n = size := by
  have hc := (mem_of_resolve h he).2
  rw [ht] at hc
  unfold State.checkElem at hc
  dsimp only at hc
  split at hc
  · split at hc
    · cases hc
    · split at hc
      · cases hc
      · split at hc
        · cases hc
        · cases hc
  · split at hc
    · cases hc
    · split at hc
      · cases hc
      · cases hc
        rfl
  · split at hc
    · cases hc
    · split at hc
      · cases hc
      · cases hc
        rfl

theorem offChip_of_not {ts : List Target} (h : ¬ onChipIn ts) {t : Target} (ht : t ∈ ts) : offChip t := by
  cases t with
  | scr => trivial
  | glob rs => exact fun e he a ha => h ⟨_, ht, rs, rfl, e, he, a, ha⟩

end Sys2Proof.Machine
end

section
/-! PROOF. ATOM and ATOMS (10 R218, R219): the lanes act one after another, nothing else changes, and the new value of each
operation is the rule's. -/

namespace Sys2Proof.Machine

/-! The operation. -/

/-- The lanes' data: data and compare value of each, in lanes' order (10 R218). -/
def State.amoData (s : State) (a : Actor) (h : Hdr) (size : Nat) (rs : List (Item × Target)) :
    List (Item × Target × Nat × Nat) :=
  let val (e : Item) (r : Nat) : Nat := leNat (storeBytes (s.warp e.w) (s.draw 4) (a.scope == .warp) r e.lane size)
  rs.map (fun e => if hdrTop h = 9 then (e.1, e.2, val e.1 (h.vd.toNat + size / 4), val e.1 h.vd.toNat)
    else (e.1, e.2, val e.1 h.vd.toNat, 0))

/-- The lanes' operations, performed one after another from the state in which the access releases. -/
def State.amoDone (s : State) (a : Actor) (h : Hdr) (f : MForm) (fn : Nat) (rs : List (Item × Target)) :
    List (Item × Nat) × State :=
  let size := esizeBytes f.esize
  let ts := rs.map (fun e => e.2)
  (((s.fixReads a ts).fillFor a (memSpace fn) (s.items a f size)).released a f).amoAll
    (fun i => s.agentAt a i f.mscope.toNat) (acquires f) (releases f) (s.part (s.partOf a.lead)).ovf (hdrTop h) size
    (s.laneOrder (anyMeet ts) (s.amoData a h size rs))

/-- The state in which the lanes' operations are counted: as a store with nr, else as a load that brings the old values. -/
def amoCounted (a : Actor) (h : Hdr) (f : MForm) (fn : Nat) (bad : Option Cause) (ts : List Target)
    (done : List (Item × Nat) × State) : State :=
  if f.nt then done.2.pushStores a bad fn ts true
  else done.2.pushLoads a bad fn ts true (done.1.flatMap (fun o =>
    cellsOf o.1.w (a.scope == .warp) h.vd.toNat o.1.lane (loadWords (leBytes (esizeBytes f.esize) o.2) false))) []

theorem opAtomic_ok {a : Actor} {s : State} {f : MForm} {h : Hdr} {fn : Nat} {rs : List (Item × Target)}
    (hi : s.items a f (esizeBytes f.esize) ≠ []) (hl : s.loadsFull a = false) (hf : s.storesFull a = false)
    (hr : s.resolve a 1 fn (memSpace fn) (Rights.rw (f.mscope == 5)) (esizeBytes f.esize) (esizeBytes f.esize)
      (s.items a f (esizeBytes f.esize)) = .ok rs) (hb : s.badAccess 1 (rs.map (fun e => e.2)) = none) :
    opAtomic fn h (.m f) a s = .ok (amoCounted a h f fn (if s.peerPoisons (rs.map (fun e => e.2)) then some 0xB3 else none)
      (rs.map (fun e => e.2)) (s.amoDone a h f fn rs)) := by
  unfold opAtomic
  dsimp only
  rw [if_neg (mt List.isEmpty_iff.1 hi), hl, hf, ite_self, if_neg Bool.false_ne_true, hr]
  dsimp only
  rw [hb]
  dsimp only
  unfold amoCounted
  split <;> rfl

/-- Which agent acts for an access that is not performed does not matter. -/
theorem State.amoAll_congr {g g' : Item → Agent} (acq rel : Bool) (ovf : Word) (code size : Nat)
    (es : List (Item × Target × Nat × Nat)) (h : ∀ e ∈ es, g e.1 = g' e.1) (s : State) :
    s.amoAll g acq rel ovf code size es = s.amoAll g' acq rel ovf code size es := by
  induction es generalizing s with
  | nil => rfl
  | cons e r ih =>
    obtain ⟨i, t, v, c⟩ := e
    have hg : g i = g' i := h _ (List.mem_cons_self ..)
    simp only [State.amoAll, hg, ih (fun e he => h e (List.mem_cons_of_mem _ he))]

/-- The old values come from the accesses performed. -/
theorem State.mem_amoAll {g : Item → Agent} {acq rel : Bool} {ovf : Word} {code size : Nat}
    {es : List (Item × Target × Nat × Nat)} {s : State} {o : Item × Nat} (h : o ∈ (s.amoAll g acq rel ovf code size es).1) :
    ∃ e ∈ es, e.1 = o.1 := by
  induction es generalizing s with
  | nil => exact absurd h List.not_mem_nil
  | cons e r ih =>
    obtain ⟨i, t, v, c⟩ := e
    rcases List.mem_cons.1 h with rfl | h
    · exact ⟨_, List.mem_cons_self .., rfl⟩
    · obtain ⟨e, he, hi⟩ := ih h
      exact ⟨e, List.mem_cons_of_mem _ he, hi⟩

theorem storeBytes_issued (x : Warp) (i : Instr) (k : Nat) (u : Bool) (r l n : Nat) :
    storeBytes (x.issued i) k u r l n = storeBytes x k u r l n := by
  simp [storeBytes]

theorem mem_amoData {s : State} {a : Actor} {h : Hdr} {size : Nat} {rs : List (Item × Target)}
    {e : Item × Target × Nat × Nat} (he : e ∈ s.amoData a h size rs) : (e.1, e.2.1) ∈ rs := by
  obtain ⟨x, hx, rfl⟩ := List.mem_map.1 he
  dsimp only
  split <;> exact hx

section
variable {s : State} {w : Nat} {i : Instr} {h : Hdr} {f : MForm} {rs : List (Item × Target)}

/-- The lanes' data of one warp. -/
theorem amoData_self (hsc : scopeOfInstr i = h.scope) (hw : ∀ e ∈ rs, e.1.w = w) (size : Nat) :
    (started s w i).amoData (s.selfActor w i) h size rs =
      let val (x : Item) (r : Nat) := leNat (storeBytes (s.warp w) ((started s w i).draw 4) (h.scope == .warp) r x.lane size)
      rs.map (fun e => if hdrTop h = 9 then (e.1, e.2, val e.1 (h.vd.toNat + size / 4), val e.1 h.vd.toNat)
        else (e.1, e.2, val e.1 h.vd.toNat, 0)) := by
  refine List.map_congr_left fun e he => ?_
  simp only [hw e he, warp_started, storeBytes_issued, State.selfActor_scope, hsc]

theorem ovf_self : ((started s w i).part ((started s w i).partOf (s.selfActor w i).lead)).ovf = (s.part (s.partOf w)).ovf := by
  rw [State.selfActor_lead, partOf_started, part_started]

/-- The lanes' operations of one warp, by its lanes' paths. -/
theorem amoDone_self (hsc : scopeOfInstr i = h.scope) (hw : ∀ e ∈ rs, e.1.w = w) (fn : Nat) :
    let z := started s w i
    let size := esizeBytes f.esize
    let val (x : Item) (r : Nat) := leNat (storeBytes (s.warp w) (z.draw 4) (h.scope == .warp) r x.lane size)
    let ts := rs.map (fun e => e.2)
    let es := rs.map (fun e => if hdrTop h = 9 then (e.1, e.2, val e.1 (h.vd.toNat + size / 4), val e.1 h.vd.toNat)
      else (e.1, e.2, val e.1 h.vd.toNat, 0))
    z.amoDone (s.selfActor w i) h f fn rs =
      (((z.fixReads (s.selfActor w i) ts).fillFor (s.selfActor w i) (memSpace fn) (z.items (s.selfActor w i) f size)).released
        (s.selfActor w i) f).amoAll (laneAgent z s w f) (acquires f) (releases f) (s.part (s.partOf w)).ovf (hdrTop h) size
          (z.laneOrder (anyMeet ts) es) := by
  intro z size val ts es
  unfold State.amoDone
  dsimp only
  rw [ovf_self, amoData_self hsc hw]
  refine State.amoAll_congr _ _ _ _ _ _ (fun e he => agentAt_self ?_ f) _
  have hm := State.mem_laneOrder he
  rw [← amoData_self hsc hw] at hm
  exact hw _ (mem_amoData hm)

/-- Every old value is of an access of the warp. -/
theorem w_of_amoDone (hw : ∀ e ∈ rs, e.1.w = w) {z : State} {a : Actor} {fn : Nat} {o : Item × Nat}
    (ho : o ∈ (z.amoDone a h f fn rs).1) : o.1.w = w := by
  obtain ⟨e, he, hi⟩ := State.mem_amoAll ho
  rw [← hi]
  exact hw _ (mem_amoData (State.mem_laneOrder he))

/-- What the lanes' operations leave where no element lies in the on-chip map. -/
theorem amoDone_frame {z : State} {a : Actor} {fn : Nat} (hc : ¬ onChipIn (rs.map (fun e => e.2)))
    (hn : ∀ e ∈ rs, ∀ u o n, e.2 = .scr u o n → esizeBytes f.esize ≤ n) :
    StoreFrame ((z.fixReads a (rs.map (fun e => e.2))).fillFor a (memSpace fn) (z.items a f (esizeBytes f.esize)))
      (z.amoDone a h f fn rs).2 (rs.map (fun e => e.2)) := by
  refine StoreFrame.trans (StoreFrame.of_pastOf (State.released_pastOf _ a f)) (StoreFrame.amoAll _ _ _ _ _ _ _ ?_ _)
  intro e he
  have hm := mem_amoData (State.mem_laneOrder he)
  have ht : e.2.1 ∈ rs.map (fun e => e.2) := List.mem_map.2 ⟨_, hm, rfl⟩
  exact ⟨ht, offChip_of_not hc ht, hn _ hm⟩

/-- What an access whose effect is a store leaves of its warp and of the rest. -/
theorem stored_leaves {t : State} {ts : List Target} {sp : Space} {its : List Item} (hs : Solo s w i)
    (g : StoreFrame (((started s w i).fixReads (s.selfActor w i) ts).fillFor (s.selfActor w i) sp its) t ts) :
    (∀ v, v ≠ w → t.warps.find v = s.warps.find v) ∧ t.ops = s.ops ∧ OwnersKept s t ∧ BytesKept s t ts ∧
      t.freeCtr = s.freeCtr + 1 ∧ (∀ fn es, t.foldsOf fn es = (started s w i).foldsOf fn es) ∧
      ∃ p, t.warp w = ((s.warp w).issued i).fixReads p := by
  have ga := glanced_access hs ts sp its
  obtain ⟨p, hp⟩ := ga.warp_eq
  have base : StoreFrame { started s w i with warps := (((started s w i).fixReads (s.selfActor w i) ts).fillFor
      (s.selfActor w i) sp its).warps } (((started s w i).fixReads (s.selfActor w i) ts).fillFor (s.selfActor w i) sp its) ts :=
    StoreFrame.of_same rfl (State.glanceOf_ops ga.frame) (State.glanceOf_freeCtr ga.frame) (State.glanceOf_blocks ga.frame)
      (State.glanceOf_mem ga.frame) (State.glanceOf_parts ga.frame) (State.glanceOf_grids ga.frame)
  have all := base.trans g
  exact ⟨fun v hv => by rw [g.warps]; exact ga.find_other hv, all.ops, ⟨all.owners.1, all.owners.2⟩, ⟨all.bytes.1, all.bytes.2⟩,
    all.ctr, all.foldsOf, p, by rw [g.warp, hp]⟩

end

theorem plain_atomicForms {e : (Hdr → Upper → Instr) × Nat} (he : e ∈ atomicForms) (h : Hdr) (f : MForm) :
    plain (e.1 h (.m f)) := by
  simp only [atomicForms, List.mem_cons, List.not_mem_nil, or_false] at he
  rcases he with rfl | rfl <;> exact ⟨rfl, fun _ _ => Instr.noConfusion⟩

end Sys2Proof.Machine
end

section
/-! PROOF. ATOM and ATOMS complete at issue, and the new values on 32 bits (10 R218, R219). -/

namespace Sys2Proof.Machine

/-! The new values. -/

/-- A word's number read as signed is its signed value. -/
theorem sInt_toNat {w : Nat} (hw : 0 < w) (x : BitVec w) : sInt w x.toNat = x.toInt := by
  have hp : 2 ^ w = 2 * 2 ^ (w - 1) := by rw [← Nat.pow_succ', Nat.succ_eq_add_one, Nat.sub_add_cancel hw]
  unfold sInt BitVec.toInt
  have hlt : x.toNat < 2 ^ (w - 1) ↔ 2 * x.toNat < 2 ^ w := by omega
  simp only [hlt]
  split <;> simp

theorem ofNat_ite {c : Prop} [Decidable c] (x y : BitVec 32) :
    BitVec.ofNat 32 (if c then x.toNat else y.toNat) = if c then x else y := by
  split <;> simp

/-- The values of the atomics on 32 bits as operations on words (10 R218). -/
theorem amoNew_words (ovf : Word) (m v c : BitVec 32) :
    let r (code : Nat) : BitVec 32 := BitVec.ofNat 32 (amoNew ovf code 4 m.toNat v.toNat c.toNat)
    r 0 = v ∧ r 1 = m + v ∧ r 2 = (if m.sle v then m else v) ∧ r 3 = (if m ≤ v then m else v) ∧
    r 4 = (if v.sle m then m else v) ∧ r 5 = (if v ≤ m then m else v) ∧ r 6 = m &&& v ∧ r 7 = m ||| v ∧
    r 8 = m ^^^ v ∧ r 9 = (if m = c then v else m) ∧ r 13 = (if v ≤ m then 0 else m + 1) ∧
    r 14 = (if m = 0 ∨ v < m then v else m - 1) := by
  intro r
  refine ⟨?_, ?_, ?_, ?_, ?_, ?_, ?_, ?_, ?_, ?_, ?_, ?_⟩
  · exact BitVec.eq_of_toNat_eq (by simp [r, amoNew])
  · exact BitVec.eq_of_toNat_eq (by simp [r, amoNew])
  · simp only [r, amoNew]
    rw [show 8 * 4 = 32 from rfl, sInt_toNat (by decide), sInt_toNat (by decide), ofNat_ite]
    simp [BitVec.sle]
  · simp only [r, amoNew, Nat.min_def]
    rw [ofNat_ite]
    rfl
  · simp only [r, amoNew]
    rw [show 8 * 4 = 32 from rfl, sInt_toNat (by decide), sInt_toNat (by decide), ofNat_ite]
    simp [BitVec.sle]
  · have h : max m.toNat v.toNat = if v.toNat ≤ m.toNat then m.toNat else v.toNat := by
      split <;> omega
    simp only [r, amoNew, h]
    rw [ofNat_ite]
    rfl
  · exact BitVec.eq_of_toNat_eq (by simp [r, amoNew, Nat.and_lt_two_pow, Nat.mod_eq_of_lt])
  · exact BitVec.eq_of_toNat_eq (by simp [r, amoNew])
  · exact BitVec.eq_of_toNat_eq (by simp [r, amoNew])
  · simp only [r, amoNew]
    rw [ofNat_ite]
    simp [BitVec.toNat_inj]
  · simp only [r, amoNew]
    by_cases hle : v ≤ m
    · rw [if_pos hle, if_pos (BitVec.le_def.1 hle)]
      rfl
    · rw [if_neg hle, if_neg (mt BitVec.le_def.2 hle)]
      exact BitVec.eq_of_toNat_eq (by simp)
  · simp only [r, amoNew]
    by_cases hc : m = 0 ∨ v < m
    · rw [if_pos hc, if_pos (by
        rcases hc with rfl | hc
        · simp
        · simp [BitVec.lt_def.1 hc])]
      simp
    · have h0 : m ≠ 0 := fun h => hc (Or.inl h)
      have hn : m.toNat ≠ 0 := fun h => h0 (BitVec.eq_of_toNat_eq h)
      have hv : ¬ v.toNat < m.toNat := fun h => hc (Or.inr (BitVec.lt_def.2 h))
      rw [if_neg hc, if_neg (by simp [hn, hv])]
      refine BitVec.eq_of_toNat_eq ?_
      rw [BitVec.toNat_sub, BitVec.toNat_ofNat]
      have := m.isLt
      have h1 : (1 : BitVec 32).toNat = 1 := rfl
      omega

/-- The values of fadd, fmin and fmax are those of FADD, FMIN and FMAX of FP32, to nearest even (10 R218). -/
theorem amoNew_floats (ovf : Word) (m v c : Nat) :
    let q : FpArgs := ⟨fp32, 0, Rnd.rne ovf, false, fp32.decode m, fp32.decode v, .fin false 0 0, 0, 0⟩
    amoNew ovf 10 4 m v c = (fpFadd q).bits ∧ amoNew ovf 11 4 m v c = (fpFmin q).bits ∧
      amoNew ovf 12 4 m v c = (fpFmax q).bits := ⟨rfl, rfl, rfl⟩

/-! The instruction. -/

theorem State.warpsOf_foldl {β : Type} (f : State → β → State) (h : ∀ (s : State) (b : β), s.warpsOf (f s b)) (l : List β)
    (s : State) : s.warpsOf (l.foldl f s) := by
  induction l generalizing s with
  | nil => exact s.warpsOf_refl
  | cons b t ih => exact State.warpsOf_trans (h s b) (ih _)

theorem State.pushLoads_warpsOf (t : State) (a : Actor) (bad : Option Cause) (fn : Nat) (ts : List Target) (atomic : Bool)
    (cells : List (Nat × LoadCell)) (reads : List (Nat × LateRead)) :
    t.warpsOf (t.pushLoads a bad fn ts atomic cells reads) :=
  State.warpsOf_foldl _ (fun s _ => s.updWarp_warpsOf _ _) _ t

theorem State.pushStores_warpsOf (t : State) (a : Actor) (bad : Option Cause) (fn : Nat) (ts : List Target) (atomic : Bool) :
    t.warpsOf (t.pushStores a bad fn ts atomic) :=
  State.warpsOf_foldl _ (fun s _ => s.updWarp_warpsOf _ _) _ t

theorem amoCounted_warpsOf (a : Actor) (h : Hdr) (f : MForm) (fn : Nat) (bad : Option Cause) (ts : List Target)
    (done : List (Item × Nat) × State) : done.2.warpsOf (amoCounted a h f fn bad ts done) := by
  unfold amoCounted
  split
  · exact State.pushStores_warpsOf ..
  · exact State.pushLoads_warpsOf ..

/-- What each step of a fold keeps, the fold keeps. -/
theorem keeps_foldl {β γ : Type} (p : State → γ) (f : State → β → State) (h : ∀ (s : State) (b : β), p (f s b) = p s) (l : List β)
    (s : State) : p (l.foldl f s) = p s := by
  induction l generalizing s with
  | nil => rfl
  | cons b t ih => exact (ih _).trans (h s b)

/-- What a change of a warp keeps is kept of every warp. -/
theorem State.keeps_updWarp {γ : Type} (s : State) (v : Nat) (g : Warp → Warp) (p : Warp → γ) (h : ∀ x, p (g x) = p x) (w : Nat) :
    p ((s.updWarp v g).warp w) = p (s.warp w) := by
  by_cases e : w = v
  · subst e
    rw [State.warp_updWarp_same, h]
  · rw [State.warp_updWarp_other _ _ e]

/-- Counting an access leaves the live mask of every warp. -/
theorem live_amoCounted (a : Actor) (h : Hdr) (f : MForm) (fn : Nat) (bad : Option Cause) (ts : List Target)
    (done : List (Item × Nat) × State) (w : Nat) : ((amoCounted a h f fn bad ts done).warp w).live = (done.2.warp w).live := by
  unfold amoCounted
  split
  · unfold State.pushStores
    refine keeps_foldl (fun s => (s.warp w).live) _ (fun s m => ?_) _ _
    exact s.keeps_updWarp _ _ Warp.live (by intro x; rfl) w
  · unfold State.pushLoads
    refine keeps_foldl (fun s => (s.warp w).live) _ (fun s m => ?_) _ _
    exact s.keeps_updWarp _ _ Warp.live (by intro x; rfl) w

section
variable {s : State} {w : Nat} {i : Instr}

/-- A store counted on the warp whose access it is. -/
theorem stored_counted {t : State} {ts : List Target} {sp : Space} {its : List Item} (hs : Solo s w i) (hp : plain i)
    (g : StoreFrame (((started s w i).fixReads (s.selfActor w i) ts).fillFor (s.selfActor w i) sp its) t ts)
    (bad : Option Cause) (fn : Nat) (atomic : Bool) :
    let y := past s w i (t.pushStores (s.selfActor w i) bad fn ts atomic)
    MemoryFrame s y w i ∧ OwnersKept s y ∧ BytesKept s y ts ∧ sameLoads (y.warp w).loads (s.warp w).loads ∧
      (y.warp w).stores = (s.warp w).stores ++ [⟨s.freeCtr + 1, bad, peersOf ts, (started s w i).foldsOf fn ts, atomic,
        memSpace fn == .scratch, (s.warp w).pc, recordWord i, false⟩] := by
  obtain ⟨hv, ho, hown, hbytes, hctr, hfolds, p, hx⟩ := stored_leaves hs g
  intro y
  have hpush := pushStores_self hs (t := t) (by rw [hx]; exact Warp.issued_live _ _) (by rw [hx]; exact Warp.issued_pc _ _) bad fn
    ts atomic
  rw [hctr, hfolds] at hpush
  have hw : (t.pushStores (s.selfActor w i) bad fn ts atomic).warp w = { ((s.warp w).issued i).fixReads p with
      stores := (((s.warp w).issued i).fixReads p).stores ++ [⟨s.freeCtr + 1, bad, peersOf ts, (started s w i).foldsOf fn ts, atomic,
        memSpace fn == .scratch, (s.warp w).pc, recordWord i, false⟩] } := by
    rw [hpush, State.warp_updWarp_same, hx]
  have hwarps := State.pushStores_warpsOf t (s.selfActor w i) bad fn ts atomic
  refine ⟨memoryFrame_past hp (fun v hne => ?_) (by rw [hwarps]; exact ho) (by rw [hw]; rfl), ?_, ?_, ?_, ?_⟩
  · rw [hpush]
    exact (AMap.find_put_other _ _ hne).trans (hv v hne)
  · exact ownersKept_trans hown (by rw [show y = past s w i _ from rfl, hpush]; exact ⟨fun _ => rfl, fun _ => rfl⟩)
  · exact bytesKept_trans hbytes (by rw [show y = past s w i _ from rfl, hpush]; exact ⟨fun _ _ => rfl, fun _ _ _ => rfl⟩)
  · rw [warp_past_plain hp, hw]
    exact (Warp.sameLoads_fixReads _ _).trans (Warp.sameLoads_issued _ _)
  · rw [warp_past_plain hp, hw]
    exact congrArg (· ++ _) (Warp.issued_stores _ _)

/-- A load counted on the warp whose atomics it is. -/
theorem amo_loaded {t : State} {ts : List Target} {sp : Space} {its : List Item} (hs : Solo s w i) (hp : plain i)
    (g : StoreFrame (((started s w i).fixReads (s.selfActor w i) ts).fillFor (s.selfActor w i) sp its) t ts)
    (bad : Option Cause) (fn : Nat) (atomic : Bool) (cells : List (Nat × LoadCell)) (hc : ∀ c ∈ cells, c.1 = w) :
    let y := past s w i (t.pushLoads (s.selfActor w i) bad fn ts atomic cells [])
    MemoryFrame s y w i ∧ OwnersKept s y ∧ BytesKept s y ts ∧ LoadsKept s y w (s.warp w).loads.length ∧
      (y.warp w).stores = (s.warp w).stores ∧
      (y.warp w).loads.drop (s.warp w).loads.length = [⟨cells.map (fun c => c.2), [], bad, peersOf ts,
        (started s w i).foldsOf fn ts, atomic, (s.warp w).pc, recordWord i, false⟩] := by
  obtain ⟨hv, ho, hown, hbytes, hctr, hfolds, p, hx⟩ := stored_leaves hs g
  intro y
  have hpush := pushLoads_self hs (t := t) (by rw [hx]; exact Warp.issued_live _ _) (by rw [hx]; exact Warp.issued_pc _ _) bad fn
    ts atomic cells []
  rw [hfolds, List.filter_eq_self.2 (fun c h => by simpa using hc c h)] at hpush
  have hw : (t.pushLoads (s.selfActor w i) bad fn ts atomic cells []).warp w = { ((s.warp w).issued i).fixReads p with
      loads := (((s.warp w).issued i).fixReads p).loads ++ [⟨cells.map (fun c => c.2), [], bad, peersOf ts,
        (started s w i).foldsOf fn ts, atomic, (s.warp w).pc, recordWord i, false⟩] } := by
    rw [hpush, State.warp_updWarp_same, hx]
    rfl
  have hwarps := State.pushLoads_warpsOf t (s.selfActor w i) bad fn ts atomic cells []
  have hlen : (((s.warp w).issued i).fixReads p).loads.length = (s.warp w).loads.length := by
    simp [Warp.fixReads]
  refine ⟨memoryFrame_past hp (fun v hne => ?_) (by rw [hwarps]; exact ho) (by rw [hw]; rfl), ?_, ?_, ?_, ?_, ?_⟩
  · rw [hpush]
    exact (AMap.find_put_other _ _ hne).trans (hv v hne)
  · exact ownersKept_trans hown (by rw [show y = past s w i _ from rfl, hpush]; exact ⟨fun _ => rfl, fun _ => rfl⟩)
  · exact bytesKept_trans hbytes (by rw [show y = past s w i _ from rfl, hpush]; exact ⟨fun _ _ => rfl, fun _ _ _ => rfl⟩)
  · rw [LoadsKept, warp_past_plain hp, hw, ← hlen]
    dsimp only
    rw [List.take_left]
    exact (Warp.sameLoads_fixReads _ _).trans (Warp.sameLoads_issued _ _)
  · rw [warp_past_plain hp, hw]
    exact Warp.issued_stores _ _
  · rw [warp_past_plain hp, hw, ← hlen]
    exact List.drop_left ..

end

theorem length_of_sameLoads {p q : List PendLoad} (h : sameLoads p q) : p.length = q.length := by
  simpa [sameLoads] using congrArg List.length h

/-- ATOMS alone acts on scratch. -/
theorem scratch_atomicForms {e : (Hdr → Upper → Instr) × Nat} (he : e ∈ atomicForms) :
    (memSpace e.2 == .scratch) = decide (e.2 = 7) := by
  simp only [atomicForms, List.mem_cons, List.not_mem_nil, or_false] at he
  rcases he with rfl | rfl <;> rfl

/-- Settles O33: the lanes' operations one after another, then the load or, with nr, the store counted. -/
theorem atomicsComplete : Obligations.AtomicsComplete := by
  unfold Obligations.AtomicsComplete
  refine ⟨fun s w h f e he rs => ?_, fun ovf m v c => ?_⟩
  · intro i z a size its ts code val es done bad hs hi hl hst hr hb
    have hp : plain i := plain_atomicForms he h f
    have hsc : scopeOfInstr i = h.scope := by
      simp only [atomicForms, List.mem_cons, List.not_mem_nil, or_false] at he
      rcases he with rfl | rfl <;> rfl
    have hw : ∀ x ∈ rs, x.1.w = w := w_of_resolve hs hr
    have hd : z.amoDone a h f e.2 rs = done := amoDone_self hsc hw e.2
    have ho : opAtomic e.2 h (.m f) a z = .ok (amoCounted a h f e.2 bad ts done) :=
      (opAtomic_ok (h := h) hi (loads_not_full hs hl) (stores_not_full hs hst) hr hb).trans (by rw [hd])
    have hx : exec i s = .next ((amoCounted a h f e.2 bad ts done).advanceAll a i) :=
      (exec_atomicForms he h (.m f) s).trans ((issue_solo hs).trans (by rw [ho, settle_ok, updInst_none _ _ _ rfl]; rfl))
    have hsame := amoCounted_warpsOf a h f e.2 bad ts done
    have hall : (amoCounted a h f e.2 bad ts done).warpsOf ((amoCounted a h f e.2 bad ts done).advanceAll a i) := by
      rw [State.advanceAll_eq]
      exact State.updWarps_warpsOf ..
    refine ⟨_, hx, by rw [hall, hsame], by rw [hall, hsame], fun hc => ?_⟩
    have hn : ∀ x ∈ rs, ∀ u o n, x.2 = .scr u o n → size ≤ n := fun x hm u o n ht => (size_of_resolve hr hm ht).ge
    have g : StoreFrame ((z.fixReads a ts).fillFor a (memSpace e.2) its) done.2 ts := hd ▸ amoDone_frame hc hn
    obtain ⟨-, -, -, -, -, -, p, hwarp⟩ := stored_leaves hs g
    have hlive : ((amoCounted a h f e.2 bad ts done).warp w).live = (s.warp w).live :=
      (live_amoCounted a h f e.2 bad ts done w).trans (by rw [hwarp]; exact Warp.issued_live _ _)
    have hpast : (amoCounted a h f e.2 bad ts done).advanceAll a i = past s w i (amoCounted a h f e.2 bad ts done) :=
      advanceAll_of_alone (alone_selfActor s w i) i (not_exited_of_live hs hlive)
    rw [hpast]
    cases hnt : f.nt with
    | true =>
      have hcount : amoCounted a h f e.2 bad ts done = done.2.pushStores a bad e.2 ts true := if_pos hnt
      obtain ⟨hf, hown, hbytes, hloads, hstores⟩ := stored_counted hs hp g bad e.2 true
      have hlen := length_of_sameLoads hloads
      rw [hcount]
      refine ⟨hf, hown, hbytes, ?_, fun _ => ⟨?_, ?_⟩, fun hq => absurd hq (by decide)⟩
      · rw [LoadsKept, ← hlen, List.take_length]
        exact hloads
      · rw [← hlen, List.drop_length]
      · rw [hstores, scratch_atomicForms he]
    | false =>
      have hcount : amoCounted a h f e.2 bad ts done = done.2.pushLoads a bad e.2 ts true (done.1.flatMap (fun o =>
          cellsOf o.1.w (a.scope == .warp) h.vd.toNat o.1.lane (loadWords (leBytes size o.2) false))) [] :=
        if_neg (by rw [hnt]; decide)
      have hcw : ∀ o ∈ done.1, o.1.w = w := fun o ho => w_of_amoDone hw (hd ▸ ho)
      obtain ⟨hf, hown, hbytes, hkept, hstores, hdrop⟩ := amo_loaded hs hp g bad e.2 true (done.1.flatMap (fun o =>
          cellsOf o.1.w (a.scope == .warp) h.vd.toNat o.1.lane (loadWords (leBytes size o.2) false))) (fun c hc => by
        obtain ⟨o, ho, hc⟩ := List.mem_flatMap.1 hc
        obtain ⟨n, -, rfl⟩ := List.mem_map.1 hc
        exact hcw o ho)
      rw [hcount]
      refine ⟨hf, hown, hbytes, hkept, fun hq => absurd hq (by decide), fun _ => ⟨hstores, ?_⟩⟩
      rw [hdrop, List.map_flatMap, State.selfActor_scope, hsc]
      refine congrArg (fun c => [PendLoad.mk c _ _ _ _ _ _ _ _]) (List.flatMap_congr fun o ho => ?_)
      rw [hcw o ho]
  · obtain ⟨ha, hn, hm⟩ := amoNew_floats ovf m.toNat v.toNat c.toNat
    obtain ⟨h0, h1, h2, h3, h4, h5, h6, h7, h8, h9, h13, h14⟩ := amoNew_words ovf m v c
    exact ⟨h0, h1, h2, h3, h4, h5, h6, h7, h8, h9, h13, h14, congrArg _ ha, congrArg _ hn, congrArg _ hm⟩

end Sys2Proof.Machine
end

section
/-! PROOF. One arrival step of a barrier object, and its fields in its bytes (12 R244, R245). -/

namespace Sys2Proof.Machine

/-! Numbers in bytes. -/

theorem leBytes_succ (n x : Nat) : leBytes (n + 1) x = BitVec.ofNat 8 x :: leBytes n (x / 256) := by
  unfold leBytes
  rw [List.range_succ_eq_map, List.map_cons, List.map_map]
  refine congrArg₂ _ (by simp) (List.map_congr_left fun i _ => ?_)
  rw [Function.comp_apply, Nat.div_div_eq_div_mul, show 8 * (i + 1) = 8 + 8 * i by omega, Nat.pow_add]

/-- The bytes of a number that they hold give it back. -/
theorem leNat_leBytes (n x : Nat) : leNat (leBytes n x) = x % 256 ^ n := by
  induction n generalizing x with
  | zero => simp [leBytes, leNat, Nat.mod_one]
  | succ n ih =>
    rw [leBytes_succ, leNat, ih, BitVec.toNat_ofNat, Nat.pow_succ' (n := n) (m := 256)]
    exact (Nat.mod_mul (a := 256)).symm

theorem leNat_leBytes_of_lt {n x : Nat} (h : x < 256 ^ n) : leNat (leBytes n x) = x := by
  rw [leNat_leBytes, Nat.mod_eq_of_lt h]

/-! The object. -/

theorem Bar.length_bytes (b : Bar) : b.bytes.length = 24 := by simp [Bar.bytes]

/-- An object whose fields have their widths is in its bytes. -/
theorem Bar.ofBytes_bytes {b : Bar} (h1 : b.exp < 2 ^ 16) (h2 : b.pend < 2 ^ 16) (h3 : b.phase < 2 ^ 16) (h4 : b.flags < 64)
    (h5 : b.ebytes < 2 ^ 32) (h6 : b.pbytes < 2 ^ 32) (h7 : b.last < 64) (h8 : b.owner < 2 ^ 32) :
    Bar.ofBytes b.bytes = b := by
  have half (x : Nat) (h : x < 2 ^ 16) : leNat (leBytes 2 x) = x := leNat_leBytes_of_lt h
  have whole (x : Nat) (h : x < 2 ^ 32) : leNat (leBytes 4 x) = x := leNat_leBytes_of_lt h
  have pair (x : Nat) : ∃ p q, leBytes 2 x = [p, q] := ⟨_, _, rfl⟩
  have quad (x : Nat) : ∃ p q r t, leBytes 4 x = [p, q, r, t] := ⟨_, _, _, _, rfl⟩
  obtain ⟨a1, a2, ha⟩ := pair b.exp
  obtain ⟨b1, b2, hb⟩ := pair b.pend
  obtain ⟨c1, c2, hc⟩ := pair b.phase
  obtain ⟨d1, d2, hd⟩ := pair b.flags
  obtain ⟨e1, e2, e3, e4, he⟩ := quad b.ebytes
  obtain ⟨f1, f2, f3, f4, hf⟩ := quad b.pbytes
  obtain ⟨g1, g2, g3, g4, hg⟩ := quad b.last
  obtain ⟨i1, i2, i3, i4, hi⟩ := quad b.owner
  have fields : Bar.ofBytes b.bytes = ⟨leNat (leBytes 2 b.exp), leNat (leBytes 2 b.pend), leNat (leBytes 2 b.phase),
      leNat (leBytes 2 b.flags) % 64, leNat (leBytes 4 b.ebytes), leNat (leBytes 4 b.pbytes), leNat (leBytes 4 b.last) % 64,
      leNat (leBytes 4 b.owner)⟩ := by
    unfold Bar.bytes Bar.ofBytes
    rw [ha, hb, hc, hd, he, hf, hg, hi]
    rfl
  rw [fields, half _ h1, half _ h2, half _ h3, half _ (by omega), whole _ h5, whole _ h6, whole _ (by omega), whole _ h8,
    Nat.mod_eq_of_lt h4, Nat.mod_eq_of_lt h7]

theorem Bar.step_overflow {b : Bar} {arr nb : Nat} (h : b.pend < arr ∨ b.pbytes < nb) : b.step arr nb = none := by
  simp [Bar.step, h]

theorem Bar.step_complete {b : Bar} {arr nb : Nat} (ha : arr ≤ b.pend) (hb : nb ≤ b.pbytes) (hc : b.pend - arr = 0)
    (hd : b.pbytes - nb = 0) :
    b.step arr nb = some ⟨b.exp, b.exp, (b.phase + 1) % 65536, 0, b.ebytes, b.ebytes, b.flags, b.owner⟩ := by
  unfold Bar.step
  rw [if_neg (by simp [ha, hb])]
  dsimp only
  rw [if_pos (by simp [hc, hd])]

theorem Bar.step_pending {b : Bar} {arr nb : Nat} (ha : arr ≤ b.pend) (hb : nb ≤ b.pbytes)
    (hc : ¬ (b.pend - arr = 0 ∧ b.pbytes - nb = 0)) :
    b.step arr nb = some ⟨b.exp, b.pend - arr, b.phase, b.flags, b.ebytes, b.pbytes - nb, b.last, b.owner⟩ := by
  unfold Bar.step
  rw [if_neg (by simp [ha, hb])]
  dsimp only
  rw [if_neg (by simpa using hc)]

/-- A phase after p is complete where the difference lies in 1 to 32,767 (12 R247). -/
theorem Bar.passed_iff (b : Bar) (p : Nat) :
    b.passed p = true ↔ 1 ≤ ((b.phase : Int) - p) % 65536 ∧ ((b.phase : Int) - p) % 65536 ≤ 32767 := by
  have hd : (((b.phase + 65536 - p % 65536) % 65536 : Nat) : Int) = ((b.phase : Int) - p) % 65536 := by omega
  unfold Bar.passed
  rw [Bool.and_eq_true, decide_eq_true_eq, decide_eq_true_eq, ← hd]
  omega

/-- Settles O36: the step by its cases, and the object's layout. -/
theorem barrierStep : Obligations.BarrierStep := by
  unfold Obligations.BarrierStep
  refine ⟨fun b arr nb => ⟨Bar.step_overflow, Bar.step_complete, Bar.step_pending, b.passed_iff⟩,
    fun b h1 h2 h3 h4 h5 h6 h7 h8 => ⟨b.length_bytes, Bar.ofBytes_bytes h1 h2 h3 h4 h5 h6 h7 h8⟩, fun bs => ⟨?_, ?_⟩⟩
  · exact Nat.mod_lt _ (by decide)
  · exact Nat.mod_lt _ (by decide)

end Sys2Proof.Machine
end

section
/-! PROOF. What is in flight of a warp's loads is no part of memory, scratch or the on-chip map (02 R35): an access that fixes
reads finds every byte as it stood. A write keeps what it does not name of every warp. -/

namespace Sys2Proof.Machine

/-! States without what is in flight. -/

/-- A warp without its loads and stores in flight. -/
def Warp.quiet (x : Warp) : Warp := { x with loads := [], stores := [] }

/-- A state without loads and stores in flight. -/
def State.quiet (s : State) : State := { s with warps := s.warps.mapVal (fun _ x => x.quiet) }

section
variable (s : State)

theorem State.warp_quiet (w : Nat) : s.quiet.warp w = (s.warp w).quiet := by
  unfold State.warp State.quiet
  rw [AMap.find_mapVal]
  cases s.warps.find w <;> rfl

theorem State.unitOwner_quiet (c q u : Nat) (units : Warp → List Nat) (h : ∀ x : Warp, units x.quiet = units x) :
    s.quiet.unitOwner c q u units = s.unitOwner c q u units := by
  unfold State.unitOwner State.quiet AMap.mapVal
  rw [List.find?_map, Option.map_map]
  have hp : ((fun e : Nat × Warp => decide (e.2.core = c) && decide (e.2.quarter = q) && (units e.2).contains u) ∘
      fun e : Nat × Warp => (e.1, e.2.quiet)) =
      fun e => decide (e.2.core = c) && decide (e.2.quarter = q) && (units e.2).contains u := by
    funext e
    rw [Function.comp_apply, h]
    rfl
  rw [hp]
  refine congrArg (fun f => Option.map f _) (funext fun e => ?_)
  rw [Function.comp_apply, h]

theorem State.chipAt_quiet (a : Nat) : s.quiet.chipAt a = s.chipAt a := by
  unfold State.chipAt
  dsimp only
  rw [State.unitOwner_quiet s _ _ _ _ (fun _ => rfl), State.unitOwner_quiet s _ _ _ _ (fun _ => rfl),
    State.unitOwner_quiet s _ _ _ _ (fun _ => rfl)]
  rfl

theorem Warp.rawV_quiet (x : Warp) (r l : Nat) : x.quiet.rawV r l = x.rawV r l := rfl
theorem Warp.tileWord_quiet (x : Warp) (t i : Nat) : x.quiet.tileWord t i = x.tileWord t i := rfl
theorem Warp.slotByte_quiet (x : Warp) (j o : Nat) : x.quiet.slotByte j o = x.slotByte j o := rfl

/-- What the storage behind an on-chip address holds (02 R35). -/
def State.storeByte (s : State) (c : Chip) : Byte :=
  match c with
  | .reg w r l b => ((s.warp w).rawV r l).extractLsb' (8 * b) 8
  | .scr u o => (s.block u).scrByte o
  | .acc w i b => ((s.warp w).tileWord 0 i).extractLsb' (8 * b) 8
  | .slot w j o => (s.warp w).slotByte j o
  | .reserved => 0
  | .spare c o => (s.core c).spareByte o

/-- A byte of the map is that of the storage behind it. The unfolding is made of the function itself, not of its value at `a`:
the kernel would compute the place of `a` to compare the latter. -/
theorem State.chipByte_eq (a : Nat) : s.chipByte a = s.storeByte (s.chipAt a) := by
  have h : State.chipByte = State.chipByte := rfl
  conv at h => rhs; delta State.chipByte
  rw [h]
  beta_reduce
  generalize s.chipAt a = c
  cases c <;> rfl

theorem State.storeByte_quiet (c : Chip) : s.quiet.storeByte c = s.storeByte c := by
  cases c with
  | reg => simp only [State.storeByte, State.warp_quiet, Warp.rawV_quiet]
  | scr => rfl
  | acc => simp only [State.storeByte, State.warp_quiet, Warp.tileWord_quiet]
  | slot => simp only [State.storeByte, State.warp_quiet, Warp.slotByte_quiet]
  | reserved => rfl
  | spare => rfl

theorem State.chipByte_quiet (a : Nat) : s.quiet.chipByte a = s.chipByte a := by
  rw [State.chipByte_eq, State.chipByte_eq, State.chipAt_quiet, State.storeByte_quiet]

theorem State.readRun_quiet (k : Nat) (p : Place) (n : Nat) : s.quiet.readRun k p n = s.readRun k p n := by
  cases p with
  | phys => rfl
  | peer => rfl
  | onChip a => exact List.map_congr_left fun i _ => s.chipByte_quiet _

theorem State.readTarget_quiet (k : Nat) (t : Target) : s.quiet.readTarget k t = s.readTarget k t := by
  cases t with
  | glob rs => exact List.flatMap_congr fun e _ => s.readRun_quiet k e.1 e.2
  | scr => rfl

theorem State.blockOf_quiet (w : Nat) : s.quiet.blockOf w = s.blockOf w := by
  rw [State.blockOf, State.warp_quiet]
  rfl

theorem State.path_quiet (w : Nat) (m : Mask) (scope : Nat) : s.quiet.path w m scope = s.path w m scope := by
  have hb := s.blockOf_quiet w
  unfold State.path State.flockIdOf State.flockSizeOf
  rw [hb, State.warp_quiet]
  rfl

theorem State.barAt_quiet (t : Target) : s.quiet.barAt t = s.barAt t := by
  unfold State.barAt
  rw [State.readTarget_quiet]
  rfl

end

/-- The state with a warp replaced by one that differs in what is in flight has the same rest. -/
theorem State.quiet_setWarp (s : State) (w : Nat) {x y : Warp} (h : x.quiet = y.quiet) :
    (s.setWarp w x).quiet = (s.setWarp w y).quiet := by
  have hput : ∀ m : AMap Warp, (m.put w x).mapVal (fun _ x => x.quiet) = (m.put w y).mapVal (fun _ x => x.quiet) := by
    intro m
    induction m with
    | nil => simp [AMap.put, AMap.mapVal, h]
    | cons e t ih =>
      unfold AMap.put
      split
      · simp [AMap.mapVal, h]
      · split
        · simp [AMap.mapVal, h]
        · exact congrArg (List.cons _) ih
  exact congrArg (fun m => { s with warps := m }) (hput s.warps)

/-- An access that fixes reads leaves the rest of the state. -/
theorem quiet_fixReads {s : State} {w : Nat} {i : Instr} (h : Solo s w i) (ts : List Target) :
    ((started s w i).fixReads (s.selfActor w i) ts).quiet = (started s w i).quiet := by
  obtain ⟨p, hp⟩ := fixReads_self h ts
  rw [hp, ← started_updWarp_id s w i, started_updWarp, State.setWarp_setWarp]
  exact State.quiet_setWarp _ _ rfl

/-! What a write keeps of the warps. -/

section
variable {γ : Type} (p : Warp → γ) (hv : ∀ x r l b, p (Warp.writeV x r l b) = p x) (ha : ∀ x i b v, p (Warp.setAccByte x i b v) = p x)
  (hs : ∀ x j o v, p (Warp.setSlotByte x j o v) = p x)
include hv ha hs

theorem State.keeps_setStore (s : State) (c : Chip) (v : Byte) (w : Nat) : p ((s.setStore c v).warp w) = p (s.warp w) := by
  cases c with
  | reg => exact s.keeps_updWarp _ _ p (by intro x; exact hv ..) w
  | scr => rfl
  | acc => exact s.keeps_updWarp _ _ p (by intro x; exact ha ..) w
  | slot => exact s.keeps_updWarp _ _ p (by intro x; exact hs ..) w
  | reserved => rfl
  | spare => rfl

theorem State.keeps_writeChip (s : State) (a : Nat) (bs : List Byte) (w : Nat) : p ((s.writeChip a bs).warp w) = p (s.warp w) := by
  unfold State.writeChip
  refine (keeps_foldl (fun s => p (s.warp w)) _ (fun s i => ?_) _ _).trans
    (keeps_foldl (fun s => p (s.warp w)) _ (fun s e => s.keeps_setStore p hv ha hs _ _ w) _ _)
  dsimp only
  generalize s.chipAt (32 * (a / 32 + i)) = c
  split
  · cases c <;> rfl
  · rfl

theorem State.keeps_writeRuns (rs : List (Place × Nat)) (s : State) (bs : List Byte) (w : Nat) :
    p ((s.writeRuns rs bs).warp w) = p (s.warp w) := by
  induction rs generalizing s bs with
  | nil => rfl
  | cons e t ih =>
    obtain ⟨q, n⟩ := e
    refine (ih _ _).trans ?_
    cases q with
    | phys => rfl
    | peer => rfl
    | onChip a => exact s.keeps_writeChip p hv ha hs a _ w

theorem State.keeps_writeTarget (s : State) (t : Target) (bs : List Byte) (w : Nat) :
    p ((s.writeTarget t bs).warp w) = p (s.warp w) := by
  cases t with
  | glob rs => exact State.keeps_writeRuns p hv ha hs rs s bs w
  | scr => rfl

theorem State.keeps_putBy (s : State) (g : Agent) (k : Nat) (q : Put) (t : Target) (bs : List Byte) (w : Nat) :
    p ((s.putBy g k q t bs).warp w) = p (s.warp w) := by
  unfold State.putBy
  split
  · exact s.keeps_writeTarget p hv ha hs t bs w
  · exact State.keeps_writeTarget p hv ha hs _ t _ w

end

/-- A write keeps the live mask of every warp. -/
theorem State.live_putBy (s : State) (g : Agent) (k : Nat) (q : Put) (t : Target) (bs : List Byte) (w : Nat) :
    ((s.putBy g k q t bs).warp w).live = (s.warp w).live :=
  s.keeps_putBy Warp.live (fun _ _ _ _ => Warp.writeV_live ..) (fun _ _ _ _ => rfl) (fun _ _ _ _ => rfl) g k q t bs w

end Sys2Proof.Machine
end

section
/-! PROOF. The barrier instructions of one warp on an object that passes the checks (12 R246, R247). -/

namespace Sys2Proof.Machine

theorem Warp.readS_fixReads (x : Warp) (p : PendLoad → LateRead → Bool) (k r : Nat) : (x.fixReads p).readS k r = x.readS k r := by
  have h : ∀ key u r l old, seenThrough (x.fixReads p).loads k key u r l old = seenThrough x.loads k key u r l old :=
    fun _ _ _ _ _ => List.foldl_map
  unfold Warp.readS
  rw [h]
  rfl

theorem State.readObject_pastOf (s : State) (a : Actor) (h : Hdr) (acq : Bool) (t : Target) : s.pastOf (s.readObject a h acq t) := by
  unfold State.readObject
  split
  · exact s.pastOf_refl
  · exact State.pastOf_foldl _ (fun s _ => s.readNewest_pastOf ..) _ s

theorem State.releaseObject_pastOf (s : State) (a : Actor) (h : Hdr) : s.pastOf (s.releaseObject a h) :=
  State.pastOf_foldl _ (fun s _ => s.publish_pastOf ..) _ s

/-- A change to an object keeps the live mask of every warp. -/
theorem State.live_setBar (s : State) (g : Agent) (p : Put) (t : Target) (b : Bar) (w : Nat) :
    ((s.setBar g p t b).warp w).live = (s.warp w).live := by
  unfold State.setBar
  rw [State.live_putBy, State.pastOf_warp (State.readNewest_pastOf ..)]

section
variable {s : State} {w : Nat} {i : Instr}

/-- What an access that has fixed reads finds: the warp's registers and block, and every byte, as they were. -/
structure Finds (s : State) (w : Nat) (i : Instr) (y : State) : Prop where
  live : (y.warp w).live = (s.warp w).live
  sticky : (y.warp w).sticky = (s.warp w).sticky
  readS : ∀ k r, (y.warp w).readS k r = (s.warp w).readS k r
  ctr : y.freeCtr = (started s w i).freeCtr
  blocks : y.blocks = (started s w i).blocks
  blk : (y.warp w).blk = ((started s w i).warp w).blk
  quiet : y.quiet = (started s w i).quiet

theorem finds_fixReads (h : Solo s w i) (ts : List Target) : Finds s w i ((started s w i).fixReads (s.selfActor w i) ts) := by
  obtain ⟨p, hp⟩ := fixReads_self h ts
  have hw : ((started s w i).fixReads (s.selfActor w i) ts).warp w = ((s.warp w).issued i).fixReads p := by
    rw [hp, State.warp_setWarp_same]
  refine ⟨by rw [hw]; exact Warp.issued_live _ _, by rw [hw]; exact Warp.issued_sticky _ _, fun k r => ?_, by rw [hp]; rfl,
    by rw [hp]; rfl, by rw [hw, warp_started]; rfl, quiet_fixReads h ts⟩
  rw [hw, Warp.readS_fixReads, Warp.readS_issued]

section
variable {y : State} (h : Solo s w i) (f : Finds s w i y)
include h f

theorem Finds.liveMembers : y.liveMembers (s.selfActor w i) = [⟨w, (s.warp w).active, (s.warp w).selected i⟩] :=
  liveMembers_self h f.live

theorem Finds.firstMember : y.firstMember (s.selfActor w i) = w := by
  rw [State.firstMember, f.liveMembers h]
  rfl

omit h in
theorem Finds.draw (n : Nat) : y.draw n = (started s w i).draw n := by
  rw [State.draw, f.ctr]
  rfl

omit h in
theorem Finds.barAt (t : Target) : y.barAt t = (started s w i).barAt t := by
  rw [← State.barAt_quiet, f.quiet, State.barAt_quiet]

omit h in
theorem Finds.blockOf : y.blockOf w = s.blockOf w := by
  rw [← State.blockOf_quiet, f.quiet, State.blockOf_quiet, State.blockOf, warp_started, Warp.issued_blk]
  rfl

theorem Finds.syncAgent (hd : Hdr) : y.syncAgent (s.selfActor w i) hd = (started s w i).syncAgent (s.selfActor w i) hd := by
  unfold State.syncAgent
  rw [f.firstMember h, firstMember_self h, agentOf_self, agentOf_self, ← State.path_quiet, f.quiet, State.path_quiet]

theorem Finds.syncReg (r : BitVec 8) : syncReg y (s.selfActor w i) r = syncReg (started s w i) (s.selfActor w i) r := by
  unfold Machine.syncReg
  rw [f.firstMember h, firstMember_self h, f.readS, f.draw, warp_started, Warp.readS_issued]

end

theorem writeUniform_alone {t : State} (h : Solo s w i) (hl : (t.warp w).live = (s.warp w).live) (r : Nat) (v : Word) :
    t.writeUniform (s.selfActor w i) r v = t.updWarp w (fun x => x.writeS r v) := by
  unfold State.writeUniform
  rw [liveMembers_self h hl]
  rfl

/-- An access whose object passes the checks and holds no poison. -/
theorem syncWith_ok {fn n : Nat} {sp : Space} {addr : DWord} {g : Target → State → Res} {a : Actor} {z : State} {t : Target}
    (ht : syncTarget z a fn sp addr n = .ok t) (hp : z.poisonedTarget t = false) :
    syncWith fn sp addr n g a z = g t (z.fixReads a [t]) := by
  unfold syncWith
  rw [ht]
  dsimp only
  rw [hp, if_neg Bool.false_ne_true]

/-- An instruction of one warp that gives its uniform destination a word. -/
theorem issue_gives {op : Actor → State → Res} {t : State} {r : Nat} {v : Word} (h : Solo s w i)
    (hl : (t.warp w).live = (s.warp w).live)
    (ho : op (s.selfActor w i) (started s w i) = .ok (t.writeUniform (s.selfActor w i) r v)) :
    issue i op s = .next (past s w i (t.updWarp w (fun x => x.writeS r v))) := by
  rw [writeUniform_alone h hl] at ho
  refine issue_past h ho (not_exited_of_live h ?_)
  rw [State.warp_updWarp_same]
  exact hl

/-- A wait of an instruction that a warp performs alone, with its owner word. -/
theorem issue_blocked {op : Actor → State → Res} {t : State} {o : Word} {k : BitVec 4} {d : BitVec 24} {wk : WaitKind}
    {q : List DWord} (h : Solo s w i) (hl : (t.warp w).live = (s.warp w).live)
    (ho : op (s.selfActor w i) (started s w i) = .wait (t.blockAll (s.selfActor w i) o k d) wk q) :
    issue i op s = .next (t.updWarp w (fun x =>
      { x with blocked := ⟨o, k, d⟩, wait := some ⟨wk, i, s.selfActor w i, q⟩ })) := by
  have he : (t.warp w).exited = false := not_exited_of_live h hl
  have hb := blockAll_of_alone (t := t) (alone_selfActor s w i) o k d he
  have hw : ((t.updWarp w (fun x => { x with blocked := ⟨o, k, d⟩ })).warp w).exited = false := by
    rw [State.warp_updWarp_same]
    exact he
  rw [issue_solo h, ho, settle_wait, hb, updInst_none _ _ _ rfl, waitAll_of_alone (alone_selfActor s w i) wk i q hw,
    State.updWarp_updWarp]
  rfl

end

end Sys2Proof.Machine
end

section
/-! PROOF. BARINIT, BARARR, BAREXP, BARTEST and BARWAIT (12 R247). -/

namespace Sys2Proof.Machine

section
variable {s : State} {w : Nat} {h : Hdr} {f : XForm} {tgt : Target} {fn : Nat} {i : Instr}

theorem zeroExtend_word (x : Word) : x.zeroExtend 64 = BitVec.ofNat 64 x.toNat := by
  refine BitVec.eq_of_toNat_eq ?_
  rw [BitVec.zeroExtend_eq_setWidth, BitVec.toNat_setWidth, BitVec.toNat_ofNat]

theorem toNat_word (x : Word) : (BitVec.ofNat 64 x.toNat).toNat = x.toNat := by
  rw [BitVec.toNat_ofNat, Nat.mod_eq_of_lt (Nat.lt_of_lt_of_le x.isLt (by decide))]

theorem extract_phase (x : Word) : ((BitVec.ofNat 64 x.toNat).extractLsb' 0 16).zeroExtend 24 = BitVec.ofNat 24 (x.toNat % 65536) := by
  refine BitVec.eq_of_toNat_eq ?_
  have := x.isLt
  simp only [BitVec.truncate_eq_setWidth, BitVec.toNat_setWidth, BitVec.extractLsb'_toNat, BitVec.toNat_ofNat, Nat.shiftRight_zero]
  omega

/-- Who holds the rank that an address names depends on the blocks alone. -/
theorem holder_congr {t u : State} {a : Actor} {sp : Space} {addr : DWord} (hb : t.blocks = u.blocks)
    (hw : (t.warp a.lead).blk = (u.warp a.lead).blk) : t.holder a sp addr = u.holder a sp addr := by
  have block : ∀ b, t.block b = u.block b := fun b => by rw [State.block, hb]; rfl
  unfold State.holder State.foldMember State.foldMembers
  simp only [hw, hb, block]

theorem self_selfActor : (s.selfActor w i).self = ⟨w, (s.warp w).active, (s.warp w).selected i⟩ := rfl

/-- BARARR merges the flags of the one warp that arrives. -/
theorem arrival_flags {y : State} (hs : Solo s w i) (fd : Finds s w i y) :
    (y.liveMembers (s.selfActor w i)).foldl (fun g m => g ||| ((y.warp m.w).sticky.extractLsb' 0 6).toNat) 0 =
      ((s.warp w).sticky.extractLsb' 0 6).toNat := by
  rw [fd.liveMembers hs]
  simp only [List.foldl_cons, List.foldl_nil, Nat.zero_or, fd.sticky]

/-- BARARR's effect on its object. -/
theorem opBararr_self (hs : Solo s w i)
    (ht : syncTarget (started s w i) (s.selfActor w i) 1 (syncSpace h.width) (syncAddr (started s w i) (s.selfActor w i) h f) 32 = .ok tgt)
    (hp : (started s w i).poisonedTarget tgt = false) :
    let z := started s w i
    let a := s.selfActor w i
    let b := z.barAt tgt
    let y := z.fixReads a [tgt]
    opBararr h (.x f) a z =
      match ({ b with flags := b.flags ||| (if f.mb then ((s.warp w).sticky.extractLsb' 0 6).toNat else 0) } : Bar).step 1 0 with
      | none => .fault (syncFault a 1 cBarrierOverflow (syncAddr z a h f))
      | some c => .ok ((((y.readObject a h false tgt).releaseObject a h).setBar (z.syncAgent a h) (Put.step true) tgt c).writeUniform a
          h.vd.toNat (BitVec.ofNat 32 b.phase)) := by
  have fd := finds_fixReads hs [tgt]
  unfold opBararr
  dsimp only
  rw [syncWith_ok ht hp]
  simp only [fd.barAt, fd.syncAgent hs, arrival_flags hs fd] <;> rfl

/-- BARINIT's effect on its object. -/
theorem opBarinit_self (hs : Solo s w i) (hsel : (s.warp w).selected i ≠ 0)
    (ht : syncTarget (started s w i) (s.selfActor w i) 0 (syncSpace h.width) (syncAddr (started s w i) (s.selfActor w i) h f) 32 = .ok tgt)
    (hp : (started s w i).poisonedTarget tgt = false) :
    let z := started s w i
    let a := s.selfActor w i
    opBarinit h (.x f) a z = .ok ((z.fixReads a [tgt]).putBy (z.syncAgent a h) (z.draw 13) Put.init tgt
      ((Bar.mk ((syncReg z a f.vb).toNat % 65536) ((syncReg z a f.vb).toNat % 65536) 0 0 (syncReg z a f.vc).toNat
        (syncReg z a f.vc).toNat 0 (if (s.blockOf w).index < 2 ^ 30 then (ownerBlock (s.blockOf w).index).toNat else 0)).bytes
          ++ List.replicate 8 0)) := by
  have fd := finds_fixReads hs [tgt]
  unfold opBarinit
  dsimp only
  rw [self_selfActor, if_neg (by simpa using hsel), syncWith_ok ht hp]
  simp only [fd.syncAgent hs, fd.draw, fd.syncReg hs, State.selfActor_lead, fd.blockOf]

/-- BARTEST's effect. -/
theorem opBartest_self (hs : Solo s w i)
    (ht : syncTarget (started s w i) (s.selfActor w i) 3 (syncSpace h.width) (syncAddr (started s w i) (s.selfActor w i) h f) 32 = .ok tgt)
    (hp : (started s w i).poisonedTarget tgt = false) :
    let z := started s w i
    let a := s.selfActor w i
    let b := z.barAt tgt
    let p := (syncReg z a f.vb).toNat
    opBartest h (.x f) a z = .ok (((z.fixReads a [tgt]).readObject a h (b.passed p) tgt).writeUniform a h.vd.toNat
      (BitVec.ofNat 32 (if b.passed p then 2 ^ 31 ||| b.last else 0))) := by
  have fd := finds_fixReads hs [tgt]
  unfold opBartest
  dsimp only
  rw [syncWith_ok ht hp]
  simp only [fd.barAt, fd.syncReg hs]

/-- BAREXP's effect on its object. -/
theorem opBarexp_self (hs : Solo s w i)
    (ht : syncTarget (started s w i) (s.selfActor w i) 4 (syncSpace h.width) (syncAddr (started s w i) (s.selfActor w i) h f) 32 = .ok tgt)
    (hp : (started s w i).poisonedTarget tgt = false) :
    let z := started s w i
    let a := s.selfActor w i
    let b := z.barAt tgt
    let n := b.pbytes + (syncReg z a f.vb).toNat
    opBarexp h (.x f) a z = if 2 ^ 32 ≤ n then .fault (syncFault a 4 cBarrierOverflow (syncAddr z a h f))
      else .ok ((((z.fixReads a [tgt]).readObject a h false tgt).setBar (z.syncAgent a h) (Put.step false) tgt
        { b with pbytes := n }).writeUniform a h.vd.toNat (BitVec.ofNat 32 b.phase)) := by
  have fd := finds_fixReads hs [tgt]
  unfold opBarexp
  dsimp only
  rw [syncWith_ok ht hp]
  simp only [fd.barAt, fd.syncAgent hs, fd.syncReg hs]

/-- BARWAIT's poll of its object, at issue. -/
theorem opBarwait_self (hs : Solo s w i)
    (ht : syncTarget (started s w i) (s.selfActor w i) 2 (syncSpace h.width) (syncAddr (started s w i) (s.selfActor w i) h f) 32 = .ok tgt)
    (hp : (started s w i).poisonedTarget tgt = false) :
    let z := started s w i
    let a := s.selfActor w i
    let addr := syncAddr z a h f
    let b := z.barAt tgt
    let p := (syncReg z a f.vb).toNat
    let y := (z.fixReads a [tgt]).readObject a h (b.passed p) tgt
    opBarwait h (.x f) a z = if b.passed p then .ok (y.writeUniform a h.vd.toNat (BitVec.ofNat 32 b.last))
      else .wait (y.blockAll a b.waitOwner 1 (BitVec.ofNat 24 (p % 65536))) .barrier
        [addr, BitVec.ofNat 64 p, y.holder a (syncSpace h.width) addr] := by
  have fd := finds_fixReads hs [tgt]
  unfold opBarwait pollBarwait syncHeld State.holderLeft
  dsimp only
  rw [if_pos (by rfl)]
  dsimp only
  rw [syncWith_ok ht hp]
  simp only [fd.barAt, zeroExtend_word, toNat_word, extract_phase]

end

/-- Settles O37: each instruction's effect on its object. -/
theorem barriersComplete : Obligations.BarriersComplete := by
  unfold Obligations.BarriersComplete
  intro s w h f tgt fn i hform z a addr b p y g read gives hs hsel ht hp hr
  have fd : Finds s w i y := finds_fixReads hs [tgt]
  have live : ∀ acq, ((read acq).warp w).live = (s.warp w).live := fun acq => by
    rw [State.pastOf_warp (State.readObject_pastOf ..)]
    exact fd.live
  simp only [List.mem_cons, Prod.mk.injEq, List.not_mem_nil, or_false] at hform
  rcases hform with ⟨rfl, rfl⟩ | ⟨rfl, rfl⟩ | ⟨rfl, rfl⟩ | ⟨rfl, rfl⟩ | ⟨rfl, rfl⟩
  · refine ⟨fun _ => ?_, by omega, by omega, by omega, by omega, by omega, by omega, by omega⟩
    refine issue_past hs (opBarinit_self hs hsel ht hp) (not_exited_of_live hs ?_)
    rw [State.live_putBy]
    exact fd.live
  · have ho := opBararr_self hs ht hp
    refine ⟨by omega, fun _ c hc => ?_, fun _ hb => ?_, by omega, by omega, by omega, by omega, by omega⟩
    · refine issue_gives (op := opBararr h (.x f)) hs ?_ (ho.trans ?_)
      · rw [State.live_setBar, State.pastOf_warp (State.releaseObject_pastOf ..)]
        exact live false
      · rw [hc]
    · refine issue_fault (op := opBararr h (.x f)) hs hr (ho.trans ?_)
      rw [Bar.step_overflow (Or.inl (by rw [hb]; decide))]
      rfl
  · have ho := opBarwait_self hs ht hp
    refine ⟨by omega, by omega, by omega, fun _ hb => ?_, fun _ hb => ?_, by omega, by omega, by omega⟩
    · exact issue_gives (op := opBarwait h (.x f)) hs (live true) (ho.trans (by rw [if_pos hb, hb]))
    · have hh : (read false).holder a (syncSpace h.width) addr = z.holder a (syncSpace h.width) addr :=
        holder_congr (by rw [State.pastOf_blocks (State.readObject_pastOf ..)]; exact fd.blocks)
          (by rw [State.pastOf_warp (State.readObject_pastOf ..)]; exact fd.blk)
      refine issue_blocked (op := opBarwait h (.x f)) (t := read false) hs (live false) (ho.trans ?_)
      rw [if_neg (by rw [hb]; decide), hb, ← hh]
  · refine ⟨by omega, by omega, by omega, by omega, by omega, fun _ => ?_, by omega, by omega⟩
    exact issue_gives hs (live _) (opBartest_self hs ht hp)
  · have ho := opBarexp_self hs ht hp
    refine ⟨by omega, by omega, by omega, by omega, by omega, by omega, fun _ hn => ?_, fun _ hn => ?_⟩
    · refine issue_gives (op := opBarexp h (.x f)) hs ?_ (ho.trans (if_neg (Nat.not_le.2 hn)))
      rw [State.live_setBar]
      exact live false
    · exact issue_fault (op := opBarexp h (.x f)) hs hr (ho.trans (if_pos hn))

end Sys2Proof.Machine
end

section
/-! PROOF. WAITF, WAITC and FLAGRD of one warp (12 R248, 10 R223, 08 R184, R185), and WAITT, TLARM and TLRD (14 R270 to R273). -/

namespace Sys2Proof.Machine

theorem State.readWord_pastOf (s : State) (a : Actor) (h : Hdr) (acq : Bool) (t : Target) : s.pastOf (s.readWord a h acq t) := by
  unfold State.readWord
  dsimp only
  split
  · exact s.pastOf_refl
  · exact State.pastOf_foldl _ (fun u _ => State.pastOf_trans (u.marked_pastOf ..) (State.hear_pastOf ..)) _ s

/-! WAITF. -/

theorem extract_word (x : Word) : (x.zeroExtend 64).extractLsb' 0 32 = x := by
  refine BitVec.eq_of_toNat_eq ?_
  have := x.isLt
  simp only [BitVec.zeroExtend_eq_setWidth, BitVec.extractLsb'_toNat, BitVec.toNat_setWidth, Nat.shiftRight_zero]
  omega

theorem extract_type (x : Word) : ((x.zeroExtend 64).extractLsb' 30 2 : BitVec 2) = x.extractLsb' 30 2 := by
  refine BitVec.eq_of_toNat_eq ?_
  have := x.isLt
  simp only [BitVec.zeroExtend_eq_setWidth, BitVec.extractLsb'_toNat, BitVec.toNat_setWidth]
  rw [Nat.mod_eq_of_lt (show x.toNat < 2 ^ 64 by omega)]

section
variable {s : State} {w : Nat} {h : Hdr} {f : XForm} {i : Instr}

theorem waitUniform_self {t : State} {r : Nat} {v o : Word} {k : BitVec 4} {d : BitVec 24} {wk : WaitKind} {q : List DWord}
    {op : Actor → State → Res} (hs : Solo s w i) (hl : (t.warp w).live = (s.warp w).live)
    (ho : op (s.selfActor w i) (started s w i) =
      .wait ((t.writeUniform (s.selfActor w i) r v).blockAll (s.selfActor w i) o k d) wk q) :
    issue i op s = .next (t.updWarp w (fun x =>
      { x.writeS r v with blocked := ⟨o, k, d⟩, wait := some ⟨wk, i, s.selfActor w i, q⟩ })) := by
  have hu := writeUniform_alone hs hl r v
  have hl' : ((t.writeUniform (s.selfActor w i) r v).warp w).live = (s.warp w).live := by
    rw [hu, State.warp_updWarp_same]
    exact hl
  rw [issue_blocked hs hl' ho, hu, State.updWarp_updWarp]

theorem opWaitf_owner (hk : (syncReg (started s w i) (s.selfActor w i) f.vc).extractLsb' 30 2 = (3 : BitVec 2)) :
    opWaitf h (.x f) (s.selfActor w i) (started s w i) =
      .fault (syncFault (s.selfActor w i) 5 0x7B (syncAddr (started s w i) (s.selfActor w i) h f)) := by
  unfold opWaitf pollWaitf
  dsimp only
  rw [extract_type, hk, if_pos (by decide)]
  rfl

/-- WAITF's poll of its word, at issue. -/
theorem opWaitf_self {tgt : Target} (hs : Solo s w i)
    (hk : (syncReg (started s w i) (s.selfActor w i) f.vc).extractLsb' 30 2 ≠ (3 : BitVec 2))
    (ht : syncTarget (started s w i) (s.selfActor w i) 5 (syncSpace h.width) (syncAddr (started s w i) (s.selfActor w i) h f) 4 = .ok tgt)
    (hp : (started s w i).poisonedTarget tgt = false) :
    let z := started s w i
    let a := s.selfActor w i
    let addr := syncAddr z a h f
    let v := syncReg z a f.vb
    let owner := syncReg z a f.vc
    let y := z.fixReads a [tgt]
    let word := BitVec.ofNat 32 (leNat (y.see (z.syncAgent a h) (z.draw 7) tgt))
    let u (acq : Bool) := (y.readWord a h acq tgt).writeUniform a h.vd.toNat word
    opWaitf h (.x f) a z = if waitfHolds h word v then .ok (u (waitfHolds h word v))
      else .wait ((u (waitfHolds h word v)).blockAll a owner 2 (addr.extractLsb' 0 24)) .flag
        [addr, v.zeroExtend 64, owner.zeroExtend 64, z.holder a (syncSpace h.width) addr] := by
  have fd := finds_fixReads hs [tgt]
  have hh : ∀ sp addr, ((started s w i).fixReads (s.selfActor w i) [tgt]).holder (s.selfActor w i) sp addr =
      (started s w i).holder (s.selfActor w i) sp addr := fun _ _ => holder_congr fd.blocks fd.blk
  unfold opWaitf pollWaitf syncHeld State.holderLeft
  dsimp only
  rw [extract_type, if_neg (by simpa using hk), if_pos (by rfl)]
  dsimp only
  rw [syncWith_ok ht hp]
  simp only [fd.syncAgent hs, fd.draw, extract_word, hh]

end

/-! WAITC and FLAGRD. -/

section
variable {s : State} {w : Nat} {i : Instr}

theorem ofUnit_started (n : Nat) : (started s w i).ofUnit n = s.ofUnit n := by
  funext v r
  by_cases h : v = w
  · subst h
    simp only [State.ofUnit, warp_started, Warp.issued_matrixLog, Warp.issued_blk]
  · have hv : (started s w i).warp v = s.warp v := by rw [State.warp, find_started_other i h]; rfl
    simp only [State.ofUnit, hv]

theorem coveredFlags_issued (x : Warp) (i : Instr) (n : Nat) : (x.issued i).coveredFlags n = x.coveredFlags n := by
  simp only [Warp.coveredFlags, Warp.issued_drainFlags]

/-- No flag of the drains covered is enabled: no trap. -/
theorem drainTrap_none (h : Solo s w i) {n : Nat} (hf : (s.warp w).coveredFlags n &&& (s.warp w).trapen = 0) :
    (started s w i).drainTrap (s.selfActor w i) n = none := by
  unfold State.drainTrap
  dsimp only
  rw [liveMembers_of_alone (alone_selfActor s w i) (not_exited_started h), show (s.selfActor w i).members =
    [⟨w, (s.warp w).active, (s.warp w).selected i⟩] from rfl]
  simp only [List.foldl_cons, List.foldl_nil, warp_started, coveredFlags_issued, Warp.issued_trapen, hf]
  rfl

/-- The one warp takes its drains' flags. -/
theorem mergeDrains_self {t : State} (h : Solo s w i) (hl : (t.warp w).live = (s.warp w).live) (n : Nat) :
    t.mergeDrains (s.selfActor w i) n = t.updWarp w (fun x => x.takeDrainFlags n) := by
  unfold State.mergeDrains
  rw [liveMembers_self h hl]
  rfl

theorem live_learned (p : Nat → Past → Bool) :
    (((started s w i).learnAll (s.selfActor w i) p).warp w).live = (s.warp w).live := by
  rw [State.pastOf_warp (State.learnAll_pastOf ..), warp_started, Warp.issued_live]

/-- A wait of an instruction that a warp performs alone. -/
theorem issue_waits {op : Actor → State → Res} {k : WaitKind} {q : List DWord} (h : Solo s w i)
    (ho : op (s.selfActor w i) (started s w i) = .wait (started s w i) k q) :
    issue i op s = .next ((started s w i).updWarp w (fun x => { x with wait := some ⟨k, i, s.selfActor w i, q⟩ })) := by
  rw [issue_solo h, ho, settle_wait, updInst_none _ _ _ rfl,
    waitAll_of_alone (alone_selfActor s w i) k i q (not_exited_started h)]
  rfl

theorem gated_self (gate : Nat → State → Option Res) (op : Actor → State → Res) (hsc : scopeOfInstr i = .warp) (z : State) :
    gated gate op (s.selfActor w i) z = (gate w z).getD (op (s.selfActor w i) z) := by
  unfold gated
  rw [State.selfActor_scope, hsc]
  rfl

/-- WAITC's completion by one warp (10 R223, 03 R81). -/
theorem doneWaitc_self {va : BitVec 8} {imm : BitVec 24} (h : Solo s w i)
    (hf : (s.warp w).coveredFlags (imm.toNat / 64 ^ 2 % 64) &&& (s.warp w).trapen = 0) :
    doneWaitc (.xi va imm) (s.selfActor w i) (started s w i) =
      .ok (((started s w i).learnAll (s.selfActor w i) (s.ofUnit (imm.toNat / 64 ^ 2 % 64))).updWarp w
        (fun x => x.takeDrainFlags (imm.toNat / 64 ^ 2 % 64))) := by
  have hm : (waitcLimits (.xi va imm)).getD 2 63 = imm.toNat / 64 ^ 2 % 64 := rfl
  unfold doneWaitc
  dsimp only
  rw [hm, drainTrap_none h hf, ofUnit_started, mergeDrains_self h (live_learned _)]
  rfl

theorem live_flagged (x : Warp) (r : Nat) (v k : Word) :
    ({ (x.takeDrainFlags 0).writeS r v with sticky := k } : Warp).live = x.live := rfl

theorem zero_or_word (x : Word) : (0 : Word) ||| x = x := BitVec.zero_or

/-- FLAGRD's completion by one warp (08 R184, R185). -/
theorem doneFlagrd_self {hd : Hdr} {va : BitVec 8} {imm : BitVec 24} (h : Solo s w i)
    (hf : (s.warp w).coveredFlags 0 &&& (s.warp w).trapen = 0) :
    doneFlagrd hd (.xi va imm) (s.selfActor w i) (started s w i) =
      .ok (((started s w i).learnAll (s.selfActor w i) (s.ofUnit 0)).updWarp w (fun x =>
        { (x.takeDrainFlags 0).writeS hd.vd.toNat (x.takeDrainFlags 0).sticky with
          sticky := (x.takeDrainFlags 0).sticky &&& ~~~((imm.extractLsb' 0 6 : BitVec 6).zeroExtend 32) })) := by
  have hl : ((((started s w i).learnAll (s.selfActor w i) (s.ofUnit 0)).updWarp w (fun x => x.takeDrainFlags 0)).warp w).live =
      (s.warp w).live := by
    rw [State.warp_updWarp_same]
    exact live_learned _
  unfold doneFlagrd
  dsimp only
  rw [drainTrap_none h hf, ofUnit_started, mergeDrains_self h (live_learned _), liveMembers_self h hl]
  simp only [List.foldl_cons, List.foldl_nil, State.warp_updWarp_same, State.updWarp, State.setWarp_setWarp,
    State.warp_setWarp_same, zero_or_word]
  rfl

end

/-- Settles O38: WAITF by its poll, WAITC and FLAGRD by their gates and completions. -/
theorem waitInstructions : Obligations.WaitInstructions := by
  unfold Obligations.WaitInstructions
  refine ⟨fun s w h f tgt => ?_, fun s w h va imm => ?_⟩
  · intro i z a addr v owner y word holds hs
    have hh : waitfHolds h word v = holds := rfl
    have live : ∀ acq, ((y.readWord a h acq tgt).warp w).live = (s.warp w).live := fun acq => by
      rw [State.pastOf_warp (State.readWord_pastOf ..)]
      exact (finds_fixReads hs [tgt]).live
    refine ⟨fun hk ht hp hc => ?_, fun hk ht hp hc => ?_, fun hk hr => issue_fault hs hr (opWaitf_owner hk)⟩
    · have hc : waitfHolds h word v = true := hh.trans hc
      exact issue_gives (op := opWaitf h (.x f)) hs (live true)
        ((opWaitf_self hs hk ht hp).trans ((if_pos hc).trans (congrArg (fun b => Res.ok ((y.readWord a h b tgt).writeUniform a h.vd.toNat word)) hc)))
    · have hc : waitfHolds h word v = false := hh.trans hc
      refine waitUniform_self (op := opWaitf h (.x f)) (t := y.readWord a h false tgt) hs (live false) ?_
      refine (opWaitf_self hs hk ht hp).trans ((if_neg (by rw [show waitfHolds h _ _ = false from hc]; decide)).trans ?_)
      exact congrArg (fun b => Res.wait (((y.readWord a h b tgt).writeUniform a h.vd.toNat word).blockAll a owner 2
        (addr.extractLsb' 0 24)) .flag [addr, v.zeroExtend 64, owner.zeroExtend 64, z.holder a (syncSpace h.width) addr]) hc
  · intro ic ig x lim under
    have gc := fun (hs : Solo s w ic) => (issueWith_solo (gate := gateWaitc (.xi va imm)) (op := opWaitc (.xi va imm)) hs).trans
      (issue_solo hs).symm
    have gf := fun (hs : Solo s w ig) => (issueWith_solo (gate := gateFlagrd) (op := opFlagrd h (.xi va imm)) hs).trans
      (issue_solo hs).symm
    refine ⟨fun hs hsc hf hu he => ?_, fun hs hsc hf hu => ?_, fun hs hsc hm he => ?_, fun hs hsc hm hf => ?_⟩
    · refine (gc hs).trans (issue_past hs (((gated_self (s := s) (w := w) (i := ic) _ _ hsc _).trans ?_).trans (doneWaitc_self (va := va) hs he)) (not_exited_of_live hs ?_))
      · rw [gateWaitc_started hf, if_pos hu]
        rfl
      · rw [State.warp_updWarp_same]
        exact live_learned (i := ic) _
    · refine (gc hs).trans (issue_waits hs ((gated_self (s := s) (w := w) (i := ic) _ _ hsc _).trans ?_))
      rw [gateWaitc_started hf, if_neg hu]
      rfl
    · refine (gf hs).trans (issue_past hs (((gated_self (s := s) (w := w) (i := ig) _ _ hsc _).trans ?_).trans (doneFlagrd_self (va := va) hs he)) (not_exited_of_live hs ?_))
      · rw [gateFlagrd_started (matrixFault_nil hm 0), if_pos hm]
        rfl
      · rw [State.warp_updWarp_same]
        exact (live_flagged _ _ _ _).trans (live_learned (i := ig) _)
    · refine (gf hs).trans (issue_waits hs ((gated_self (s := s) (w := w) (i := ig) _ _ hsc _).trans ?_))
      rw [gateFlagrd_started hf, if_neg hm]
      rfl

end Sys2Proof.Machine
end

section
/-! PROOF. WAITT, TLARM and TLRD of one warp (14 R270 to R273). -/

namespace Sys2Proof.Machine

section
variable {s : State} {w : Nat} {h : Hdr} {f : XForm} {i : Instr}

theorem holdsTimeline_started (tl : Nat) :
    (started s w i).holdsTimeline w tl = decide (tl < (s.blockOf w).timelines.length) := by
  rw [State.holdsTimeline, State.blockOf, warp_started, Warp.issued_blk]
  rfl

theorem extract_number (n : Word) : (n.zeroExtend 64).extractLsb' 0 32 = n := extract_word n

/-- WAITT's poll at issue (14 R271). -/
theorem opWaitt_self :
    let z := started s w i
    let a := s.selfActor w i
    let tl := f.vc.toNat
    let n := (s.warp w).readS (z.draw 0) f.va.toNat
    let t := s.timeline (s.warp w).blk tl
    opWaitt (.x f) a z =
      if ¬ tl < (s.blockOf w).timelines.length then .fault (FaultInfo.of 0x61 0)
      else if reached t.counter n then .ok (z.learnAll a (fun _ => ofTimeline (s.warp w).blk tl n))
      else match s.failedNext (s.warp w).blk tl with
        | some (id, o) => .fault (asyncInfo id o (s.warp w).pc)
        | none => .wait (z.blockAll a (if reached t.last n then 0 else ownerBlock (s.blockOf w).index) 5 (BitVec.ofNat 24 tl))
            .timeline [n.zeroExtend 64] := by
  have ht : ∀ b tl, (started s w i).timeline b tl = s.timeline b tl := fun _ _ => rfl
  have hf : ∀ b tl, (started s w i).failedNext b tl = s.failedNext b tl := fun _ _ => rfl
  unfold opWaitt pollWaitt
  simp only [State.selfActor_lead, holdsTimeline_started, warp_started, Warp.readS_issued, Warp.issued_blk, Warp.issued_pc,
    extract_number, ht, hf, block_started]
  by_cases hl : f.vc.toNat < (s.blockOf w).timelines.length
  · simp only [hl, decide_true, Bool.not_true, Bool.false_eq_true, if_false, not_true]
    rfl
  · simp only [hl, decide_false, Bool.not_false, if_true, not_false_eq_true]
    rfl

/-- TLARM at issue (14 R273). -/
theorem opTlarm_self :
    let z := started s w i
    let x := s.warp w
    opTlarm (.x f) (s.selfActor w i) z =
      if ¬ f.vc.toNat < (s.blockOf w).timelines.length then .fault (FaultInfo.of 0x8E 0)
      else if x.arming.isSome || x.held then .fault (FaultInfo.of 0x8F 0)
      else .ok (z.setWarp w { x.issued i with
        arming := some ⟨f.vc.toNat, x.readS (z.draw 0) f.va.toNat, x.readPairS (z.draw 2) f.vb.toNat, x.pc⟩ }) := by
  unfold opTlarm
  simp only [State.selfActor_lead, holdsTimeline_started, warp_started, Warp.readS_issued, Warp.readPairS_issued, Warp.issued_pc,
    Warp.issued_arming, Warp.issued_held]
  by_cases hl : f.vc.toNat < (s.blockOf w).timelines.length
  · simp only [hl, decide_true, Bool.not_true, Bool.false_eq_true, if_false, not_true]
    rfl
  · simp only [hl, decide_false, Bool.not_false, if_true, not_false_eq_true]
    rfl

/-- TLRD at issue (14 R272). -/
theorem opTlrd_self :
    let z := started s w i
    let t := s.timeline (s.warp w).blk f.vc.toNat
    opTlrd h (.x f) (s.selfActor w i) z =
      if ¬ f.vc.toNat < (s.blockOf w).timelines.length then .fault (FaultInfo.of 0x61 0)
      else .ok (z.setWarp w (((s.warp w).issued i).writePairS h.vd.toNat (if h.x then BitVec.ofNat 64 t.last
        else BitVec.ofNat 64 (t.counter % 2 ^ 63) ||| (if (s.failedNext (s.warp w).blk f.vc.toNat).isSome then 1 <<< 63 else 0)))) := by
  have ht : ∀ b tl, (started s w i).timeline b tl = s.timeline b tl := fun _ _ => rfl
  have hf : ∀ b tl, (started s w i).failedNext b tl = s.failedNext b tl := fun _ _ => rfl
  unfold opTlrd
  simp only [State.selfActor_lead, holdsTimeline_started, warp_started, Warp.issued_blk, ht, hf]
  by_cases hl : f.vc.toNat < (s.blockOf w).timelines.length
  · simp only [hl, decide_true, Bool.not_true, Bool.false_eq_true, if_false, not_true]
  · simp only [hl, decide_false, Bool.not_false, if_true, not_false_eq_true]
    rfl

end

/-- Settles O39: each instruction of a timeline held or not. -/
theorem timelineInstructions : Obligations.TimelineInstructions := by
  unfold Obligations.TimelineInstructions
  intro s w h f iw ia ir x tl held t n
  refine ⟨fun hs hh hn => ?_, fun hs hh hn hf => ?_, fun hs hh hr => ?_, fun hs hh hr => ?_, fun hs hh hr => ?_,
    fun hs hh ha hd => ?_, fun hs hh ha hr => ?_, fun hs hh hx => ?_, fun hs hh hx => ?_⟩
  · refine issue_past (op := opWaitt (.x f)) hs (opWaitt_self.trans ?_) (not_exited_of_live hs (live_learned _))
    rw [if_neg (not_not_intro hh), if_pos hn]
  · refine issue_blocked (op := opWaitt (.x f)) hs ((warp_started s w iw) ▸ Warp.issued_live _ _) (opWaitt_self.trans ?_)
    rw [if_neg (not_not_intro hh), if_neg (by rw [show reached _ _ = false from hn]; decide),
      show s.failedNext _ _ = none from hf]
  · exact issue_fault (op := opWaitt (.x f)) hs hr (opWaitt_self.trans (if_pos hh))
  · exact issue_fault (op := opTlarm (.x f)) hs hr (opTlarm_self.trans (if_pos hh))
  · exact issue_fault (op := opTlrd h (.x f)) hs hr (opTlrd_self.trans (if_pos hh))
  · refine issue_setWarp_eq (op := opTlarm (.x f)) hs (opTlarm_self.trans ((if_neg (not_not_intro hh)).trans (if_neg ?_))) ?_
      (Warp.issued_live _ _)
    · rw [show (s.warp w).arming = none from ha, show (s.warp w).held = false from hd]
      decide
    · refine congrArg (fun q => ({ (s.warp w).issued ia with arming := some q } : Warp)) ?_
      rw [Warp.readS_issued, Warp.readPairS_issued, Warp.issued_pc]
  · refine issue_fault (op := opTlarm (.x f)) hs hr (opTlarm_self.trans ((if_neg (not_not_intro hh)).trans (if_pos ?_)))
    exact Bool.or_eq_true_iff.2 ha
  · refine issue_setWarp_eq (op := opTlrd h (.x f)) hs (opTlrd_self.trans (if_neg (not_not_intro hh))) ?_ (Warp.issued_live _ _)
    rw [if_pos hx]
  · refine issue_setWarp_eq (op := opTlrd h (.x f)) hs (opTlrd_self.trans (if_neg (not_not_intro hh))) ?_ (Warp.issued_live _ _)
    rw [if_neg (by rw [hx]; decide)]

end Sys2Proof.Machine
end

section
/-! PROOF. LCOPY and the batches (14 R257 to R261). -/

namespace Sys2Proof.Machine

/-! Transfers started. -/

/-- A transfer in flight, as its instruction has read it (14 R257). -/
def laneOp (s : State) (w : Nat) (iword : DWord) (nt : Bool) (first : Nat) (q : Transfer) : EngOp :=
  { w := w, blk := (s.warp w).blk, kind := .lane q.lane q.src q.dst q.size q.v nt, tl := 0, num := first,
    ipc := (s.warp w).pc, iword := iword, handleIx := 0, regs := [], members := [], accepted := true,
    delivered := [], counted := false, box := none, fault := none }

/-- What starting transfers leaves. -/
structure TransfersStarted (s : State) (w : Nat) (iword : DWord) (nt : Bool) (first : Nat) (ts : List Transfer) (t : State) : Prop where
  mem : t.mem = s.mem
  blocks : t.blocks = s.blocks
  parts : t.parts = s.parts
  others : ∀ v, v ≠ w → t.warps.find v = s.warps.find v
  uid : t.nextUid = s.nextUid + ts.length
  warp : t.warp w = { s.warp w with openBatch := (s.warp w).openBatch ++ (List.range ts.length).map (fun k => s.nextUid + k) }
  older : ∀ id, id < s.nextUid → t.ops.find id = s.ops.find id
  ops : ∀ k q, ts[k]? = some q → t.ops.find (s.nextUid + k) = some (laneOp s w iword nt first q)

/-- One transfer started. -/
def State.startOne (s : State) (w : Nat) (iword : DWord) (nt : Bool) (first : Nat) (q : Transfer) : State :=
  (({ s with ops := s.ops.put s.nextUid (laneOp s w iword nt first q), nextUid := s.nextUid + 1 } : State).adopt
    (s.path w (s.warp w).active 0) (workKey s.nextUid)).setWarp w
      { s.warp w with openBatch := (s.warp w).openBatch ++ [s.nextUid] }

theorem startTransfers_cons (s : State) (w : Nat) (iword : DWord) (nt : Bool) (first : Nat) (q : Transfer) (ts : List Transfer) :
    s.startTransfers w iword nt first (q :: ts) = (s.startOne w iword nt first q).startTransfers w iword nt first ts := rfl

theorem startOne_started (s : State) (w : Nat) (iword : DWord) (nt : Bool) (first : Nat) (q : Transfer) :
    TransfersStarted s w iword nt first [q] (s.startOne w iword nt first q) := by
  have hp := State.adopt_pastOf ({ s with ops := s.ops.put s.nextUid (laneOp s w iword nt first q), nextUid := s.nextUid + 1 } : State)
    (s.path w (s.warp w).active 0) (workKey s.nextUid)
  refine ⟨?_, ?_, ?_, fun v hv => ?_, ?_, ?_, fun id hid => ?_, fun k p hk => ?_⟩
  · exact (State.pastOf_mem hp :)
  · exact (State.pastOf_blocks hp :)
  · exact (State.pastOf_parts hp :)
  · refine (AMap.find_put_other _ _ hv).trans ?_
    rw [State.pastOf_warps hp]
  · unfold State.startOne
    rw [State.setWarp_nextUid, hp]
    rfl
  · exact State.warp_setWarp_same _ _ _
  · unfold State.startOne
    rw [State.setWarp_ops, State.pastOf_ops hp]
    exact AMap.find_put_other _ _ (by omega)
  · match k with
    | 0 =>
      cases hk
      unfold State.startOne
      rw [State.setWarp_ops, State.pastOf_ops hp]
      exact AMap.find_put_same _ _ _
    | k + 1 => cases hk

theorem startTransfers_started (ts : List Transfer) (s : State) (w : Nat) (iword : DWord) (nt : Bool) (first : Nat) :
    TransfersStarted s w iword nt first ts (s.startTransfers w iword nt first ts) := by
  induction ts generalizing s with
  | nil =>
    refine ⟨rfl, rfl, rfl, fun _ _ => rfl, rfl, ?_, fun _ _ => rfl, fun k q h => by cases h⟩
    simp [State.startTransfers]
  | cons q ts ih =>
    have one := startOne_started s w iword nt first q
    have rest := ih (s.startOne w iword nt first q)
    have hop : ∀ p, laneOp (s.startOne w iword nt first q) w iword nt first p = laneOp s w iword nt first p := fun p => by
      simp only [laneOp, one.warp]
    have hu : (s.startOne w iword nt first q).nextUid = s.nextUid + 1 := one.uid
    rw [startTransfers_cons]
    refine ⟨rest.mem.trans one.mem, rest.blocks.trans one.blocks, rest.parts.trans one.parts,
      fun v hv => (rest.others v hv).trans (one.others v hv), ?_, ?_, fun id hid => ?_, fun k p hk => ?_⟩
    · rw [rest.uid, hu, List.length_cons]
      omega
    · rw [rest.warp, one.warp, hu]
      simp only [List.length_cons, List.length_nil, List.range_succ_eq_map, List.range_zero, List.map_cons, List.map_nil,
        List.map_map, List.append_assoc, List.singleton_append, Nat.add_zero]
      refine congrArg (fun l => ({ s.warp w with openBatch := (s.warp w).openBatch ++ (s.nextUid :: l) } : Warp)) ?_
      exact List.map_congr_left fun k _ => by rw [Function.comp_apply, Nat.succ_eq_add_one]; omega
    · rw [rest.older id (by omega), one.older id hid]
    · match k with
      | 0 =>
        cases hk
        rw [Nat.add_zero, rest.older _ (by omega)]
        exact one.ops 0 q rfl
      | k + 1 =>
        rw [show s.nextUid + (k + 1) = (s.startOne w iword nt first q).nextUid + k by omega, rest.ops k p hk, hop]

section
variable {s : State} {w : Nat} {h : Hdr} {f : MForm} {i : Instr}

theorem transfersOf_length : (transfersOf (started s w i) (s.selfActor w i) h f).length =
    (lanesOf ((s.warp w).selected i)).length := by
  unfold transfersOf
  rw [List.length_map, self_selfActor]

/-- LCOPY whose lanes pass the checks (14 R258). -/
theorem opLcopy_self (hn : (started s w i).laneTransfers (s.warp w).core < 512)
    (hf : ∀ t ∈ transfersOf (started s w i) (s.selfActor w i) h f, transferFault (s.blockOf w).scrBytes t = none) :
    opLcopy h (.m f) (s.selfActor w i) (started s w i) =
      .ok ((started s w i).startTransfers w (recordWord i) f.nt s.nextUid (transfersOf (started s w i) (s.selfActor w i) h f)) := by
  have hblk : (started s w i).blockOf w = s.blockOf w := by
    rw [State.blockOf, warp_started, Warp.issued_blk]
    rfl
  have hbad : (transfersOf (started s w i) (s.selfActor w i) h f).filterMap
      (fun t => (transferFault ((started s w i).blockOf w).scrBytes t).map (fun e => (t.lane, e))) = [] := by
    refine List.filterMap_eq_nil_iff.2 fun t ht => ?_
    rw [hblk, hf t ht]
    rfl
  unfold opLcopy
  dsimp only
  split
  next he =>
    rw [List.isEmpty_iff.1 he]
    rfl
  next he =>
    rw [if_neg (by
      rw [State.selfActor_lead, warp_started, Warp.issued_core]
      exact Nat.not_le.2 hn), State.selfActor_lead, hbad]
    rfl

/-! Batches. -/

theorem outstanding_started : (started s w i).outstanding w = s.outstanding w := by
  unfold State.outstanding
  rw [warp_started, Warp.issued_sealedBatches]
  rfl

theorem batchesTo_started (b : BitVec 16) :
    (started s w i).batchesTo w b = (s.outstanding w).filter (fun c => c.num = b || earlier c.num b) := by
  rw [State.batchesTo, outstanding_started]

theorem ofCopies_started : (started s w i).ofCopies = s.ofCopies := by
  funext v r
  by_cases h : v = w
  · subst h
    simp only [State.ofCopies, outstanding_started, warp_started, Warp.issued_openBatch, Warp.issued_blk]
  · have hv : (started s w i).warp v = s.warp v := by rw [State.warp, find_started_other i h]; rfl
    have ho : (started s w i).outstanding v = s.outstanding v := by unfold State.outstanding; rw [hv]; rfl
    simp only [State.ofCopies, ho, hv]

theorem batchReg_started : batchReg (started s w i) (s.selfActor w i) f =
    (s.warp w).readS ((started s w i).draw 0) f.off.toNat := by
  rw [batchReg, State.selfActor_lead, warp_started, Warp.readS_issued]

/-- BSEAL with fewer than eight batches outstanding. -/
theorem pollBseal_self (hn : (s.outstanding w).length < 8) :
    pollBseal h (s.selfActor w i) (started s w i) = .ok ((started s w i).setWarp w
      { ((s.warp w).issued i).writeS h.vd.toNat ((((s.warp w).issued i).lastBatch + 1).zeroExtend 32) with
        openBatch := [], lastBatch := ((s.warp w).issued i).lastBatch + 1,
        sealedBatches := s.outstanding w ++ [⟨((s.warp w).issued i).lastBatch + 1, ((s.warp w).issued i).openBatch⟩] }) := by
  unfold pollBseal
  dsimp only
  rw [State.selfActor_lead, outstanding_started, if_neg (Nat.not_le.2 hn), warp_started]

theorem pollBwaitn_done (hn : (s.outstanding w).length ≤ f.imm8.toNat) :
    pollBwaitn (.m f) (s.selfActor w i) (started s w i) = .ok ((started s w i).learnAll (s.selfActor w i) s.ofCopies) := by
  unfold pollBwaitn
  dsimp only
  rw [State.selfActor_lead, outstanding_started, if_pos hn, ofCopies_started]

theorem pollBwaitn_waits (hn : f.imm8.toNat < (s.outstanding w).length)
    (hb : ∀ b ∈ s.outstanding w, s.batchFailed b = false) :
    pollBwaitn (.m f) (s.selfActor w i) (started s w i) = .wait ((started s w i).blockAll (s.selfActor w i) 0 6
      ((((s.outstanding w).headD ⟨0, []⟩).num).zeroExtend 24)) .batchN [] := by
  have hbad : (s.outstanding w).filter (started s w i).batchFailed = [] :=
    List.filter_eq_nil_iff.2 fun b hm => by
      rw [show (started s w i).batchFailed b = s.batchFailed b from rfl, hb b hm]
      decide
  unfold pollBwaitn
  dsimp only
  rw [State.selfActor_lead, outstanding_started, if_neg (Nat.not_le.2 hn), hbad,
    if_neg (show ¬ f.imm8.toNat < ([] : List Batch).length from Nat.not_lt_zero _)]

theorem opBwaits_done
    (ho : (s.outstanding w).filter (fun c => c.num = ((s.warp w).readS ((started s w i).draw 0) f.off.toNat).extractLsb' 0 16 ||
      earlier c.num (((s.warp w).readS ((started s w i).draw 0) f.off.toNat).extractLsb' 0 16)) = [])
    (hl : earlier (s.warp w).lastBatch (((s.warp w).readS ((started s w i).draw 0) f.off.toNat).extractLsb' 0 16) = false) :
    opBwaits (.m f) (s.selfActor w i) (started s w i) = .ok ((started s w i).learnAll (s.selfActor w i) s.ofCopies) := by
  have hx : ∀ x : Word, ((x.zeroExtend 64).extractLsb' 0 16 : BitVec 16) = x.extractLsb' 0 16 := fun x => by
    refine BitVec.eq_of_toNat_eq ?_
    have := x.isLt
    simp only [BitVec.zeroExtend_eq_setWidth, BitVec.extractLsb'_toNat, BitVec.toNat_setWidth, Nat.shiftRight_zero]
    omega
  unfold opBwaits pollBwaits
  dsimp only
  rw [batchReg_started, hx, State.selfActor_lead, batchesTo_started, ho, warp_started, Warp.issued_lastBatch, hl, if_pos (by rfl),
    ofCopies_started]

/-- BTEST's report. -/
theorem opBtest_self :
    let n : BitVec 16 := ((s.warp w).readS ((started s w i).draw 0) f.off.toNat).extractLsb' 0 16
    let upTo := (s.outstanding w).filter (fun c => c.num = n || earlier c.num n)
    let done := upTo = [] ∧ earlier (s.warp w).lastBatch n = false
    let z := started s w i
    opBtest h (.m f) (s.selfActor w i) z =
      .ok ((if done then z.learnAll (s.selfActor w i) s.ofCopies else z).setWarp w (((s.warp w).issued i).writeS h.vd.toNat
        ((if done then 0x80000000 else 0) ||| (if upTo.any s.batchFailed then 0x40000000 else 0)
          ||| (BitVec.ofNat 32 (s.outstanding w).length <<< 16) ||| ((s.warp w).issued i).lastBatch.zeroExtend 32))) := by
  have hf : (started s w i).batchFailed = s.batchFailed := rfl
  have hd : ∀ (l : List Batch) (b : Bool), (l.isEmpty && !b) = true ↔ (l = [] ∧ b = false) := fun l b => by
    rw [Bool.and_eq_true, List.isEmpty_iff, Bool.not_eq_true']
  unfold opBtest
  dsimp only
  simp only [batchReg_started, State.selfActor_lead, batchesTo_started, warp_started, outstanding_started, ofCopies_started, hf, hd,
    Warp.issued_lastBatch]

end

/-- Settles O40: the transfers started one by one, and each batch instruction on the batches outstanding. -/
theorem laneCopies : Obligations.LaneCopies := by
  unfold Obligations.LaneCopies
  refine ⟨fun s w h f => ?_, fun s w h f u => ?_⟩
  · intro i z ts hs hn hf
    have st := startTransfers_started ts z w (recordWord i) f.nt s.nextUid
    have ho : opLcopy h (.m f) (s.selfActor w i) z = .ok (z.startTransfers w (recordWord i) f.nt s.nextUid ts) := opLcopy_self hn hf
    have hp : plain i := ⟨rfl, fun _ _ => Instr.noConfusion⟩
    have hu : z.nextUid = s.nextUid := rfl
    have hop : ∀ q, laneOp z w (recordWord i) f.nt s.nextUid q = laneOp s w (recordWord i) f.nt s.nextUid q := fun q => by
      simp only [laneOp, z, warp_started, Warp.issued_blk, Warp.issued_pc]
    refine ⟨_, issue_past (op := opLcopy h (.m f)) hs ho (not_exited_of_live hs ?_), st.mem, st.blocks, st.parts,
      fun v hv => ?_, transfersOf_length, st.uid, ?_, fun k hk => ?_⟩
    · rw [st.warp, warp_started]
      exact Warp.issued_live _ _
    · exact (AMap.find_put_other _ _ hv).trans ((st.others v hv).trans (find_started_other i hv))
    · rw [warp_past_plain hp, st.warp, hu, show (z.warp w).openBatch = (s.warp w).openBatch by
        rw [warp_started, Warp.issued_openBatch], show (z.warp w).pc = (s.warp w).pc by rw [warp_started, Warp.issued_pc]]
    · have hq := List.getElem?_eq_getElem hk
      exact ⟨_, hq, (st.ops k _ hq).trans (congrArg some (hop _))⟩
  · intro il iN iS iT out num upTo
    refine ⟨fun hs hn => ?_, fun hs hn => ?_, fun hs hn hb => ?_, fun hs ho hl => ?_, fun hs => ?_⟩
    · exact issue_setWarp_eq (op := pollBseal h) hs (pollBseal_self hn) rfl (Warp.issued_live _ _)
    · exact issue_past (op := pollBwaitn (.m f)) hs (pollBwaitn_done hn) (not_exited_of_live hs (live_learned _))
    · have hx := issue_blocked (op := pollBwaitn (.m f)) hs ((warp_started s w iN) ▸ Warp.issued_live _ _) (pollBwaitn_waits hn hb)
      refine ⟨_, hx, ?_, ?_, rfl, rfl⟩
      · rw [State.warp_updWarp_same]
      · rw [State.warp_updWarp_same, warp_started]
        exact Warp.issued_pc _ _
    · exact issue_past (op := opBwaits (.m f)) hs (opBwaits_done ho hl) (not_exited_of_live hs (live_learned _))
    · intro done z
      have hw : (if done then z.learnAll (s.selfActor w iT) s.ofCopies else z).warp w = (s.warp w).issued iT := by
        split
        · rw [State.pastOf_warp (State.learnAll_pastOf ..), warp_started]
        · exact warp_started s w iT
      refine issue_past (op := opBtest h (.m f)) hs (opBtest_self.trans (congrArg Res.ok ?_)) (not_exited_of_live hs ?_)
      · rw [State.updWarp, hw]
      · rw [State.warp_updWarp_same, hw]
        exact Warp.issued_live _ _

end Sys2Proof.Machine
end

section
/-! PROOF. The hand-over of an operation to its engine (14 R266, R267, 17 R310). -/

namespace Sys2Proof.Machine

theorem setNth_getD_same {β : Type} (l : List β) (i : Nat) (b d : β) (h : i < l.length) : (setNth l i b).getD i d = b := by
  induction l generalizing i with
  | nil => cases h
  | cons x l ih =>
    cases i with
    | zero => rfl
    | succ i => simpa [setNth] using ih i (Nat.lt_of_succ_lt_succ h)

/-- A change of a timeline leaves every byte of scratch. -/
theorem State.scrByte_updTimeline (s : State) (b tl : Nat) (f : Timeline → Timeline) (u o : Nat) :
    ((s.updTimeline b tl f).block u).scrByte o = (s.block u).scrByte o := by
  unfold State.updTimeline
  by_cases h : u = b
  · subst h
    rw [State.block_updBlock_same]
    rfl
  · rw [State.block_updBlock_other _ _ h]

/-- A change of a timeline that the block holds. -/
theorem State.timeline_updTimeline (s : State) (b tl : Nat) (f : Timeline → Timeline) (h : tl < (s.block b).timelines.length) :
    (s.updTimeline b tl f).timeline b tl = f (s.timeline b tl) := by
  unfold State.timeline State.updTimeline
  rw [State.block_updBlock_same]
  exact setNth_getD_same _ _ _ _ h

/-- An operation in flight as its issue leaves it (14 R267). -/
def newOp (s : State) (w : Nat) (i : Instr) (kind : OpKind) (tl handleIx : Nat) (regs : List Word) : EngOp :=
  { w := w, blk := (s.warp w).blk, kind := kind, tl := tl, num := (s.timeline (s.warp w).blk tl).last + 1, ipc := (s.warp w).pc,
    iword := recordWord i, handleIx := handleIx, regs := regs, members := s.foldCores (s.warp w).blk, accepted := false,
    delivered := [], counted := false, box := none, fault := none }

/-- The state with an operation in flight, its warp not yet told. -/
def State.entered (s : State) (w : Nat) (i : Instr) (kind : OpKind) (tl handleIx : Nat) (regs : List Word) : State :=
  ((({ started s w i with ops := s.ops.put s.nextUid (newOp s w i kind tl handleIx regs), nextUid := s.nextUid + 1 } : State).updTimeline
      (s.warp w).blk tl (fun l => { l with last := (s.timeline (s.warp w).blk tl).last + 1 })).adopt
    ((started s w i).path w (s.warp w).active 0) (workKey s.nextUid))

section
variable {s : State} {w : Nat} {i : Instr} {kind : OpKind} {tl handleIx : Nat} {regs : List Word}

theorem entered_pastOf : State.pastOf (({ started s w i with
      ops := s.ops.put s.nextUid (newOp s w i kind tl handleIx regs), nextUid := s.nextUid + 1 } : State).updTimeline
        (s.warp w).blk tl (fun l => { l with last := (s.timeline (s.warp w).blk tl).last + 1 }))
    (s.entered w i kind tl handleIx regs) := State.adopt_pastOf _ _ _

theorem block_entered (u : Nat) : (s.entered w i kind tl handleIx regs).block u = (({ started s w i with
      ops := s.ops.put s.nextUid (newOp s w i kind tl handleIx regs), nextUid := s.nextUid + 1 } : State).updTimeline
        (s.warp w).blk tl (fun l => { l with last := (s.timeline (s.warp w).blk tl).last + 1 })).block u := by
  unfold State.block
  rw [State.pastOf_blocks entered_pastOf]

theorem entered_warp : (s.entered w i kind tl handleIx regs).warp w = (s.warp w).issued i := by
  rw [State.pastOf_warp entered_pastOf]
  exact warp_started s w i

/-- The issue of an operation by a warp that performs alone. -/
theorem issueOp_self (vd : Nat) : (started s w i).issueOp (s.selfActor w i) kind tl handleIx regs vd =
    (s.entered w i kind tl handleIx regs).setWarp w { ((s.warp w).issued i).writeS vd
      (BitVec.ofNat 32 ((s.timeline (s.warp w).blk tl).last + 1)) with tileq := ((s.warp w).issued i).tileq ++ [s.nextUid] } := by
  have hd : (started s w i).issueOp (s.selfActor w i) kind tl handleIx regs vd = (s.entered w i kind tl handleIx regs).updWarp w
      (fun y => { (y.writeS vd (BitVec.ofNat 32 ((s.timeline (s.warp w).blk tl).last + 1))) with tileq := y.tileq ++ [s.nextUid] }) := by
    unfold State.issueOp State.entered newOp
    simp only [State.selfActor_lead, warp_started, Warp.issued_blk, Warp.issued_pc]
    rfl
  rw [hd, State.updWarp, entered_warp]

/-- An operation entered and its warp told: the hand-over. -/
theorem handedOver_entered (hp : plain i) (ht : tl < (s.blockOf w).timelines.length) {vd : Nat} {y : Warp}
    (hq : y.tileq = (s.warp w).tileq ++ [s.nextUid])
    (hr : ∀ r, y.rawS r = if r = vd then BitVec.ofNat 32 ((s.timeline (s.warp w).blk tl).last + 1) else (s.warp w).rawS r)
    (hv : y.v = (s.warp w).v) (hpr : y.p = (s.warp w).p) (hk : y.sticky = (s.warp w).sticky) (hc : y.pc = (s.warp w).pc) :
    HandedOver s (past s w i ((s.entered w i kind tl handleIx regs).setWarp w y)) w i kind tl handleIx regs vd := by
  have e : State.pastOf _ _ := (entered_pastOf : State.pastOf _ (s.entered w i kind tl handleIx regs))
  have hw : (past s w i ((s.entered w i kind tl handleIx regs).setWarp w y)).warp w =
      { y with pc := canon57 ((s.warp w).pc + BitVec.ofNat 64 (instrLength i)), wait := none, blocked := Blocked.none } := by
    rw [warp_past_plain hp, State.warp_setWarp_same, hc]
  refine ⟨(State.pastOf_mem e :), (State.pastOf_parts e :), ?_, fun v hne => ?_, fun u o => ?_, ?_, ?_, fun r => ?_, ?_, ?_, ?_, ?_, ?_⟩
  · exact congrArg State.nextUid e
  · refine (AMap.find_put_other _ _ hne).trans ((AMap.find_put_other _ _ hne).trans ?_)
    rw [State.pastOf_warps e]
    exact find_started_other i hne
  · show ((s.entered w i kind tl handleIx regs).block u).scrByte o = _
    rw [block_entered, State.scrByte_updTimeline]
    rfl
  · show ((s.entered w i kind tl handleIx regs).timeline (s.warp w).blk tl).last = _
    unfold State.timeline
    rw [block_entered]
    refine (congrArg Timeline.last (State.timeline_updTimeline _ _ _ _ ?_)).trans rfl
    exact ht
  · rw [hw]; exact hq
  · rw [hw]; exact hr r
  · rw [hw]; exact hv
  · rw [hw]; exact hpr
  · rw [hw]; exact hk
  · rw [hw]
  · show (s.entered w i kind tl handleIx regs).ops.find s.nextUid = _
    rw [State.pastOf_ops e]
    exact AMap.find_put_same _ _ _

theorem rawS_issuedWrite (vd : Nat) (b : Word) (r : Nat) :
    (((s.warp w).issued i).writeS vd b).rawS r = if r = vd then b else (s.warp w).rawS r := by
  rw [Warp.rawS_writeS, Warp.rawS, Warp.issued_s]
  simp only [eq_comm (a := vd)]
  rfl

/-- What an operation whose warp is alone hands over. -/
theorem issue_handedOver {op : Actor → State → Res} {vd : Nat} (hs : Solo s w i) (hp : plain i)
    (ht : tl < (s.blockOf w).timelines.length)
    (ho : op (s.selfActor w i) (started s w i) = .ok ((started s w i).issueOp (s.selfActor w i) kind tl handleIx regs vd)) :
    ∃ t, issue i op s = .next t ∧ HandedOver s t w i kind tl handleIx regs vd := by
  rw [issueOp_self] at ho
  refine ⟨_, issue_past (op := op) hs ho (not_exited_of_live hs ?_), handedOver_entered hp ht ?_ (rawS_issuedWrite vd _) ?_ ?_ ?_ ?_⟩
  · rw [State.warp_setWarp_same]
    exact Warp.issued_live _ _
  · exact congrArg (· ++ [s.nextUid]) (Warp.issued_tileq _ _)
  · exact Warp.issued_v _ _
  · exact Warp.issued_p _ _
  · exact Warp.issued_sticky _ _
  · exact Warp.issued_pc _ _

/-! The checks at issue. -/

theorem blockOf_started : (started s w i).blockOf w = s.blockOf w := by
  rw [State.blockOf, warp_started, Warp.issued_blk]
  rfl

theorem tileFull_started (hn : (s.warp w).tileq.length < 63) : (started s w i).tileFull (s.selfActor w i) = false := by
  rw [State.tileFull, State.selfActor_lead, warp_started, Warp.issued_tileq]
  exact decide_eq_false (Nat.not_le.2 hn)

theorem holds_started {tl : Nat} (h : tl < (s.blockOf w).timelines.length) : (started s w i).holdsTimeline w tl = true := by
  rw [State.holdsTimeline, blockOf_started]
  exact decide_eq_true h

theorem holds_started_not {tl : Nat} (h : ¬ tl < (s.blockOf w).timelines.length) : (started s w i).holdsTimeline w tl = false := by
  rw [State.holdsTimeline, blockOf_started]
  exact decide_eq_false h

variable {h : Hdr} {f : XForm}

theorem opTile_handed {fn : Nat} {g : Handle} (hn : (s.warp w).tileq.length < 63) (ht : f.vc.toNat < (s.blockOf w).timelines.length)
    (hg : (s.blockOf w).handles.find f.vb.toNat = some g)
    (hc : (started s w i).tileCheck (s.warp w).blk fn g ((started s w i).operandBlock (s.selfActor w i) f.va) = none) :
    opTile fn h (.x f) (s.selfActor w i) (started s w i) = .ok ((started s w i).issueOp (s.selfActor w i) (.tile fn g) f.vc.toNat
      f.vb.toNat ((started s w i).operandBlock (s.selfActor w i) f.va) h.vd.toNat) := by
  have hb : ((started s w i).block (s.warp w).blk).handles.find f.vb.toNat = some g := hg
  unfold opTile
  simp only [tileFull_started hn, State.selfActor_lead, holds_started ht, warp_started, Warp.issued_blk, hb, hc]
  rfl

theorem opTile_undefined {fn : Nat} (hn : (s.warp w).tileq.length < 63) (ht : f.vc.toNat < (s.blockOf w).timelines.length)
    (hg : (s.blockOf w).handles.find f.vb.toNat = none) :
    opTile fn h (.x f) (s.selfActor w i) (started s w i) = .fault { FaultInfo.of 0x5D 7 with agent := 3 } := by
  have hb : ((started s w i).block (s.warp w).blk).handles.find f.vb.toNat = none := hg
  unfold opTile
  simp only [tileFull_started hn, State.selfActor_lead, holds_started ht, warp_started, Warp.issued_blk, hb]
  rfl

theorem opTile_unheld {fn : Nat} (hn : (s.warp w).tileq.length < 63) (ht : ¬ f.vc.toNat < (s.blockOf w).timelines.length) :
    opTile fn h (.x f) (s.selfActor w i) (started s w i) = .fault (FaultInfo.of 0x61 fn) := by
  unfold opTile
  simp only [tileFull_started hn, State.selfActor_lead, holds_started_not ht]
  rfl

theorem opKvIssue_handed {fn : Nat} {check' : State → Nat → List Word → Option Res} (hn : (s.warp w).tileq.length < 63)
    (ht : f.vc.toNat < (s.blockOf w).timelines.length)
    (hc : check' (started s w i) (s.warp w).blk ((started s w i).operandBlock (s.selfActor w i) f.va) = none) :
    opKvIssue fn kind check' h (.x f) (s.selfActor w i) (started s w i) = .ok ((started s w i).issueOp (s.selfActor w i) kind
      f.vc.toNat 0 ((started s w i).operandBlock (s.selfActor w i) f.va) h.vd.toNat) := by
  unfold opKvIssue
  simp only [tileFull_started hn, State.selfActor_lead, holds_started ht, warp_started, Warp.issued_blk, hc]
  rfl

theorem opKvIssue_unheld {fn : Nat} {check' : State → Nat → List Word → Option Res} (hn : (s.warp w).tileq.length < 63)
    (ht : ¬ f.vc.toNat < (s.blockOf w).timelines.length) :
    opKvIssue fn kind check' h (.x f) (s.selfActor w i) (started s w i) = .fault (FaultInfo.of 0x61 fn) := by
  unfold opKvIssue
  simp only [tileFull_started hn, State.selfActor_lead, holds_started_not ht]
  rfl

theorem appendCheck_none {rs : List Word} (h7 : regN rs 7 = 0) (h1 : 1 ≤ regN rs 2) (h2 : regN rs 2 ≤ 16)
    (h3 : regN rs 3 % 16 = 0) (h4 : regN rs 4 % 16 = 0) : appendCheck rs = none := by
  have hlo : regN rs 2 ≠ 0 := Nat.one_le_iff_ne_zero.1 h1
  have hhi : ¬ 16 < regN rs 2 := Nat.not_lt.2 h2
  simp [appendCheck, h7, hlo, hhi, h3, h4]

theorem opTdef_self {bs : List Byte} (ha : isCanonical ((s.warp w).readPairS ((started s w i).draw 0) f.va.toNat) = true)
    (hb : isCanonical ((s.warp w).readPairS ((started s w i).draw 0) f.va.toNat + 95) = true)
    (hm : ((s.warp w).readPairS ((started s w i).draw 0) f.va.toNat).toNat % 8 = 0)
    (hr : (started s w i).engineRead (s.warp w).blk 3 ((s.warp w).readPairS ((started s w i).draw 0) f.va.toNat) 96 = .ok bs)
    (hf : shapeFault ((s.warp w).readPairS ((started s w i).draw 0) f.va.toNat) (shapeOf bs).1 (shapeOf bs).2 = none) :
    opTdef h (.x f) (s.selfActor w i) (started s w i) = .ok (((started s w i).fillTlb (s.warp w).core (s.partOf w)
      ((started s w i).draw 8) ((s.warp w).readPairS ((started s w i).draw 0) f.va.toNat)).updBlock (s.warp w).blk
        (fun b => { b with handles := b.handles.put h.vd.toNat (shapeOf bs).1 })) := by
  have hp : (started s w i).partOf w = s.partOf w := by rw [State.partOf, blockOf_started]; rfl
  have hx : ((s.warp w).issued i).readPairS ((started s w i).draw 0) f.va.toNat =
      (s.warp w).readPairS ((started s w i).draw 0) f.va.toNat := by
    rw [Warp.readPairS, Warp.readS_issued, Warp.readS_issued]
    rfl
  unfold opTdef
  simp only [State.selfActor_lead, warp_started, hx, ha, hb, hm, Warp.issued_blk, hr, hf, Warp.issued_core, hp]
  rfl

end

theorem State.warp_coresOf {s t : State} (e : s.coresOf t) (v : Nat) : t.warp v = s.warp v := congrArg (fun u => u.warp v) e

theorem warp_fillTlb (t : State) (core part k : Nat) (a : DWord) (v : Nat) : (t.fillTlb core part k a).warp v = t.warp v :=
  State.warp_coresOf (State.fillTlb_coresOf ..) v

/-- An instruction of an opcode major without dither rounding is plain. -/
theorem plain_of_head {i : Instr} {m fn : Nat} {h : Hdr} {u : Upper} (e : headWord i = some (m, fn, h, u))
    (hm : ((m = 3 && fpRnd fn) || (m = 4 && fn = 4) || (m = 6 && fn ≤ 3) || (m = 13 && fn = 5)) = false)
    (hr : ∀ f t, i ≠ .rep f t) : plain i := by
  refine ⟨?_, hr⟩
  cases u <;> simp only [usesDither, e]
  rw [hm, Bool.and_false]

/-- Settles O43: each operation handed over, or its precise fault, by the checks of its issue. -/
theorem engineIssue : Obligations.EngineIssue := by
  unfold Obligations.EngineIssue
  refine ⟨fun s w h f => ⟨?_, ?_⟩, fun s w h f => ?_⟩
  · intro i z addr hs ha hb hm bs hr hf
    refine issue_past (op := opTdef h (.x f)) hs (opTdef_self ha hb hm hr hf) (not_exited_of_live hs ?_)
    rw [State.warp_updBlock, warp_fillTlb, warp_started]
    exact Warp.issued_live _ _
  · intro e he
    simp only [tileForms, List.mem_cons, List.not_mem_nil, or_false] at he
    rcases he with rfl | rfl | rfl | rfl | rfl
    all_goals
      intro i z rs hs hn
      have hp : plain i := (plain_of_head rfl rfl fun _ _ => Instr.noConfusion)
      exact ⟨fun ht g hg hc => issue_handedOver (op := opTile _ h (.x f)) hs hp ht (opTile_handed hn ht hg hc),
        fun ht hg hr => issue_fault (op := opTile _ h (.x f)) hs hr (opTile_undefined hn ht hg),
        fun ht hr => issue_fault (op := opTile _ h (.x f)) hs hr (opTile_unheld hn (Nat.not_lt.2 ht))⟩
  · intro held rs
    refine ⟨fun hs hn ht hc => ?_, fun hs hn ht h7 h1 h2 h3 h4 => ?_, fun hs hn ht hc => ?_, fun e he hs hn ht hr => ?_⟩
    · exact issue_handedOver (op := opKvIssue 1 _ _ h (.x f)) hs (plain_of_head rfl rfl fun _ _ => Instr.noConfusion) ht (opKvIssue_handed hn ht hc)
    · exact issue_handedOver (op := opKvIssue 2 _ _ h (.x f)) hs (plain_of_head rfl rfl fun _ _ => Instr.noConfusion) ht
        (opKvIssue_handed hn ht (appendCheck_none h7 h1 h2 h3 h4))
    · exact issue_handedOver (op := opKvIssue 5 _ _ h (.x f)) hs (plain_of_head rfl rfl fun _ _ => Instr.noConfusion) ht (opKvIssue_handed hn ht hc)
    · simp only [List.mem_cons, List.not_mem_nil, or_false] at he
      rcases he with rfl | rfl | rfl
      all_goals exact issue_fault (op := opKvIssue _ _ _ h (.x f)) hs hr (opKvIssue_unheld hn ht)

end Sys2Proof.Machine
end

section
/-! PROOF. The matrix instructions at issue (16 R282 to R288, R295 to R300). -/

namespace Sys2Proof.Machine

/-- A range check that every range passes. -/
theorem firstBeyond_none {s : State} {u : Nat} {rs : List (Nat × Nat)} (h : ∀ r ∈ rs, s.scrBeyond u r.1 r.2 = false) :
    s.firstBeyond u rs = none := by
  unfold State.firstBeyond
  rw [List.find?_eq_none.2 fun r hr => by rw [h r hr]; decide]
  rfl

/-- A matrix operation's alignment check passes. -/
theorem aligned_or {c a b e : Nat} (h : isTapered c = true ∨ (a % e = 0 ∧ b % e = 0)) :
    (!isTapered c && (decide (a % e ≠ 0) || decide (b % e ≠ 0))) = false := by
  rcases h with h | ⟨ha, hb⟩
  · rw [h]
    rfl
  · simp [ha, hb]

section
variable {s : State} {w : Nat} {i : Instr} {h : Hdr} {f : XForm}

theorem liveMembers_started (hs : Solo s w i) :
    (started s w i).liveMembers (s.selfActor w i) = [⟨w, (s.warp w).active, (s.warp w).selected i⟩] :=
  liveMembers_self hs (by rw [warp_started, Warp.issued_live])

theorem matrixFull_started (hs : Solo s w i) (hn : (s.warp w).matrix.length < 63) :
    (started s w i).matrixFull (s.selfActor w i) = false := by
  unfold State.matrixFull
  rw [liveMembers_started hs, List.any_cons, List.any_nil, Bool.or_false, warp_started,
    Warp.issued_matrix]
  exact decide_eq_false (Nat.not_le.2 hn)

theorem pushMatrix_warp (k : MatKind) (fn : Nat) (pc iword : DWord) :
    ((({ started s w i with nextUid := s.nextUid + 1 } : State).adopt ((started s w i).path w (s.warp w).active 0)
      (workKey s.nextUid))).warp w = (s.warp w).issued i := by
  rw [State.pastOf_warp (State.adopt_pastOf ..)]
  exact warp_started s w i

/-- An operation joins the counter of a warp that performs alone. -/
theorem pushMatrix_self (k : MatKind) (fn : Nat) :
    (started s w i).pushMatrix w k fn (s.warp w).pc (recordWord i) =
      ((({ started s w i with nextUid := s.nextUid + 1 } : State).adopt ((started s w i).path w (s.warp w).active 0)
        (workKey s.nextUid)).updWarp w (fun x => withMatrix s.nextUid x i k fn)) := by
  have hu : ({ started s w i with nextUid := s.nextUid + 1 } : State).adopt ((started s w i).path w (s.warp w).active 0) (workKey s.nextUid)
      = ({ started s w i with nextUid := (started s w i).nextUid + 1 } : State).adopt
        ((started s w i).path w ((started s w i).warp w).active 0) (workKey (started s w i).nextUid) := by
    rw [warp_started, Warp.issued_active]
    rfl
  unfold State.pushMatrix
  rw [← hu, State.updWarp, State.updWarp, pushMatrix_warp k fn 0 0]
  refine congrArg (State.setWarp _ w) ?_
  simp only [withMatrix, Warp.issued_pc]
  rfl

theorem issue_matrix {op : Actor → State → Res} {k : MatKind} {fn : Nat} {g : Warp → Warp} (hs : Solo s w i)
    (hg : ∀ x, (g x).live = x.live)
    (ho : op (s.selfActor w i) (started s w i) =
      .ok (((started s w i).pushMatrix w k fn (s.warp w).pc (recordWord i)).updWarp w g)) :
    issue i op s = .next (matrixIssued s w i k fn g) := by
  rw [pushMatrix_self, State.updWarp_updWarp] at ho
  refine issue_past (op := op) hs ho (not_exited_of_live hs ?_)
  rw [State.warp_updWarp_same, hg, pushMatrix_warp k fn 0 0]
  exact Warp.issued_live _ _

theorem issue_matrix_id {op : Actor → State → Res} {k : MatKind} {fn : Nat} (hs : Solo s w i)
    (ho : op (s.selfActor w i) (started s w i) = .ok ((started s w i).pushMatrix w k fn (s.warp w).pc (recordWord i))) :
    issue i op s = .next (matrixIssued s w i k fn (fun x => x)) := by
  rw [pushMatrix_self] at ho
  refine issue_past (op := op) hs ho (not_exited_of_live hs ?_)
  rw [State.warp_updWarp_same, pushMatrix_warp k fn 0 0]
  exact Warp.issued_live _ _

theorem opOmap_self
    (ha : ((s.warp w).readS ((started s w i).draw 0) f.va.toNat).toNat < 2 ^ 20)
    (hb : ((s.warp w).readS ((started s w i).draw 2) f.vb.toNat).toNat < 2 ^ 20)
    (hm : isTapered (hdrTop h) = true ∨ (((s.warp w).readS ((started s w i).draw 0) f.va.toNat).toNat % fmtBytes (hdrTop h) = 0 ∧
      ((s.warp w).readS ((started s w i).draw 2) f.vb.toNat).toNat % fmtBytes (hdrTop h) = 0))
    (ht : f.ma = true → isTapered (hdrTop h) = false) :
    opOmap h (.x f) (s.selfActor w i) (started s w i) = .ok ((started s w i).updBlock (s.warp w).blk (fun k =>
      { k with omaps := k.omaps.put h.vd.toNat ⟨f.ma, hdrTop h, ((s.warp w).readS ((started s w i).draw 2) f.vb.toNat).toNat,
        ((s.warp w).readS ((started s w i).draw 0) f.va.toNat).toNat⟩ })) := by
  have hr : (f.ma && isTapered (hdrTop h)) = false := by
    cases hf : f.ma
    · rfl
    · exact ht hf
  unfold opOmap
  simp only [State.selfActor_lead, warp_started, Warp.readS_issued, Warp.issued_blk]
  rw [if_neg (by simp only [Bool.or_eq_true, decide_eq_true_eq]; omega), aligned_or hm, hr, if_neg Bool.false_ne_true,
    if_neg Bool.false_ne_true]

theorem slotBeyond_issued {k : Nat} (hk : k < (s.warp w).accEpochs.length) : ((s.warp w).issued i).slotBeyond k = false := by
  rw [Warp.slotBeyond, Warp.issued_accEpochs]
  exact decide_eq_false (Nat.not_le.2 hk)

theorem tileBeyond_issued {t n : Nat} (hk : t + n ≤ 8 * (s.warp w).accEpochs.length) : ((s.warp w).issued i).tileBeyond t n = false := by
  rw [Warp.tileBeyond, Warp.issued_accEpochs]
  exact decide_eq_false (Nat.not_lt.2 hk)

/-- WBLOAD's scratch form (16 R287). -/
theorem opWbload_scratch (hs : Solo s w i) (hk : h.vd.toNat < (s.warp w).accEpochs.length) (hf : f.ma = false)
    (hn : (s.warp w).matrix.length < 63) (ht : f.mb = true → isTapered (hdrTop h) = false)
    (hm : isTapered (hdrTop h) = true ∨ (((s.warp w).readS ((started s w i).draw 0) f.va.toNat).toNat % fmtBytes (hdrTop h) = 0 ∧
      ((s.warp w).readS ((started s w i).draw 2) f.vb.toNat).toNat % fmtBytes (hdrTop h) = 0))
    (hb : ∀ r ∈ bPlaces (hdrTop h) ((s.warp w).readS ((started s w i).draw 0) f.va.toNat).toNat
      ((s.warp w).readS ((started s w i).draw 2) f.vb.toNat).toNat f.mb, s.scrBeyond (s.warp w).blk r.1 r.2 = false) :
    opWbload h (.x f) (s.selfActor w i) (started s w i) = .ok (((started s w i).pushMatrix w (.wbload h.vd.toNat (hdrTop h)
      ((s.warp w).readS ((started s w i).draw 0) f.va.toNat).toNat ((s.warp w).readS ((started s w i).draw 2) f.vb.toNat).toNat f.mb)
      1 (s.warp w).pc (recordWord i)).tagSlot w h.vd.toNat (hdrTop h)) := by
  have hr : (f.mb && isTapered (hdrTop h)) = false := by
    cases hf : f.mb
    · rfl
    · exact ht hf
  have hbs : (started s w i).firstBeyond (s.warp w).blk (bPlaces (hdrTop h)
      ((s.warp w).readS ((started s w i).draw 0) f.va.toNat).toNat
      ((s.warp w).readS ((started s w i).draw 2) f.vb.toNat).toNat f.mb) = none := firstBeyond_none hb
  unfold opWbload
  simp only [State.selfActor_lead, warp_started, Warp.readS_issued, Warp.issued_blk, slotBeyond_issued hk, hf,
    matrixFull_started hs hn, hr, aligned_or hm, hbs, Warp.issued_pc]
  rfl

/-- WBLOAD's handle form (16 R288). -/
theorem opWbload_handle {g : Handle} (hk : h.vd.toNat < (s.warp w).accEpochs.length) (hf : f.ma = true)
    (hn : (s.warp w).tileq.length < 63) (ht : f.vc.toNat < (s.blockOf w).timelines.length)
    (h5 : regN ((started s w i).operandBlock (s.selfActor w i) f.va) 5 = 0)
    (h6 : regN ((started s w i).operandBlock (s.selfActor w i) f.va) 6 = 0)
    (hg : (s.blockOf w).handles.find f.vb.toNat = some g) (hc : g.fmt = hdrTop h)
    (hb : g.boxes = [if isTapered (hdrTop h) then mmaK (hdrTop h) / 32 else mmaK (hdrTop h), 16, 1, 1, 1]) :
    opWbload h (.x f) (s.selfActor w i) (started s w i) = .ok (((started s w i).issueOp (s.selfActor w i)
      (.wbload h.vd.toNat (hdrTop h) g) f.vc.toNat f.vb.toNat ((started s w i).operandBlock (s.selfActor w i) f.va)
      (f.va.toNat + 7)).tagSlot w h.vd.toNat (hdrTop h)) := by
  have hb' : ((started s w i).block (s.warp w).blk).handles.find f.vb.toNat = some g := hg
  unfold opWbload
  simp only [State.selfActor_lead, warp_started, Warp.issued_blk, slotBeyond_issued hk, hf, tileFull_started hn, holds_started ht, hb',
    h5, h6, hc, hb]
  simp

theorem opAccz_self (hs : Solo s w i) (hn : (s.warp w).matrix.length < 63)
    (ht : h.vd.toNat + f.vc.toNat ≤ 8 * (s.warp w).accEpochs.length) :
    opAccz h (.x f) (s.selfActor w i) (started s w i) =
      .ok ((started s w i).pushMatrix w (.accz h.vd.toNat f.vc.toNat) 3 (s.warp w).pc (recordWord i)) := by
  unfold opAccz
  simp only [matrixFull_started hs hn, liveMembers_started hs, State.selfActor_lead,
    List.any_cons, List.any_nil, warp_started, tileBeyond_issued ht, Warp.issued_pc]
  rfl

theorem opAccz_beyond (hs : Solo s w i) (hn : (s.warp w).matrix.length < 63)
    (ht : 8 * (s.warp w).accEpochs.length < h.vd.toNat + f.vc.toNat) :
    opAccz h (.x f) (s.selfActor w i) (started s w i) = .fault { FaultInfo.of 0x7F 0 with agent := 0 } := by
  have hb : ((s.warp w).issued i).tileBeyond h.vd.toNat f.vc.toNat = true := by
    rw [Warp.tileBeyond, Warp.issued_accEpochs]
    exact decide_eq_true ht
  unfold opAccz
  simp only [matrixFull_started hs hn, liveMembers_started hs, State.selfActor_lead,
    List.any_cons, List.any_nil, warp_started, hb]
  rfl

theorem opAccld_self (hs : Solo s w i) (hn : (s.warp w).matrix.length < 63)
    (ht : h.vd.toNat + tileCount (hdrTop h) ≤ 8 * (s.warp w).accEpochs.length)
    (ha : ((s.warp w).readS ((started s w i).draw 0) f.va.toNat).toNat % fmtBytes (hdrTop h) = 0)
    (hb : ((s.warp w).readS ((started s w i).draw 2) f.vb.toNat).toNat % fmtBytes (hdrTop h) = 0)
    (hr : ∀ r ∈ ldPlaces (hdrTop h) ((s.warp w).readS ((started s w i).draw 0) f.va.toNat).toNat
      ((s.warp w).readS ((started s w i).draw 2) f.vb.toNat).toNat, s.scrBeyond (s.warp w).blk r.1 r.2 = false) :
    opAccld h (.x f) (s.selfActor w i) (started s w i) =
      .ok ((started s w i).pushMatrix w (.accld (hdrTop h) h.vd.toNat ((s.warp w).readS ((started s w i).draw 0) f.va.toNat).toNat
        ((s.warp w).readS ((started s w i).draw 2) f.vb.toNat).toNat) 4 (s.warp w).pc (recordWord i)) := by
  have hbs : (started s w i).firstBeyond (s.warp w).blk (ldPlaces (hdrTop h)
      ((s.warp w).readS ((started s w i).draw 0) f.va.toNat).toNat
      ((s.warp w).readS ((started s w i).draw 2) f.vb.toNat).toNat) = none := firstBeyond_none hr
  unfold opAccld
  simp only [matrixFull_started hs hn, State.selfActor_lead, warp_started, Warp.readS_issued, tileBeyond_issued ht, Warp.issued_blk,
    ha, hb, hbs, Warp.issued_pc]
  rfl

end

/-- Settles O41: each matrix instruction from its checks, joining the counter or handed to the tile engine. -/
theorem matrixIssue : Obligations.MatrixIssue := by
  unfold Obligations.MatrixIssue
  intro s w h f c x e a b
  refine ⟨?_, ?_, ?_, ?_, ?_, ?_⟩
  · intro i hs ha hb hm ht
    refine issue_past (op := opOmap h (.x f)) hs (opOmap_self ha hb hm ht) (not_exited_of_live hs ?_)
    rw [State.warp_updBlock, warp_started]
    exact Warp.issued_live _ _
  · intro i hs hk hf hn ht hm hb
    exact issue_matrix (op := opWbload h (.x f)) (g := fun x => { x with wslots := x.wslots.put h.vd.toNat ⟨some c, false, []⟩ })
      hs (fun _ => rfl) (opWbload_scratch hs hk hf hn ht hm hb)
  · intro i rs hs hk hf hn ht h5 h6 g hg hc hb
    have hp : plain i := plain_of_head rfl rfl fun _ _ => Instr.noConfusion
    have ho := opWbload_handle (i := i) hk hf hn ht h5 h6 hg hc hb
    rw [issueOp_self, State.tagSlot, State.updWarp_setWarp] at ho
    refine ⟨_, issue_past (op := opWbload h (.x f)) hs ho (not_exited_of_live hs ?_), handedOver_entered hp ht ?_
      (rawS_issuedWrite _ _) ?_ ?_ ?_ ?_, ?_⟩
    · rw [State.warp_setWarp_same]
      exact Warp.issued_live _ _
    · exact congrArg (· ++ [s.nextUid]) (Warp.issued_tileq _ _)
    · exact Warp.issued_v _ _
    · exact Warp.issued_p _ _
    · exact Warp.issued_sticky _ _
    · exact Warp.issued_pc _ _
    · rw [warp_past_plain hp, State.warp_setWarp_same]
      exact AMap.find_put_same _ _ _
  · intro i hs hn ht
    exact issue_matrix_id (op := opAccz h (.x f)) hs (opAccz_self hs hn ht)
  · intro i hs hn ht ha hb hr
    exact issue_matrix_id (op := opAccld h (.x f)) hs (opAccld_self hs hn ht ha hb hr)
  · intro i hs hn ht hr
    exact issue_fault (op := opAccz h (.x f)) hs hr (opAccz_beyond hs hn ht)

end Sys2Proof.Machine
end

section
/-! PROOF. MMA and ACCDRAIN at issue (16 R289, R293, R294, R297 to R300). -/

namespace Sys2Proof.Machine

/-! The charges of a matrix unit (07 R153, R154). -/

theorem getD_setNth {β : Type} (l : List β) (i j : Nat) (b d : β) (h : i < l.length) :
    (setNth l i b).getD j d = if j = i then b else l.getD j d := by
  induction l generalizing i j with
  | nil => cases h
  | cons x l ih =>
    match i, j with
    | 0, 0 => rfl
    | 0, j + 1 => simp [setNth]
    | i + 1, 0 => simp [setNth]
    | i + 1, j + 1 => simpa [setNth] using ih i j (Nat.lt_of_succ_lt_succ h)

/-- Padding a list with the default reads as the default. -/
theorem getD_padded {β : Type} (l : List β) (n j : Nat) (d : β) : (l ++ List.replicate n d).getD j d = l.getD j d := by
  simp only [List.getD_eq_getElem?_getD, List.getElem?_append, List.getElem?_replicate]
  split
  · rfl
  · rw [List.getElem?_eq_none (by omega)]
    split <;> rfl

theorem getD_addQuarter (l : List Nat) {q : Nat} (n r : Nat) (hq : q < 4) :
    (addQuarter l q n).getD r 0 = l.getD r 0 + if r = q then n else 0 := by
  rw [addQuarter, getD_setNth _ _ _ _ _ (by rw [List.length_append, List.length_replicate]; omega), getD_padded]
  split
  next h => rw [h]
  next => rw [Nat.add_zero]

theorem getD_addCharge (f : List (List Nat)) {k q : Nat} (n j r : Nat) (hq : q < 4) :
    ((addCharge f k q n).getD j []).getD r 0 = (f.getD j []).getD r 0 + if j = k ∧ r = q then n else 0 := by
  have hpad : ∀ i, ((f ++ List.replicate (k + 1 - f.length) [0, 0, 0, 0]).getD i []).getD r 0 = (f.getD i []).getD r 0 := fun i => by
    simp only [List.getD_eq_getElem?_getD, List.getElem?_append, List.getElem?_replicate]
    split
    · rfl
    · rw [List.getElem?_eq_none (l := f) (by omega)]
      split
      · match r with
        | 0 | 1 | 2 | 3 => rfl
        | r + 4 => rfl
      · rfl
  rw [addCharge, getD_setNth _ _ _ _ _ (by rw [List.length_append, List.length_replicate]; omega)]
  by_cases hj : j = k
  · subst hj
    rw [if_pos rfl, getD_addQuarter _ _ _ hq, hpad]
    simp only [true_and]
  · rw [if_neg hj, if_neg (fun e => hj e.1), hpad, Nat.add_zero]

/-- A charge of several clocks from the next one on. -/
theorem getD_chargeMatrix (c : Core) {q : Nat} (n clocks j r : Nat) (hq : q < 4) :
    ((c.chargeMatrix q n clocks).matrixFuture.getD j []).getD r 0 = (c.matrixFuture.getD j []).getD r 0 +
      if r = q ∧ 1 ≤ j ∧ j ≤ clocks then n else 0 := by
  unfold Core.chargeMatrix
  dsimp only
  induction clocks with
  | zero =>
    rw [if_neg (by omega)]
    rfl
  | succ m ih =>
    rw [List.range_succ, List.foldl_append, List.foldl_cons, List.foldl_nil, getD_addCharge _ _ _ _ hq, ih, Nat.add_assoc]
    refine congrArg _ ?_
    split_ifs <;> omega

/-- The charge of one quarter among the four. -/
theorem chargeMatrix_four (c : Core) {q : Nat} (n clocks : Nat) (hq : q < 4) :
    (List.range 4).foldl (fun k r => k.chargeMatrix r n ((if q = r then 1 else 0) * clocks)) c = c.chargeMatrix q n clocks := by
  have h0 : ∀ (k : Core) r, k.chargeMatrix r n 0 = k := fun _ _ => rfl
  match q with
  | 0 | 1 | 2 | 3 => simp [List.range_succ, h0]
  | q + 4 => omega

/-- A quarter with a charge on the next clock is busy. -/
theorem unitBusy_of_charge {c : Core} {q : Nat} (h : (c.matrixFuture.getD 1 []).getD q 0 ≠ 0) : c.unitBusy q = true := by
  unfold Core.unitBusy
  match hm : c.matrixFuture with
  | [] => rw [hm] at h; exact absurd rfl h
  | [a] => rw [hm] at h; exact absurd rfl h
  | a :: b :: t =>
    rw [hm] at h
    rw [List.tail_cons, List.any_cons, Bool.or_eq_true]
    exact Or.inl (bne_iff_ne.2 h)

section
variable {s : State} {w : Nat} {i : Instr} {h : Hdr} {f : XForm}

/-- The charge of one warp's operation, by the quarter it sits in. -/
theorem chargeMma_one (t : State) (c weight : Nat) (hq : (t.warp w).quarter < 4) : t.chargeMma [w] c weight =
    t.updCore (t.warp w).core (fun k => k.chargeMatrix (t.warp w).quarter (Config.warpWidth * weight) (mmaClocks c)) := by
  unfold State.chargeMma
  refine congrArg (t.updCore (t.warp w).core) (funext fun k => ?_)
  rw [← chargeMatrix_four k _ _ hq]
  refine congrArg (fun g => List.foldl g k (List.range 4)) (funext fun k => funext fun r => ?_)
  by_cases e : (t.warp w).quarter = r <;> simp [e]

theorem chargeMma_coresOf (t : State) (ms : List Nat) (c weight : Nat) : t.coresOf (t.chargeMma ms c weight) := by
  cases ms <;> rfl

/-- A charge reads of the state but its cores, and the place of the warp. -/
theorem chargeMma_cores {t u : State} (c weight : Nat) (hc : t.cores = u.cores) (hk : (t.warp w).core = (u.warp w).core)
    (hq : (t.warp w).quarter = (u.warp w).quarter) : (t.chargeMma [w] c weight).cores = (u.chargeMma [w] c weight).cores := by
  simp only [State.chargeMma, State.updCore, State.setCore, State.core, hc, hk, List.filter_cons, List.filter_nil, hq]

theorem matrixFuture_started (k : Nat) : ((started s w i).core k).matrixFuture = (s.core k).matrixFuture := by
  show (((s.bump).chargeIssue w i).core k).matrixFuture = _
  unfold State.chargeIssue State.core State.updCore State.setCore
  by_cases e : k = ((s.bump).warp w).core
  · subst e
    dsimp only
    rw [AMap.find_put_same]
    rfl
  · dsimp only
    rw [AMap.find_put_other _ _ e]
    rfl

theorem active_ne_zero (hs : Solo s w i) (hw : scopeOfInstr i = .warp) : (s.warp w).active ≠ 0 := by
  intro h0
  rcases hs.2.2 with e | ⟨-, e⟩
  · rw [hw] at e
    cases e
  · refine e ?_
    unfold Warp.selected
    split
    · rw [h0]
      exact BitVec.zero_and
    · exact h0

theorem mmaMembers_self (hs : Solo s w i) (hw : scopeOfInstr i = .warp) : (started s w i).mmaMembers (s.selfActor w i) = [w] := by
  unfold State.mmaMembers
  have ha : ((s.warp w).active != 0) = true := bne_iff_ne.2 (active_ne_zero hs hw)
  simp only [liveMembers_started hs, List.filter_cons, ha, if_true, List.filter_nil, List.map_cons, List.map_nil]

theorem firstMember_started (hs : Solo s w i) : (started s w i).firstMember (s.selfActor w i) = w :=
  firstMember_self hs

/-- MMA whose checks pass on an operand fetched and a unit free. -/
theorem opMma_self {m : OMap} {l : WSlot} {bs : List Byte} (hs : Solo s w i) (hw : scopeOfInstr i = .warp)
    (hc : (started s w i).mmaCheck (s.selfActor w i) h f = none) (hn : (s.warp w).matrix.length < 63)
    (hu : ((started s w i).core (s.warp w).core).unitBusy (s.warp w).quarter = false) (ha : (s.warp w).abuf = some (m, false, bs))
    (hm : (s.block (s.warp w).blk).omaps.find f.va.toNat = some m)
    (hl : (s.warp w).wslots.find f.vb.toNat = some l) (hf : l.filled = true) (hp : (s.warp w).wPoison.contains f.vb.toNat = false) :
    opMma h (.x f) (s.selfActor w i) (started s w i) = .ok ((((started s w i).pushMatrix w (.mma (hdrTop h) h.vd.toNat bs l.bytes) 2
      (s.warp w).pc (recordWord i)).updWarp w (fun x => { x with abuf := none })).chargeMma [w] (hdrTop h) (mmaWeight (hdrTop h))) := by
  have hm' : ((started s w i).block (s.warp w).blk).omaps.find f.va.toNat = some m := hm
  have hr : (started s w i).mmaReady (s.selfActor w i) f = true := by
    unfold State.mmaReady
    simp only [mmaMembers_self hs hw, firstMember_started hs, matrixFull_started hs hn, List.all_cons, List.all_nil, warp_started,
      Warp.issued_core, Warp.issued_quarter, hu, Warp.issued_abuf, ha, Warp.issued_blk, hm', Warp.issued_wslots, hl, hf, Option.any_some,
      decide_true, Bool.not_false, Bool.and_self]
  unfold opMma
  simp only [hc, hr, mmaMembers_self hs hw, firstMember_started hs, liveMembers_started hs, List.any_cons, List.any_nil, warp_started,
    Warp.issued_abuf, ha, Warp.issued_wPoison, hp, Warp.issued_wslots, hl, State.selfActor_lead, Warp.issued_pc, List.foldl_cons,
    List.foldl_nil, List.contains_cons, beq_self_eq_true, Bool.true_or, Option.any_some, Option.map_some, Option.getD_some, if_true,
    Bool.not_true, Bool.or_self, if_neg Bool.false_ne_true]
  rfl

/-- A drain as its operand block gives it (16 R298). -/
def drainOf (rs : List Word) (x : Warp) (h : Hdr) (f : XForm) (runs : Option (List (List (Place × Nat)))) : Drain :=
  { tile := h.vd.toNat, pairTile := hdrTop h == 1, rnd := f.rnd.toNat,
    dest := if regN rs 7 / 64 % 2 == 1 then regPair rs 0 else (rs.getD 0 0).zeroExtend 64, runs := runs, stride := regN rs 2,
    scale := rs.getD 3 0, bound := rs.getD 4 0, bias := rs.getD 5 0, flagTarget := rs.getD 6 0, act := regN rs 7 / 16 % 4,
    dfmt := regN rs 7 % 16, dctr := x.dctr }

/-- The checks of a drain's operand block (16 R297). -/
structure DrainChecked (s : State) (w : Nat) (rs : List Word) (h : Hdr) (d : Drain) : Prop where
  room : (s.warp w).matrix.length < 63
  tile : h.vd.toNat + (if (hdrTop h == 1) = true then 2 else 1) ≤ 8 * (s.warp w).accEpochs.length
  ctl : regN rs 7 < 128
  fmt : regN rs 7 % 16 < 7
  act : regN rs 7 / 16 % 4 ≠ 3
  dest : isTapered (regN rs 7 % 16) = true ∨ (d.dest.toNat % fmtBytes (regN rs 7 % 16) = 0 ∧ regN rs 2 % fmtBytes (regN rs 7 % 16) = 0)
  bias : regN rs 5 = noValue ∨ regN rs 5 % (if (hdrTop h == 1) = true then 8 else 4) = 0
  flag : regN rs 6 = noValue ∨ regN rs 6 % 32 = 0

/-- The alignment check of an optional place passes. -/
theorem optional_aligned {n k : Nat} (h : n = noValue ∨ n % k = 0) : (decide (n ≠ noValue) && decide (n % k ≠ 0)) = false := by
  rcases h with h | h
  · rw [decide_eq_false (not_not.2 h), Bool.false_and]
  · rw [decide_eq_false (p := n % k ≠ 0) (not_not.2 h), Bool.and_false]

theorem control_ok {n : Nat} (h1 : n < 128) (h2 : n % 16 < 7) (h3 : n / 16 % 4 ≠ 3) :
    (decide (128 ≤ n) || decide (7 ≤ n % 16) || decide (n / 16 % 4 = 3)) = false := by
  simp only [Bool.or_eq_false_iff, decide_eq_false_iff_not]
  omega

/-- ACCDRAIN to scratch whose checks pass. -/
theorem opAccdrain_scratch {rs : List Word} (hs : Solo s w i) (hR : (started s w i).operandBlock (s.selfActor w i) f.va = rs)
    (hc : DrainChecked s w rs h (drainOf rs (s.warp w) h f none)) (hg : (regN rs 7 / 64 % 2 == 1) = false) (h1 : regN rs 1 = 0)
    (hb : ∀ r ∈ drainScratch (drainOf rs (s.warp w) h f none), s.scrBeyond (s.warp w).blk r.1 r.2 = false) :
    opAccdrain h (.x f) (s.selfActor w i) (started s w i) = .ok ((started s w i).pushMatrix w
      (.drain (drainOf rs (s.warp w) h f none)) 5 (s.warp w).pc (recordWord i)) := by
  obtain ⟨room, tile, ctl, fmt, act, dest, bias, flag⟩ := hc
  have hg' : ¬ regN rs 7 / 64 % 2 = 1 := by simpa using hg
  have hbs := (firstBeyond_none hb : (started s w i).firstBeyond (s.warp w).blk _ = none)
  simp only [drainOf, beq_iff_eq, hg', if_false] at hbs dest
  simp only [beq_iff_eq] at tile bias
  unfold opAccdrain
  simp only [matrixFull_started hs room, State.selfActor_lead, warp_started, hR, hg', tileBeyond_issued tile, Warp.issued_blk,
    Warp.issued_dctr, Warp.issued_pc, if_neg Bool.false_ne_true, control_ok ctl fmt act, h1, Bool.false_or]
  rw [if_neg (by simp), if_neg (by rw [if_neg not_false, aligned_or dest]; exact Bool.false_ne_true), optional_aligned bias,
    optional_aligned flag, if_neg Bool.false_ne_true, if_neg Bool.false_ne_true]
  simp only [if_false, beq_eq_decide] at hbs ⊢
  rw [hbs]
  simp only [drainOf, beq_eq_decide, hg', if_false, decide_false, if_neg Bool.false_ne_true]
  rfl

/-- ACCDRAIN to memory whose checks pass. -/
theorem opAccdrain_global {rs : List Word} {q : List (Place × Nat)} (hs : Solo s w i)
    (hR : (started s w i).operandBlock (s.selfActor w i) f.va = rs)
    (hc : DrainChecked s w rs h (drainOf rs (s.warp w) h f none)) (hg : (regN rs 7 / 64 % 2 == 1) = true)
    (hb : ∀ r ∈ drainScratch (drainOf rs (s.warp w) h f (some [])), s.scrBeyond (s.warp w).blk r.1 r.2 = false)
    (hq : (started s w i).engineRuns (s.warp w).blk 0 (Rights.w false) (regPair rs 0) (drainSpan (regN rs 7 % 16) (regN rs 2)) = .ok q) :
    opAccdrain h (.x f) (s.selfActor w i) (started s w i) = .ok ((started s w i).pushMatrix w
      (.drain (drainOf rs (s.warp w) h f (some ((started s w i).drainRuns (s.warp w).blk
        (drainPlaces (regN rs 7 % 16) (regPair rs 0) (regN rs 2)))))) 5 (s.warp w).pc (recordWord i)) := by
  obtain ⟨room, tile, ctl, fmt, act, dest, bias, flag⟩ := hc
  have hg' : regN rs 7 / 64 % 2 = 1 := by simpa using hg
  have hbs := (firstBeyond_none hb : (started s w i).firstBeyond (s.warp w).blk _ = none)
  simp only [drainOf, beq_iff_eq, hg', if_true] at hbs dest
  simp only [beq_iff_eq] at tile bias
  unfold opAccdrain
  simp only [matrixFull_started hs room, State.selfActor_lead, warp_started, hR, hg', tileBeyond_issued tile, Warp.issued_blk,
    Warp.issued_dctr, Warp.issued_pc, if_neg Bool.false_ne_true, control_ok ctl fmt act, Bool.false_or]
  rw [if_neg (by simp), if_neg (by rw [if_pos trivial, aligned_or dest]; exact Bool.false_ne_true), optional_aligned bias,
    optional_aligned flag, if_neg Bool.false_ne_true, if_neg Bool.false_ne_true]
  simp only [if_true, beq_eq_decide] at hbs ⊢
  rw [hbs]
  simp only [hq, drainOf, beq_eq_decide, hg', if_true, decide_true]
  rfl

/-- The state of an MMA before its charge. -/
def mmaQueued (s : State) (w : Nat) (i : Instr) (k : MatKind) : State :=
  (({ started s w i with nextUid := s.nextUid + 1 } : State).adopt ((started s w i).path w (s.warp w).active 0)
    (workKey s.nextUid)).setWarp w { withMatrix s.nextUid ((s.warp w).issued i) i k 2 with abuf := none }

theorem mmaQueued_cores (k : MatKind) : (mmaQueued s w i k).cores = (started s w i).cores :=
  (State.pastOf_cores (State.adopt_pastOf _ _ _) :)

theorem mmaQueued_mem (k : MatKind) : (mmaQueued s w i k).mem = s.mem := (State.pastOf_mem (State.adopt_pastOf _ _ _) :)
theorem mmaQueued_blocks (k : MatKind) : (mmaQueued s w i k).blocks = s.blocks := (State.pastOf_blocks (State.adopt_pastOf _ _ _) :)
theorem mmaQueued_parts (k : MatKind) : (mmaQueued s w i k).parts = s.parts := (State.pastOf_parts (State.adopt_pastOf _ _ _) :)

theorem mmaQueued_warp (k : MatKind) : (mmaQueued s w i k).warp w =
    { withMatrix s.nextUid ((s.warp w).issued i) i k 2 with abuf := none } := State.warp_setWarp_same _ _ _

theorem mmaQueued_others (k : MatKind) {v : Nat} (hv : v ≠ w) : (mmaQueued s w i k).warps.find v = s.warps.find v := by
  refine (AMap.find_put_other _ _ hv).trans ?_
  rw [State.pastOf_warps (State.adopt_pastOf _ _ _)]
  exact find_started_other i hv

theorem mmaQueued_eq (k : MatKind) : ((started s w i).pushMatrix w k 2 (s.warp w).pc (recordWord i)).updWarp w
    (fun x => { x with abuf := none }) = mmaQueued s w i k := by
  rw [pushMatrix_self, State.updWarp_updWarp, State.updWarp, pushMatrix_warp k 0 0 0]
  rfl

/-- The charge on the core that an MMA leaves (07 R153, R154). -/
theorem core_mmaCharged (c : Nat) (hq : (s.warp w).quarter < 4) :
    ((started s w i).chargeMma [w] c (mmaWeight c)).core (s.warp w).core =
      ((started s w i).core (s.warp w).core).chargeMatrix (s.warp w).quarter (Config.warpWidth * mmaWeight c) (mmaClocks c) := by
  rw [chargeMma_one _ _ _ (by rw [warp_started, Warp.issued_quarter]; exact hq), warp_started, Warp.issued_quarter, Warp.issued_core]
  exact congrArg (fun o => o.getD Core.reset) (AMap.find_put_same _ _ _)

theorem mmaClocks_pos (c : Nat) : 1 ≤ mmaClocks c := by
  unfold mmaClocks
  split_ifs <;> decide

theorem mmaWeight_pos (c : Nat) : 0 < Config.warpWidth * mmaWeight c := by
  unfold mmaWeight
  split_ifs <;> decide

end

/-- Settles O42: MMA on its fetched operand, and ACCDRAIN by its operand block. -/
theorem mmaAndDrainIssue : Obligations.MmaAndDrainIssue := by
  unfold Obligations.MmaAndDrainIssue
  refine ⟨fun s w h f m l bs => ?_, fun s w h f => ?_⟩
  · intro i c x z hs hw hc hn hu ha hm hl hf hp
    have ho := opMma_self hs hw hc hn hu ha hm hl hf hp
    rw [mmaQueued_eq] at ho
    have hpl : plain i := plain_of_head rfl rfl fun _ _ => Instr.noConfusion
    have hco := chargeMma_coresOf (mmaQueued s w i (.mma c h.vd.toNat bs l.bytes)) [w] c (mmaWeight c)
    have hwp := (State.warp_coresOf hco w).trans (mmaQueued_warp _)
    have hcores : ((mmaQueued s w i (.mma c h.vd.toNat bs l.bytes)).chargeMma [w] c (mmaWeight c)).cores =
        (z.chargeMma [w] c (mmaWeight c)).cores := by
      refine chargeMma_cores _ _ (mmaQueued_cores _) ?_ ?_
      · rw [mmaQueued_warp, warp_started]
        rfl
      · rw [mmaQueued_warp, warp_started]
        rfl
    refine ⟨_, issue_past (op := opMma h (.x f)) hs ho (not_exited_of_live hs ?_), ?_, ?_, ?_, fun v hv => ?_, ?_, hcores, fun hq => ?_⟩
    · rw [hwp]
      exact Warp.issued_live _ _
    · exact (congrArg State.mem hco).trans (mmaQueued_mem (.mma c h.vd.toNat bs l.bytes))
    · exact (congrArg State.blocks hco).trans (mmaQueued_blocks (.mma c h.vd.toNat bs l.bytes))
    · exact (congrArg State.parts hco).trans (mmaQueued_parts (.mma c h.vd.toNat bs l.bytes))
    · refine (AMap.find_put_other _ _ hv).trans ?_
      rw [congrArg State.warps hco]
      exact mmaQueued_others (.mma c h.vd.toNat bs l.bytes) hv
    · rw [warp_past_plain hpl, hwp, show ({ withMatrix s.nextUid ((s.warp w).issued i) i (.mma c h.vd.toNat bs l.bytes) 2 with
        abuf := none } : Warp).pc = (s.warp w).pc from Warp.issued_pc _ _]
    · have hk : (past s w i ((mmaQueued s w i (.mma c h.vd.toNat bs l.bytes)).chargeMma [w] c (mmaWeight c))).core x.core =
          (z.core x.core).chargeMatrix x.quarter (Config.warpWidth * mmaWeight c) (mmaClocks c) := by
        rw [← core_mmaCharged c hq]
        exact congrArg (fun m : AMap Core => (m.find x.core).getD Core.reset) hcores
      have hrow := fun k q => getD_chargeMatrix (z.core x.core) (Config.warpWidth * mmaWeight c) (mmaClocks c) k q hq
      rw [hk]
      refine ⟨unitBusy_of_charge ?_, fun k q => ?_⟩
      · rw [hrow, if_pos ⟨rfl, Nat.le_refl 1, mmaClocks_pos c⟩]
        have := mmaWeight_pos c
        omega
      · rw [hrow, matrixFuture_started]
  · intro i x z rs wide ctl dfmt glob dest d hs hn ht hctl hfmt hact hdest hbias hflag
    have hc : DrainChecked s w rs h (drainOf rs (s.warp w) h f none) := ⟨hn, ht, hctl, hfmt, hact, hdest, hbias, hflag⟩
    refine ⟨fun hg h1 hb => ?_, fun hg hb q hq => ?_⟩
    · exact issue_matrix_id (op := opAccdrain h (.x f)) hs (opAccdrain_scratch hs rfl hc hg h1 hb)
    · have hd : dest = regPair rs 0 := if_pos hg
      rw [hd] at hq ⊢
      exact issue_matrix_id (op := opAccdrain h (.x f)) hs (opAccdrain_global hs rfl hc hg hb hq)

end Sys2Proof.Machine
end

section
/-! PROOF. REP: one repeat of the target at each issue (06 R144, R145). -/

namespace Sys2Proof.Machine

/-! The target, stepped. -/

theorem expand_of_step {f : RepForm} {t : Form} {k m fn : Nat} {h : Hdr} {u : Upper} {o : Fields}
    (hp : stepTarget f t k = some (.w64 m fn h u o)) : ∃ h0 u0, t.expand = some (m, fn, h0, u0) ∧ h.scope = h0.scope := by
  unfold stepTarget at hp
  dsimp only at hp
  split at hp
  · cases hp
  · split at hp
    · cases hp
    next m' fn' h0 u0 he =>
      split at hp <;>
      · simp only [Option.some.injEq, Stepped.w64.injEq] at hp
        obtain ⟨rfl, rfl, rfl, -⟩ := hp
        exact ⟨_, _, he, rfl⟩

theorem length_of_step {f : RepForm} {t : Instr} {k : Nat} {p : Stepped} (hp : stepTarget f (form t) k = some p) :
    instrLength (.rep f t) = 4 + instrLength t := by
  have hr : ∀ g t', form t ≠ .rep g t' := fun g t' e => by
    rw [e] at hp
    cases hp
  unfold instrLength
  show 4 + (form t).length = _
  split
  next g t' e => exact absurd e (hr g t')
  next => rfl

theorem scope_of_step {f : RepForm} {t : Instr} {k m fn : Nat} {h : Hdr} {u : Upper} {o : Fields}
    (hp : stepTarget f (form t) k = some (.w64 m fn h u o)) : scopeOfInstr (.rep f t) = h.scope := by
  obtain ⟨h0, u0, he, hs⟩ := expand_of_step hp
  have hw : headWord (.rep f t) = some (m, fn, h0, u0) := he
  rw [scopeOfInstr, hw, hs]

theorem Warp.advance_repi_some (x : Warp) (n c : Nat) :
    (x.advance n (some c)).repi = if x.repi < c then x.repi + 1 else 0 := by
  unfold Warp.advance
  dsimp only
  split <;> rfl

theorem Warp.advance_pc_some (x : Warp) (n c : Nat) :
    (x.advance n (some c)).pc = if x.repi < c then x.pc else canon57 (x.pc + BitVec.ofNat 64 n) := by
  unfold Warp.advance
  dsimp only
  split <;> rfl

section
variable {s : State} {w : Nat} {f : RepForm} {t : Instr} {p : Stepped}

theorem opRep_self (hp : stepTarget f (form t) (s.warp w).repi = some p) {m fn : Nat} {h : Hdr} {u : Upper} {o : Fields}
    (he : p = .w64 m fn h u o) : opRep f t (s.selfActor w (.rep f t)) (started s w (.rep f t)) =
      opTarget m fn h u (s.selfActor w (.rep f t)) (started s w (.rep f t)) := by
  subst he
  unfold opRep
  rw [State.selfActor_lead, warp_started, Warp.issued_repi, hp]

/-- The warp past a repeat: at its target while repeats are left, else past it (06 R144). -/
theorem warp_past_rep (y : State) (hp : stepTarget f (form t) (s.warp w).repi = some p) :
    (past s w (.rep f t) y).warp w =
      ((y.warp w).unwait.countDither (.rep f t)).advance (4 + instrLength t) (some f.count.toNat) := by
  rw [past, State.warp_updWarp_same, length_of_step hp]
  rfl

theorem repi_past_rep (y : State) (hp : stepTarget f (form t) (s.warp w).repi = some p) (hr : (y.warp w).repi = (s.warp w).repi) :
    ((past s w (.rep f t) y).warp w).repi = if (s.warp w).repi < f.count.toNat then (s.warp w).repi + 1 else 0 := by
  rw [warp_past_rep y hp, Warp.advance_repi_some, Warp.countDither_repi, Warp.unwait_repi, hr]

theorem pc_past_rep (y : State) (hp : stepTarget f (form t) (s.warp w).repi = some p) (hr : (y.warp w).repi = (s.warp w).repi)
    (hc : (y.warp w).pc = (s.warp w).pc) : ((past s w (.rep f t) y).warp w).pc =
      if (s.warp w).repi < f.count.toNat then (s.warp w).pc else canon57 ((s.warp w).pc + BitVec.ofNat 64 (4 + instrLength t)) := by
  rw [warp_past_rep y hp, Warp.advance_pc_some, Warp.countDither_repi, Warp.unwait_repi, hr, Warp.countDither_pc, Warp.unwait_pc, hc]

theorem pc_lanesWritten (i : Instr) (g : Nat → LaneOut) (x : Warp) :
    (lanesWritten s w i g x).pc = x.pc ∧ (lanesWritten s w i g x).repi = x.repi := by
  rw [lanesWritten, Warp.raise_pc, Warp.raise_repi, Warp.regsOf_lanes]
  exact ⟨rfl, rfl⟩

/-- A repeat of a target that works on registers. -/
theorem rep_registers {g : Nat} {m : Actor → State → Warp → Nat → LaneOut} (hs : Solo s w (.rep f t))
    (hp : stepTarget f (form t) (s.warp w).repi = some p) (hm : repeatMeaning p = some (g, m)) :
    let i : Instr := .rep f t
    let out := m (s.selfActor w i) (started s w i) (s.warp w)
    (∀ l ∈ lanesDone s w i, (out l).mark = false) → enabledFlags (s.warp w).trapen g (flagsDone s w i out) = 0 →
      ∃ y, exec i s = .next y ∧ RegistersOnly s y w i (fun l => (out l).writes) ∧
        (y.warp w).sticky = (s.warp w).sticky ||| (flagsDone s w i out).zeroExtend 32 ∧
        Written (s.warp w) (y.warp w) i (fun l => (out l).writes) ∧
        (y.warp w).repi = (if (s.warp w).repi < f.count.toNat then (s.warp w).repi + 1 else 0) ∧
        (y.warp w).pc = (if (s.warp w).repi < f.count.toNat then (s.warp w).pc
          else canon57 ((s.warp w).pc + BitVec.ofNat 64 (4 + instrLength t))) := by
  intro i out hmark hflags
  have hb := blind_repeatMeaning hm (s.selfActor w i) (started s w i)
  obtain ⟨mark, detail, ho⟩ := opTarget_meaning hm f t (s.selfActor w i) (started s w i)
    (by rw [State.selfActor_lead, warp_started, Warp.issued_repi]; exact hp)
  obtain ⟨y, hx, frame, hsticky, -, hwrites⟩ := lanes_complete (op := opRep f t) hs ho hb hflags hmark
  have hnone : opRep f t (s.selfActor w i) (started s w i) = .ok ((started s w i).updWarp w (lanesWritten s w i out)) := by
    have htrap : trapOf (s.warp w).trapen g (lanesRaised s w i out) mark detail
        (if scopeOfInstr i == .warp then some ((s.warp w).selected i) else none) = none := by
      refine trapOf_none ?_ ?_
      · simpa only [lanesRaised, List.foldl_map, flagsDone] using hflags
      · simpa [lanesRaised, List.any_eq_false] using hmark
    rw [ho, lanewise_started hb, htrap]
  have hpast := issue_past (op := opRep f t) hs hnone (not_exited_of_live hs (by
    rw [State.warp_updWarp_same, live_lanesWritten, warp_started, Warp.issued_live]))
  obtain rfl := Host.Outcome.next.inj (hx.symm.trans hpast)
  have hw : ((started s w i).updWarp w (lanesWritten s w i out)).warp w = lanesWritten s w i out ((s.warp w).issued i) := by
    rw [State.warp_updWarp_same, warp_started]
  have hr := (congrArg Warp.repi hw).trans ((pc_lanesWritten i out _).2.trans (Warp.issued_repi _ _))
  have hc := (congrArg Warp.pc hw).trans ((pc_lanesWritten i out _).1.trans (Warp.issued_pc _ _))
  exact ⟨_, hx, frame, hsticky, hwrites, repi_past_rep _ hp hr, pc_past_rep _ hp hr hc⟩

/-- A repeat whose target is a load (10 R214). -/
theorem rep_load {fn : Nat} {h : Hdr} {g : MForm} {o : Fields} {rs : List (Item × Target)} (hs : Solo s w (.rep f t))
    (hp : stepTarget f (form t) (s.warp w).repi = some (.w64 8 fn h (.m g) o)) (hfn : fn = 0 ∨ fn = 2)
    (hi : (started s w (.rep f t)).items (s.selfActor w (.rep f t)) g (esizeBytes g.esize) ≠ [])
    (hl : (s.warp w).loads.length < 63)
    (hr : (started s w (.rep f t)).resolve (s.selfActor w (.rep f t)) 0 fn (memSpace fn) (Rights.r (g.mscope == 5)) (esizeBytes g.esize)
      (if g.order == 0 then 1 else esizeBytes g.esize)
      ((started s w (.rep f t)).items (s.selfActor w (.rep f t)) g (esizeBytes g.esize)) = .ok rs) :
    let i : Instr := .rep f t
    let z := started s w i
    let ts := rs.map (fun e => e.2)
    ∃ y q, exec i s = .next (past s w i (y.updWarp w (fun x => { x with loads := x.loads ++ [q] }))) ∧ Glanced s w i y ∧
      q.bad = z.badLoad ts ∧ q.atomic = false ∧ q.done = false ∧ q.cells = loadCells z s w h g rs := by
  intro i z ts
  have hw : ∀ x ∈ rs, x.1.w = w := w_of_resolve hs hr
  have gl := glanced_seen hs ts (memSpace fn) (z.items (s.selfActor w i) g (esizeBytes g.esize)) g rs
  obtain ⟨p, hx⟩ := gl.warp_eq
  have hop : opRep f t (s.selfActor w i) z = opLoad fn h (.m g) (s.selfActor w i) z := by
    rw [opRep_self hp rfl]
    rcases hfn with rfl | rfl <;> rfl
  have hpush := pushLoads_self hs (t := (((z.fixReads (s.selfActor w i) ts).fillFor (s.selfActor w i) (memSpace fn)
      (z.items (s.selfActor w i) g (esizeBytes g.esize))).notePeerReads ts).sawAll (s.selfActor w i) g rs)
    (by rw [hx]; exact Warp.issued_live _ _) (by rw [hx]; exact Warp.issued_pc _ _) (z.badLoad ts) fn ts false
    (rs.flatMap (fun e => cellsOf e.1.w ((s.selfActor w i).scope == .warp) h.vd.toNat e.1.lane
      (loadWords (z.see (z.agentAt (s.selfActor w i) e.1 g.mscope.toNat) (z.draw 6) e.2) h.x)))
    (lateReads (s.selfActor w i) g (z.badLoad ts) (fun _ => .elem ((s.selfActor w i).scope == .warp) h.vd.toNat h.x) rs)
  have ho := (opLoad_ok (h := h) hi (loads_not_full hs hl) hr).trans (congrArg Res.ok hpush)
  rw [loadCells_self (scope_of_step hp) hw] at ho
  refine ⟨_, _, issue_past (op := opRep f t) hs (hop.trans ho) (not_exited_of_live hs ?_), gl, rfl, rfl, rfl, rfl⟩
  rw [State.warp_updWarp_same, hx]
  exact Warp.issued_live _ _

theorem State.warps_clearPoison (s : State) (ts : List Target) : (s.clearPoison ts).warps = s.warps := by
  unfold State.clearPoison
  refine (keeps_foldl State.warps _ (fun u b => ?_) _ _).trans ?_
  · dsimp only
    split <;> rfl
  · split <;> rfl

/-- Storing elements leaves the live mask of every warp. -/
theorem State.live_storeAll (s : State) (q : Put) (es : List (Agent × Target × List Byte)) (w : Nat) :
    ((s.storeAll q es).warp w).live = (s.warp w).live := by
  have hw : ∀ (u : State) (ts : List Target), (u.clearPoison ts).warp w = u.warp w := fun u ts =>
    congrArg (fun m : AMap Warp => (m.find w).getD Warp.blank) (u.warps_clearPoison ts)
  unfold State.storeAll
  dsimp only
  rw [hw]
  generalize s.laneOrder (anyMeet (es.map (fun e => e.2.1))) es = l
  exact keeps_foldl (fun u : State => (u.warp w).live) (fun u (e : Agent × Target × List Byte) => u.putBy e.1 (s.draw 13) q e.2.1 e.2.2)
    (fun u e => u.live_putBy e.1 (s.draw 13) q e.2.1 e.2.2 w) l s

/-- A repeat whose target is a store (10 R214). -/
theorem rep_store {fn : Nat} {h : Hdr} {g : MForm} {o : Fields} {rs : List (Item × Target)} (hs : Solo s w (.rep f t))
    (hp : stepTarget f (form t) (s.warp w).repi = some (.w64 8 fn h (.m g) o)) (hfn : fn = 1 ∨ fn = 3)
    (hi : (started s w (.rep f t)).items (s.selfActor w (.rep f t)) g (esizeBytes g.esize) ≠ [])
    (hl : (s.warp w).stores.length < 63)
    (hr : (started s w (.rep f t)).resolve (s.selfActor w (.rep f t)) 0 fn (memSpace fn) (Rights.w (g.mscope == 5)) (esizeBytes g.esize)
      (if g.order == 0 then 1 else esizeBytes g.esize)
      ((started s w (.rep f t)).items (s.selfActor w (.rep f t)) g (esizeBytes g.esize)) = .ok rs) :
    let i : Instr := .rep f t
    let z := started s w i
    let a := s.selfActor w i
    let ts := rs.map (fun e => e.2)
    exec i s = .next (past s w i (((((z.fixReads a ts).fillFor a (memSpace fn) (z.items a g (esizeBytes g.esize))).released a g).storeAll
      (Put.store (releases g)) (rs.map (fun e => (laneAgent z s w g e.1, e.2,
        storeBytes (z.warp w) (z.draw 4) (h.scope == .warp) h.vd.toNat e.1.lane (esizeBytes g.esize))))).pushStores a
      (z.badStore ts) fn ts false)) := by
  intro i z a ts
  have hw : ∀ x ∈ rs, x.1.w = w := w_of_resolve hs hr
  have hop : opRep f t a z = opStore fn h (.m g) a z := by
    rw [opRep_self hp rfl]
    rcases hfn with rfl | rfl <;> rfl
  have hes : rs.map (fun e => (z.agentAt a e.1 g.mscope.toNat, e.2,
      storeBytes (z.warp e.1.w) (z.draw 4) (a.scope == .warp) h.vd.toNat e.1.lane (esizeBytes g.esize))) =
      rs.map (fun e => (laneAgent z s w g e.1, e.2,
        storeBytes (z.warp w) (z.draw 4) (h.scope == .warp) h.vd.toNat e.1.lane (esizeBytes g.esize))) :=
    List.map_congr_left fun e he => by
      rw [hw e he, agentAt_self (hw e he), State.selfActor_scope, scope_of_step hp]
  have ho : opStore fn h (.m g) a z = .ok (((((z.fixReads a ts).fillFor a (memSpace fn) (z.items a g (esizeBytes g.esize))).released a
      g).storeAll (Put.store (releases g)) (rs.map (fun e => (laneAgent z s w g e.1, e.2,
        storeBytes (z.warp w) (z.draw 4) (h.scope == .warp) h.vd.toNat e.1.lane (esizeBytes g.esize))))).pushStores a
      (z.badStore ts) fn ts false) := by
    unfold opStore
    dsimp only
    rw [if_neg (mt List.isEmpty_iff.1 hi), stores_not_full hs hl, if_neg Bool.false_ne_true, hr]
    dsimp only
    rw [hes]
  obtain ⟨p, hx⟩ := (glanced_access hs ts (memSpace fn) (z.items a g (esizeBytes g.esize))).warp_eq
  refine issue_past (op := opRep f t) hs (hop.trans ho) (not_exited_of_live hs ?_)
  refine (keeps_foldl (fun u : State => (u.warp w).live) _ (fun u (m : Member) => u.keeps_updWarp m.w _ Warp.live (by intro x; rfl) w) _ _).trans ?_
  rw [State.live_storeAll, State.pastOf_warp (State.released_pastOf _ a g), hx]
  exact Warp.issued_live _ _

end

/-- Settles O16: the repeat is performed as its target's instruction is, and REPI counts it. -/
theorem repRepeats : Obligations.RepRepeats := by
  unfold Obligations.RepRepeats
  intro s w f t p i z a goes hs hp
  refine ⟨?_, ?_⟩
  · intro g m hm out hmark hflags
    exact rep_registers hs hp hm hmark hflags
  · intro fn h g o rs he size its ts who resolved
    subst he
    refine ⟨fun hfn hi hl hr => ?_, fun hfn hi hl hr => rep_store hs hp hfn hi hl hr⟩
    obtain ⟨y, q, hx, gl, hbad, hatomic, hdone, hcells⟩ := rep_load hs hp hfn hi hl hr
    obtain ⟨r, hw⟩ := gl.warp_eq
    have hy : (y.updWarp w (fun x => { x with loads := x.loads ++ [q] })).warp w =
        { ((s.warp w).issued i).fixReads r with loads := (((s.warp w).issued i).fixReads r).loads ++ [q] } := by
      rw [State.warp_updWarp_same, hw]
    have hloads : ((past s w i (y.updWarp w (fun x => { x with loads := x.loads ++ [q] }))).warp w).loads =
        (((s.warp w).issued i).fixReads r).loads ++ [q] := by
      rw [warp_past_rep _ hp, Warp.advance_loads, Warp.countDither_loads, Warp.unwait_loads, hy]
    refine ⟨_, hx, ⟨repi_past_rep _ hp ?_, pc_past_rep _ hp ?_ ?_⟩, fun v hv => ?_, (State.glanceOf_mem gl.frame :),
      (State.glanceOf_blocks gl.frame :), ?_, ?_, ?_, q, ?_, hbad, hatomic, hdone, hcells⟩
    · rw [hy]; exact Warp.issued_repi _ _
    · rw [hy]; exact Warp.issued_repi _ _
    · rw [hy]; exact Warp.issued_pc _ _
    · exact (AMap.find_put_other _ _ hv).trans ((AMap.find_put_other _ _ hv).trans (gl.find_other hv))
    · rw [warp_past_rep _ hp, Warp.advance_v, Warp.countDither_v, hy]
      exact Warp.issued_v _ _
    · rw [warp_past_rep _ hp, Warp.advance_s, Warp.countDither_s, hy]
      exact Warp.issued_s _ _
    · rw [hloads, List.length_append]
      simp [Warp.fixReads]
    · rw [hloads, List.getLast?_concat]

end Sys2Proof.Machine
end

section
/-! PROOF. The functions of INT, as operations on words (08 R170 to R174). -/

namespace Sys2Proof.Machine

section
variable {w : Nat}

/-- The low bits of an integer are those of its word. -/
theorem lowBits_eq (w : Nat) (e : Int) : lowBits w e = (BitVec.ofInt w e).toNat := by
  rw [lowBits, BitVec.toNat_ofInt]
  norm_cast

theorem plain_toNat {q : IntArgs} {n : Nat} (x : BitVec q.w) (h : n % 2 ^ q.w = x.toNat) : q.plain n = (x.toNat, false) := by
  rw [IntArgs.plain, h]

/-- The operand of INT's order and sums: signed or unsigned by X. -/
def numOf (uns : Bool) (x : BitVec w) : Int := if uns then (x.toNat : Int) else x.toInt

theorem num_toNat (hw : 0 < w) (uns sat ma mb : Bool) (a b c : Nat) (x : BitVec w) :
    IntArgs.num ⟨w, uns, sat, ma, mb, a, b, c⟩ x.toNat = numOf uns x := by
  unfold IntArgs.num numOf
  dsimp only
  rw [sInt_toNat hw]

/-- The ends of the range by X. -/
def rangeLo (w : Nat) (uns : Bool) : Int := if uns then 0 else -(2 ^ (w - 1))
def rangeHi (w : Nat) (uns : Bool) : Int := if uns then 2 ^ w - 1 else 2 ^ (w - 1) - 1

/-- The exact result laid into its width: wrapped, saturated or marked (08 R174). -/
def Ranged (w : Nat) (uns sat mb : Bool) (e : Int) (v : IntVal) : Prop :=
  (rangeLo w uns ≤ e → e ≤ rangeHi w uns → v = ((BitVec.ofInt w e).toNat, false)) ∧
  (¬ (rangeLo w uns ≤ e ∧ e ≤ rangeHi w uns) → sat = false → v = ((BitVec.ofInt w e).toNat, false)) ∧
  (e < rangeLo w uns → sat = true → mb = false → v = ((BitVec.ofInt w (rangeLo w uns)).toNat, false)) ∧
  (rangeHi w uns < e → sat = true → mb = false → v = ((BitVec.ofInt w (rangeHi w uns)).toNat, false)) ∧
  (¬ (rangeLo w uns ≤ e ∧ e ≤ rangeHi w uns) → sat = true → mb = true → v = ((BitVec.ofInt w e).toNat, true))

theorem rangeLo_le_hi (w : Nat) (uns : Bool) : rangeLo w uns ≤ rangeHi w uns := by
  unfold rangeLo rangeHi
  have h1 : (1 : Int) ≤ 2 ^ w := one_le_pow₀ (by decide)
  have h2 : (1 : Int) ≤ 2 ^ (w - 1) := one_le_pow₀ (by decide)
  split <;> omega

theorem ranged_range (uns sat ma mb : Bool) (a b c : Nat) (e : Int) :
    Ranged w uns sat mb e (IntArgs.range ⟨w, uns, sat, ma, mb, a, b, c⟩ e) := by
  have hle := rangeLo_le_hi w uns
  have hr : IntArgs.range ⟨w, uns, sat, ma, mb, a, b, c⟩ e =
      if rangeLo w uns ≤ e && e ≤ rangeHi w uns then (lowBits w e, false) else if !sat then (lowBits w e, false)
      else if mb then (lowBits w e, true) else (lowBits w (if e < rangeLo w uns then rangeLo w uns else rangeHi w uns), false) := rfl
  unfold Ranged
  rw [hr]
  simp only [Bool.and_eq_true, decide_eq_true_eq, lowBits_eq]
  refine ⟨fun h1 h2 => if_pos ⟨h1, h2⟩, fun h hs => ?_, fun h hs hm => ?_, fun h hs hm => ?_, fun h hs hm => ?_⟩
  · rw [if_neg h, hs]
    rfl
  · rw [if_neg (fun g => absurd g.1 (Int.not_le.2 h)), hs, hm, if_pos h]
    rfl
  · have hn : ¬ e < rangeLo w uns := by omega
    rw [if_neg (fun g => absurd g.2 (Int.not_le.2 h)), hs, hm, if_neg hn]
    rfl
  · rw [if_neg h, hs, hm]
    rfl

/-! Logic, shifts and counts. -/

theorem inv_toNat (uns sat ma mb m : Bool) (a b c : Nat) (x : BitVec w) :
    IntArgs.inv ⟨w, uns, sat, ma, mb, a, b, c⟩ m x.toNat = (if m then ~~~x else x).toNat := by
  unfold IntArgs.inv
  cases m
  · rfl
  · rw [if_pos rfl, if_pos rfl, BitVec.toNat_not, Nat.mod_eq_of_lt x.isLt]

theorem rotateLeft_toNat (a : BitVec w) {k : Nat} (hk : k < w) :
    (a.toNat * 2 ^ k + a.toNat / 2 ^ (w - k)) % 2 ^ w = (a.rotateLeft k).toNat := by
  have hsplit : 2 ^ w = 2 ^ (w - k) * 2 ^ k := by rw [← pow_add]; congr 1; omega
  have hhi : a.toNat / 2 ^ (w - k) < 2 ^ k := Nat.div_lt_of_lt_mul (hsplit ▸ a.isLt)
  have hlo : a.toNat * 2 ^ k % 2 ^ w = (a.toNat % 2 ^ (w - k)) <<< k := by
    rw [hsplit, Nat.mul_mod_mul_right, Nat.shiftLeft_eq]
  have hsum : (a.toNat % 2 ^ (w - k)) * 2 ^ k + a.toNat / 2 ^ (w - k) < 2 ^ w := by
    have := Nat.mod_lt a.toNat (Nat.two_pow_pos (w - k))
    calc _ < (a.toNat % 2 ^ (w - k)) * 2 ^ k + 2 ^ k := Nat.add_lt_add_left hhi _
      _ = (a.toNat % 2 ^ (w - k) + 1) * 2 ^ k := by ring
      _ ≤ 2 ^ w := hsplit ▸ Nat.mul_le_mul_right _ this
  rw [BitVec.toNat_rotateLeft, Nat.mod_eq_of_lt hk, Nat.shiftLeft_eq, Nat.shiftRight_eq_div_pow, hlo,
    ← Nat.shiftLeft_add_eq_or_of_lt hhi, Nat.add_mod, hlo, Nat.mod_eq_of_lt (lt_of_lt_of_le hhi (Nat.pow_le_pow_right (by decide) hk.le)),
    Nat.shiftLeft_eq, Nat.mod_eq_of_lt hsum]

theorem takeWhile_range_length {p : Nat → Bool} {n m : Nat} (hm : m ≤ n) (ht : ∀ i, i < m → p i = true) (hf : m < n → p m = false) :
    ((List.range n).takeWhile p).length = m := by
  obtain ⟨d, rfl⟩ := Nat.exists_eq_add_of_le hm
  rw [List.range_add, List.takeWhile_append_of_pos (fun i hi => ht i (List.mem_range.1 hi)), List.length_append, List.length_range]
  cases d with
  | zero => rfl
  | succ d =>
    rw [List.range_succ_eq_map, List.map_cons, List.takeWhile_cons_of_neg (by rw [Nat.add_zero, hf (by omega)]; exact Bool.false_ne_true)]
    rfl

theorem clz_toNat (a : BitVec w) : (if a.toNat = 0 then w else w - 1 - Nat.log2 a.toNat) =
    ((List.range w).takeWhile (fun i => !a.getLsbD (w - 1 - i))).length := by
  split
  next h0 =>
    refine (takeWhile_range_length (le_refl w) (fun i _ => ?_) (fun h => absurd h (Nat.lt_irrefl w))).symm
    rw [BitVec.getLsbD, h0, Nat.zero_testBit]
    rfl
  next h0 =>
    have hlog : a.toNat.log2 < w := (Nat.log2_lt h0).2 a.isLt
    refine (takeWhile_range_length (by omega) (fun i hi => ?_) (fun _ => ?_)).symm
    · rw [BitVec.getLsbD, Nat.testBit_lt_two_pow, Bool.not_false]
      exact (Nat.log2_lt h0).1 (by omega)
    · rw [show w - 1 - (w - 1 - a.toNat.log2) = a.toNat.log2 by omega, BitVec.getLsbD, Nat.testBit_log2 h0, Bool.not_true]

/-- The reversal's sum after some bits: it lies above the bits still to come, and holds those that have come. -/
theorem brev_sum (a : Nat) {m : Nat} (hm : m ≤ w) :
    ∃ k, (List.range m).foldl (fun n i => if a.testBit i then n + 2 ^ (w - 1 - i) else n) 0 = 2 ^ (w - m) * k ∧
      ∀ j, j < m → k.testBit j = a.testBit (m - 1 - j) := by
  induction m with
  | zero => exact ⟨0, rfl, fun j hj => absurd hj (Nat.not_lt_zero _)⟩
  | succ m ih =>
    obtain ⟨k, hk, hb⟩ := ih (by omega)
    have hpow : 2 ^ (w - m) = 2 ^ (w - (m + 1)) * 2 := by rw [← pow_succ]; congr 1; omega
    refine ⟨2 ^ 1 * k + (if a.testBit m then 1 else 0), ?_, fun j hj => ?_⟩
    · rw [List.range_succ, List.foldl_append, List.foldl_cons, List.foldl_nil, hk, hpow, show w - 1 - m = w - (m + 1) by omega]
      split <;> ring
    · rw [Nat.testBit_two_pow_mul_add k (by split <;> decide) j]
      split
      next h =>
        obtain rfl : j = 0 := by omega
        rw [show m + 1 - 1 - 0 = m by omega]
        cases a.testBit m <;> rfl
      next h =>
        rw [hb (j - 1) (by omega)]
        congr 1
        omega

/-- The reversal of a word's bits. -/
theorem brev_bits (a : BitVec w) {i : Nat} (hi : i < w) :
    (BitVec.ofNat w ((List.range w).foldl (fun n i => if a.toNat.testBit i then n + 2 ^ (w - 1 - i) else n) 0)).getLsbD i =
      a.getLsbD (w - 1 - i) := by
  obtain ⟨k, hk, hb⟩ := brev_sum (w := w) a.toNat (le_refl w)
  rw [hk, Nat.sub_self, pow_zero, Nat.one_mul, BitVec.getLsbD_ofNat, hb i hi, decide_eq_true hi, Bool.true_and]
  rfl

/-- A field of a word, cut out and extended by X (08 R172). -/
theorem bfx_bits (a : BitVec w) (uns : Bool) {pos len : Nat} (hl : 0 < len) (i : Nat) (hi : i < w) :
    (BitVec.ofInt w (if uns then ((a.toNat / 2 ^ pos % 2 ^ len : Nat) : Int) else sInt len (a.toNat / 2 ^ pos % 2 ^ len))).getLsbD i =
      if i < len then a.getLsbD (pos + i) else !uns && a.getLsbD (pos + len - 1) := by
  have hbit : ∀ j, (BitVec.ofNat len (a.toNat / 2 ^ pos)).getLsbD j = (decide (j < len) && a.getLsbD (pos + j)) := fun j => by
    rw [BitVec.getLsbD_ofNat, Nat.testBit_div_two_pow, Nat.add_comm]
    rfl
  have hfield : a.toNat / 2 ^ pos % 2 ^ len = (BitVec.ofNat len (a.toNat / 2 ^ pos)).toNat := (BitVec.toNat_ofNat ..).symm
  cases uns with
  | true =>
    rw [if_pos rfl, hfield, BitVec.ofInt_natCast, BitVec.getLsbD_ofNat, decide_eq_true hi, Bool.true_and]
    show (BitVec.ofNat len (a.toNat / 2 ^ pos)).getLsbD i = _
    rw [hbit]
    by_cases h : i < len <;> simp [h]
  | false =>
    rw [if_neg Bool.false_ne_true, hfield, sInt_toNat hl]
    show ((BitVec.ofNat len (a.toNat / 2 ^ pos)).signExtend w).getLsbD i = _
    rw [BitVec.getLsbD_signExtend, decide_eq_true hi, Bool.true_and, BitVec.msb_eq_getLsbD_last, hbit, hbit,
      decide_eq_true (by omega : len - 1 < len), Bool.true_and, Bool.not_false, Bool.true_and, show pos + (len - 1) = pos + len - 1 by omega]
    by_cases h : i < len <;> simp [h]

/-- The bits of a number under a field of ones. -/
theorem and_field (c pos len : Nat) : c &&& ((2 ^ len - 1) * 2 ^ pos) = 2 ^ pos * (c / 2 ^ pos % 2 ^ len) := by
  refine Nat.eq_of_testBit_eq fun j => ?_
  rw [Nat.testBit_and, Nat.mul_comm (2 ^ len - 1), Nat.testBit_two_pow_mul, Nat.testBit_two_pow_mul, Nat.testBit_two_pow_sub_one,
    Nat.testBit_mod_two_pow, Nat.testBit_div_two_pow]
  by_cases h : pos ≤ j
  · rw [decide_eq_true h, Bool.true_and, Bool.true_and, Nat.sub_add_cancel h, Bool.and_comm]
  · rw [decide_eq_false h]
    simp

/-- A field replaced in a number. -/
theorem insert_bits (a c : Nat) (pos len j : Nat) :
    (c - (c &&& ((2 ^ len - 1) * 2 ^ pos)) + (a % 2 ^ len) * 2 ^ pos).testBit j =
      if pos ≤ j ∧ j < pos + len then a.testBit (j - pos) else c.testBit j := by
  have hc : c = 2 ^ pos * (2 ^ len * (c / 2 ^ pos / 2 ^ len) + c / 2 ^ pos % 2 ^ len) + c % 2 ^ pos := by
    rw [Nat.div_add_mod, Nat.div_add_mod]
  have hv : c - (c &&& ((2 ^ len - 1) * 2 ^ pos)) + (a % 2 ^ len) * 2 ^ pos =
      2 ^ pos * (2 ^ len * (c / 2 ^ pos / 2 ^ len) + a % 2 ^ len) + c % 2 ^ pos := by
    rw [and_field]
    have hsub : c - 2 ^ pos * (c / 2 ^ pos % 2 ^ len) = 2 ^ pos * (2 ^ len * (c / 2 ^ pos / 2 ^ len)) + c % 2 ^ pos := by
      refine Nat.sub_eq_of_eq_add ?_
      conv_lhs => rw [hc]
      ring
    rw [hsub]
    ring
  have hlow : c % 2 ^ pos < 2 ^ pos := Nat.mod_lt _ (Nat.two_pow_pos _)
  have hmid : ∀ n, n % 2 ^ len < 2 ^ len := fun n => Nat.mod_lt _ (Nat.two_pow_pos _)
  rw [hv, Nat.testBit_two_pow_mul_add _ hlow, Nat.testBit_two_pow_mul_add _ (hmid a)]
  by_cases h1 : j < pos
  · rw [if_pos h1, if_neg (by omega), Nat.testBit_mod_two_pow, decide_eq_true h1, Bool.true_and]
  · rw [if_neg h1]
    by_cases h2 : j - pos < len
    · rw [if_pos h2, if_pos (by omega), Nat.testBit_mod_two_pow, decide_eq_true h2, Bool.true_and]
    · rw [if_neg h2, if_neg (by omega), Nat.testBit_div_two_pow, Nat.testBit_div_two_pow, show j - pos - len + len + pos = j by omega]

/-- The high half of a product. -/
theorem mulhi_toNat (x y : Int) (wx wy : BitVec (2 * w)) (hx : wx = BitVec.ofInt (2 * w) x) (hy : wy = BitVec.ofInt (2 * w) y) :
    lowBits w (x * y / 2 ^ w) = ((wx * wy).extractLsb' w w).toNat := by
  subst hx hy
  rw [← BitVec.ofInt_mul, BitVec.extractLsb'_toNat, Nat.shiftRight_eq_div_pow, BitVec.toNat_ofInt, lowBits]
  generalize x * y = e
  have hp : ((2 ^ (2 * w) : Nat) : Int) = (2 ^ w : Int) * 2 ^ w := by
    push_cast
    rw [← pow_add, two_mul]
  have hpos : (0 : Int) < 2 ^ w := pow_pos (by decide) w
  have hm : 0 ≤ e % ((2 ^ w : Int) * 2 ^ w) := Int.emod_nonneg _ (Int.ne_of_gt (mul_pos hpos hpos))
  have hdiv : e / 2 ^ w % 2 ^ w = e % ((2 ^ w : Int) * 2 ^ w) / 2 ^ w % 2 ^ w := by
    conv_lhs => rw [← Int.emod_add_mul_ediv e ((2 ^ w : Int) * 2 ^ w), Int.mul_assoc, Int.add_mul_ediv_left _ _ (Int.ne_of_gt hpos),
      Int.add_mul_emod_self_left]
  rw [hp, hdiv]
  refine Int.ofNat_inj.1 ?_
  push_cast
  rw [Int.toNat_of_nonneg hm, Int.toNat_of_nonneg (Int.emod_nonneg _ (Int.ne_of_gt hpos))]

/-- A selected operand is a word of the width already. -/
theorem plain_pick (p : Prop) [Decidable p] (uns sat ma mb : Bool) (a' b' c' : Nat) (x y : BitVec w) :
    IntArgs.plain ⟨w, uns, sat, ma, mb, a', b', c'⟩ (if p then x.toNat else y.toNat) = ((if p then x else y).toNat, false) := by
  unfold IntArgs.plain
  split <;> rw [Nat.mod_eq_of_lt (BitVec.isLt _)]

theorem and_plain (uns sat ma mb : Bool) (a' b' c' : Nat) (x y : BitVec w) :
    IntArgs.plain ⟨w, uns, sat, ma, mb, a', b', c'⟩ (x.toNat &&& y.toNat) = ((x &&& y).toNat, false) := by
  rw [IntArgs.plain, ← BitVec.toNat_and, Nat.mod_eq_of_lt (BitVec.isLt _)]

theorem or_plain (uns sat ma mb : Bool) (a' b' c' : Nat) (x y : BitVec w) :
    IntArgs.plain ⟨w, uns, sat, ma, mb, a', b', c'⟩ (x.toNat ||| y.toNat) = ((x ||| y).toNat, false) := by
  rw [IntArgs.plain, ← BitVec.toNat_or, Nat.mod_eq_of_lt (BitVec.isLt _)]

theorem xor_plain (uns sat ma mb : Bool) (a' b' c' : Nat) (x y : BitVec w) :
    IntArgs.plain ⟨w, uns, sat, ma, mb, a', b', c'⟩ (x.toNat ^^^ y.toNat) = ((x ^^^ y).toNat, false) := by
  rw [IntArgs.plain, ← BitVec.toNat_xor, Nat.mod_eq_of_lt (BitVec.isLt _)]

theorem shiftLeft_mod (x : BitVec w) (k : Nat) : x.toNat * 2 ^ k % 2 ^ w = (x <<< k).toNat := by
  rw [BitVec.toNat_shiftLeft, Nat.shiftLeft_eq]

theorem shiftRight_mod (x : BitVec w) (k : Nat) : x.toNat / 2 ^ k % 2 ^ w = (x >>> k).toNat := by
  rw [← Nat.shiftRight_eq_div_pow, ← BitVec.toNat_ushiftRight, Nat.mod_eq_of_lt (BitVec.isLt _)]

/-- The 32-bit index of LEA at each width (08 R170). -/
theorem lea_index (hw : w ∈ [8, 16, 32, 64]) (uns : Bool) (b : BitVec 32) :
    (if w = 64 then lowBits 64 (if uns then (b.toNat : Int) else sInt 32 b.toNat) else b.toNat % 2 ^ w) =
      (if w = 64 ∧ uns = false then b.signExtend w else b.setWidth w).toNat := by
  by_cases h : w = 64
  · subst h
    rw [if_pos rfl, lowBits_eq]
    cases uns with
    | true =>
      rw [if_pos rfl, if_neg (by decide), BitVec.ofInt_natCast, BitVec.toNat_ofNat, BitVec.toNat_setWidth]
    | false =>
      rw [if_neg Bool.false_ne_true, if_pos ⟨rfl, rfl⟩, sInt_toNat (by decide)]
      rfl
  · rw [if_neg h, if_neg (fun g => h g.1), BitVec.toNat_setWidth]

theorem lea_toNat (x y : BitVec w) (k : Nat) : (x.toNat + y.toNat * 2 ^ k) % 2 ^ w = (x + (y <<< k)).toNat := by
  rw [BitVec.toNat_add, ← shiftLeft_mod, Nat.add_mod_mod]

/-- What BFX gives (08 R172). -/
theorem bfx_is (uns sat ma mb : Bool) (a : BitVec w) (b c : Nat) :
    let pos := b % 256
    let len := min (c % 256) (w - pos)
    ∃ x : BitVec w, intBfx ⟨w, uns, sat, ma, mb, a.toNat, b, c⟩ = (x.toNat, false) ∧ ∀ i, i < w → x.getLsbD i =
      (if len = 0 then false else if i < len then a.getLsbD (pos + i) else !uns && a.getLsbD (pos + len - 1)) := by
  intro pos len
  by_cases h0 : w ≤ pos ∨ c % 256 = 0
  · have hl : len = 0 := by omega
    refine ⟨0, ?_, fun i _ => ?_⟩
    · unfold intBfx
      dsimp only
      rw [if_pos (by simpa [pos] using h0)]
      rfl
    · rw [if_pos hl]
      exact BitVec.getLsbD_zero
  · have hl : 0 < len := by omega
    refine ⟨BitVec.ofInt w (if uns then ((a.toNat / 2 ^ pos % 2 ^ len : Nat) : Int) else sInt len (a.toNat / 2 ^ pos % 2 ^ len)), ?_,
      fun i hi => ?_⟩
    · unfold intBfx
      dsimp only
      rw [if_neg (by simpa [pos] using h0), lowBits_eq]
    · rw [if_neg (Nat.pos_iff_ne_zero.1 hl), bfx_bits a uns hl i hi]

/-- What BFI gives (08 R172). -/
theorem bfi_is (uns sat ma mb : Bool) (a c : BitVec w) (b : Nat) :
    let pos := b % 256
    let len := b / 256 % 256
    ∃ x : BitVec w, intBfi ⟨w, uns, sat, ma, mb, a.toNat, b, c.toNat⟩ = (x.toNat, false) ∧ ∀ i, i < w → x.getLsbD i =
      (if pos ≤ i ∧ i < pos + len then a.getLsbD (i - pos) else c.getLsbD i) := by
  intro pos len
  by_cases h0 : w ≤ pos ∨ len = 0
  · refine ⟨c, ?_, fun i hi => ?_⟩
    · unfold intBfi
      dsimp only
      rw [if_pos (by simpa [pos, len] using h0), IntArgs.plain, Nat.mod_eq_of_lt c.isLt]
    · rw [if_neg (by omega)]
  · refine ⟨BitVec.ofNat w (c.toNat - (c.toNat &&& ((2 ^ min len (w - pos) - 1) * 2 ^ pos)) +
      (a.toNat % 2 ^ min len (w - pos)) * 2 ^ pos), ?_, fun i hi => ?_⟩
    · unfold intBfi
      dsimp only
      rw [if_neg (by simpa [pos, len] using h0), IntArgs.plain, BitVec.toNat_ofNat]
    · rw [BitVec.getLsbD_ofNat, decide_eq_true hi, Bool.true_and, insert_bits]
      have hiff : (pos ≤ i ∧ i < pos + min len (w - pos)) ↔ (pos ≤ i ∧ i < pos + len) := by omega
      simp only [hiff]
      rfl

end

/-- Settles O11: each function of INT by its word operation. -/
theorem intFunctions : Obligations.IntFunctions := by
  unfold Obligations.IntFunctions
  intro w hmem a b c bk ck uns sat ma mb q k ki ks lo hi is sat' n wide sh
  have hw : 0 < w := by
    simp only [List.mem_cons, List.not_mem_nil, or_false] at hmem
    omega
  have hsh : sh < w := Nat.mod_lt _ hw
  have hn : ∀ (a' b' c' : Nat) (x : BitVec w), IntArgs.num ⟨w, uns, sat, ma, mb, a', b', c'⟩ x.toNat = n x :=
    fun a' b' c' x => num_toNat hw uns sat ma mb a' b' c' x
  have hr : ∀ (e : Int), sat' e (IntArgs.range q e) := fun e => ranged_range uns sat ma mb _ _ _ e
  have hwide : ∀ x : BitVec w, wide x = BitVec.ofInt (2 * w) (n x) := fun x => by
    simp only [wide, n]
    split
    · rw [BitVec.ofInt_natCast, BitVec.ofNat_toNat]
    · rfl
  have hinv : ∀ (m : Bool) (x : BitVec w), IntArgs.inv q m x.toNat = (if m then ~~~x else x).toNat :=
    fun m x => inv_toNat uns sat ma mb m _ _ _ x
  refine ⟨?_, ?_, ?_, ?_, fun hu => ?_, ?_, ?_, ?_, ?_, ?_, ?_, ?_, ?_, ?_, ?_, ?_, ?_, ?_, ?_, ?_, ?_, ?_, ?_, ?_, ?_, ?_⟩
  · rw [intIadd, hn, hn]; exact hr _
  · rw [intIsub, hn, hn]; exact hr _
  · rw [intImul, hn, hn]; exact hr _
  · rw [intImad, hn, hn, hn]; exact hr _
  · rw [intIabs, show sInt q.w q.a = a.toInt from sInt_toNat hw a, Int.natCast_natAbs]; exact hr _
  · rw [intImulhi, hn, hn]
    exact congrArg (·, false) (mulhi_toNat _ _ _ _ (hwide a) (hwide b))
  · rw [intImin, hn, hn]; exact plain_pick _ uns sat ma mb _ _ _ a b
  · rw [intImax, hn, hn]; exact plain_pick _ uns sat ma mb _ _ _ b a
  · rw [intAnd, hinv, hinv]; exact and_plain uns sat ma mb _ _ _ _ _
  · rw [intOr, hinv, hinv]; exact or_plain uns sat ma mb _ _ _ _ _
  · rw [intXor, hinv, hinv]; exact xor_plain uns sat ma mb _ _ _ _ _
  · rw [intNot, hinv]; exact plain_toNat (q := q) (~~~a) (Nat.mod_eq_of_lt (~~~a).isLt)
  · exact plain_toNat (q := q) a (Nat.mod_eq_of_lt a.isLt)
  · exact plain_toNat (q := q) b (Nat.mod_eq_of_lt b.isLt)
  · exact plain_toNat (q := ki) (a <<< sh) (shiftLeft_mod a sh)
  · exact plain_toNat (q := ki) (a >>> sh) (shiftRight_mod a sh)
  · rw [intSar, show sInt ki.w ki.a = a.toInt from sInt_toNat hw a, lowBits_eq]
    refine congrArg (fun e : BitVec w => (e.toNat, false)) ?_
    rw [BitVec.sshiftRight, Int.shiftRight_eq_div_pow]
    rfl
  · exact plain_toNat (q := ki) (a.rotateLeft sh) (rotateLeft_toNat a hsh)
  · rfl
  · exact congrArg (·, false) (clz_toNat a)
  · have hz : (ck.toNat ≠ 0) ↔ ¬ ck = 0 := by rw [ne_eq, ← BitVec.toNat_inj]; rfl
    rw [intSel]
    refine (plain_pick (ck.toNat ≠ 0) uns sat ma mb _ _ _ a b).trans (congrArg (fun e : BitVec w => (e.toNat, false)) ?_)
    rw [ite_congr (propext hz) (fun _ => rfl) (fun _ => rfl), ite_not]
  · rw [intLea]
    refine plain_toNat (q := k) _ (Eq.trans ?_ (lea_toNat a _ _))
    exact congrArg (fun j => (a.toNat + j * 2 ^ (ck.toNat % w)) % 2 ^ w) (lea_index hmem uns bk)
  · exact ⟨_, congrArg (·, false) (BitVec.toNat_ofNat ..).symm, fun i hi => brev_bits a hi⟩
  · exact bfx_is uns sat ma mb a bk.toNat ck.toNat
  · exact bfi_is uns sat ma mb a c bk.toNat
  · rw [extendTo, sInt_toNat hw]
    by_cases h : w < 32 ∧ uns = false
    · rw [if_pos h, if_pos (by simp [h.1, h.2])]
      rfl
    · rw [if_neg h, if_neg (by simpa using h), BitVec.ofNat_toNat]

end Sys2Proof.Machine
end

section
/-! PROOF. The one rounding of an exact result (03 R73 to R77). -/

namespace Sys2Proof.Machine

/-- A real number that an exact result stands for: its magnitude lies in the unit above `m`, and is `m` itself unless sticky. -/
structure Ex.StandsFor (x : Ex) (t : ℝ) : Prop where
  sign : x.neg = true ↔ t < 0
  lower : (x.m : ℝ) * 2 ^ x.e ≤ |t|
  upper : |t| < (x.m + 1) * 2 ^ x.e
  exact : x.sticky = false ↔ |t| = x.m * 2 ^ x.e

/-- Which way a part above a representable magnitude is rounded (03 R73, R74). -/
def RoundsUp (r : Rnd) (neg : Bool) (lo : Nat) (part : ℝ) : Prop :=
  part ≠ 0 ∧ (match r.mode with
    | 0 => 1 / 2 < part ∨ (part = 1 / 2 ∧ lo % 2 = 1)
    | 1 => False
    | 2 => neg = false
    | 3 => neg = true
    | _ => (r.dither : Int) < ⌊part * 2 ^ 32⌋)

/-- The rounding reads of the magnitude below only whether it is odd. -/
theorem roundsUp_congr {r : Rnd} {neg : Bool} {lo big : Nat} {part : ℝ} (h : lo % 2 = big % 2) :
    RoundsUp r neg lo part ↔ RoundsUp r neg big part := by
  unfold RoundsUp
  rw [h]

/-- The rounding of a remainder in units of 2^sh, as the model decides it. -/
def roundsUp (r : Rnd) (neg sticky : Bool) (big rem sh : Nat) : Bool :=
  if rem = 0 && !sticky then false
  else if r.mode = 0 then decide (2 ^ (sh - 1) < rem) || (rem = 2 ^ (sh - 1) && (sticky || big % 2 = 1))
  else if r.mode = 2 then !neg
  else if r.mode = 3 then neg
  else if r.mode = 4 then decide (r.dither < rem * 2 ^ 32 / 2 ^ sh)
  else false

theorem roundAt_below (r : Rnd) (x : Ex) {q : Int} (h : ¬ q ≤ x.e) :
    (roundAt r x q).1 =
      let sh := min (q - x.e).toNat (Nat.log2 x.m + 42)
      x.m / 2 ^ sh + if roundsUp r x.neg x.sticky (x.m / 2 ^ sh) (x.m % 2 ^ sh) sh then 1 else 0 := by
  unfold roundAt
  rw [if_neg h]
  dsimp only
  generalize min (q - x.e).toNat (x.m.log2 + 42) = sh
  show (if roundsUp r x.neg x.sticky (x.m / 2 ^ sh) (x.m % 2 ^ sh) sh then x.m / 2 ^ sh + 1 else x.m / 2 ^ sh) = _
  split <;> rfl

/-- The decision is right for a part that the remainder stands for. -/
theorem roundsUp_iff (r : Rnd) (hmode : r.mode ≤ 4) (neg sticky : Bool) {big rem sh : Nat} {part : ℝ}
    (hzero : part = 0 ↔ rem = 0 ∧ sticky = false)
    (hhalf : 1 / 2 < part ↔ 2 ^ (sh - 1) < rem ∨ (rem = 2 ^ (sh - 1) ∧ sticky = true))
    (htie : part = 1 / 2 ↔ rem = 2 ^ (sh - 1) ∧ sticky = false)
    (hfloor : ⌊part * 2 ^ 32⌋ = ((rem * 2 ^ 32 / 2 ^ sh : Nat) : Int)) :
    roundsUp r neg sticky big rem sh = true ↔ RoundsUp r neg big part := by
  unfold roundsUp RoundsUp
  by_cases h0 : rem = 0 ∧ sticky = false
  · rw [if_pos (by simp [h0.1, h0.2])]
    exact ⟨fun h => absurd h Bool.false_ne_true, fun h => absurd (hzero.2 h0) h.1⟩
  · rw [if_neg (by simpa using h0), ne_eq, hzero, hhalf, htie, hfloor]
    have : r.mode = 0 ∨ r.mode = 1 ∨ r.mode = 2 ∨ r.mode = 3 ∨ r.mode = 4 := by omega
    rcases this with h | h | h | h | h <;> simp only [h]
    · cases sticky
      · simp
        tauto
      · simp
    · simp
    · cases neg <;> simp [h0]
    · cases neg <;> simp [h0]
    · simp only [Nat.cast_lt]
      simp [h0]

/-! The remainder stands for the part. -/

/-- The share of a magnitude above its first unit. -/
theorem part_of_rem {m sh : Nat} {δ : ℝ} :
    ((m : ℝ) + δ) / 2 ^ sh - ((m / 2 ^ sh : Nat) : ℝ) = (((m % 2 ^ sh : Nat) : ℝ) + δ) / 2 ^ sh := by
  have hp : (2 : ℝ) ^ sh ≠ 0 := pow_ne_zero _ two_ne_zero
  have hm : (m : ℝ) = 2 ^ sh * ((m / 2 ^ sh : Nat) : ℝ) + ((m % 2 ^ sh : Nat) : ℝ) := by
    have := congrArg (Nat.cast (R := ℝ)) (Nat.div_add_mod m (2 ^ sh))
    push_cast at this
    exact this.symm
  rw [div_sub' hp, sub_eq_iff_eq_add.2 ?_]
  conv_lhs => rw [hm]
  ring

/-- The floor that dither compares with does not see what lies below the last bit kept. -/
theorem floor_dither {rem sh : Nat} {δ : ℝ} (h0 : 0 ≤ δ) (h1 : δ < 1) (hs : δ = 0 ∨ 32 ≤ sh) :
    ⌊((rem : ℝ) + δ) / 2 ^ sh * 2 ^ 32⌋ = ((rem * 2 ^ 32 / 2 ^ sh : Nat) : Int) := by
  have hp : (0 : ℝ) < 2 ^ sh := pow_pos two_pos _
  have hlo : (rem * 2 ^ 32 / 2 ^ sh) * 2 ^ sh ≤ rem * 2 ^ 32 := Nat.div_mul_le_self _ _
  have hhi : rem * 2 ^ 32 < (rem * 2 ^ 32 / 2 ^ sh + 1) * 2 ^ sh := Nat.lt_mul_of_div_lt (Nat.lt_succ_self _) (Nat.two_pow_pos _)
  generalize rem * 2 ^ 32 / 2 ^ sh = n at *
  rw [Int.floor_eq_iff, div_mul_eq_mul_div, le_div_iff₀ hp, div_lt_iff₀ hp]
  constructor
  · have : ((n * 2 ^ sh : Nat) : ℝ) ≤ ((rem * 2 ^ 32 : Nat) : ℝ) := Nat.cast_le.2 hlo
    push_cast at this ⊢
    nlinarith
  · rcases hs with rfl | hs
    · have : ((rem * 2 ^ 32 : Nat) : ℝ) < (((n + 1) * 2 ^ sh : Nat) : ℝ) := Nat.cast_lt.2 hhi
      push_cast at this ⊢
      linarith
    · obtain ⟨j, rfl⟩ := Nat.exists_eq_add_of_le hs
      have hstep : rem < (n + 1) * 2 ^ j := by
        refine Nat.lt_of_mul_lt_mul_right (a := 2 ^ 32) ?_
        calc rem * 2 ^ 32 < (n + 1) * 2 ^ (32 + j) := hhi
          _ = (n + 1) * 2 ^ j * 2 ^ 32 := by rw [pow_add]; ring
      have : ((rem + 1 : Nat) : ℝ) ≤ (((n + 1) * 2 ^ j : Nat) : ℝ) := Nat.cast_le.2 hstep
      push_cast at this ⊢
      rw [pow_add]
      nlinarith

theorem half_iff {rem sh : Nat} {δ : ℝ} (hsh : 0 < sh) (h0 : 0 ≤ δ) (h1 : δ < 1) :
    (1 / 2 < ((rem : ℝ) + δ) / 2 ^ sh ↔ 2 ^ (sh - 1) < rem ∨ (rem = 2 ^ (sh - 1) ∧ δ ≠ 0)) ∧
      (((rem : ℝ) + δ) / 2 ^ sh = 1 / 2 ↔ rem = 2 ^ (sh - 1) ∧ δ = 0) := by
  have hp : (0 : ℝ) < 2 ^ sh := pow_pos two_pos _
  have hhalf : (2 : ℝ) ^ sh = 2 * ((2 ^ (sh - 1) : Nat) : ℝ) := by
    push_cast
    rw [← pow_succ', Nat.sub_add_cancel hsh]
  have hcut : ∀ n : Nat, (rem < n → (rem : ℝ) + δ < n) ∧ (n < rem → (n : ℝ) < rem + δ) ∧ (n = rem → (rem : ℝ) = n) := fun n => by
    refine ⟨fun h => ?_, fun h => ?_, fun h => by rw [h]⟩
    · have : ((rem + 1 : Nat) : ℝ) ≤ n := Nat.cast_le.2 h
      push_cast at this
      linarith
    · have : (n : ℝ) < rem := Nat.cast_lt.2 h
      linarith
  obtain ⟨hlt, hgt, heq⟩ := hcut (2 ^ (sh - 1))
  rw [lt_div_iff₀ hp, div_eq_iff hp.ne', hhalf]
  rcases lt_trichotomy rem (2 ^ (sh - 1)) with h | h | h
  · have := hlt h
    exact ⟨⟨fun g => by linarith, fun g => by omega⟩, ⟨fun g => by linarith, fun g => by omega⟩⟩
  · have := heq h.symm
    refine ⟨⟨fun g => Or.inr ⟨h, fun e => by rw [e] at g; linarith⟩, fun g => ?_⟩, ⟨fun g => ⟨h, by linarith⟩, fun g => ?_⟩⟩
    · rcases g with g | ⟨-, g⟩
      · omega
      · have := lt_of_le_of_ne h0 (Ne.symm g)
        linarith
    · rw [g.2]
      linarith
  · have := hgt h
    exact ⟨⟨fun _ => Or.inl h, fun _ => by linarith⟩, ⟨fun g => by linarith, fun g => by omega⟩⟩

section
variable {x : Ex} {t : ℝ} {q : Int}

/-- What a magnitude lies above its first unit, in units of its own exponent. -/
noncomputable def Ex.excess (x : Ex) (t : ℝ) : ℝ := |t| / 2 ^ x.e - x.m

theorem excess_nonneg (h : x.StandsFor t) : 0 ≤ x.excess t := by
  have hp : (0 : ℝ) < 2 ^ x.e := zpow_pos two_pos _
  rw [Ex.excess, sub_nonneg, le_div_iff₀ hp]
  exact h.lower

theorem excess_lt_one (h : x.StandsFor t) : x.excess t < 1 := by
  have hp : (0 : ℝ) < 2 ^ x.e := zpow_pos two_pos _
  rw [Ex.excess, sub_lt_iff_lt_add', div_lt_iff₀ hp]
  exact h.upper

theorem excess_eq_zero (h : x.StandsFor t) : x.excess t = 0 ↔ x.sticky = false := by
  have hp : (2 : ℝ) ^ x.e ≠ 0 := (zpow_pos two_pos _).ne'
  rw [Ex.excess, sub_eq_zero, div_eq_iff hp, h.exact]

theorem abs_in_units (h : x.e ≤ q) : |t| / 2 ^ q = ((x.m : ℝ) + x.excess t) / 2 ^ (q - x.e).toNat := by
  have hp : (2 : ℝ) ^ x.e ≠ 0 := (zpow_pos two_pos _).ne'
  have hq : (2 : ℝ) ^ q = 2 ^ (q - x.e).toNat * 2 ^ x.e := by
    rw [← zpow_natCast, ← zpow_add₀ two_ne_zero, Int.toNat_of_nonneg (Int.sub_nonneg_of_le h), Int.sub_add_cancel]
  rw [Ex.excess, add_sub_cancel, hq, div_div, mul_comm]

/-- A magnitude whose kept units reach every bit of it. -/
theorem roundsUp_kept (r : Rnd) (hmode : r.mode ≤ 4) (neg : Bool) {sticky : Bool} {m d : Nat} {δ y : ℝ} (hd : 0 < d) (e0 : 0 ≤ δ)
    (e1 : δ < 1) (ez : δ = 0 ↔ sticky = false) (hsd : δ = 0 ∨ 32 ≤ d) (hy : y = ((m : ℝ) + δ) / 2 ^ d) :
    ((m / 2 ^ d : Nat) : ℝ) ≤ y ∧ y < ((m / 2 ^ d : Nat) : ℝ) + 1 ∧
      (roundsUp r neg sticky (m / 2 ^ d) (m % 2 ^ d) d = true ↔ RoundsUp r neg (m / 2 ^ d) (y - ((m / 2 ^ d : Nat) : ℝ))) := by
  have hpd : (0 : ℝ) < 2 ^ d := pow_pos two_pos _
  have hpart := part_of_rem (m := m) (sh := d) (δ := δ)
  have hrem : ((m % 2 ^ d : Nat) : ℝ) + 1 ≤ 2 ^ d := by
    have : m % 2 ^ d + 1 ≤ 2 ^ d := Nat.mod_lt _ (Nat.two_pow_pos _)
    exact_mod_cast this
  rw [hy]
  generalize m % 2 ^ d = rem at *
  generalize m / 2 ^ d = big at *
  have hnn : (0 : ℝ) ≤ (rem : ℝ) := Nat.cast_nonneg _
  have hle : (0 : ℝ) ≤ ((rem : ℝ) + δ) / 2 ^ d := div_nonneg (by linarith) hpd.le
  have hlt : ((rem : ℝ) + δ) / 2 ^ d < 1 := (div_lt_one hpd).2 (by linarith)
  obtain ⟨hgt, htie⟩ := half_iff (rem := rem) hd e0 e1
  refine ⟨by linarith, by linarith, ?_⟩
  rw [hpart]
  refine roundsUp_iff r hmode _ _ ?_ ?_ ?_ (floor_dither e0 e1 hsd)
  · rw [div_eq_zero_iff, or_iff_left hpd.ne', ← ez]
    constructor
    · intro g
      have h1 : (rem : ℝ) = 0 := by linarith
      exact ⟨by exact_mod_cast h1, by linarith⟩
    · rintro ⟨g1, g2⟩
      rw [g1, g2, Nat.cast_zero, add_zero]
  · rw [hgt, ne_eq, ez, Bool.not_eq_false]
  · rw [htie, ez]

/-- A magnitude far below the unit that it is rounded to. -/
theorem roundsUp_far (r : Rnd) (hmode : r.mode ≤ 4) (neg : Bool) {sticky : Bool} {m d l : Nat} {δ y : ℝ} (hm : m < 2 ^ (l + 1))
    (hd : l + 42 < d) (e0 : 0 ≤ δ) (e1 : δ < 1) (ez : δ = 0 ↔ sticky = false) (hy : y = ((m : ℝ) + δ) / 2 ^ d) :
    0 ≤ y ∧ y < 1 ∧ (roundsUp r neg sticky 0 m (l + 42) = true ↔ RoundsUp r neg 0 y) := by
  have hpd : (0 : ℝ) < 2 ^ d := pow_pos two_pos _
  have hsmall : ((m : ℝ) + δ) * 2 ^ 33 < 2 ^ d := by
    have h1 : ((m + 1 : Nat) : ℝ) ≤ ((2 ^ (l + 1) : Nat) : ℝ) := Nat.cast_le.2 hm
    have h2 : ((2 : ℝ) ^ (l + 1)) * 2 ^ 33 ≤ 2 ^ d := by
      rw [← pow_add]
      exact pow_le_pow_right₀ one_le_two (by omega)
    push_cast at h1
    refine lt_of_lt_of_le (mul_lt_mul_of_pos_right ?_ (pow_pos two_pos _)) h2
    linarith
  have hnn : (0 : ℝ) ≤ (m : ℝ) := Nat.cast_nonneg _
  have hle : 0 ≤ y := hy ▸ div_nonneg (by linarith) hpd.le
  have hlt : y * 2 ^ 33 < 1 := by
    rw [hy, div_mul_eq_mul_div, div_lt_one hpd]
    exact hsmall
  have hhalf : m < 2 ^ (l + 42 - 1) := hm.trans_le (Nat.pow_le_pow_right (by decide) (by omega))
  have hquarter : y < 1 / 2 := by linarith
  refine ⟨hle, by linarith, roundsUp_iff r hmode _ _ ?_ ?_ ?_ ?_⟩
  · rw [hy, div_eq_zero_iff, or_iff_left hpd.ne', ← ez]
    constructor
    · intro g
      have h1 : (m : ℝ) = 0 := by linarith
      exact ⟨by exact_mod_cast h1, by linarith⟩
    · rintro ⟨g1, g2⟩
      rw [g1, g2, Nat.cast_zero, add_zero]
  · exact ⟨fun g => absurd hquarter (not_lt.2 g.le), fun g => by omega⟩
  · exact ⟨fun g => absurd hquarter (not_lt.2 g.ge), fun g => by omega⟩
  · have hz : m * 2 ^ 32 / 2 ^ (l + 42) = 0 := by
      refine Nat.div_eq_of_lt ?_
      calc m * 2 ^ 32 < 2 ^ (l + 1) * 2 ^ 32 := Nat.mul_lt_mul_of_pos_right hm (by decide)
        _ = 2 ^ (l + 1 + 32) := (pow_add ..).symm
        _ ≤ _ := Nat.pow_le_pow_right (by decide) (by omega)
    rw [hz, Int.floor_eq_iff]
    refine ⟨?_, ?_⟩
    · rw [Int.natCast_zero, Int.cast_zero]
      exact mul_nonneg hle (by norm_num)
    · push_cast
      linarith

/-- The rounding of a magnitude to units of 2^q (03 R73, R74). -/
theorem roundAt_spec (r : Rnd) (hmode : r.mode ≤ 4) (h : x.StandsFor t) (hs : x.sticky = true → 32 ≤ q - x.e) :
    ∃ (big : Nat) (up : Bool), (roundAt r x q).1 = big + (if up then 1 else 0) ∧ (big : ℝ) ≤ |t| / 2 ^ q ∧ |t| / 2 ^ q < big + 1 ∧
      (up = true ↔ RoundsUp r x.neg big (|t| / 2 ^ q - big)) := by
  by_cases hq : q ≤ x.e
  · have hst : x.sticky = false := by
      by_contra hc
      have := hs (by simpa using hc)
      omega
    have hy : |t| / 2 ^ q = ((x.m * 2 ^ (x.e - q).toNat : Nat) : ℝ) := by
      rw [div_eq_iff (zpow_pos two_pos _).ne', h.exact.1 hst]
      push_cast
      rw [mul_assoc, ← zpow_natCast, ← zpow_add₀ two_ne_zero, Int.toNat_of_nonneg (Int.sub_nonneg_of_le hq), Int.sub_add_cancel]
    refine ⟨x.m * 2 ^ (x.e - q).toNat, false, ?_, hy.symm.le, by rw [hy]; exact lt_add_one _, ?_⟩
    · unfold roundAt
      rw [if_pos hq]
      rfl
    · rw [hy, sub_self]
      exact ⟨fun g => absurd g Bool.false_ne_true, fun g => absurd rfl g.1⟩
  · have hq' : x.e < q := Int.not_le.1 hq
    obtain ⟨d, hd⟩ : ∃ d, (q - x.e).toNat = d := ⟨_, rfl⟩
    have hd0 : 0 < d := by omega
    have hy : |t| / 2 ^ q = ((x.m : ℝ) + x.excess t) / 2 ^ d := hd ▸ abs_in_units hq'.le
    have ez := excess_eq_zero h
    have hsd : x.excess t = 0 ∨ 32 ≤ d := by
      cases hst : x.sticky with
      | false => exact Or.inl (ez.2 hst)
      | true =>
        have := hs hst
        exact Or.inr (by omega)
    rw [roundAt_below r x hq, hd]
    dsimp only
    by_cases hc : d ≤ x.m.log2 + 42
    · rw [Nat.min_eq_left hc]
      exact ⟨_, _, rfl, roundsUp_kept r hmode x.neg hd0 (excess_nonneg h) (excess_lt_one h) ez hsd hy⟩
    · have hm : x.m < 2 ^ (x.m.log2 + 1) := Nat.lt_log2_self
      have hbig : x.m < 2 ^ (x.m.log2 + 42) := hm.trans_le (Nat.pow_le_pow_right (by decide) (by omega))
      rw [Nat.min_eq_right (by omega), Nat.div_eq_of_lt hbig, Nat.mod_eq_of_lt hbig]
      obtain ⟨h0, h1, hup⟩ := roundsUp_far r hmode x.neg hm (Nat.not_le.1 hc) (excess_nonneg h) (excess_lt_one h) ez hy
      exact ⟨0, _, rfl, by rw [Nat.cast_zero]; exact h0, by rw [Nat.cast_zero, zero_add]; exact h1, by
        rw [Nat.cast_zero, sub_zero]; exact hup⟩

end

/-! Magnitudes of a format. -/

/-- The magnitude that a significand has in its binade, the binade's end included. -/
theorem magnitude_of (f : Fmt) {k b : Nat} (h : b ≤ 2 ^ (f.fbits + 1)) (hk : k = 0 ∨ 2 ^ f.fbits ≤ b) :
    magnitude f (k * 2 ^ f.fbits + b) = b * (2 : ℚ) ^ (f.qmin + k) := by
  have hp : 0 < 2 ^ f.fbits := Nat.two_pow_pos _
  have hmod : (k * 2 ^ f.fbits + b) % 2 ^ f.fbits = b % 2 ^ f.fbits := by
    rw [Nat.mul_comm, Nat.mul_add_mod]
  have hdiv : (k * 2 ^ f.fbits + b) / 2 ^ f.fbits = k + b / 2 ^ f.fbits := by
    rw [Nat.mul_comm, Nat.mul_add_div hp]
  unfold magnitude
  rw [hmod, hdiv]
  rw [pow_succ] at h
  rcases lt_or_ge b (2 ^ f.fbits) with hb | hb
  · obtain rfl : k = 0 := hk.resolve_right (by omega)
    rw [if_pos (by omega), Nat.div_eq_of_lt hb]
    simp
  · rw [if_neg (by omega)]
    rcases lt_or_eq_of_le h with hl | rfl
    · have h1 : b / 2 ^ f.fbits = 1 := by
        rw [Nat.div_eq_iff hp]
        omega
      have h2 : b % 2 ^ f.fbits = b - 2 ^ f.fbits := by
        rw [Nat.mod_eq_sub_mul_div, h1, Nat.mul_one]
      rw [h1, h2, Nat.add_sub_cancel]
      push_cast [Nat.cast_sub hb]
      ring
    · rw [Nat.mul_div_cancel_left _ hp, Nat.mul_mod_right, show k + 2 - 1 = k + 1 by omega]
      push_cast
      rw [← add_assoc, zpow_add_one₀ two_ne_zero]
      ring

/-- The length of a magnitude bounds it. -/
theorem bitLen_bounds {m : Nat} (h : m ≠ 0) : 2 ^ (bitLen m - 1) ≤ m ∧ m < 2 ^ bitLen m ∧ 0 < bitLen m := by
  unfold bitLen
  rw [if_neg h, Nat.add_sub_cancel]
  exact ⟨Nat.log2_self_le h, Nat.lt_log2_self, Nat.succ_pos _⟩

theorem overflow_eq (f : Fmt) (r : Rnd) (neg : Bool) : f.overflow r neg = overflowed f r neg := by
  unfold Fmt.overflow overflowed ovfEntry
  simp only [Bool.or_eq_true, Bool.and_eq_true, decide_eq_true_eq, Bool.not_eq_true', or_assoc]

/-- 03 R73, R74, R76, R77: an exact result that stands for a real number is rounded once. -/
theorem round_once (f : Fmt) (h1 : 1 ≤ f.fbits) (h2 : f.fbits ≤ 52) (r : Rnd) (hmode : r.mode ≤ 4) {x : Ex} {t : ℝ}
    (h : x.StandsFor t) (hm : x.m ≠ 0) (hs : x.sticky = true → 2 ^ 100 ≤ x.m) : RoundedOnce f r t (f.round r x).1 := by
  obtain ⟨hlen1, hlen2, hlen0⟩ := bitLen_bounds hm
  obtain ⟨q, hq⟩ : ∃ q, max (x.e + bitLen x.m - (f.fbits + 1)) f.qmin = q := ⟨_, rfl⟩
  have hlong : x.sticky = true → 32 ≤ q - x.e := fun e => by
    have : 2 ^ 100 < 2 ^ bitLen x.m := (hs e).trans_lt hlen2
    have : 100 < bitLen x.m := (Nat.pow_lt_pow_iff_right (by decide)).1 this
    omega
  obtain ⟨big, up, hround, hlo, hhi, hup⟩ := roundAt_spec r hmode h hlong
  obtain ⟨k, hk⟩ : ∃ k, (q - f.qmin).toNat = k := ⟨_, rfl⟩
  have hqk : f.qmin + k = q := by omega
  have hpq : (0 : ℝ) < 2 ^ q := zpow_pos two_pos _
  have htop : |t| / 2 ^ q < (2 : ℝ) ^ (f.fbits + 1) := by
    have h3 : ((x.m + 1 : Nat) : ℝ) ≤ ((2 ^ bitLen x.m : Nat) : ℝ) := Nat.cast_le.2 hlen2
    push_cast at h3
    rw [div_lt_iff₀ hpq]
    calc |t| < (x.m + 1) * 2 ^ x.e := h.upper
      _ ≤ 2 ^ bitLen x.m * 2 ^ x.e := mul_le_mul_of_nonneg_right h3 (zpow_pos two_pos _).le
      _ = 2 ^ ((bitLen x.m : Int) + x.e) := by rw [zpow_add₀ two_ne_zero, zpow_natCast]
      _ ≤ 2 ^ (((f.fbits + 1 : Nat) : Int) + q) := zpow_le_zpow_right₀ one_le_two (by push_cast; omega)
      _ = _ := by rw [zpow_add₀ two_ne_zero, zpow_natCast]
  have hbot : k ≠ 0 → (2 : ℝ) ^ f.fbits ≤ |t| / 2 ^ q := fun hk' => by
    have h3 : ((2 ^ (bitLen x.m - 1) : Nat) : ℝ) ≤ (x.m : ℝ) := Nat.cast_le.2 hlen1
    push_cast at h3
    rw [le_div_iff₀ hpq]
    calc (2 : ℝ) ^ f.fbits * 2 ^ q = 2 ^ ((f.fbits : Int) + q) := by rw [zpow_add₀ two_ne_zero, zpow_natCast]
      _ = 2 ^ (((bitLen x.m - 1 : Nat) : Int) + x.e) := by congr 1; omega
      _ = 2 ^ (bitLen x.m - 1) * 2 ^ x.e := by rw [zpow_add₀ two_ne_zero, zpow_natCast]
      _ ≤ x.m * 2 ^ x.e := mul_le_mul_of_nonneg_right h3 (zpow_pos two_pos _).le
      _ ≤ |t| := h.lower
  have hbig : big < 2 ^ (f.fbits + 1) := by
    have : (big : ℝ) < ((2 ^ (f.fbits + 1) : Nat) : ℝ) := by
      push_cast
      linarith
    exact_mod_cast this
  have hk0 : k = 0 ∨ 2 ^ f.fbits ≤ big := by
    by_contra hc
    obtain ⟨c1, c2⟩ := not_or.1 hc
    have := hbot c1
    have : ((2 ^ f.fbits : Nat) : ℝ) < ((big + 1 : Nat) : ℝ) := by
      push_cast
      linarith
    have : 2 ^ f.fbits < big + 1 := by exact_mod_cast this
    omega
  have hmlo : ((magnitude f (k * 2 ^ f.fbits + big) : ℚ) : ℝ) = big * 2 ^ q := by
    rw [magnitude_of f hbig.le hk0, hqk]
    push_cast
    rfl
  have hmhi : ((magnitude f (k * 2 ^ f.fbits + big + 1) : ℚ) : ℝ) = (big + 1) * 2 ^ q := by
    rw [Nat.add_assoc, magnitude_of f hbig (hk0.imp_right (Nat.le_succ_of_le ·)), hqk]
    push_cast
    rfl
  have hpart : (|t| - (magnitude f (k * 2 ^ f.fbits + big) : ℚ)) /
      ((magnitude f (k * 2 ^ f.fbits + big + 1) : ℚ) - (magnitude f (k * 2 ^ f.fbits + big) : ℚ)) = |t| / 2 ^ q - big := by
    rw [hmlo, hmhi, show ((big : ℝ) + 1) * 2 ^ q - big * 2 ^ q = 2 ^ q by ring, sub_div, mul_div_cancel_right₀ _ hpq.ne']
  have hpar : (k * 2 ^ f.fbits + big) % 2 = big % 2 := by
    obtain ⟨j, hj⟩ := Nat.exists_eq_add_of_le h1
    rw [hj, pow_add, pow_one, show k * (2 * 2 ^ j) + big = big + 2 * (k * 2 ^ j) by ring, Nat.add_mul_mod_self_left]
  refine ⟨k * 2 ^ f.fbits + big, k * 2 ^ f.fbits + big + (if up then 1 else 0), x.neg, h.sign, ?_, ?_, ?_⟩
  · rw [hmlo, ← le_div_iff₀ hpq]
    exact hlo
  · rw [hmhi, ← div_lt_iff₀ hpq]
    exact hhi
  · dsimp only
    rw [hpart]
    have hu := hup.trans (roundsUp_congr hpar).symm
    refine ⟨fun g => by rw [if_pos (hu.2 g)], fun g => by rw [if_neg (mt hu.1 g), Nat.add_zero], ?_⟩
    rw [← overflow_eq, Fmt.round, if_neg hm]
    dsimp only
    rw [hq, hk, hround, ← Nat.add_assoc]
    exact apply_ite Prod.fst _ _ _

/-! Exact results, quotients and roots. -/

/-- An exact result stands for its value. -/
theorem standsFor_value {x : Ex} (hs : x.sticky = false) (hm : x.m ≠ 0) : x.StandsFor ((x.value : ℚ) : ℝ) := by
  have habs : |((x.value : ℚ) : ℝ)| = x.m * 2 ^ x.e := by
    have hq : |x.value| = x.m * (2 : ℚ) ^ x.e := by
      have hnn : (0 : ℚ) ≤ x.m * 2 ^ x.e := mul_nonneg (Nat.cast_nonneg _) (zpow_pos two_pos _).le
      unfold Ex.value valueOf
      cases x.neg
      · rw [if_neg Bool.false_ne_true, one_mul, abs_of_nonneg hnn]
      · rw [if_pos rfl, neg_one_mul, neg_mul, abs_neg, abs_of_nonneg hnn]
    rw [← Rat.cast_abs, hq]
    push_cast
    rfl
  refine ⟨?_, habs.ge, ?_, fun _ => habs, fun _ => hs⟩
  · rw [Rat.cast_lt_zero, Ex.value_lt_zero, and_iff_left hm]
  · rw [habs]
    exact mul_lt_mul_of_pos_right (lt_add_one _) (zpow_pos two_pos _)

/-- What a function gives of its exact result: it is rounded once, and an exact zero is the zero of a sign. -/
def GivesOnce (f : Fmt) (r : Rnd) (t : ℝ) (bits : Nat) (zero : Bool) : Prop :=
  (t ≠ 0 → RoundedOnce f r t bits) ∧ (t = 0 → bits = f.signed zero 0)

section
variable {f : Fmt} {r : Rnd}

/-- The bounds of a format's fraction, and the modes that there are. -/
def Sized (f : Fmt) (r : Rnd) : Prop := 1 ≤ f.fbits ∧ f.fbits ≤ 52 ∧ r.mode ≤ 4

theorem gives_exact (h : Sized f r) (x : Ex) (hs : x.sticky = false) : GivesOnce f r ((x.value : ℚ) : ℝ) (f.round r x).1 x.neg := by
  obtain ⟨h1, h2, hm⟩ := h
  refine ⟨fun h0 => ?_, fun h0 => ?_⟩
  · have hx : x.m ≠ 0 := fun e => h0 (by rw [(Ex.value_eq_zero x).2 e, Rat.cast_zero])
    exact round_once f h1 h2 r hm (standsFor_value hs hx) hx (fun e => by rw [hs] at e; cases e)
  · have hx : x.m = 0 := (Ex.value_eq_zero x).1 (by exact_mod_cast h0)
    rw [Fmt.round, if_pos hx]

/-- The sign that an exact sum of zero takes (08 R179). -/
def zeroSign (r : Rnd) (m n : Nat) (s t : Bool) : Bool := if m = 0 ∧ n = 0 ∧ s = t then s else decide (r.mode = 3)

/-- The form of an exact sum, in some units. -/
theorem sumEx_form (mode : Nat) (n1 : Bool) (m1 : Nat) (e1 : Int) (n2 : Bool) (m2 : Nat) (e2 : Int) :
    ∃ t e : Int, sumEx mode n1 m1 e1 n2 m2 e2 =
      if t = 0 then ⟨if m1 = 0 && m2 = 0 && n1 = n2 then n1 else mode = 3, 0, e, false⟩
      else ⟨decide (t < 0), t.natAbs, e, false⟩ := ⟨_, _, rfl⟩

theorem sumEx_sticky (mode : Nat) (n1 : Bool) (m1 : Nat) (e1 : Int) (n2 : Bool) (m2 : Nat) (e2 : Int) :
    (sumEx mode n1 m1 e1 n2 m2 e2).sticky = false := by
  obtain ⟨t, e, h⟩ := sumEx_form mode n1 m1 e1 n2 m2 e2
  rw [h]
  split <;> rfl

theorem sumEx_neg_of_zero {mode : Nat} {n1 : Bool} {m1 : Nat} {e1 : Int} {n2 : Bool} {m2 : Nat} {e2 : Int}
    (h : (sumEx mode n1 m1 e1 n2 m2 e2).m = 0) :
    (sumEx mode n1 m1 e1 n2 m2 e2).neg = if m1 = 0 ∧ m2 = 0 ∧ n1 = n2 then n1 else decide (mode = 3) := by
  obtain ⟨t, e, hf⟩ := sumEx_form mode n1 m1 e1 n2 m2 e2
  rw [hf] at h ⊢
  by_cases ht : t = 0
  · rw [if_pos ht]
    simp only [Bool.and_eq_true, decide_eq_true_eq, and_assoc]
  · rw [if_neg ht] at h
    exact absurd (Int.natAbs_eq_zero.1 h) ht

theorem gives_sum (h : Sized f r) (n1 : Bool) (m1 : Nat) (e1 : Int) (n2 : Bool) (m2 : Nat) (e2 : Int) :
    GivesOnce f r ((valueOf n1 m1 e1 : ℝ) + (valueOf n2 m2 e2 : ℝ)) (f.finish r (addRaw r.mode (.fin n1 m1 e1) (.fin n2 m2 e2))).1
      (zeroSign r m1 m2 n1 n2) := by
  obtain ⟨g1, g2⟩ := gives_exact h (sumEx r.mode n1 m1 e1 n2 m2 e2) (sumEx_sticky ..)
  rw [← Rat.cast_add, ← sumEx_value r.mode]
  refine ⟨g1, fun h0 => (g2 h0).trans ?_⟩
  rw [sumEx_neg_of_zero ((Ex.value_eq_zero _).1 (by exact_mod_cast h0))]
  rfl

theorem valueOf_mul (n1 : Bool) (m1 : Nat) (e1 : Int) (n2 : Bool) (m2 : Nat) (e2 : Int) :
    valueOf (n1 != n2) (m1 * m2) (e1 + e2) = valueOf n1 m1 e1 * valueOf n2 m2 e2 := by
  unfold valueOf
  rw [zpow_add₀ two_ne_zero]
  push_cast
  cases n1 <;> cases n2 <;> simp <;> ring

theorem gives_product (h : Sized f r) (n1 : Bool) (m1 : Nat) (e1 : Int) (n2 : Bool) (m2 : Nat) (e2 : Int) :
    GivesOnce f r ((valueOf n1 m1 e1 : ℝ) * (valueOf n2 m2 e2 : ℝ)) (f.finish r (mulRaw (.fin n1 m1 e1) (.fin n2 m2 e2))).1 (n1 != n2) := by
  have g := gives_exact h ⟨n1 != n2, m1 * m2, e1 + e2, false⟩ rfl
  rw [Ex.value, valueOf_mul, Rat.cast_mul] at g
  exact g

/-- The magnitude of a value. -/
theorem abs_valueOf (n : Bool) (m : Nat) (e : Int) : |((valueOf n m e : ℚ) : ℝ)| = m * 2 ^ e := by
  have hnn : (0 : ℝ) ≤ m * 2 ^ e := mul_nonneg (Nat.cast_nonneg _) (zpow_pos two_pos _).le
  unfold valueOf
  push_cast
  cases n
  · simp
  · simp

/-- A magnitude cut below its units stands for the real number. -/
theorem standsFor_cut {x : Ex} {t y : ℝ} (hsign : x.neg = true ↔ t < 0) (ht : |t| = y * 2 ^ x.e) (hlo : (x.m : ℝ) ≤ y) (hhi : y < x.m + 1)
    (he : x.sticky = false ↔ y = x.m) : x.StandsFor t := by
  have hp : (0 : ℝ) < 2 ^ x.e := zpow_pos two_pos _
  refine ⟨hsign, ?_, ?_, ?_⟩
  · rw [ht]
    exact mul_le_mul_of_nonneg_right hlo hp.le
  · rw [ht]
    exact mul_lt_mul_of_pos_right hhi hp
  · rw [ht, he, mul_left_inj' hp.ne']

theorem valueOf_neg_iff (n : Bool) {m : Nat} (e : Int) (h : m ≠ 0) : ((valueOf n m e : ℚ) : ℝ) < 0 ↔ n = true := by
  rw [Rat.cast_lt_zero, valueOf_lt_zero, and_iff_left h]

theorem valueOf_ne_zero (n : Bool) {m : Nat} (e : Int) (h : m ≠ 0) : ((valueOf n m e : ℚ) : ℝ) ≠ 0 := by
  rw [ne_eq, Rat.cast_eq_zero, valueOf_eq_zero]
  exact h

theorem quotient_sign (n1 n2 : Bool) {m1 m2 : Nat} (e1 e2 : Int) (h1 : m1 ≠ 0) (h2 : m2 ≠ 0) :
    (n1 != n2) = true ↔ (valueOf n1 m1 e1 : ℝ) / (valueOf n2 m2 e2 : ℝ) < 0 := by
  have a1 := valueOf_neg_iff n1 e1 h1
  have a2 := valueOf_neg_iff n2 e2 h2
  have z1 := valueOf_ne_zero n1 e1 h1
  have z2 := valueOf_ne_zero n2 e2 h2
  rw [div_neg_iff]
  have p1 : (0 : ℝ) < (valueOf n1 m1 e1 : ℚ) ↔ n1 = false := by
    rw [← Bool.not_eq_true, ← a1, not_lt, lt_iff_le_and_ne, and_iff_left z1.symm]
  have p2 : (0 : ℝ) < (valueOf n2 m2 e2 : ℚ) ↔ n2 = false := by
    rw [← Bool.not_eq_true, ← a2, not_lt, lt_iff_le_and_ne, and_iff_left z2.symm]
  rw [a1, a2, p1, p2]
  cases n1 <;> cases n2 <;> simp

theorem gives_quotient (h : Sized f r) (n1 : Bool) (m1 : Nat) (e1 : Int) (n2 : Bool) {m2 : Nat} (e2 : Int) (h2 : m2 ≠ 0) :
    GivesOnce f r ((valueOf n1 m1 e1 : ℝ) / (valueOf n2 m2 e2 : ℝ)) (f.finish r (divRaw (.fin n1 m1 e1) (.fin n2 m2 e2))).1
      (n1 != n2) := by
  unfold divRaw
  dsimp only
  rw [if_neg h2]
  by_cases h1 : m1 = 0
  · rw [if_pos h1]
    refine ⟨fun h0 => absurd ?_ h0, fun _ => rfl⟩
    rw [(valueOf_eq_zero n1 m1 e1).2 h1, Rat.cast_zero, zero_div]
  · rw [if_neg h1]
    refine ⟨fun _ => ?_, fun h0 => absurd h0 (div_ne_zero (valueOf_ne_zero n1 e1 h1) (valueOf_ne_zero n2 e2 h2))⟩
    obtain ⟨hf1, hf2, hmode⟩ := h
    obtain ⟨k, hk⟩ : ∃ k, extraBits + bitLen m2 = k := ⟨_, rfl⟩
    rw [hk]
    have hpos : 0 < m2 := Nat.pos_of_ne_zero h2
    have hlong : 2 ^ 100 ≤ m1 * 2 ^ k / m2 := by
      rw [Nat.le_div_iff_mul_le hpos]
      calc 2 ^ 100 * m2 ≤ 2 ^ extraBits * 2 ^ bitLen m2 :=
            Nat.mul_le_mul (Nat.pow_le_pow_right (by decide) (by decide)) (bitLen_bounds h2).2.1.le
        _ = 2 ^ k := by rw [← pow_add, hk]
        _ ≤ m1 * 2 ^ k := Nat.le_mul_of_pos_left _ (Nat.pos_of_ne_zero h1)
    have hr2 : (0 : ℝ) < m2 := Nat.cast_pos.2 hpos
    have hdm : (m2 : ℝ) * ((m1 * 2 ^ k / m2 : Nat) : ℝ) + ((m1 * 2 ^ k % m2 : Nat) : ℝ) = m1 * 2 ^ k := by
      exact_mod_cast Nat.div_add_mod (m1 * 2 ^ k) m2
    have hmod : ((m1 * 2 ^ k % m2 : Nat) : ℝ) < m2 := Nat.cast_lt.2 (Nat.mod_lt _ hpos)
    refine round_once f hf1 hf2 r hmode (standsFor_cut (y := m1 * 2 ^ k / m2) (quotient_sign n1 n2 e1 e2 h1 h2) ?_ ?_ ?_ ?_) ?_
      (fun _ => hlong)
    · rw [abs_div, abs_valueOf, abs_valueOf]
      have hz : ∀ z : Int, (2 : ℝ) ^ z ≠ 0 := fun z => zpow_ne_zero z two_ne_zero
      rw [zpow_sub₀ two_ne_zero, zpow_sub₀ two_ne_zero, zpow_natCast]
      have := hz e1
      have := hz e2
      have : (2 : ℝ) ^ k ≠ 0 := pow_ne_zero _ two_ne_zero
      have := hr2.ne'
      field_simp
    · rw [le_div_iff₀ hr2]
      have : (0 : ℝ) ≤ ((m1 * 2 ^ k % m2 : Nat) : ℝ) := Nat.cast_nonneg _
      dsimp only
      linarith
    · rw [div_lt_iff₀ hr2]
      dsimp only
      linarith
    · rw [div_eq_iff hr2.ne']
      dsimp only
      rw [decide_eq_false_iff_not, not_not, ← Nat.cast_eq_zero (R := ℝ)]
      constructor
      · intro g
        linarith
      · intro g
        linarith
    · exact Nat.pos_iff_ne_zero.1 (lt_of_lt_of_le (Nat.two_pow_pos 100) hlong)

/-- The search keeps the root between its bits. -/
theorem isqrtFrom_spec (n i : Nat) {s : Nat} (h1 : s * s ≤ n) (h2 : n < (s + 2 ^ i) * (s + 2 ^ i)) :
    isqrtFrom n i s * isqrtFrom n i s ≤ n ∧ n < (isqrtFrom n i s + 1) * (isqrtFrom n i s + 1) := by
  induction i generalizing s with
  | zero => exact ⟨h1, h2⟩
  | succ i ih =>
    unfold isqrtFrom
    dsimp only
    split
    next h => exact ih h (by rw [Nat.add_assoc, ← Nat.two_mul, ← Nat.pow_succ']; exact h2)
    next h => exact ih h1 (Nat.not_le.1 h)

theorem isqrt_spec (n : Nat) : isqrt n * isqrt n ≤ n ∧ n < (isqrt n + 1) * (isqrt n + 1) := by
  refine isqrtFrom_spec n _ (Nat.zero_le _) ?_
  rw [Nat.zero_add, ← pow_add]
  by_cases h : n = 0
  · rw [h]
    exact Nat.two_pow_pos _
  · exact (bitLen_bounds h).2.1.trans_le (Nat.pow_le_pow_right (by decide) (by omega))

theorem gives_root (h : Sized f r) (n : Bool) (m : Nat) (e : Int) (hn : m = 0 ∨ n = false) :
    GivesOnce f r (Real.sqrt (valueOf n m e : ℝ)) (f.finish r (sqrtRaw (.fin n m e))).1 n := by
  by_cases h0 : m = 0
  · subst h0
    refine ⟨fun g => absurd ?_ g, fun _ => rfl⟩
    rw [(valueOf_eq_zero n 0 e).2 rfl, Rat.cast_zero, Real.sqrt_zero]
  · obtain rfl : n = false := hn.resolve_left h0
    obtain ⟨hf1, hf2, hmode⟩ := h
    have hpos : 0 < m := Nat.pos_of_ne_zero h0
    have hv : ((valueOf false m e : ℚ) : ℝ) = m * 2 ^ e := by
      unfold valueOf
      push_cast
      simp
    have hvpos : (0 : ℝ) < m * 2 ^ e := mul_pos (Nat.cast_pos.2 hpos) (zpow_pos two_pos _)
    refine ⟨fun _ => ?_, fun g => absurd g (Real.sqrt_ne_zero'.2 (by rw [hv]; exact hvpos))⟩
    unfold sqrtRaw
    dsimp only
    rw [if_neg h0, if_neg Bool.false_ne_true]
    obtain ⟨c, hc⟩ : ∃ c, (if e % 2 = 1 then 2 * m else m) = c := ⟨_, rfl⟩
    obtain ⟨j, hj⟩ : ∃ j, (if e % 2 = 1 then e - 1 else e) / 2 = j := ⟨_, rfl⟩
    have hval : (m : ℝ) * 2 ^ e = c * (2 ^ j) ^ 2 := by
      rw [← zpow_natCast, ← zpow_mul, ← hc, ← hj]
      by_cases ho : e % 2 = 1
      · rw [if_pos ho, if_pos ho, show (e - 1) / 2 * ((2 : Nat) : Int) = e - 1 by omega, zpow_sub_one₀ two_ne_zero]
        push_cast
        ring
      · rw [if_neg ho, if_neg ho, show e / 2 * ((2 : Nat) : Int) = e by omega]
    have hcpos : 0 < c := by
      rw [← hc]
      split <;> omega
    rw [hc, hj]
    obtain ⟨hlo, hhi⟩ := isqrt_spec (c * 2 ^ (2 * extraBits))
    obtain ⟨g, hg⟩ : ∃ g, isqrt (c * 2 ^ (2 * extraBits)) = g := ⟨_, rfl⟩
    rw [hg] at hlo hhi ⊢
    have hlong : 2 ^ 100 ≤ g := by
      by_contra hlt
      have h1 : (g + 1) * (g + 1) ≤ 2 ^ 100 * 2 ^ 100 := Nat.mul_le_mul (by omega) (by omega)
      have h2 : 2 ^ 100 * 2 ^ 100 ≤ c * 2 ^ (2 * extraBits) :=
        (by rw [← pow_add]; exact Nat.pow_le_pow_right (by decide) (by decide) :
          2 ^ 100 * 2 ^ 100 ≤ 2 ^ (2 * extraBits)).trans (Nat.le_mul_of_pos_left _ hcpos)
      omega
    have hlo' : (g : ℝ) * g ≤ c * 2 ^ (2 * extraBits) := by exact_mod_cast hlo
    have hhi' : (c : ℝ) * 2 ^ (2 * extraBits) < (g + 1) * (g + 1) := by exact_mod_cast hhi
    refine round_once f hf1 hf2 r hmode (standsFor_cut (y := Real.sqrt (c * 2 ^ (2 * extraBits))) ?_ ?_ ?_ ?_ ?_) ?_ (fun _ => hlong)
    · exact ⟨fun g => absurd g Bool.false_ne_true, fun g => absurd g (not_lt.2 (Real.sqrt_nonneg _))⟩
    · have hp : (0 : ℝ) ≤ 2 ^ j := (zpow_pos two_pos _).le
      have hq : (0 : ℝ) ≤ 2 ^ extraBits := (pow_pos two_pos _).le
      have hx : (2 : ℝ) ^ extraBits ≠ 0 := (pow_pos two_pos _).ne'
      rw [abs_of_nonneg (Real.sqrt_nonneg _), hv, hval, Real.sqrt_mul (Nat.cast_nonneg _), Real.sqrt_sq hp, Nat.mul_comm 2 extraBits,
        pow_mul, Real.sqrt_mul (Nat.cast_nonneg _), Real.sqrt_sq hq]
      dsimp only
      rw [zpow_sub₀ two_ne_zero, zpow_natCast]
      field_simp
    · exact Real.le_sqrt_of_sq_le (by rw [sq]; exact hlo')
    · exact (Real.sqrt_lt' (by positivity)).2 (by rw [sq]; exact hhi')
    · dsimp only
      rw [decide_eq_false_iff_not, not_not, Real.sqrt_eq_iff_mul_self_eq (by positivity) (Nat.cast_nonneg _)]
      constructor
      · intro h
        exact_mod_cast h.symm
      · intro h
        exact_mod_cast h.symm
    · exact Nat.pos_iff_ne_zero.1 (lt_of_lt_of_le (Nat.two_pow_pos 100) hlong)

/-- A fused product and sum, rounded once. -/
theorem gives_fused (h : Sized f r) (n1 : Bool) (m1 : Nat) (e1 : Int) (n2 : Bool) (m2 : Nat) (e2 : Int) (n3 : Bool) (m3 : Nat) (e3 : Int) :
    GivesOnce f r ((valueOf n1 m1 e1 : ℝ) * (valueOf n2 m2 e2 : ℝ) + (valueOf n3 m3 e3 : ℝ))
      (f.finish r (fmaRaw r.mode (.fin n1 m1 e1) (.fin n2 m2 e2) (.fin n3 m3 e3))).1 (zeroSign r (m1 * m2) m3 (n1 != n2) n3) := by
  have g := gives_sum h (n1 != n2) (m1 * m2) (e1 + e2) n3 m3 e3
  rw [valueOf_mul, Rat.cast_mul] at g
  have hraw : fmaRaw r.mode (.fin n1 m1 e1) (.fin n2 m2 e2) (.fin n3 m3 e3) =
      addRaw r.mode (.fin (n1 != n2) (m1 * m2) (e1 + e2)) (.fin n3 m3 e3) := by
    unfold fmaRaw
    simp [Num.isInf, Num.isNan, mulRaw, Ex.num]
  rw [hraw]
  exact g

theorem gives_scaled (h : Sized f r) (n1 : Bool) (m1 : Nat) (e1 k : Int) :
    GivesOnce f r ((valueOf n1 m1 e1 : ℝ) * (2 : ℝ) ^ k) (f.round r ⟨n1, m1, e1 + k, false⟩).1 n1 := by
  have g := gives_exact h ⟨n1, m1, e1 + k, false⟩ rfl
  have hv : (((⟨n1, m1, e1 + k, false⟩ : Ex).value : ℚ) : ℝ) = (valueOf n1 m1 e1 : ℝ) * (2 : ℝ) ^ k := by
    unfold Ex.value valueOf
    push_cast
    rw [zpow_add₀ two_ne_zero]
    ring
  rw [hv] at g
  exact g

theorem paired_bits (q : FpArgs) (x : Raw) : (q.paired x).bits = (q.f.finish q.r x).1 := by
  unfold FpArgs.paired
  split <;> rfl

theorem sized_of_mem (hf : f ∈ [fp32, fp64, fp16, bf16]) (hm : r.mode ≤ 4) : Sized f r := by
  simp only [List.mem_cons, List.not_mem_nil, or_false] at hf
  rcases hf with rfl | rfl | rfl | rfl <;> exact ⟨by decide, by decide, hm⟩

end

/-- Settles O12: the lanes complete as every instruction performed lane by lane, and each exact function rounds its result once. -/
theorem fpResults : Obligations.FpResults := by
  unfold Obligations.FpResults
  refine ⟨?_, ?_⟩
  · intro s w i fn h u he hs f hflags
    rw [exec_expand he (Or.inr rfl)]
    exact lanes_complete hs rfl (blind_fpLane _ _ _ _ _ _) hflags (fun _ _ => rfl)
  · intro q na nb nc ma mb mc ea eb ec hf hm hqa hqb hqc a b c gives zero
    have hz := sized_of_mem hf hm
    refine ⟨?_, ?_, ?_, ?_, fun hb => ?_, fun ha => ?_, fun ha => ?_, ?_⟩
    · show GivesOnce q.f q.r (a + b) (fpFadd q).bits (zeroSign q.r ma mb na nb)
      rw [fpFadd, paired_bits, hqa, hqb]
      exact gives_sum hz na ma ea nb mb eb
    · show GivesOnce q.f q.r (a - b) (fpFsub q).bits (zeroSign q.r ma mb na (!nb))
      rw [fpFsub, paired_bits, hqa, hqb, sub_eq_add_neg, show -b = ((valueOf (!nb) mb eb : ℚ) : ℝ) by rw [valueOf_not, Rat.cast_neg]]
      exact gives_sum hz na ma ea (!nb) mb eb
    · show GivesOnce q.f q.r (a * b) (fpFmul q).bits (na != nb)
      rw [fpFmul, paired_bits, hqa, hqb]
      exact gives_product hz na ma ea nb mb eb
    · show GivesOnce q.f q.r (a * b + c) (fpFfma q).bits (zeroSign q.r (ma * mb) mc (na != nb) nc)
      rw [fpFfma, hqa, hqb, hqc]
      exact gives_fused hz na ma ea nb mb eb nc mc ec
    · show GivesOnce q.f q.r (a / b) (fpFdiv q).bits (na != nb)
      rw [fpFdiv, hqa, hqb]
      exact gives_quotient hz na ma ea nb eb hb
    · show GivesOnce q.f q.r (1 / a) (fpFrcp q).bits na
      have g := gives_quotient hz false 1 0 na ea ha
      rw [Bool.false_bne, show ((valueOf false 1 0 : ℚ) : ℝ) = 1 by simp [valueOf]] at g
      rw [fpFrcp, hqa]
      exact g
    · show GivesOnce q.f q.r (Real.sqrt a) (fpFsqrt q).bits na
      rw [fpFsqrt, hqa]
      exact gives_root hz na ma ea ha
    · show GivesOnce q.f q.r (a * (2 : ℝ) ^ q.n) (fpFscale q).bits na
      rw [fpFscale, hqa]
      exact gives_scaled hz na ma ea q.n

end Sys2Proof.Machine
end

section
/-! PROOF. The safe-state test (12 R229). -/

namespace Sys2Proof.Machine

theorem vecLe_iff {a b : Vec} : vecLe a b = true ↔ ∀ i, i < 10 → a.getD i 0 ≤ b.getD i 0 := by
  simp only [vecLe, List.all_eq_true, List.mem_range, decide_eq_true_eq]

theorem getD_vecAdd (a b : Vec) {i : Nat} (h : i < 10) : (vecAdd a b).getD i 0 = a.getD i 0 + b.getD i 0 := by
  simp [vecAdd, List.getD_eq_getElem?_getD, h]

/-- What suffices for a need suffices with more. -/
theorem vecLe_vecAdd {n w : Vec} (a : Vec) (h : vecLe n w = true) : vecLe n (vecAdd w a) = true := by
  rw [vecLe_iff] at h ⊢
  intro i hi
  rw [getD_vecAdd w a hi]
  exact Nat.le_add_right_of_le (h i hi)

/-- What is free once some blocks have finished. -/
def freed (w : Vec) (ds : List Side) : Vec := ds.foldl (fun v d => vecAdd v d.alloc) w

theorem vecLe_freed {n : Vec} (ds : List Side) {w : Vec} (h : vecLe n w = true) : vecLe n (freed w ds) = true := by
  induction ds generalizing w with
  | nil => exact h
  | cons d t ih => exact ih (vecLe_vecAdd d.alloc h)

/-- An order in which each block's need is covered by what is free in its turn. -/
def Finishing (w : Vec) (order : List Side) : Prop :=
  ∀ k, k < order.length → ∃ d, order[k]? = some d ∧ vecLe d.need (freed w (order.take k)) = true

/-- A round's blocks can finish in any order, and then those of the rounds after it. -/
theorem finishing_append {w : Vec} {added rest : List Side} (ha : ∀ d ∈ added, vecLe d.need w = true)
    (hr : Finishing (freed w added) rest) : Finishing w (added ++ rest) := by
  intro k hk
  by_cases h : k < added.length
  · refine ⟨added[k], by rw [List.getElem?_append_left h, List.getElem?_eq_getElem h], ?_⟩
    exact vecLe_freed _ (ha _ (List.getElem_mem h))
  · rw [Nat.not_lt] at h
    obtain ⟨d, hd, hn⟩ := hr (k - added.length) (by rw [List.length_append] at hk; omega)
    refine ⟨d, by rw [List.getElem?_append_right h, hd], ?_⟩
    rw [List.take_append, List.take_of_length_le h, freed, List.foldl_append]
    exact hn

/-- The blocks of a round are those whose need is covered: the others are left. -/
theorem filter_added (w : Vec) (left : List Side) :
    left.filter (fun d => !(left.filter (fun d => vecLe d.need w)).contains d) = left.filter (fun d => !vecLe d.need w) := by
  refine List.filter_congr fun d hd => ?_
  simp [hd]

theorem finishing_of_finishes {fuel : Nat} {w : Vec} {left : List Side} (h : finishes fuel w left = true) :
    ∃ order : List Side, order.Perm left ∧ Finishing w order := by
  induction fuel generalizing w left with
  | zero =>
    obtain rfl : left = [] := List.isEmpty_iff.1 h
    exact ⟨[], List.Perm.refl _, fun k hk => absurd hk (Nat.not_lt_zero _)⟩
  | succ fuel ih =>
    unfold finishes at h
    dsimp only at h
    split at h
    · obtain rfl : left = [] := List.isEmpty_iff.1 h
      exact ⟨[], List.Perm.refl _, fun k hk => absurd hk (Nat.not_lt_zero _)⟩
    · rw [filter_added] at h
      obtain ⟨rest, hp, hf⟩ := ih h
      exact ⟨left.filter (fun d => vecLe d.need w) ++ rest, (List.Perm.append_left _ hp).trans (List.filter_append_perm _ _),
        finishing_append (fun d hd => (List.mem_filter.1 hd).2) hf⟩

/-- Settles O46: the rounds of the test give the order. -/
theorem safeStateRule : Obligations.SafeStateRule := by
  unfold Obligations.SafeStateRule
  intro ds b q h
  unfold testPasses at h
  dsimp only at h
  rw [Bool.and_true, Bool.and_eq_true] at h
  obtain ⟨hv, hf⟩ := h
  obtain ⟨order, hp, ho⟩ := finishing_of_finishes hf
  exact ⟨hv, order, hp, ho⟩

end Sys2Proof.Machine
end

section
/-! PROOF. REL and CLAIMQ (12 R234, R236, R239, R240). -/

namespace Sys2Proof.Machine

/-- A core whose Shepherd's queue is that of another. -/
structure SameQueue (c d : Core) : Prop where
  reqs : c.reqs = d.reqs
  clock : c.clock = d.clock
  deferred : c.deferred = d.deferred

theorem vecAdd_unit (i n : Nat) : vecAdd (unitVec 0 0) (unitVec i n) = unitVec i n := by
  refine List.map_congr_left fun j hj => ?_
  have hj := List.mem_range.1 hj
  have h : ∀ k m : Nat, (unitVec k m).getD j 0 = if j = k then m else 0 := fun k m => by
    simp [unitVec, List.getD_eq_getElem?_getD, hj]
  rw [h, h, ite_self, Nat.zero_add]

theorem grantAmount_lt (u : Upper) (a : Actor) (s : State) : grantAmount u a s < 2 ^ 64 := by
  unfold grantAmount
  split
  · exact (BitVec.isLt _).trans (by decide)
  · exact (BitVec.isLt _).trans (by decide)
  · decide

section
variable {s : State} {w : Nat} {i : Instr}

theorem sameQueue_started (k : Nat) : SameQueue ((started s w i).core k) (s.core k) := by
  have h : SameQueue (((s.bump).chargeIssue w i).core k) (s.core k) := by
    unfold State.chargeIssue State.core State.updCore State.setCore
    by_cases e : k = ((s.bump).warp w).core
    · subst e
      dsimp only
      rw [AMap.find_put_same]
      exact ⟨rfl, rfl, rfl⟩
    · dsimp only
      rw [AMap.find_put_other _ _ e]
      exact ⟨rfl, rfl, rfl⟩
  exact h

theorem needRank_started (n : Need) : (started s w i).needRank n = s.needRank n := by
  cases n with
  | acq r =>
    have hw : ((started s w i).warp r.w).quarter = (s.warp r.w).quarter ∧ ((started s w i).warp r.w).slot = (s.warp r.w).slot := by
      by_cases h : r.w = w
      · rw [h, warp_started]
        exact ⟨Warp.issued_quarter _ _, Warp.issued_slot _ _⟩
      · rw [State.warp, find_started_other i h]
        exact ⟨rfl, rfl⟩
    simp only [State.needRank, hw.1, hw.2]
  | _ => rfl

theorem releaseFirst_started (core : Nat) : (started s w i).releaseFirst core = s.releaseFirst core := by
  have h := sameQueue_started (s := s) (w := w) (i := i) core
  simp only [State.releaseFirst, h.reqs, h.clock, needRank_started]

theorem requestsFull_started {core : Nat} (h : (s.core core).reqs.length < 64) : (started s w i).requestsFull core = false := by
  rw [State.requestsFull, (sameQueue_started core).reqs]
  exact decide_eq_false (Nat.not_le.2 h)

theorem grantees_started (hs : Solo s w i) : (started s w i).grantees (s.selfActor w i) = [w] := by
  rw [State.grantees, liveMembers_started hs]
  rfl

theorem grantVec_started (hs : Solo s w i) (cls n : Nat) : (started s w i).grantVec (s.selfActor w i) cls n =
    if cls < 2 then unitVec cls n else unitVec (classIndex cls (s.warp w).quarter) n := by
  unfold State.grantVec
  rw [grantees_started hs, List.foldl_cons, List.foldl_nil, warp_started, Warp.issued_quarter, vecAdd_unit]

theorem held_started (cls : Nat) : (started s w i).held w cls = s.held w cls := by
  unfold State.held
  dsimp only
  rw [blockOf_started, warp_started, Warp.issued_regEpochs, Warp.issued_accEpochs]

theorem amountCause_self (hs : Solo s w i) {cls n : Nat} (h1 : 1 ≤ n) (h2 : n ≤ amountMax cls) :
    (started s w i).amountCause (s.selfActor w i) cls n = none := by
  unfold State.amountCause
  rw [if_neg (by simp only [Bool.or_eq_true, decide_eq_true_eq]; omega), grantees_started hs,
    if_neg (by rw [Bool.and_eq_true, decide_eq_true_eq, decide_eq_true_eq]; exact fun h => absurd h.2 (Nat.lt_irrefl 1))]

theorem amountCause_bad {cls n : Nat} (h : n = 0 ∨ amountMax cls < n) :
    (started s w i).amountCause (s.selfActor w i) cls n = some (grantCause 2 cls) := by
  unfold State.amountCause
  rw [if_pos (by simpa only [Bool.or_eq_true, decide_eq_true_eq] using h)]

theorem underflows_self (hs : Solo s w i) (cls n : Nat) : (started s w i).underflows (s.selfActor w i) cls n =
    decide (s.held w cls < (if cls = 2 then n + 1 else n)) := by
  unfold State.underflows
  rw [grantees_started hs, State.selfActor_lead, List.any_cons, List.any_nil, Bool.or_false, held_started]
  split
  next h => rw [if_neg (by omega : ¬ cls = 2)]
  next => rfl

theorem loads_issued_nil {x : Warp} (h : x.loads = []) : (x.issued i).loads = [] :=
  List.length_eq_zero_iff.1 ((length_of_sameLoads (Warp.sameLoads_issued x i)).trans (by rw [h]; rfl))

/-- Nothing stands against a release. -/
theorem relHeld_free (hs : Solo s w i) {cls n : Nat} (h1 : 1 ≤ n) (h2 : n ≤ amountMax cls) (hc : (s.warp w).control = false)
    (hh : (if cls = 2 then n + 1 else n) ≤ s.held w cls) (ho : (started s w i).releaseOps (s.selfActor w i) cls n = [])
    (hl : cls = 2 → (s.warp w).loads = []) (hm : cls = 3 → (s.warp w).matrix = []) :
    (started s w i).relHeld (s.selfActor w i) cls n = none := by
  have hbusy : (started s w i).releaseBusy (s.selfActor w i) cls = false := by
    unfold State.releaseBusy
    rw [grantees_started hs, List.any_cons, List.any_nil, Bool.or_false, warp_started, Warp.issued_matrix]
    split
    next h =>
      rw [loads_issued_nil (hl h)]
      rfl
    next =>
      by_cases h : cls = 3
      · rw [hm h, decide_eq_true h]
        rfl
      · rw [decide_eq_false h, Bool.false_and]
  have hfault : (if cls = 3 then ((started s w i).grantees (s.selfActor w i)).findSome? (fun v => ((started s w i).warp v).matrixFault 0)
      else none) = none := by
    split
    next h =>
      rw [grantees_started hs, List.findSome?_cons, warp_started, matrixFault_issued, matrixFault_nil (hm h)]
      rfl
    next => rfl
  unfold State.relHeld
  dsimp only
  rw [amountCause_self hs h1 h2]
  dsimp only
  rw [State.selfActor_lead, warp_started, Warp.issued_control, hc, if_neg Bool.false_ne_true, underflows_self hs,
    if_neg (by rw [decide_eq_true_eq]; omega), ho, hbusy, hfault]
  rfl

theorem relHeld_control (hs : Solo s w i) {cls n : Nat} (h1 : 1 ≤ n) (h2 : n ≤ amountMax cls) (hc : (s.warp w).control = true) :
    (started s w i).relHeld (s.selfActor w i) cls n = some (Res.cause (grantCause 0 cls)) := by
  unfold State.relHeld
  dsimp only
  rw [amountCause_self hs h1 h2]
  dsimp only
  rw [State.selfActor_lead, warp_started, Warp.issued_control, if_pos hc]

theorem relHeld_under (hs : Solo s w i) {cls n : Nat} (h1 : 1 ≤ n) (h2 : n ≤ amountMax cls) (hc : (s.warp w).control = false)
    (hh : s.held w cls < (if cls = 2 then n + 1 else n)) :
    (started s w i).relHeld (s.selfActor w i) cls n = some (Res.cause (grantCause 1 cls)) := by
  unfold State.relHeld
  dsimp only
  rw [amountCause_self hs h1 h2]
  dsimp only
  rw [State.selfActor_lead, warp_started, Warp.issued_control, hc, if_neg Bool.false_ne_true, underflows_self hs, if_pos (decide_eq_true hh)]

theorem relHeld_bad {cls n : Nat} (h : n = 0 ∨ amountMax cls < n) :
    (started s w i).relHeld (s.selfActor w i) cls n = some (Res.cause (grantCause 2 cls)) := by
  unfold State.relHeld
  dsimp only
  rw [amountCause_bad h]

variable {h : Hdr} {u : Upper}

/-- REL by what holds it. -/
theorem opRel_held {r : Res}
    (hr : (started s w i).relHeld (s.selfActor w i) h.width.toNat (grantAmount u (s.selfActor w i) (started s w i)) = some r) :
    opRel h u (s.selfActor w i) (started s w i) = r := by
  unfold opRel pollRel
  dsimp only
  rw [BitVec.toNat_ofNat, Nat.mod_eq_of_lt (grantAmount_lt ..), hr]

/-- REL that nothing holds. -/
theorem opRel_free
    (hr : (started s w i).relHeld (s.selfActor w i) h.width.toNat (grantAmount u (s.selfActor w i) (started s w i)) = none) :
    opRel h u (s.selfActor w i) (started s w i) =
      if s.releaseFirst (s.warp w).core then .ok ((started s w i).releaseNow (s.selfActor w i) h.width.toNat
        (grantAmount u (s.selfActor w i) (started s w i)))
      else if (started s w i).requestsFull (s.warp w).core then .hold
      else .wait (((started s w i).enterNeed (s.warp w).core (.release w)).blockAll (s.selfActor w i) 0 0 0) .release
        [BitVec.ofNat 64 (grantAmount u (s.selfActor w i) (started s w i))] := by
  unfold opRel pollRel
  dsimp only
  rw [BitVec.toNat_ofNat, Nat.mod_eq_of_lt (grantAmount_lt ..), hr]
  dsimp only
  rw [State.selfActor_lead, warp_started, Warp.issued_core, releaseFirst_started]

theorem releaseNow_self (hs : Solo s w i) (cls n : Nat) : (started s w i).releaseNow (s.selfActor w i) cls n =
    (((started s w i).removeUnits w cls n).updBlock (s.warp w).blk (fun b => { b with
      alloc := vecSub b.alloc (if cls < 2 then unitVec cls n else unitVec (classIndex cls (s.warp w).quarter) n) })).retest
        (s.warp w).core := by
  unfold State.releaseNow
  dsimp only
  rw [grantees_started hs, grantVec_started hs, State.selfActor_lead, ite_self, List.foldl_cons, List.foldl_nil, warp_started,
    Warp.issued_core, Warp.issued_blk]

theorem issue_goesOn {op : Actor → State → Res} {t : State} (hs : Solo s w i)
    (ho : op (s.selfActor w i) (started s w i) = .ok t) : issue i op s = .next (goesOn s w i t) := by
  rw [issue_solo hs, ho, settle_ok, updInst_none _ _ _ rfl]
  rfl

/-- CLAIMQ's count (12 R240). -/
theorem opClaimq_self {f : XForm} :
    let own := if h.width.toNat < 2 then (s.blockOf w).alloc.getD (classIndex h.width.toNat (s.warp w).quarter) 0 else s.held w h.width.toNat
    let top := if h.width.toNat < 2 then (s.blockOf w).claim.getD (classIndex h.width.toNat (s.warp w).quarter) 0
      else s.warpMax w h.width.toNat
    opClaimq h (.x f) (s.selfActor w i) (started s w i) = .ok ((started s w i).setWarp w (((s.warp w).issued i).writeS h.vd.toNat (
      if (s.warp w).control then 0
      else if f.vc = 0 then BitVec.ofNat 32 own
      else if f.vc = 1 then BitVec.ofNat 32 top
      else if f.vc = 2 then BitVec.ofNat 32 (top - own)
      else if f.vc = 3 then
        BitVec.ofNat 32 ((available (s.sides (s.warp w).core)).getD (classIndex h.width.toNat (s.warp w).quarter) 0)
      else BitVec.ofNat 32 (s.core (s.warp w).core).deferred.length))) := by
  intro own top
  have hmax : (started s w i).warpMax w h.width.toNat = s.warpMax w h.width.toNat := by
    unfold State.warpMax
    dsimp only
    rw [blockOf_started, warp_started, Warp.issued_control, Warp.issued_role]
  unfold opClaimq
  dsimp only
  rw [State.selfActor_lead, blockOf_started, held_started, hmax, warp_started, Warp.issued_quarter, Warp.issued_control,
    Warp.issued_core, (sameQueue_started _).deferred]
  refine congrArg (fun v => Res.ok ((started s w i).setWarp w (((s.warp w).issued i).writeS h.vd.toNat v))) ?_
  by_cases hc : (s.warp w).control = true
  · rw [if_pos hc, if_pos hc]
  · have hclaim : (started s w i).claimOf w = (s.blockOf w).claim := by
      unfold State.claimOf
      rw [warp_started, Warp.issued_control, if_neg hc, blockOf_started]
    have hv : ∀ n : Nat, n < 256 → (f.vc = BitVec.ofNat 8 n ↔ f.vc.toNat = n) := fun n hn => by
      rw [← BitVec.toNat_inj, BitVec.toNat_ofNat, Nat.mod_eq_of_lt hn]
    have h0 := hv 0 (by decide)
    have h1 := hv 1 (by decide)
    have h2 := hv 2 (by decide)
    have h3 := hv 3 (by decide)
    rw [if_neg hc, if_neg hc, hclaim]
    simp only [BitVec.ofNat_eq_ofNat] at *
    rw [ite_congr (propext h0) (fun _ => rfl) (fun _ => rfl), ite_congr (propext h1) (fun _ => rfl) (fun _ => rfl),
      ite_congr (propext h2) (fun _ => rfl) (fun _ => rfl), ite_congr (propext h3) (fun _ => rfl) (fun _ => rfl)]
    generalize f.vc.toNat = k
    match k with
    | 0 | 1 | 2 | 3 => rfl
    | k + 4 => 
      rw [if_neg (show ¬ k + 4 = 0 by omega), if_neg (show ¬ k + 4 = 1 by omega), if_neg (show ¬ k + 4 = 2 by omega),
        if_neg (show ¬ k + 4 = 3 by omega)]
      rfl

end

/-- Settles O47: REL by what holds it and by its turn, and CLAIMQ by its count. -/
theorem releaseAndQuery : Obligations.ReleaseAndQuery := by
  unfold Obligations.ReleaseAndQuery
  intro s w h u f x cls ir iq z a n vec c i own top free
  refine ⟨fun hs h1 h2 hc hf hr => ?_, fun hs h1 h2 hc hf hr hq => ?_, fun hs h1 h2 hc hr => ?_, fun hs h1 h2 hc hh hr => ?_,
    fun hs hb hr => ?_, fun hs => ?_⟩
  · obtain ⟨hh, ho, hl, hm⟩ := hf
    have e := opRel_free (relHeld_free hs h1 h2 hc hh ho hl hm)
    rw [if_pos hr, releaseNow_self hs] at e
    exact issue_goesOn (op := opRel h u) hs e
  · obtain ⟨hh, ho, hl, hm⟩ := hf
    have e := opRel_free (relHeld_free hs h1 h2 hc hh ho hl hm)
    rw [if_neg (by rw [hr]; exact Bool.false_ne_true), requestsFull_started hq, if_neg Bool.false_ne_true] at e
    exact issue_blocked (op := opRel h u) (t := z.enterNeed x.core (.release w)) hs ((warp_started s w ir) ▸ Warp.issued_live _ _) e
  · exact issue_fault (op := opRel h u) hs hr (opRel_held (relHeld_control hs h1 h2 hc))
  · exact issue_fault (op := opRel h u) hs hr (opRel_held (relHeld_under hs h1 h2 hc hh))
  · exact issue_fault (op := opRel h u) hs hr (opRel_held (relHeld_bad hb))
  · exact issue_setWarp_eq (op := opClaimq h (.x f)) hs opClaimq_self rfl (Warp.issued_live _ _)

end Sys2Proof.Machine
end

section
/-! PROOF. ACQ, ACQT and the Shepherd's test (12 R229 to R234, R237, R238). -/

namespace Sys2Proof.Machine

/-- Warp `w` alone is left of an actor's members. -/
def State.Sole (t : State) (a : Actor) (w : Nat) : Prop := ∃ m, t.liveMembers a = [m] ∧ m.w = w

section
variable {s t : State} {a : Actor} {w : Nat}

theorem sole_congr (h : s.Sole a w) (hl : ∀ v, (t.warp v).live = (s.warp v).live) : t.Sole a w := by
  have e : t.liveMembers a = s.liveMembers a := by
    unfold State.liveMembers Warp.exited
    exact List.filter_congr fun m _ => by rw [hl]
  rw [State.Sole, e]
  exact h

theorem grantees_sole (h : t.Sole a w) : t.grantees a = [w] := by
  obtain ⟨m, hm, rfl⟩ := h
  rw [State.grantees, hm]
  rfl

theorem advanceAll_sole (h : t.Sole a w) (i : Instr) :
    t.advanceAll a i = t.updWarp w (fun x => (x.unwait.countDither i).advance a.len a.rep) := by
  obtain ⟨m, hm, rfl⟩ := h
  rw [State.advanceAll, hm]
  rfl

theorem waitAll_sole (h : t.Sole a w) (k : WaitKind) (i : Instr) (q : List DWord) :
    t.waitAll a k i q = t.updWarp w (fun x => { x with wait := some ⟨k, i, a, q⟩ }) := by
  obtain ⟨m, hm, rfl⟩ := h
  rw [State.waitAll, hm]
  rfl

theorem blockAll_sole (h : t.Sole a w) (o : Word) (k : BitVec 4) (d : BitVec 24) :
    t.blockAll a o k d = t.updWarp w (fun x => { x with blocked := ⟨o, k, d⟩ }) := by
  obtain ⟨m, hm, rfl⟩ := h
  rw [State.blockAll, hm]
  rfl

end

/-! The request. -/

/-- An entry's place: behind what is not after it, before what is. -/
theorem State.insertEntry_place (s : State) (e : Entry) (l : List Entry) :
    ∃ before after, l = before ++ after ∧ s.insertEntry e l = before ++ e :: after ∧
      (∀ f ∈ before, ¬ (e.stamp < f.stamp ∨ (f.stamp = e.stamp ∧ s.needRank e.need < s.needRank f.need))) ∧
      ∀ f, after.head? = some f → e.stamp < f.stamp ∨ (f.stamp = e.stamp ∧ s.needRank e.need < s.needRank f.need) := by
  induction l with
  | nil => exact ⟨[], [], rfl, rfl, fun f hf => absurd hf List.not_mem_nil, nofun⟩
  | cons f l ih =>
    by_cases h : e.stamp < f.stamp ∨ (f.stamp = e.stamp ∧ s.needRank e.need < s.needRank f.need)
    · refine ⟨[], f :: l, rfl, ?_, fun g hg => absurd hg List.not_mem_nil, fun g hg => Option.some.inj hg ▸ h⟩
      rw [State.insertEntry, if_pos (by simpa using h)]
      rfl
    · obtain ⟨before, after, hl, hi, hb, ha⟩ := ih
      refine ⟨f :: before, after, by rw [hl]; rfl, ?_, List.forall_mem_cons.2 ⟨h, hb⟩, ha⟩
      rw [State.insertEntry, if_neg (by simpa using h), hi]
      rfl

/-- The order of the queue is the ranks' alone. -/
theorem State.insertEntry_congr {s t : State} (h : ∀ n, t.needRank n = s.needRank n) (e : Entry) (l : List Entry) :
    t.insertEntry e l = s.insertEntry e l := by
  induction l with
  | nil => rfl
  | cons f l ih => rw [State.insertEntry, State.insertEntry, h, h, ih]

section
variable {s : State} {w : Nat} {i : Instr} {h : Hdr} {u : Upper}

theorem opAcq_self (hs : Solo s w i) {try' : Bool} (h1 : 1 ≤ grantAmount u (s.selfActor w i) (started s w i))
    (h2 : grantAmount u (s.selfActor w i) (started s w i) ≤ amountMax h.width.toNat)
    (hq : ((s.core (s.warp w).core).reqs.length) < 64) :
    opAcq try' h u (s.selfActor w i) (started s w i) =
      .wait (((started s w i).enterNeed (s.warp w).core
        (.acq (requestOf s w h (grantAmount u (s.selfActor w i) (started s w i)) try'))).blockAll (s.selfActor w i) 0 0 0) .shepherd
        [BitVec.ofNat 64 (grantAmount u (s.selfActor w i) (started s w i))] := by
  unfold opAcq
  dsimp only
  rw [amountCause_self hs h1 h2]
  dsimp only
  rw [State.selfActor_lead, warp_started, Warp.issued_core, requestsFull_started hq, if_neg Bool.false_ne_true, grantVec_started hs,
    Warp.issued_blk]
  rfl

/-- What the queue of the warp's core holds once the request is in. -/
theorem reqs_requested (n : Nat) (try' : Bool) :
    ((requested s w i h n try').core (s.warp w).core).reqs =
      s.insertEntry ⟨(s.core (s.warp w).core).clock, .acq (requestOf s w h n try')⟩ (s.core (s.warp w).core).reqs := by
  have e : ((requested s w i h n try').core (s.warp w).core).reqs =
      (started s w i).insertEntry ⟨((started s w i).core (s.warp w).core).clock, .acq (requestOf s w h n try')⟩
        ((started s w i).core (s.warp w).core).reqs := by
    simp only [requested, State.enterNeed, State.updWarp, State.setWarp, State.updCore, State.setCore, State.core, AMap.find_put_same]
    rfl
  rw [e, State.insertEntry_congr (fun n => needRank_started n), (sameQueue_started _).clock, (sameQueue_started _).reqs]

end

/-! The test. -/

/-- What a decision that ends a request's wait leaves, beside its result. -/
structure Ends (s t : State) (w : Nat) : Prop where
  mem : t.mem = s.mem
  pc : (t.warp w).pc = (s.warp w).pc
  live : (t.warp w).live = (s.warp w).live
  others : ∀ v, v ≠ w → t.warps.find v = s.warps.find v

theorem Ends.sole {s t : State} {w : Nat} {a : Actor} (e : Ends s t w) (h : s.Sole a w) : t.Sole a w := by
  refine sole_congr h fun v => ?_
  by_cases hv : v = w
  · rw [hv, e.live]
  · rw [State.warp, State.warp, e.others v hv]

/-- A grant: the allocation, the units and the result. -/
structure Granted (s t : State) (w : Nat) (r : Request) (vd : Nat) : Prop extends Ends s t w where
  alloc : (t.block (s.warp w).blk).alloc = vecAdd (s.block (s.warp w).blk).alloc r.vec
  held : t.held w r.cls = s.held w r.cls + r.amount
  result : (t.warp w).rawS vd = BitVec.ofNat 32 (grantValue r.cls (s.held w r.cls))

theorem granted_sole {s : State} {a : Actor} {w : Nat} {r : Request} {vd : Nat} (h : s.Sole a w) (hl : a.lead = w)
    (hb : r.blk = (s.warp w).blk) (hc : r.cls < 4) : Granted s (s.grant r a vd) w r vd := by
  obtain ⟨rw, blk, cls, amount, vec, try'⟩ := r
  subst hb
  unfold State.grant
  rw [grantees_sole h, hl]
  match cls, hc with
  | 0, _ | 1, _ | 2, _ | 3, _ => 
    refine ⟨⟨?_, ?_, ?_, ?_⟩, ?_, ?_, ?_⟩ <;> 
    simp +contextual [State.grantOne, State.addUnits, State.held, State.updWarp, State.setWarp, State.updBlock, State.setBlock, State.block, State.blockOf, State.warp,
      Warp.rawS, Warp.writeS, AMap.find_put_same, AMap.find_put_other]

section
variable {s : State} {core w : Nat} {r : Request} {q : Wait}

/-- A state whose warps, blocks and memory are those of another. -/
theorem ends_of_eq {s z : State} (w : Nat) (hw : z.warps = s.warps) (hm : z.mem = s.mem) : Ends s z w := by
  have e : z.warp w = s.warp w := congrArg (fun m => (m.find w).getD Warp.blank) hw
  exact ⟨hm, by rw [e], by rw [e], fun v _ => by rw [hw]⟩

theorem waitSuspended_of_open (h : s.openWait w = some q) : (s.warp w).wait = some q ∧ s.waitSuspended q = false := by
  unfold State.openWait at h
  split at h
  · exact nomatch h
  next p hp =>
    split at h
    · exact nomatch h
    next hn =>
      cases h
      rw [Bool.or_eq_true, not_or] at hn
      exact ⟨hp, eq_false_of_ne_true hn.2⟩

/-- What the Shepherd makes of a request that heads its queue and whose warp waits for it, by its decision. -/
def State.answers (z : State) (core : Nat) (r : Request) (q : Wait) : Decision → Option State
  | .exceeded => z.finishWait q (Res.cause (grantCause 0 r.cls))
  | .passes => z.finishWait q (.ok (z.grant r q.actor (resultReg q.instr)))
  | .fails =>
    if r.try' then
      z.finishWait q (.ok ((z.grantees q.actor).foldl (fun s w => s.updWarp w (fun x => x.writeS (resultReg q.instr) 0xFFFFFFFF)) z))
    else if Config.deferredMax ≤ (z.core core).deferred.length then z.finishWait q (Res.cause (grantCause 3 r.cls))
    else
      some (((z.updCore core (fun c => { c with deferred := c.deferred ++ [r] })).waitAll q.actor .deferred q.instr q.args).renumber core)

/-- The head of the queue leaves it with the deferred requests as they were. -/
theorem deferred_popNeed : ((s.bump.popNeed core).core core).deferred = (s.core core).deferred := by
  simp only [State.popNeed, State.updCore, State.setCore, State.core, AMap.find_put_same]
  rfl

/-- The test of an ACQ at the head of the queue, whose warp waits for it. -/
theorem exec_shepherdTest (hh : s.headNeed core = some (.acq r)) (hw : (s.warp r.w).wait = some q) (hk : q.kind = .shepherd)
    (hs : s.waitSuspended q = false) {d : Decision} (hj : (s.bump.popNeed core).judge core r q.actor = d) :
    exec (.shepherdTest core) s = happens "SHEPHERD_TEST" ((s.bump.popNeed core).answers core r q d) := by
  have hd : s.bump.decides r = some q := by
    unfold State.decides
    rw [show (s.bump.warp r.w).wait = some q from hw, Option.filter_some, hk]
    rfl
  have e : exec (.shepherdTest core) s = happens "SHEPHERD_TEST" (s.bump.shepherdTest core) := rfl
  rw [e]
  unfold State.shepherdTest
  rw [show s.bump.headNeed core = some (.acq r) from hh]
  dsimp only
  rw [hd]
  dsimp only
  rw [show s.bump.waitSuspended q = false from hs, if_neg Bool.false_ne_true, if_neg Bool.false_ne_true, hj]
  cases d <;> rfl

/-- A warp that has gone on past an instruction of its own. -/
def Warp.wentOn (x : Warp) (i : Instr) (n : Nat) : Warp := (x.unwait.countDither i).advance n none

theorem Warp.wentOn_fields (x : Warp) (i : Instr) (n : Nat) :
    (x.wentOn i n).wait = none ∧ (x.wentOn i n).pc = canon57 (x.pc + BitVec.ofNat 64 n) ∧ (x.wentOn i n).blk = x.blk ∧
      (x.wentOn i n).regEpochs = x.regEpochs ∧ (x.wentOn i n).accEpochs = x.accEpochs ∧ (x.wentOn i n).s = x.s := by
  unfold Warp.wentOn Warp.countDither
  split <;> exact ⟨rfl, rfl, rfl, rfl, rfl, rfl⟩

theorem sole_of_waitsAlone (hw : WaitsAlone s w q) : s.Sole q.actor w := hw.2.2.2.2.2

/-- A decision that completes the request. -/
theorem finishWait_ok {z t : State} (hw : WaitsAlone s w q) (ez : Ends s z w) (e : Ends z t w) :
    z.finishWait q (.ok t) = some (t.updWarp w (fun x => x.wentOn q.instr q.actor.len)) := by
  obtain ⟨_, _, _, hi, hr, hs⟩ := hw
  rw [State.finishWait, settle_ok, updInst_none _ _ _ hi, advanceAll_sole (e.sole (ez.sole hs)), hr]
  rfl

/-- A decision that faults. -/
theorem finishWait_cause {z : State} {c : Cause} (hw : WaitsAlone s w q) (hz : z.warps = s.warps)
    (room : z.canRecord (halfOfCore (z.warp w).core) (z.partOf w) = true) :
    z.finishWait q (Res.cause c) = some ((z.unwaitAll q.actor).takeException q.actor (s.warp w).pc (FaultInfo.of c 0) false) := by
  obtain ⟨_, rfl, hsc, -⟩ := hw
  have e : z.warp q.actor.lead = s.warp q.actor.lead := congrArg (fun m => (m.find q.actor.lead).getD Warp.blank) hz
  rw [← e]
  exact settle_fault_narrow z q.actor q.instr _ room (by rw [hsc]; exact Scope.noConfusion) (by rw [hsc]; exact Scope.noConfusion)

/-- What a change of blocked-state registers keeps. -/
def State.unblocked (s : State) : AMap Core × AMap Block × List Host.Cell × (Nat → Option Wait × DWord × Mask) :=
  (s.cores, s.blocks, s.mem, fun v => ((s.warp v).wait, (s.warp v).pc, (s.warp v).live))

theorem eqs_of_unblocked {s t : State} (h : t.unblocked = s.unblocked) :
    t.cores = s.cores ∧ t.blocks = s.blocks ∧ t.mem = s.mem ∧ ∀ v, (t.warp v).wait = (s.warp v).wait ∧ (t.warp v).pc = (s.warp v).pc ∧
      (t.warp v).live = (s.warp v).live := by
  have hw := fun v => congrFun (congrArg (fun p => p.2.2.2) h) v
  exact ⟨congrArg Prod.fst h, congrArg (fun p => p.2.1) h, congrArg (fun p => p.2.2.1) h, fun v =>
    ⟨congrArg Prod.fst (hw v), congrArg (fun p => p.2.1) (hw v), congrArg (fun p => p.2.2) (hw v)⟩⟩

theorem blockAll_unblocked (s : State) (a : Actor) (o : Word) (k : BitVec 4) (d : BitVec 24) :
    (s.blockAll a o k d).unblocked = s.unblocked := by
  refine keeps_foldl State.unblocked _ (fun s m => ?_) _ s
  have h := fun v => s.keeps_updWarp m.w (fun x => { x with blocked := ⟨o, k, d⟩ }) (fun x => (x.wait, x.pc, x.live)) (by intro x; rfl) v
  exact congrArg (fun f => (s.cores, s.blocks, s.mem, f)) (funext h)

/-- One step of the numbering. -/
def State.numberOne (s : State) (e : Nat × Request) : State :=
  match (s.warp e.2.w).wait with
  | some q => s.blockAll q.actor 0 3 (BitVec.ofNat 24 (e.1 % 256 * 65536 + e.2.amount % 256 * 256 + e.2.cls))
  | none => s

theorem renumber_eq (s : State) (core : Nat) : s.renumber core =
    ((List.range (s.core core).deferred.length).zip (s.core core).deferred).foldl State.numberOne s := rfl

theorem numberOne_unblocked (s : State) (e : Nat × Request) : (s.numberOne e).unblocked = s.unblocked := by
  unfold State.numberOne
  split
  · exact blockAll_unblocked ..
  · rfl

/-- The numbering of the deferred list marks its last entry's warp with the last place. -/
theorem renumber_last {z : State} {core : Nat} {r : Request} {l : List Request} {q : Wait} (hd : (z.core core).deferred = l ++ [r])
    (hq : (z.warp r.w).wait = some q) (hs : z.Sole q.actor r.w) :
    (z.renumber core).unblocked = z.unblocked ∧ ((z.renumber core).warp r.w).blocked =
      ⟨0, 3, BitVec.ofNat 24 (l.length % 256 * 65536 + r.amount % 256 * 256 + r.cls)⟩ := by
  have hk := keeps_foldl State.unblocked State.numberOne numberOne_unblocked ((List.range l.length).zip l) z
  obtain ⟨-, -, -, hrest⟩ := eqs_of_unblocked hk
  rw [renumber_eq, hd, List.length_append, List.length_singleton, List.range_succ, List.zip_append (List.length_range ..),
    List.foldl_append]
  refine ⟨(numberOne_unblocked ..).trans hk, ?_⟩
  rw [List.zip_cons_cons, List.zip_nil_left, List.foldl_cons, List.foldl_nil, State.numberOne]
  dsimp only
  rw [(hrest r.w).1.trans hq]
  dsimp only
  rw [blockAll_sole (sole_congr hs fun v => (hrest v).2.2), State.updWarp, State.warp_setWarp_same]

/-- What a grant or a refusal leaves once the request's wait has ended. -/
theorem ended_goes {z t : State} (i : Instr) (n : Nat) (ez : Ends s z w) (e : Ends z t w) :
    let g := t.updWarp w (fun x => x.wentOn i n)
    g.mem = s.mem ∧ (g.warp w).wait = none ∧ (g.warp w).pc = canon57 ((s.warp w).pc + BitVec.ofNat 64 n) ∧
      ∀ v, v ≠ w → g.warps.find v = s.warps.find v := by
  intro g
  have hg : g.warp w = (t.warp w).wentOn i n := State.warp_setWarp_same ..
  obtain ⟨hwait, hpc, -⟩ := Warp.wentOn_fields (t.warp w) i n
  refine ⟨e.mem.trans ez.mem, by rw [hg]; exact hwait, by rw [hg, hpc, e.pc, ez.pc], fun v hv => ?_⟩
  exact (AMap.find_put_other _ _ hv).trans ((e.others v hv).trans (ez.others v hv))

end

/-- Settles O45: the request by its place in the queue, and the Shepherd's test by its decision. -/
theorem requestAndGrant : Obligations.RequestAndGrant := by
  unfold Obligations.RequestAndGrant
  refine ⟨?_, ?_, rfl⟩
  · intro s w h u try' i hi
    dsimp only
    intro hs h1 h2 hq
    refine ⟨?_, ?_⟩
    · have e := opAcq_self (try' := try') hs h1 h2 hq
      subst hi
      cases try'
      · exact issue_blocked (op := opAcq false h u) hs ((warp_started s w _) ▸ Warp.issued_live _ _) e
      · exact issue_blocked (op := opAcq true h u) hs ((warp_started s w _) ▸ Warp.issued_live _ _) e
    · rw [reqs_requested]
      exact s.insertEntry_place _ _
  · intro s core w r q hh hrw hw hk hb hc
    subst hrw
    obtain ⟨hwait, hsusp⟩ := waitSuspended_of_open hw.1
    have e := fun d => exec_shepherdTest (d := d) hh hwait hk hsusp
    have ez : Ends s (s.bump.popNeed core) r.w := ends_of_eq _ rfl rfl
    have hsole := ez.sole (sole_of_waitsAlone hw)
    dsimp only
    refine ⟨fun hj => ?_, fun hj room => ?_, fun hj ht => ?_, fun hj ht hd => ?_, fun hj ht hd room => ?_⟩ <;>
      replace e := e _ hj <;> unfold State.answers at e <;> dsimp only at e
    · have g := granted_sole (vd := resultReg q.instr) hsole hw.2.1 hb hc
      rw [finishWait_ok hw ez g.toEnds] at e
      obtain ⟨-, -, hblk, hre, hac, hreg⟩ :=
        Warp.wentOn_fields (((s.bump.popNeed core).grant r q.actor (resultReg q.instr)).warp r.w) q.instr q.actor.len
      refine ⟨_, e, ended_goes _ _ ez g.toEnds, g.alloc, ?_, ?_⟩
      · rw [← show (s.bump.popNeed core).held r.w r.cls = s.held r.w r.cls from rfl, ← g.held]
        simp only [State.held, State.blockOf, State.updWarp, State.warp_setWarp_same, hblk, hre, hac]
        rfl
      · rw [State.updWarp, State.warp_setWarp_same, Warp.rawS, hreg]
        exact g.result
    · rw [e, finishWait_cause (z := s.bump.popNeed core) hw rfl room]
      rfl
    · rw [if_pos ht, grantees_sole hsole, List.foldl_cons, List.foldl_nil] at e
      have g : Ends (s.bump.popNeed core)
          ((s.bump.popNeed core).updWarp r.w (fun x => x.writeS (resultReg q.instr) 0xFFFFFFFF)) r.w :=
        ⟨rfl, by rw [State.updWarp, State.warp_setWarp_same]; rfl, by rw [State.updWarp, State.warp_setWarp_same]; rfl,
          fun v hv => AMap.find_put_other _ _ hv⟩
      rw [finishWait_ok hw ez g] at e
      refine ⟨_, e, ended_goes _ _ ez g, rfl, ?_⟩
      rw [State.updWarp, State.warp_setWarp_same, Warp.rawS, (Warp.wentOn_fields _ _ _).2.2.2.2.2, State.updWarp,
        State.warp_setWarp_same, Warp.writeS, AMap.find_put_same]
      rfl
    · rw [if_neg (by rw [ht]; exact Bool.false_ne_true), if_neg (by rw [deferred_popNeed]; exact Nat.not_le.2 hd)] at e
      have hz : ((s.bump.popNeed core).updCore core (fun c => { c with deferred := c.deferred ++ [r] })).Sole q.actor r.w := hsole
      rw [waitAll_sole hz] at e
      generalize hy : ((s.bump.popNeed core).updCore core (fun c => { c with deferred := c.deferred ++ [r] })).updWarp r.w
        (fun x => { x with wait := some ⟨.deferred, q.instr, q.actor, q.args⟩ }) = y at e
      have hyw : y.warp r.w = { s.warp r.w with wait := some ⟨.deferred, q.instr, q.actor, q.args⟩ } := by
        rw [← hy]
        exact State.warp_setWarp_same ..
      have hyc : (y.core core).deferred = (s.core core).deferred ++ [r] ∧ (y.core core).reqs = (s.core core).reqs.tail := by
        rw [← hy]
        simp only [State.popNeed, State.updWarp, State.setWarp, State.updCore, State.setCore, State.core, AMap.find_put_same]
        exact ⟨rfl, rfl⟩
      have hys : y.Sole q.actor r.w := by
        refine sole_congr (sole_of_waitsAlone hw) fun v => ?_
        by_cases hv : v = r.w
        · rw [hv, hyw]
        · rw [← hy, State.updWarp, State.warp_setWarp_other _ _ hv]
          rfl
      obtain ⟨hk, hbl⟩ := renumber_last (q := ⟨.deferred, q.instr, q.actor, q.args⟩) hyc.1 (congrArg Warp.wait hyw) hys
      obtain ⟨hcores, hblocks, hmem, hwarps⟩ := eqs_of_unblocked hk
      obtain ⟨hwt, hpc, -⟩ := hwarps r.w
      have hcore : (y.renumber core).core core = y.core core := by
        unfold State.core
        rw [hcores]
      refine ⟨_, e, ?_, ?_, ?_, ?_, ?_, ?_, hbl⟩
      · rw [hmem, ← hy]
        rfl
      · rw [hblocks, ← hy]
        rfl
      · rw [hpc, hyw]
      · rw [hcore, hyc.1]
      · rw [hcore, hyc.2]
      · rw [hwt, hyw]
    · rw [e, if_neg (by rw [ht]; exact Bool.false_ne_true), if_pos (by rw [deferred_popNeed]; exact hd), finishWait_cause (z := s.bump.popNeed core) hw rfl room]
      rfl

end Sys2Proof.Machine
end

section
/-! PROOF. The instructions that a block performs as one (12 R241 to R243, 19 R334 to R338). -/

namespace Sys2Proof.Machine

section
variable {s : State} {blk id v : Nat} {e : Inst} {op : Actor → State → Res} {t : State}

/-- A block's instruction whose operation completes. -/
theorem performs_ok (hp : Performs s blk id e v) {i : Instr} (hi : e.instr = i) (hop : wideOp i = some op)
    (h : op (company s blk e v) (gathered s blk e v) = .ok t) :
    exec (.rendezvousComplete blk id) s = .next (completed (company s blk e v) e.instr t) := by
  rw [exec_rendezvous_settle hp (hi ▸ hop), h]
  rfl

/-- A block's instruction whose operation gives the block up. -/
theorem performs_gone (hp : Performs s blk id e v) {i : Instr} (hi : e.instr = i) (hop : wideOp i = some op) {part : Nat}
    (hr : t.recordsFit part = true) (h : op (company s blk e v) (gathered s blk e v) = goneIf part t) :
    exec (.rendezvousComplete blk id) s = .next t := by
  rw [exec_rendezvous_settle hp (hi ▸ hop), h, goneIf, if_pos hr]
  rfl

end

section
variable {g : State} {a : Actor} {c : Nat}

theorem pollFjoin_joins {h : Hdr} {key : DWord} (hc : (g.warp a.lead).blk = c) (hk : key.toNat < 0x8000)
    (hf : (g.block c).fold = none) {ms : List (Nat × Nat × Nat)}
    (hms : g.keyMembers (g.block c).grid ((g.block c).core / 8) (BitVec.ofNat 32 ((g.block c).core / 8 * 65536 + key.toNat)) = ms)
    (hl : ∀ m ∈ ms, g.leaving m.1 = false) (h8 : ms.length < 8) (hcore : ∀ m ∈ ms, m.2.1 ≠ (g.block c).core) {rank : Nat}
    (hr : rank < 8) (hfree : ∀ m ∈ ms, m.2.2 ≠ rank) (hmin : ∀ r, r < rank → ∃ m ∈ ms, m.2.2 = r) :
    pollFjoin h key a g = .ok ((g.updBlock c (fun b =>
      { b with fold := some ⟨BitVec.ofNat 32 ((g.block c).core / 8 * 65536 + key.toNat), rank, none⟩ })).writeUniform
        a h.vd.toNat (BitVec.ofNat 32 rank)) := by
  have hfind : (List.range 8).find? (fun r => !ms.any (fun m => m.2.2 = r)) = some rank := by
    rw [List.find?_range_eq_some]
    refine ⟨?_, List.mem_range.2 hr, fun j hj => ?_⟩
    · simpa using fun a b c hm => hfree (a, b, c) hm
    · obtain ⟨m, hm, rfl⟩ := hmin j hj
      simpa using ⟨m.1, m.2.1, hm⟩
  unfold pollFjoin
  dsimp only
  rw [hc, if_neg (Nat.not_le.2 hk), hf, hms, if_neg (show ¬ Option.isSome none = true from Bool.false_ne_true),
    if_neg (by simpa using hl), if_neg (Nat.not_le.2 h8), if_neg (by simpa using fun x y hm => hcore (x, _, y) hm rfl), hfind]
  rfl

theorem opFjoin_joins {h : Hdr} {f : XForm} {key : Nat} (hkey : (syncReg g a f.va).toNat = key) (hc : (g.warp a.lead).blk = c) (hk : key < 0x8000)
    (hf : (g.block c).fold = none) {ms : List (Nat × Nat × Nat)}
    (hms : g.keyMembers (g.block c).grid ((g.block c).core / 8) (BitVec.ofNat 32 ((g.block c).core / 8 * 65536 + key)) = ms)
    (hl : ∀ m ∈ ms, g.leaving m.1 = false) (h8 : ms.length < 8) (hcore : ∀ m ∈ ms, m.2.1 ≠ (g.block c).core) {rank : Nat}
    (hr : rank < 8) (hfree : ∀ m ∈ ms, m.2.2 ≠ rank) (hmin : ∀ r, r < rank → ∃ m ∈ ms, m.2.2 = r) :
    opFjoin h (.x f) a g = .ok ((g.updBlock c (fun b =>
      { b with fold := some ⟨BitVec.ofNat 32 ((g.block c).core / 8 * 65536 + key), rank, none⟩ })).writeUniform
        a h.vd.toNat (BitVec.ofNat 32 rank)) := by
  have e : ((syncReg g a f.va).zeroExtend 64).toNat = key := (BitVec.toNat_setWidth_of_le (by decide)).trans hkey
  subst e
  exact pollFjoin_joins hc hk hf hms hl h8 hcore hr hfree hmin

theorem pollFleave_leaves (hc : (g.warp a.lead).blk = c) (ho : ∀ o ∈ g.ops, ¬ (o.2.blk = c ∧ o.2.namesFold = true))
    (hf : (g.block c).fold.isSome = true) (hl : ∀ v ∈ g.warpsOfBlock c, (g.warp v).loads = [] ∧ (g.warp v).stores = []) :
    pollFleave a g = .ok (g.updBlock c (fun b =>
      { b with leftGang := b.leftGang || b.fold.any (fun f => f.gang.isSome), fold := none })) := by
  unfold pollFleave
  dsimp only
  rw [hc, if_neg (by simpa using ho), if_neg (by simpa using Option.isSome_iff_ne_none.1 hf), if_neg (by simpa using hl)]
  rfl

theorem opFlockset_sets {va : BitVec 8} {imm : BitVec 24} (hc : (g.warp a.lead).blk = c)
    (hn : (imm.extractLsb' 0 5).toNat ∈ [1, 2, 4, 8, 16]) (hw : (imm.extractLsb' 0 5).toNat ≤ (g.block c).lrec.warps)
    (hi : ∀ e ∈ (g.block c).insts, e.scope = .flock → e.arrivals = []) :
    opFlockset (.xi va imm) a g = .ok (g.updBlock c (fun b => { b with flockSize := (imm.extractLsb' 0 5).toNat })) := by
  unfold opFlockset
  dsimp only
  generalize (imm.extractLsb' 0 5).toNat = n at *
  have hn : (n = 1 || n = 2 || n = 4 || n = 8 || n = 16) = true := by simpa [or_assoc] using hn
  rw [hc, hn, if_neg (by simpa using hw), if_neg (by simpa using hi)]

theorem opSliceyield_stays (hc : (g.warp a.lead).blk = c) (h : (g.preemptible c && g.coreWanted c) = false) :
    opSliceyield a g = .ok (g.updBlock c (fun b => { b with budget := b.lrec.budget.toNat })) := by
  unfold opSliceyield
  dsimp only
  rw [hc, h, if_neg Bool.false_ne_true]

theorem opSliceyield_gives (hc : (g.warp a.lead).blk = c) (h : (g.preemptible c && g.coreWanted c) = true) :
    opSliceyield a g = goneIf (g.block c).part (g.preemptAll c 0x82 0) := by
  unfold opSliceyield
  dsimp only
  rw [hc, h, if_pos rfl]
  rfl

/-- The block as REGION leaves it. -/
def State.entersRegion (g : State) (a : Actor) (c : Nat) : State :=
  g.updBlock c (fun b =>
    { b with
      inRegion := true, carry := (List.range 8).map (fun r => (g.warp (g.firstMember a)).readS (g.draw 0) r),
      regionPc := canon57 ((g.warp a.lead).pc + BitVec.ofNat 64 a.len) })

/-- What becomes of a block in its region, by the pre-emption asked for. -/
def State.preempts (t : State) (c part : Nat) : Option (Nat × Nat) → Res
  | some (v, reason) => if t.preemptible c then goneIf part (t.preemptAll v 0x82 reason) else .ok t
  | none => .ok t

theorem opRegion_enters (hc : (g.warp a.lead).blk = c) (h : (g.block c).inRegion = false) :
    opRegion a g = (g.entersRegion a c).preempts c (g.block c).part ((g.entersRegion a c).requested c) := by
  unfold opRegion
  dsimp only
  rw [hc, h, if_neg Bool.false_ne_true]
  rfl

theorem opRegionend_leaves (hc : (g.warp a.lead).blk = c) (h : (g.block c).inRegion = true) :
    opRegionend a g = .ok (g.updBlock c (fun b => { b with inRegion := false, gap := 0 })) := by
  unfold opRegionend
  dsimp only
  rw [hc, h, if_pos rfl]

end

/-- Settles O48: each instruction by its operation, in the slot of its bellwether. -/
theorem blockInstructions : Obligations.BlockInstructions := by
  unfold Obligations.BlockInstructions
  intro s blk id e v h f u va imm hp
  have hc : ((gathered s blk e v).warp (company s blk e v).lead).blk = (s.warp v).blk := by
    rw [warp_gathered]
    rfl
  dsimp only
  refine ⟨?_, ?_, ?_, ?_, ?_, ?_⟩
  · intro hi hk hf hl h8 hcore rank hr hfree hmin
    exact performs_ok hp hi rfl (opFjoin_joins rfl hc hk hf rfl hl h8 hcore hr hfree hmin)
  · exact fun hi ho hf hl => performs_ok hp hi rfl (pollFleave_leaves hc ho hf hl)
  · exact fun hi hn hw hl => performs_ok hp hi rfl (opFlockset_sets hc hn hw hl)
  · exact fun hi => ⟨fun hn => performs_ok hp hi rfl (opSliceyield_stays hc hn),
      fun hn hr => performs_gone hp hi rfl hr (opSliceyield_gives hc hn)⟩
  · intro hi hn
    have ho := opRegion_enters hc hn
    refine ⟨fun hr => ?_, fun m reason hr => ⟨fun hpre => ?_, fun hpre hfit => ?_⟩⟩
    · rw [show (State.entersRegion _ (company s blk e v) (s.warp v).blk).requested _ = none from hr] at ho
      exact performs_ok hp hi rfl ho
    · rw [show (State.entersRegion _ (company s blk e v) (s.warp v).blk).requested _ = some (m, reason) from hr] at ho
      unfold State.preempts at ho
      dsimp only at ho
      rw [show (State.entersRegion _ (company s blk e v) (s.warp v).blk).preemptible _ = false from hpre, if_neg Bool.false_ne_true] at ho
      exact performs_ok hp hi rfl ho
    · rw [show (State.entersRegion _ (company s blk e v) (s.warp v).blk).requested _ = some (m, reason) from hr] at ho
      unfold State.preempts at ho
      dsimp only at ho
      rw [show (State.entersRegion _ (company s blk e v) (s.warp v).blk).preemptible _ = true from hpre, if_pos rfl] at ho
      exact performs_gone hp hi rfl hfit ho
  · exact fun hi hn => performs_ok hp hi rfl (opRegionend_leaves hc hn)

end Sys2Proof.Machine
end

section
/-! PROOF. The return from an exception (21 R365). -/

namespace Sys2Proof.Machine

/-- A suspended warp whose active mask holds a lane that is not live. -/
def strayLane : State :=
  State.reset.setWarp 0 { Warp.blank with live := 1, active := 3, susp := some ⟨0, 0, [0], none, false, false, 0⟩ }

/-- The end of that warp removes its live lane alone: the other one stays active. -/
theorem active_endWarp_strayLane : ((strayLane.endWarp 0).warp 0).active = 2 := by decide +kernel

/-- Refutes O51: EXIT of all live lanes clears no lane of the active mask that is not live, and the statement admits a state with
such a lane; there mode 10 leaves the warp active. -/
theorem not_returnFromException : ¬ Obligations.ReturnFromException := by
  unfold Obligations.ReturnFromException
  intro h
  obtain ⟨-, -, -, -, -, -, -, hactive, -⟩ := h strayLane 0 ⟨0, 0, [0], none, false, false, 0⟩ 0 rfl
  rw [active_endWarp_strayLane] at hactive
  exact absurd hactive (by decide)

end Sys2Proof.Machine
end

section
/-! PROOF. The events of strings, power, heat and soft errors (21 R357). -/

namespace Sys2Proof.Machine

/-- A warp of a block that counts to partition 1, on a core that partition 0 holds. -/
def foreignWarp : State :=
  { State.reset with
    warps := [(0, { Warp.blank with live := 1, regEpochs := [none] })], blocks := [(0, { Block.blank with part := 1 })],
    parts := [(0, { Part.reset with configured := true, regions := [0] }), (1, { Part.reset with frTail := 5 })] }

/-- The number of the record that has suspended warp 0. -/
def suspendedUnder (o : Host.Outcome State Fault Refusal) : Option Nat :=
  match o with
  | .next t => (t.warp 0).susp.map (fun u => u.serial)
  | _ => none

/-- An uncorrectable error of that warp's registers: the record is its block's partition's, not its core's. -/
theorem suspendedUnder_foreignWarp : suspendedUnder (exec (.eccUncorrectable 0 0 0 0 0) foreignWarp) = some 5 := by decide +kernel

/-- Refutes O52: the statement numbers the record of an uncorrectable error in the ring of the partition that holds the core, and
the model in that of the warp's block, which the statement lets be another. -/
theorem not_stringEvents : ¬ Obligations.StringEvents := by
  unfold Obligations.StringEvents
  intro h
  obtain ⟨-, -, -, -, -, -, -, -, -, -, -, -, hecc⟩ := h foreignWarp 0 0
  obtain ⟨-, -, howner⟩ := hecc 0 0 0 0 (by decide +kernel)
  obtain ⟨t, ht, -, -, hsusp⟩ := howner 0 (by decide +kernel) (by decide +kernel)
  have hserial := suspendedUnder_foreignWarp
  rw [ht, suspendedUnder, hsusp (by decide) (by decide +kernel) (by decide +kernel)] at hserial
  exact absurd hserial (by decide +kernel)

end Sys2Proof.Machine
end

section
/-! PROOF. The return of a load and the end of a store (10 R211 to R213, 02 R59). -/

namespace Sys2Proof.Machine

/-- What each step of a fold keeps is kept. -/
theorem foldl_keeps {α β γ : Type} (p : α → γ) (f : α → β → α) (h : ∀ a b, p (f a b) = p a) (l : List β) (a : α) :
    p (l.foldl f a) = p a := by
  induction l generalizing a with
  | nil => rfl
  | cons b t ih => exact (ih _).trans (h a b)

/-! A cell lands. -/

/-- Two cells name different registers or lanes. -/
def LoadCell.Apart (c d : LoadCell) : Prop := c.uniform ≠ d.uniform ∨ c.reg ≠ d.reg ∨ (c.uniform = false ∧ c.lane ≠ d.lane)

/-- The register and lane that a cell names. -/
def LoadCell.place (c : LoadCell) : Bool × Nat × Nat := (c.uniform, c.reg, c.lane)

/-- Two places are different. -/
def PlacesApart (p q : Bool × Nat × Nat) : Prop := p.1 ≠ q.1 ∨ p.2.1 ≠ q.2.1 ∨ (p.1 = false ∧ p.2.2 ≠ q.2.2)

/-- What a cell that lands leaves of its warp. -/
def Warp.unlanded (x : Warp) : AMap Mask × DWord × Word × List PendStore × List AsyncTrap × List (Option Nat) :=
  (x.p, x.pc, x.sticky, x.stores, x.asyncTraps, x.regEpochs)

section
variable (x : Warp) (k : Nat) (c d : LoadCell)

theorem Warp.unlanded_landCell : (x.landCell k c).unlanded = x.unlanded := by
  unfold Warp.landCell
  dsimp only
  split <;> rfl

theorem Warp.vPoison_landCell : (x.landCell k c).vPoison = x.vPoison.filter (fun r => !(!c.uniform && c.reg = r)) := by
  unfold Warp.landCell
  dsimp only
  split
  next h => simp [h]
  next h =>
    refine List.filter_congr fun r _ => ?_
    rw [eq_false_of_ne_true h, bne, Bool.not_false, Bool.true_and, beq_eq_decide, decide_eq_decide.2 eq_comm]

/-- The value that a cell may leave. -/
def LoadCell.Lands (c : LoadCell) (old new : Word) : Prop := new = (old &&& c.keep) ||| c.value ∨ (c.clob = true ∧ new = old)

theorem Warp.cellNow_landCell_same : c.Lands (x.cellNow c) ((x.landCell k c).cellNow c) := by
  have h : (x.landCell k c).cellNow c =
      if c.clob && Config.freeBit k (vkey c.reg c.lane) then x.cellNow c else (x.cellNow c &&& c.keep) ||| c.value := by
    unfold Warp.landCell
    dsimp only
    generalize (if c.clob && Config.freeBit k (vkey c.reg c.lane) then x.cellNow c else (x.cellNow c &&& c.keep) ||| c.value) = v
    unfold Warp.cellNow
    split
    · rw [Warp.rawS, AMap.find_put_same]
      rfl
    · rw [Warp.rawV, AMap.find_put_same]
  rw [h]
  split
  next hb => exact .inr ⟨(Bool.and_eq_true _ _ ▸ hb).1, rfl⟩
  next => exact .inl rfl

theorem Warp.cellNow_landCell_other (h : c.Apart d) (hl : d.uniform = false → c.lane < 32 ∧ d.lane < 32) :
    (x.landCell k c).cellNow d = x.cellNow d := by
  unfold Warp.landCell
  dsimp only
  generalize (if c.clob && Config.freeBit k (vkey c.reg c.lane) then x.cellNow c else (x.cellNow c &&& c.keep) ||| c.value) = v
  by_cases hu : c.uniform = true
  · rw [if_pos hu]
    by_cases hv : d.uniform = true
    · have hr : d.reg ≠ c.reg := fun e => by
        rcases h with h | h | h
        · exact h (hu.trans hv.symm)
        · exact h e.symm
        · exact absurd (hu.symm.trans h.1) (by decide)
      simp only [Warp.cellNow, if_pos hv, Warp.rawS]
      rw [AMap.find_put_other _ _ hr]
    · simp only [Warp.cellNow, if_neg hv]
      rfl
  · rw [if_neg hu]
    by_cases hv : d.uniform = true
    · simp only [Warp.cellNow, if_pos hv]
      rfl
    · have hk : vkey d.reg d.lane ≠ vkey c.reg c.lane := fun e => by
        obtain ⟨hc, hd⟩ := hl (eq_false_of_ne_true hv)
        unfold vkey at e
        rcases h with h | h | h
        · exact h ((eq_false_of_ne_true hu).trans (eq_false_of_ne_true hv).symm)
        · exact h (by omega)
        · exact h.2 (by omega)
      simp only [Warp.cellNow, if_neg hv, Warp.rawV]
      rw [AMap.find_put_other _ _ hk]

end

/-! The cells of a load. -/

/-- A load's cells land. -/
def Warp.landAll (x : Warp) (k : Nat) (cs : List LoadCell) : Warp := cs.foldl (fun x c => x.landCell k c) x

section
variable {k : Nat} {cs : List LoadCell}

theorem Warp.unlanded_landAll (x : Warp) : (x.landAll k cs).unlanded = x.unlanded :=
  foldl_keeps Warp.unlanded _ (fun x c => x.unlanded_landCell k c) cs x

theorem Warp.vPoison_landAll (x : Warp) :
    (x.landAll k cs).vPoison = x.vPoison.filter (fun r => !cs.any (fun c => !c.uniform && c.reg = r)) := by
  induction cs generalizing x with
  | nil => exact (List.filter_eq_self.2 fun _ _ => rfl).symm
  | cons c cs ih =>
    rw [Warp.landAll, List.foldl_cons]
    refine (ih _).trans ?_
    rw [Warp.vPoison_landCell, List.filter_filter]
    refine List.filter_congr fun r _ => ?_
    rw [List.any_cons, Bool.not_or, Bool.and_comm]

theorem Warp.cellNow_landAll_other (x : Warp) {d : LoadCell} (h : ∀ c ∈ cs, c.Apart d)
    (hl : d.uniform = false → (∀ c ∈ cs, c.lane < 32) ∧ d.lane < 32) : (x.landAll k cs).cellNow d = x.cellNow d := by
  induction cs generalizing x with
  | nil => rfl
  | cons c cs ih =>
    have hm := List.mem_cons_self (a := c) (l := cs)
    exact (ih (x.landCell k c) (fun e he => h e (List.mem_cons_of_mem _ he))
      (fun hu => ⟨fun e he => (hl hu).1 e (List.mem_cons_of_mem _ he), (hl hu).2⟩)).trans
      (x.cellNow_landCell_other k c d (h c hm) fun hu => ⟨(hl hu).1 c hm, (hl hu).2⟩)

theorem Warp.cellNow_landAll_mem (x : Warp) (hc : ∀ c ∈ cs, c.lane < 32) (hp : cs.Pairwise LoadCell.Apart) {d : LoadCell} (hd : d ∈ cs) :
    d.Lands (x.cellNow d) ((x.landAll k cs).cellNow d) := by
  induction cs generalizing x with
  | nil => exact absurd hd List.not_mem_nil
  | cons c cs ih =>
    obtain ⟨hcs, hp⟩ := List.pairwise_cons.1 hp
    have hl := fun e (he : e ∈ cs) => hc e (List.mem_cons_of_mem _ he)
    rcases List.mem_cons.1 hd with rfl | hd
    · have symm : ∀ e ∈ cs, e.Apart d := fun e he => by
        rcases hcs e he with h | h | h
        · exact .inl h.symm
        · exact .inr (.inl h.symm)
        · by_cases hu : e.uniform = false
          · exact .inr (.inr ⟨hu, h.2.symm⟩)
          · exact .inl fun e' => hu (e'.trans h.1)
      have e : (x.landAll k (d :: cs)).cellNow d = (x.landCell k d).cellNow d :=
        (x.landCell k d).cellNow_landAll_other symm fun _ => ⟨hl, hc d List.mem_cons_self⟩
      rw [e]
      exact x.cellNow_landCell_same k d
    · have h := ih (x.landCell k c) hl hp hd
      rwa [x.cellNow_landCell_other k c d (hcs d hd) fun _ => ⟨hc c List.mem_cons_self, hl d hd⟩] at h

end

/-! The load. -/

theorem PendLoad.place_reread (q : PendLoad) (new : List LoadCell) :
    (q.reread new).cells.map LoadCell.place = q.cells.map LoadCell.place := by
  rw [PendLoad.reread, List.map_map]
  refine List.map_congr_left fun c _ => ?_
  dsimp only [Function.comp]
  split <;> rfl

/-- What a load that reads late keeps. -/
structure PendLoad.Reread (q r : PendLoad) : Prop where
  place : r.cells.map LoadCell.place = q.cells.map LoadCell.place
  rest : r = { q with cells := r.cells }

theorem readLate_keeps (s : State) (w : Nat) (q : PendLoad) :
    s.pastOf (s.readLate w q).1 ∧ q.Reread (s.readLate w q).2 := by
  unfold State.readLate
  generalize q.reads.filter _ = rs
  suffices h : ∀ e : State × PendLoad, s.pastOf e.1 ∧ q.Reread e.2 → let r := (rs.foldl (fun e r =>
      (e.1.readBy s (s.lateAgent w r) (s.draw 6) false r.target,
        e.2.reread (r.cells (s.see (s.lateAgent w r) (s.draw 6) r.target)))) e); s.pastOf r.1 ∧ q.Reread r.2 from
    h (s, q) ⟨s.pastOf_refl, rfl, rfl⟩
  induction rs with
  | nil => exact fun e h => h
  | cons r rs ih =>
    intro e h
    obtain ⟨hpast, hplace, hrest⟩ := h
    refine ih _ ⟨State.pastOf_trans hpast (State.readBy_pastOf ..), (PendLoad.place_reread ..).trans hplace, ?_⟩
    dsimp only [PendLoad.reread]
    rw [hrest]

section
variable {s : State} {w idx : Nat} {q : PendLoad} {x : Warp}

theorem warp_of_find (hx : s.warps.find w = some x) : s.warp w = x := by
  rw [State.warp, hx]
  rfl

theorem trapDue_eq (c : Cause) (atomic : Bool) (ipc iword : DWord) :
    x.trapDue c (if atomic then 1 else 0) ipc iword = { x with asyncTraps := x.asyncTraps ++ [dueTrap c atomic ipc iword] } := rfl

/-- A returned load but for the counter. -/
def Warp.returned (x : Warp) (k : Nat) (q : PendLoad) : Warp :=
  match q.bad with
  | some c => x.trapDue c (if q.atomic then 1 else 0) q.ipc q.iword
  | none => x.landAll k q.cells

/-- A warp with other loads in flight. -/
def Warp.withLoads (x : Warp) (l : List PendLoad) : Warp := { x with loads := l }

/-- A load leaves its counter; its cells have landed or its trap is due. -/
theorem Warp.returnLoad_eq (x : Warp) (k i : Nat) (q : PendLoad) : ∃ l, x.returnLoad k i q = (x.returned k q).withLoads l := ⟨_, rfl⟩

theorem exec_loadDataReturn (hx : s.warps.find w = some x) (hq : x.loads[idx]? = some q) (hd : q.done = false) :
    exec (.loadDataReturn w idx) s = .next (s.bump.loadReturns w idx q) := by
  have e : exec (.loadDataReturn w idx) s = execLoadDataReturn w idx s := rfl
  rw [e, execLoadDataReturn, hx, Option.bind_some, hq]
  dsimp only
  rw [when', hd]
  rfl

/-- The warp whose load returns. -/
theorem warp_loadReturns (hx : s.warps.find w = some x) : ∃ l, (s.bump.loadReturns w idx q).warp w =
    (x.returned (s.bump.draw 0) { (s.bump.readLate w q).2 with bad := q.bad <|> s.departed w q.folds }).withLoads l := by
  have e : s.bump.loadReturns w idx q = (s.bump.readLate w q).1.updWarp w (fun x =>
    x.returnLoad (s.bump.draw 0) idx { (s.bump.readLate w q).2 with bad := q.bad <|> s.departed w q.folds }) := rfl
  rw [e, State.updWarp, State.warp_setWarp_same, State.pastOf_warp (readLate_keeps s.bump w q).1,
    show s.bump.warp w = x from warp_of_find hx]
  exact Warp.returnLoad_eq ..

theorem loadReturns_rest : (s.bump.loadReturns w idx q).mem = s.mem ∧ (s.bump.loadReturns w idx q).blocks = s.blocks ∧
    (s.bump.loadReturns w idx q).parts = s.parts ∧ ∀ v, v ≠ w → (s.bump.loadReturns w idx q).warps.find v = s.warps.find v := by
  have h := (readLate_keeps s.bump w q).1
  unfold State.pastOf at h
  unfold State.loadReturns
  dsimp only
  rw [h]
  exact ⟨rfl, rfl, rfl, fun v hv => AMap.find_put_other _ _ hv⟩

theorem exec_peerTimeout_load (hx : s.warps.find w = some x) (hq : x.loads[idx]? = some q) (hd : q.done = false) (hp : q.peers ≠ []) :
    exec (.peerTimeout (.load w idx)) s =
      .next (s.bump.updWarp w (fun x => x.returnLoad (s.bump.draw 0) idx { q with bad := some (q.bad.getD cPeerTimeout) })) := by
  have e : exec (.peerTimeout (.load w idx)) s = happens "PEER_TIMEOUT" (s.bump.peerTimeout (.load w idx)) := rfl
  rw [e]
  unfold State.peerTimeout
  dsimp only
  rw [show s.bump.warps.find w = some x from hx, Option.bind_some, hq]
  dsimp only
  rw [hd, Bool.false_or, if_neg (by simpa using hp)]
  rfl

end

/-! The store. -/

section
variable {s : State} {w idx : Nat} {q : PendStore} {x : Warp}

theorem performStore_eq (x : Warp) (i : Nat) (q : PendStore) (bad : Option Cause) : x.performStore i { q with bad := bad } =
    { x with
      asyncTraps := match bad with
        | some c => x.asyncTraps ++ [dueTrap c q.atomic q.ipc q.iword]
        | none => x.asyncTraps
      stores := (setNth x.stores i { q with bad := bad, done := true }).dropWhile (fun e => e.done) } := by
  cases bad <;> rfl

theorem exec_storePerformed (hx : s.warps.find w = some x) (hq : x.stores[idx]? = some q) (hd : q.done = false) :
    exec (.storePerformed w idx) s =
      .next ((s.performed q.step w).updWarp w (fun x => x.performStore idx { q with bad := q.bad <|> s.departed w q.folds })) := by
  have e : exec (.storePerformed w idx) s = execStorePerformed w idx s := rfl
  rw [e, execStorePerformed, hx, Option.bind_some, hq]
  dsimp only
  rw [when', hd]
  rfl

theorem exec_peerTimeout_store (hx : s.warps.find w = some x) (hq : x.stores[idx]? = some q) (hd : q.done = false) (hp : q.peers ≠ []) :
    exec (.peerTimeout (.store w idx)) s = .next ((s.bump.performed q.step w).updWarp w (fun x =>
      x.performStore idx { q with bad := some (q.bad.getD cPeerTimeout) })) := by
  have e : exec (.peerTimeout (.store w idx)) s = happens "PEER_TIMEOUT" (s.bump.peerTimeout (.store w idx)) := rfl
  rw [e]
  unfold State.peerTimeout
  dsimp only
  rw [show s.bump.warps.find w = some x from hx, Option.bind_some, hq]
  dsimp only
  rw [hd, Bool.false_or, if_neg (by simpa using hp)]
  rfl

end

/-! The cells of a load that has read late are those that it had, by place. -/

section
variable {cs ds : List LoadCell} (h : ds.map LoadCell.place = cs.map LoadCell.place)
include h

theorem forall_of_place {p : Bool × Nat × Nat → Prop} (hp : ∀ c ∈ cs, p c.place) : ∀ d ∈ ds, p d.place := by
  rw [← List.forall_mem_map, h, List.forall_mem_map]
  exact hp

theorem pairwise_of_place (hp : cs.Pairwise LoadCell.Apart) : ds.Pairwise LoadCell.Apart := by
  have e : ∀ l : List LoadCell, l.Pairwise LoadCell.Apart ↔ (l.map LoadCell.place).Pairwise PlacesApart := fun l =>
    (List.pairwise_map (f := LoadCell.place) (R := PlacesApart)).symm
  rw [e, h, ← e]
  exact hp

theorem any_of_place (p : Bool × Nat × Nat → Bool) : ds.any (fun c => p c.place) = cs.any (fun c => p c.place) := by
  have e : ∀ l : List LoadCell, l.any (fun c => p c.place) = (l.map LoadCell.place).any p := fun l => List.any_map.symm
  rw [e, h, ← e]

end

theorem apart_lane {c : LoadCell} {r l : Nat} (h : ¬ (c.uniform = false ∧ c.reg = r ∧ c.lane = l)) :
    PlacesApart c.place (false, r, l) := by
  by_cases hu : c.uniform = false
  · by_cases hr : c.reg = r
    · exact .inr (.inr ⟨hu, fun e => h ⟨hu, hr, e⟩⟩)
    · exact .inr (.inl hr)
  · exact .inl hu

theorem apart_uniform {c : LoadCell} {r : Nat} (h : ¬ (c.uniform = true ∧ c.reg = r)) : PlacesApart c.place (true, r, 0) := by
  by_cases hu : c.uniform = true
  · exact .inr (.inl fun e => h ⟨hu, e⟩)
  · exact .inl hu

/-- Settles O53: a load by what ends it and by its cells, and a store by what ends it. -/
theorem loadAndStoreReturn : Obligations.LoadAndStoreReturn := by
  unfold Obligations.LoadAndStoreReturn
  intro s w idx x hx
  refine ⟨fun q hq hd => ?_, fun q hq hd hp hb => ?_, fun q hq hd => ?_, fun q hq hd hp hb => ?_⟩
  · dsimp only
    refine ⟨fun hr => by rw [State.readLate, hr]; rfl, _, exec_loadDataReturn hx hq hd, ?_⟩
    obtain ⟨hm, hbl, hpt, ho⟩ := loadReturns_rest (s := s) (w := w) (idx := idx) (q := q)
    obtain ⟨l, hw⟩ := warp_loadReturns (idx := idx) (q := q) hx
    obtain ⟨-, hplace, hrest⟩ := readLate_keeps s.bump w q
    generalize (s.bump.readLate w q).2 = late at hw hplace hrest ⊢
    generalize (q.bad <|> s.departed w q.folds) = bad at hw ⊢
    refine ⟨hm, hbl, hpt, ho, ?_⟩
    rw [hw]
    cases bad with
    | some c =>
      refine ⟨rfl, rfl, rfl, rfl, fun c' hc => ?_, nofun⟩
      cases hc
      rw [hrest]
      exact ⟨rfl, rfl, rfl, rfl⟩
    | none =>
      have hu := Warp.unlanded_landAll (k := s.bump.draw 0) (cs := late.cells) x
      refine ⟨congrArg (fun u => u.1) hu, congrArg (fun u => u.2.1) hu, congrArg (fun u => u.2.2.1) hu,
        congrArg (fun u => u.2.2.2.1) hu, nofun, fun _ => ⟨congrArg (fun u => u.2.2.2.2.1) hu, ?_, fun r l hl hr hlanes => ?_,
        fun r hr => ?_, fun hlanes hp c hc => ?_⟩⟩
      · refine x.vPoison_landAll.trans (List.filter_congr fun r _ => ?_)
        exact congrArg not (any_of_place hplace (fun p => !p.1 && p.2.1 = r))
      · refine x.cellNow_landAll_other (d := ⟨false, r, l, 0, 0, false⟩) (forall_of_place hplace (p := fun p =>
          PlacesApart p (false, r, l)) fun c hc => ?_) fun _ => ⟨forall_of_place hplace (p := fun p => p.2.2 < 32) hlanes, hl⟩
        exact apart_lane (hr c hc)
      · refine x.cellNow_landAll_other (d := ⟨true, r, 0, 0, 0, false⟩) (forall_of_place hplace (p := fun p =>
          PlacesApart p (true, r, 0)) fun c hc => ?_) nofun
        exact apart_uniform (hr c hc)
      · exact x.cellNow_landAll_mem (forall_of_place hplace (p := fun p => p.2.2 < 32) hlanes) (pairwise_of_place hplace hp) hc
  · refine ⟨_, exec_peerTimeout_load hx hq hd hp, ?_⟩
    obtain ⟨l, hw⟩ := x.returnLoad_eq (s.bump.draw 0) idx { q with bad := some (q.bad.getD cPeerTimeout) }
    rw [State.updWarp, State.warp_setWarp_same, show s.bump.warp w = x from warp_of_find hx, hw, hb]
    exact ⟨rfl, rfl, rfl⟩
  · rw [exec_storePerformed hx hq hd]
    exact congrArg (fun f => Host.Outcome.next ((s.performed q.step w).updWarp w f)) (funext fun x => performStore_eq x idx q _)
  · have hpast := s.bump.performed_pastOf q.step w
    refine ⟨_, exec_peerTimeout_store hx hq hd hp, (State.pastOf_mem hpast :), ?_⟩
    rw [State.updWarp, State.warp_setWarp_same, State.pastOf_warp hpast, show s.bump.warp w = x from warp_of_find hx, hb, performStore_eq]
    exact ⟨rfl, rfl, rfl⟩

end Sys2Proof.Machine
end

section
/-! PROOF. The lane-copy unit and the tile engine (14 R257 to R276). -/

namespace Sys2Proof.Machine

/-! A write with which no other races takes its place as it stands. -/

theorem sum_unitLens (words : Bool) (a n : Nat) : (unitLens words a n).sum = n := by
  unfold unitLens
  split
  · exact Nat.add_zero n
  · split
    · rw [List.sum_append, List.sum_replicate, List.sum_replicate, smul_eq_mul, smul_eq_mul]
      omega
    · rw [List.sum_replicate, smul_eq_mul, Nat.mul_one]

theorem flatten_pieces {β : Type} (ns : List Nat) (l : List β) (h : ns.sum = l.length) : (pieces ns l).flatten = l := by
  induction ns generalizing l with
  | nil => exact (List.length_eq_zero_iff.1 h.symm).symm
  | cons n t ih =>
    rw [pieces, List.flatten_cons, ih, List.take_append_drop]
    rw [List.length_drop, ← h, List.sum_cons, Nat.add_sub_cancel_left]

/-- No write is kept of a unit's bytes: an access misses none. -/
theorem State.cuts_free (s : State) (g : Agent) (k : Nat) (wr : Bool) (qs : List (Option Nat)) (h : ∀ q ∈ qs, s.pastAt q = []) :
    s.cuts g k wr qs = qs.map (fun _ => 0) := by
  unfold State.cuts
  dsimp only
  rw [if_pos (by simpa using h), List.map_map]
  rfl

theorem Placing.bytes_byte (a : Placing) (s : State) (g : Agent) (p : Put) (elem : Nat) (r : Past) (q : Option Nat) (cur new : Byte) :
    (a.byte s g p elem r 0 q cur new).bytes = a.bytes ++ [new] := by
  cases q <;> rfl

/-- The bytes of one unit, each below no other write. -/
theorem bytes_foldl_unit (s : State) (g : Agent) (p : Put) (elem : Nat) (r : Past) (u : List (Option Nat × Byte × Byte)) (a : Placing) :
    ((((u.map (fun e => e.1)).map (fun _ => 0)).zip u).foldl (fun acc e => acc.byte s g p elem r e.1 e.2.1 e.2.2.1 e.2.2.2) a).bytes =
      a.bytes ++ u.map (fun e => e.2.2) := by
  induction u generalizing a with
  | nil => exact (List.append_nil _).symm
  | cons e u ih =>
    rw [List.map_cons, List.map_cons, List.zip_cons_cons, List.foldl_cons, ih, Placing.bytes_byte, List.map_cons, List.append_assoc]
    rfl

/-- A fold over units that adds the bytes of each. -/
theorem bytes_foldl_units {γ : Type} (us : List (List γ)) (b : γ → Byte) (f : Placing → List γ → Placing)
    (h : ∀ a, ∀ u ∈ us, (f a u).bytes = a.bytes ++ u.map b) (a : Placing) : (us.foldl f a).bytes = a.bytes ++ us.flatten.map b := by
  induction us generalizing a with
  | nil => exact (List.append_nil _).symm
  | cons u t ih =>
    rw [List.foldl_cons, ih (fun a v hv => h a v (List.mem_cons_of_mem _ hv)), h a u List.mem_cons_self, List.flatten_cons,
      List.map_append, List.append_assoc]

theorem State.bytes_coherent (s : State) (g : Agent) (k : Nat) (p : Put) (ms : List (Nat × Mask)) (t : Target) (bs : List Byte)
    (hk : (s.keysOf t).length = bs.length) (hr : (s.readTarget k t).length = bs.length)
    (h : ∀ q ∈ s.keysOf t, s.pastAt q = []) : (s.coherent g k p ms t bs).bytes = bs := by
  have hz : ((s.keysOf t).zip ((s.readTarget k t).zip bs)).length = bs.length := by
    simp [List.length_zip, hk, hr]
  have hflat := flatten_pieces (unitLens g.words t.start bs.length) ((s.keysOf t).zip ((s.readTarget k t).zip bs))
    ((sum_unitLens ..).trans hz.symm)
  unfold State.coherent
  dsimp only
  rw [bytes_foldl_units _ (fun e => e.2.2) _ fun a u hu => ?_, hflat]
  · rw [List.nil_append, ← Function.comp_def (fun e : Byte × Byte => e.2) (fun e : Option Nat × Byte × Byte => e.2), ← List.map_map,
      List.map_snd_zip (by simp [List.length_zip, hk, hr]), List.map_snd_zip (by rw [hr])]
  · have hq : ∀ q ∈ u.map (fun e => e.1), s.pastAt q = [] := fun q hq => by
      obtain ⟨e, he, rfl⟩ := List.mem_map.1 hq
      have hm : e ∈ (s.keysOf t).zip ((s.readTarget k t).zip bs) := hflat ▸ List.mem_flatten.2 ⟨u, hu, he⟩
      exact h _ (List.of_mem_zip hm).1
    have hns : (if p.newest then (u.map (fun e => e.1)).map (fun _ => 0) else s.cuts g k true (u.map (fun e => e.1))) =
        (u.map (fun e => e.1)).map (fun _ => 0) := by
      rw [s.cuts_free g k true _ hq, ite_self]
    rw [hns]
    exact bytes_foldl_unit ..

/-- Bytes of scratch that no other write races with hold what is put there. -/
theorem State.scrPut_free (s : State) (g : Agent) (u off : Nat) (bs : List Byte)
    (h : ∀ q ∈ s.keysOf (.scr u off bs.length), s.pastAt q = []) :
    ∃ z, s.pastOf z ∧ s.scrPut g u off bs = z.writeTarget (.scr u off bs.length) bs := by
  unfold State.scrPut State.putBy
  split
  · exact ⟨s, s.pastOf_refl, rfl⟩
  · dsimp only
    rw [s.bytes_coherent _ _ _ _ _ _ (by simp [State.keysOf]) (by simp [State.readTarget, Block.scrRead]) h]
    exact ⟨{ s with past := _, sync := _ }, rfl, rfl⟩

theorem find_putBytes_same (m : AMap Byte) (o : Nat) (bs : List Byte) {k : Nat} (hk : k < bs.length) :
    (putBytes m o bs).find (o + k) = some (bs.getD k 0) := by
  induction bs generalizing m o k with
  | nil => exact absurd hk (Nat.not_lt_zero _)
  | cons b t ih =>
    cases k with
    | zero => 
      rw [putBytes, find_putBytes _ _ _ (.inl (by omega))]
      exact AMap.find_put_same ..
    | succ k =>
      rw [putBytes, show o + (k + 1) = o + 1 + k by omega, ih _ _ (Nat.lt_of_succ_lt_succ hk)]
      rfl

theorem scrByte_writeTarget (s : State) (u off : Nat) (bs : List Byte) {k : Nat} (hk : k < bs.length) :
    ((s.writeTarget (.scr u off bs.length) bs).block u).scrByte (off + k) = bs.getD k 0 := by
  unfold State.writeTarget State.updBlock State.setBlock State.block
  dsimp only
  rw [AMap.find_put_same, Option.getD_some, Block.scrByte, Block.scrWrite, find_putBytes_same _ _ _ hk]

/-! The events. -/

section
variable {s : State} {id : Nat} {o : EngOp}

theorem working_bump (ho : s.ops.find id = some o) (ha : (o.isLane || o.accepted) = true) (hf : o.fault = none) :
    s.bump.working id = some o := by
  unfold State.working
  rw [show s.bump.ops.find id = some o from ho]
  dsimp only
  rw [ha, hf]
  rfl

theorem performNow_ok {z t : State} (hw : z.working id = some o) (hb : z.opBehind id o = false) (hp : z.perform id o = some (.ok t)) :
    z.performNow id o.isLane = some ((t.fillOp o).trapWaiters o.blk) := by
  unfold State.performNow
  rw [hw]
  dsimp only
  rw [hb, Bool.or_false, bne_self_eq_false, if_neg Bool.false_ne_true, hp]

theorem completeTile_ok {z t : State} (hw : z.working id = some o) (hd : z.delivered? o = false) (hl : o.isLane = false)
    (hb : z.opBehind id o = false) (hp : z.perform id o = some (.ok t)) :
    z.completeTile id = some ((t.fillOp o).trapWaiters o.blk) := by
  unfold State.completeTile
  rw [hw]
  dsimp only
  rw [hd, if_neg Bool.false_ne_true, ← hl, performNow_ok hw hb hp]

theorem deliverCast_eq {z : State} {g : Handle} {rank u : Nat} {bs : List Byte} (ho : z.ops.find id = some o) (hk : o.kind = .tile 3 g)
    (ha : o.accepted = true) (hr : rank ∈ castLeft o) (hb : z.castBox id g o = .ok bs) (hu : z.castTarget g o rank = .ok u) :
    let r := (if o.box.isNone then z.fillOp o else z).castDeliver id g o rank u bs
    z.deliverCast id rank = some (r.1.failIf id o.blk r.2) := by
  intro r
  unfold State.deliverCast
  rw [ho]
  dsimp only
  rw [hk]
  dsimp only
  rw [ha, List.contains_iff_mem.2 hr, if_neg (by decide), hb, hu]

/-- A TLOAD whose box can be read. -/
theorem runTile_load {z : State} {g : Handle} {cells : List (Option (List (Place × Nat)))}
    (hr : z.boxRuns o.blk (Rights.r false) g (originOf o.regs) = .ok cells)
    (hp : z.peerPoisons (cells.filterMap (fun c => c.map Target.glob)) = false) :
    z.runTile id 1 g o = .ok ((z.scrPut (o.agent id) o.blk (regN o.regs 5) (z.boxRead (o.agent id) g cells)).notePeerReads
      (cells.filterMap (fun c => c.map Target.glob))) := by
  unfold State.runTile
  dsimp only
  rw [show tileRights 1 (regN o.regs 6) = Rights.r false from rfl, hr]
  dsimp only
  rw [show tileOut 1 (regN o.regs 6) = false from rfl, if_neg Bool.false_ne_true, hp, if_neg Bool.false_ne_true]

end

/-- Settles O54: each event by what its operation is, and a TLOAD's box by where it lies. -/
theorem engineEvents : Obligations.EngineEvents := by
  unfold Obligations.EngineEvents
  intro s id o ho
  dsimp only
  have hob : s.bump.ops.find id = some o := ho
  have happened : ∀ {n : String} {r : Option State} {t : State}, r = some t → happens n r = .next t := fun h => by rw [h]; rfl
  refine ⟨?_, ?_, ?_, ?_, ?_, ?_, ?_, ?_, ?_, ?_, ?_⟩
  · intro w rest hq hs
    refine (show exec (.tileAccept w) s = happens "TILE_ACCEPT" (s.acceptTile w) from rfl).trans (happened ?_)
    unfold State.acceptTile
    rw [hq]
    dsimp only
    rw [ho]
    dsimp only
    rw [if_neg (Nat.not_le.2 hs)]
  · intro l src dst size v nt hk hf t ht
    have hl : o.isLane = true := by rw [EngOp.isLane, hk]
    refine (show exec (.lcopyTransferDone id) s = happens "LCOPY_TRANSFER_DONE" (s.bump.performNow id true) from rfl).trans (happened ?_)
    rw [← hl]
    refine performNow_ok (working_bump ho (by rw [hl]; rfl) hf) (by rw [State.opBehind, hk]) ?_
    rw [State.perform, hk]
    dsimp only
    rw [ht]
    rfl
  · intro fn g hk h3 ha hf t ht
    refine (show exec (.tileOpComplete id) s = happens "TILE_OP_COMPLETE" (s.bump.completeTile id) from rfl).trans (happened ?_)
    refine completeTile_ok (working_bump ho (by rw [ha, Bool.or_true]) hf) ?_ (by rw [EngOp.isLane, hk]) (by rw [State.opBehind, hk]) ?_
    · rw [State.delivered?, hk]
      dsimp only
      rw [decide_eq_false h3, Bool.false_and]
    · rw [State.perform, hk]
      dsimp only
      rw [if_neg h3, ht]
      rfl
  · intro k c g bs hk ha hf hb hbox
    refine (show exec (.tileOpComplete id) s = happens "TILE_OP_COMPLETE" (s.bump.completeTile id) from rfl).trans (happened ?_)
    refine completeTile_ok (working_bump ho (by rw [ha, Bool.or_true]) hf) (by rw [State.delivered?, hk]) (by rw [EngOp.isLane, hk]) hb ?_
    rw [State.perform, hk]
    dsimp only
    rw [hbox]
    rfl
  · intro g cells hk hruns hpoison hfree
    obtain ⟨z, hz, hput⟩ := s.bump.scrPut_free (o.agent id) o.blk (regN o.regs 5) (s.bump.boxRead (o.agent id) g cells) hfree
    have hframe := StoreFrame.putBy s.bump (o.agent id) (s.bump.draw 13) (Put.store false)
      (.scr o.blk (regN o.regs 5) (s.bump.boxRead (o.agent id) g cells).length) (s.bump.boxRead (o.agent id) g cells) trivial
      (fun _ _ _ e => by cases e; exact Nat.le_refl _)
    have hout := ((s.bump.scrPut (o.agent id) o.blk (regN o.regs 5) (s.bump.boxRead (o.agent id) g cells)).notePeerReads_outputsOf
      (cells.filterMap (fun c => c.map Target.glob)))
    refine ⟨_, runTile_load hruns hpoison, ?_⟩
    rw [hout]
    refine ⟨?_, hframe.warps, fun k hk' => ?_, fun u n hn => ?_⟩
    · exact (congrArg State.mem hput).trans (State.pastOf_mem hz :)
    · exact (congrArg (fun y : State => (y.block o.blk).scrByte (regN o.regs 5 + k)) hput).trans (scrByte_writeTarget z _ _ _ hk')
    · refine hframe.bytes.2 u n fun e he hh => hn ?_
      rw [List.mem_singleton.1 he] at hh
      exact ⟨hh.1.symm, hh.2.1, hh.2.2⟩
  · intro g hk ha hf hall
    refine (show exec (.tileOpComplete id) s = happens "TILE_OP_COMPLETE" (s.bump.completeTile id) from rfl).trans (happened ?_)
    unfold State.completeTile
    rw [working_bump ho (by rw [ha, Bool.or_true]) hf]
    dsimp only
    rw [if_pos ?_]
    rw [State.delivered?, hk]
    dsimp only
    rw [decide_eq_true rfl, Bool.true_and, List.all_eq_true]
    intro r hr
    obtain ⟨hc, hu⟩ := hall r hr
    rw [hc, Bool.true_and]
    split
    next u e => exact absurd e (hu u)
    next => rfl
  · intro g rank bs u hk ha hr hb hu
    exact (show exec (.tmcastDelivery id rank) s = happens "TMCAST_DELIVERY" (s.bump.deliverCast id rank) from rfl).trans
      (happened (deliverCast_eq hob hk ha hr hb hu))
  · intro ha hf hc ht e he
    refine (show exec (.engineAsyncFault id) s = happens "ENGINE_ASYNC_FAULT" (s.bump.failNow id) from rfl).trans (happened ?_)
    unfold State.failNow
    rw [working_bump ho ha hf]
    dsimp only
    rw [ht, hc, if_neg (by decide), he]
    rfl
  · intro f hf hs
    refine (show exec (.engineReplay id) s = happens "ENGINE_REPLAY" (s.bump.replayNow id) from rfl).trans (happened ?_)
    unfold State.replayNow
    rw [hob]
    dsimp only
    rw [hf, Option.any_some, hs, if_pos rfl]
  · intro g hk ha hf
    refine (show exec (.peerTimeout (.engine id)) s = happens "PEER_TIMEOUT" (s.bump.peerTimeout (.engine id)) from rfl).trans (happened ?_)
    unfold State.peerTimeout
    dsimp only
    rw [working_bump ho (by rw [ha, Bool.or_true]) hf, Option.bind_some, hk]
    rfl
  · intro part ha hf
    refine (show exec (.hostTimeout part (some id)) s = happens "HOST_TIMEOUT" (s.bump.hostTimeout part (some id)) from rfl).trans
      (happened ?_)
    unfold State.hostTimeout
    dsimp only
    rw [working_bump ho ha hf]
    rfl

end Sys2Proof.Machine
end

section
/-! PROOF. The events of the matrix unit (16 R301, 02 R54). -/

namespace Sys2Proof.Machine

/-- A write that warp 1 has yet to see, and that the matrix operation of number 0 knows. -/
def racingWrite : Past :=
  { id := ⟨0, 0, 0, 0⟩, old := 0, oldRels := [], origin := ⟨0, 0, 0, noFlock, []⟩, rmw := false, patience := 0, unread := [(1, 1)],
    known := [(workKey 0, 1)], sent := [] }

/-- A warp whose unit is about to perform an MMA of no elements, while that write is kept. -/
def racingUnit : State :=
  { State.reset with
    warps := [(0, { Warp.blank with matrix := [⟨0, .mma 0 0 [] [], 3, 0, 0, false, none⟩] })], past := [(0, [racingWrite])] }

/-- The releases that each write kept is ordered by. -/
def sentAfter (o : Host.Outcome State Fault Refusal) : List (List Msg) :=
  match o with
  | .next t => t.past.flatMap (fun e => e.2.map (fun r => r.sent))
  | _ => []

/-- The end of the operation releases what it knows (02 R54). -/
theorem sentAfter_racingUnit : sentAfter (exec (.mmaComplete 0) racingUnit) = [[.unit 0 0 0]] := by decide +kernel

/-- Refutes O55: an operation's end is also its release, which orders every write that it knows before a covering WAITC (02 R54);
the statement gives the state after it without that release. -/
theorem not_matrixEvents : ¬ Obligations.MatrixEvents := by
  unfold Obligations.MatrixEvents
  intro h
  obtain ⟨-, hnext, -⟩ := h racingUnit 0
  obtain ⟨-, hmma, -⟩ := hnext 0 ⟨0, .mma 0 0 [] [], 3, 0, 0, false, none⟩ (by decide +kernel) (by decide +kernel)
  have hsent := sentAfter_racingUnit
  rw [hmma 0 0 [] [] rfl] at hsent
  exact absurd hsent (by decide +kernel)

end Sys2Proof.Machine
end

section
/-! PROOF. The events of the KV unit and the pager (17 R307 to R320, 18 R322). -/

namespace Sys2Proof.Machine

/-! All of some answers. -/

theorem exceptAll_eq_ok {β : Type} {l : List (Except KvErr β)} {bs : List β} (h : exceptAll l = .ok bs) : l = bs.map .ok := by
  induction l generalizing bs with
  | nil =>
    cases h
    rfl
  | cons e l ih =>
    cases e with
    | error e => exact nomatch h
    | ok b =>
      rw [exceptAll] at h
      split at h
      · exact nomatch h
      next cs hc =>
        cases h
        rw [ih hc]
        rfl

theorem exceptAll_mem {β γ : Type} {l : List γ} {f : γ → Except KvErr β} {bs : List β} (h : exceptAll (l.map f) = .ok bs) {x : γ}
    (hx : x ∈ l) : ∃ y ∈ bs, f x = .ok y := by
  have hm : f x ∈ bs.map Except.ok := exceptAll_eq_ok h ▸ List.mem_map_of_mem hx
  obtain ⟨y, hy, e⟩ := List.mem_map.1 hm
  exact ⟨y, hy, e.symm⟩

theorem exceptAll_range {β : Type} {n : Nat} {f : Nat → Except KvErr β} {bs : List β} (h : exceptAll ((List.range n).map f) = .ok bs) :
    bs.length = n ∧ ∀ i, i < n → ∃ y, f i = .ok y ∧ bs[i]? = some y := by
  have e := exceptAll_eq_ok h
  have hn : bs.length = n := by simpa using (congrArg List.length e).symm
  refine ⟨hn, fun i hi => ?_⟩
  have hi' : i < bs.length := hn ▸ hi
  have e := congrArg (fun l => l[i]?) e
  simp only [List.getElem?_map, List.getElem?_range hi, List.getElem?_eq_getElem hi', Option.map_some] at e
  exact ⟨bs[i], Option.some.inj e, List.getElem?_eq_getElem hi'⟩

theorem except_map_ok {ε α β : Type} {f : α → β} {e : Except ε α} {y : β} (h : e.map f = .ok y) : ∃ x, e = .ok x ∧ f x = y := by
  cases e with
  | error e => exact nomatch h
  | ok x => exact ⟨x, rfl, Except.ok.inj h⟩

/-! The step of an append. -/

theorem appendPlanned (d : KvDesc) (c : Nat) : AppendPlanned d c (appendPlan d c) := by
  unfold AppendPlanned appendPlan
  cases d.path.getLast? with
  | none => exact ⟨rfl, rfl, rfl, rfl⟩
  | some f =>
    dsimp only
    refine ⟨rfl, fun h => ?_, fun h => ?_, fun h1 h2 => ?_, fun h => ?_, fun e => ?_, rfl⟩
    · rw [if_pos (by simpa [and_assoc] using h)]
    · rw [if_neg (by simpa [and_assoc] using h)]
    · rw [if_pos (by simp [h1, h2])]
    · rw [if_neg (by simpa using h)]
    · simp only [List.mem_map, List.mem_filter, List.mem_range, decide_eq_true_eq]
      exact ⟨fun ⟨i, ⟨h1, h2⟩, h3⟩ => ⟨i, h1, h2, h3.symm⟩, fun ⟨i, h1, h2, h3⟩ => ⟨i, ⟨h1, h2⟩, h3.symm⟩⟩

section
variable {b t : State} {id : Nat} {o : EngOp} {v : Via} {p : KvPool}

theorem kvPops_ok {n : Nat} {pops : List Nat} (h : b.kvPops v p n = .ok pops) : pops.length = n ∧ n ≤ p.free ∧
    ∀ i, i < pops.length → ∃ bs, b.kvRead v (atOff p.stack (4 * (p.free - 1 - i))) 4 = .ok bs ∧ leNat bs = pops.getD i 0 := by
  unfold State.kvPops at h
  split at h
  · exact nomatch h
  next hn =>
    obtain ⟨hl, hall⟩ := exceptAll_range h
    refine ⟨hl, Nat.not_lt.1 hn, fun i hi => ?_⟩
    obtain ⟨x, hx, hp⟩ := hall i (hl ▸ hi)
    split at hx
    · exact nomatch hx
    next bs hbs =>
      split at hx
      · exact nomatch hx
      · refine ⟨bs, hbs, ?_⟩
        rw [List.getD_eq_getElem?_getD, hp, ← Except.ok.inj hx]
        rfl

/-- What a copy of rows writes. -/
theorem copyRows_mem {src dst : DWord} {ts : List Nat} {ws : List KvWrite} (h : b.copyRows v p src dst ts = .ok ws) {r : Nat}
    (hr : r ∈ ts) : ∃ k w, b.kvRead v (atOff src (r * p.rb)) p.rb = .ok k ∧ b.kvRead v (atOff src ((16 + r) * p.rb)) p.rb = .ok w ∧
      (atOff dst (r * p.rb), k) ∈ ws ∧ (atOff dst ((16 + r) * p.rb), w) ∈ ws := by
  unfold State.copyRows at h
  obtain ⟨wss, hall, rfl⟩ := except_map_ok h
  obtain ⟨w2, hw2, e⟩ := exceptAll_mem hall hr
  split at e
  · exact nomatch e
  next k hk =>
    split at e
    · exact nomatch e
    next w hw =>
      cases e
      exact ⟨k, w, hk, hw, List.mem_flatten.2 ⟨_, hw2, List.mem_cons_self⟩, List.mem_flatten.2 ⟨_, hw2, by simp [rowWrites]⟩⟩

/-- What a step notes for the pager changes its partition alone. -/
theorem kvNote_rest (s : State) (part : Nat) (nodes : List DWord) (pool : DWord) (free mark : Nat) :
    (s.kvNote part nodes pool free mark).mem = s.mem ∧ (s.kvNote part nodes pool free mark).past = s.past ∧
      (s.kvNote part nodes pool free mark).warps = s.warps ∧ (s.kvNote part nodes pool free mark).blocks = s.blocks :=
  ⟨rfl, rfl, rfl, rfl⟩

theorem appendWrites_of_runAppend (h : b.runAppend id o = .ok t) : AppendWrites b id o t := by
  unfold State.runAppend at h
  dsimp only at h
  split at h
  · exact nomatch h
  next d hd =>
  split at h
  · exact nomatch h
  next p hp =>
  split at h
  · exact nomatch h
  split at h
  · exact nomatch h
  next hspare =>
  split at h
  · exact nomatch h
  split at h
  · exact nomatch h
  split at h
  · exact nomatch h
  next halign =>
  split at h
  · exact nomatch h
  · exact nomatch h
  next ks vs hks hvs =>
  split at h
  · exact nomatch h
  next pops hpops =>
  split at h
  · exact nomatch h
  · exact nomatch h
  next cw places hcw hplaces =>
  split at h
  · exact nomatch h
  next y hy =>
  simp only [decide_eq_true_eq] at hy h
  cases h
  obtain ⟨hm, hpa, hwa, hbl⟩ := kvNote_rest y (b.engineVia o.blk).part (d.path.map (fun n => n.addr) ++
    (if (appendPlan d (regN o.regs 2)).toF < regN o.regs 2 then [regPair o.regs 5] else [])) d.pool (p.free - pops.length) p.mark
  obtain ⟨hlen, hfree, hread⟩ := kvPops_ok hpops
  obtain ⟨-, hplace⟩ := exceptAll_range hplaces
  refine ⟨d, p, pops, _, ks, vs, y, hd, hp, appendPlanned d _, hks, hvs, hlen, hlen ▸ hfree, hread, hy, hm, hpa, hwa, hbl, fun i hi => ?_,
    fun f hf hto => ?_, fun hnew => ?_⟩
  · obtain ⟨⟨page, row⟩, htp, hget⟩ := hplace i hi
    have hz : (i, page, row) ∈ (List.range (regN o.regs 2)).zip places :=
      List.mem_iff_getElem?.2 ⟨i, List.getElem?_zip_eq_some.2 ⟨List.getElem?_range hi, hget⟩⟩
    have hrow : ∀ w ∈ rowWrites p page row ((ks.drop (i * p.rb)).take p.rb) ((vs.drop (i * p.rb)).take p.rb),
        w ∈ ((List.range (regN o.regs 2)).zip places).flatMap (fun e =>
          rowWrites p e.2.1 e.2.2 ((ks.drop (e.1 * p.rb)).take p.rb) ((vs.drop (e.1 * p.rb)).take p.rb)) :=
      fun w hw => List.mem_flatMap.2 ⟨_, hz, hw⟩
    exact ⟨page, row, htp, List.mem_append_left _ (List.mem_append_left _ (List.mem_append_right _ (hrow _ List.mem_cons_self))),
      List.mem_append_left _ (List.mem_append_left _ (List.mem_append_right _ (hrow _ (by simp [rowWrites]))))⟩
  · refine ⟨List.mem_append_left _ (List.mem_append_right _ ?_), fun j hj => List.mem_append_left _ (List.mem_append_right _ ?_)⟩ <;>
      rw [hf] <;> dsimp only <;> rw [if_neg (Nat.ne_of_gt hto)]
    · exact List.mem_append_right _ (List.mem_singleton.2 rfl)
    · exact List.mem_append_left _ (List.mem_map.2 ⟨j, List.mem_range.2 hj, rfl⟩)
  · have hg : decide ((appendPlan d (regN o.regs 2)).toF < regN o.regs 2) = true := decide_eq_true hnew
    rw [hg, Bool.true_and] at hspare halign
    refine ⟨by simpa using hspare, by simpa using halign, List.mem_append_right _ ?_, List.mem_append_right _ ?_,
      fun f r hf hr hlen' hwin => ?_⟩
    · rw [if_pos hnew]
      exact List.mem_cons_of_mem _ List.mem_cons_self
    · rw [if_pos hnew]
      exact List.mem_cons_self
    · have hc : r ∈ (List.range 16).filter (fun t => decide ((appendPlan d (regN o.regs 2)).toF < regN o.regs 2) &&
          decide ((appendPlan d (regN o.regs 2)).gStart + t < d.len) && decide (d.win ≤ (appendPlan d (regN o.regs 2)).gStart + t)) := by
        simp [hnew, hr, hlen', hwin]
      rw [hf] at hcw
      dsimp only at hcw
      rw [if_neg (by rw [List.isEmpty_iff]; exact List.ne_nil_of_mem hc)] at hcw
      split at hcw
      · exact nomatch hcw
      next page hpage =>
      obtain ⟨k, w, hk, hw, h1, h2⟩ := copyRows_mem hcw hc
      exact ⟨page, k, w, hpage, hk, hw, List.mem_append_left _ (List.mem_append_left _ (List.mem_append_left _ h1)),
        List.mem_append_left _ (List.mem_append_left _ (List.mem_append_left _ h2))⟩

/-! The step of a merge. -/

theorem mergeRow_bad {ovf : Word} {r : List Nat} {rest : List (List Nat)}
    (h : ∃ x ∈ r :: rest, (∃ p, fp32.decode (x.headD 0) = .nan p) ∨ fp32.decode (x.headD 0) = .inf false) :
    mergeRow ovf (r :: rest) = r.map (fun _ => fp32.nanBits) := by
  obtain ⟨x, hx, h⟩ := h
  unfold mergeRow
  dsimp only
  rw [if_pos (List.any_eq_true.2 ⟨x, hx, ?_⟩)]
  rcases h with ⟨p, h⟩ | h <;> rw [h]
  rfl

theorem mergeRow_good {ovf : Word} {r : List Nat} {rest : List (List Nat)}
    (h : ∀ x ∈ r :: rest, ¬ ((∃ p, fp32.decode (x.headD 0) = .nan p) ∨ fp32.decode (x.headD 0) = .inf false)) :
    mergeRow ovf (r :: rest) = rest.foldl (mergeTwo ovf) r := by
  unfold mergeRow
  dsimp only
  rw [if_neg]
  intro hb
  obtain ⟨x, hx, hb⟩ := List.any_eq_true.1 hb
  refine h x hx ?_
  split at hb
  next p hp => exact .inl ⟨p, hp⟩
  next n hn =>
    rw [Bool.not_eq_true'] at hb
    exact .inr (hb ▸ hn)
  next => exact nomatch hb

theorem mergeWeight_inf {ovf : Word} {m mn : Nat} {z : Bool} (h : fp32.decode m = .inf z) : mergeWeight ovf m mn = 0 := by
  rw [mergeWeight, h]

theorem mergeWeight_other {ovf : Word} {m mn : Nat} (h : ∀ z, fp32.decode m ≠ .inf z) :
    mergeWeight ovf m mn = foldExp2 ovf (f32op ovf (addRaw 0 (fp32.decode m) (fp32.decode mn).neg)) := by
  unfold mergeWeight
  split
  next z hz => exact absurd hz (h z)
  next => rfl

/-- A byte of the destination, which may be left open where it overlaps the member's own source. -/
theorem getElem?_merged {data : List Byte} {n : Nat} {p : Nat → Bool} {f : Nat → Byte} {k : Nat} (hk : k < n) :
    (((data.zip (List.range n)).map (fun e => if p e.2 then f e.2 else e.1))[k]? = data[k]?) ∨ p k = true := by
  by_cases hp : p k = true
  · exact .inr hp
  · refine .inl ?_
    cases hd : data[k]? with
    | some x =>
      have hz : (data.zip (List.range n))[k]? = some (x, k) := List.getElem?_zip_eq_some.2 ⟨hd, List.getElem?_range hk⟩
      rw [List.getElem?_map, hz, Option.map_some, if_neg hp]
    | none =>
      refine List.getElem?_eq_none ?_
      rw [List.length_map, List.length_zip]
      exact (Nat.min_le_left _ _).trans (List.getElem?_eq_none_iff.1 hd)

theorem mergeWrites_of_runMerge (h : b.runMerge id o = .ok (t, none)) : MergeWrites b id o t := by
  unfold State.runMerge at h
  dsimp only at h
  split at h
  · exact nomatch h
  next srcs hs =>
  split at h
  · exact nomatch h
  next u hu =>
  have hbytes := fun k (hk : k < mergeBytes o.regs) => getElem?_merged
    (data := mergeAll (b.part (b.block o.blk).part).ovf (regN o.regs 1) (regN o.regs 2) srcs)
    (p := fun k => (ranksOf (regN o.regs 0 % 256)).contains (mergeDest o.regs) && decide (regN o.regs 3 ≠ regN o.regs 4) &&
      decide (regN o.regs 3 ≤ regN o.regs 4 + k) && decide (regN o.regs 4 + k < regN o.regs 3 + mergeBytes o.regs))
    (f := fun k => Config.freeByte (b.draw 11) k) hk
  generalize List.map _ (List.zip _ (List.range (mergeBytes o.regs))) = bs at h hbytes
  refine ⟨srcs, u, hs, hu, ⟨bs, fun k hk => (hbytes k hk).imp_right fun hp => ?_, fun hn => ?_, fun hn => ?_⟩, rfl,
    fun r rest => ⟨mergeRow_bad, mergeRow_good⟩, fun m m2 x y => rfl, fun m mn => ⟨fun z hz => mergeWeight_inf hz, mergeWeight_other⟩⟩
  · simpa [and_assoc] using hp
  · rw [if_pos hn] at h
    cases h
    rfl
  · rw [if_neg hn] at h
    split at h
    next r hr =>
      cases h
      exact hr
    next => exact nomatch h

/-! The move of a page-in. -/

theorem mem_demoteReqs_kvNote (s : State) (part : Nat) (nodes : List DWord) (pool : DWord) (free mark : Nat) (h0 : mark ≠ 0)
    (h : free < mark) : pool ∈ ((s.kvNote part nodes pool free mark).part part).demoteReqs := by
  unfold State.kvNote State.updPart State.setPart State.part
  dsimp only
  rw [AMap.find_put_same, Option.getD_some]
  dsimp only
  split
  · exact List.mem_append_right _ (List.mem_singleton.2 rfl)
  next hn =>
    by_contra hm
    exact hn (by simp [h0, h, hm])

theorem pageInWrites_of_pageInMove {part : Nat} {r : PageReq} {w : Word} (h : b.pageInMove part p r w = some t) :
    PageInWrites b part p r w t := by
  unfold State.pageInMove at h
  split at h
  · exact nomatch h
  next i hi =>
  dsimp only at h
  split at h
  · exact nomatch h
  next bs hbs =>
  split at h
  · exact nomatch h
  next y hy =>
  have hm := mem_demoteReqs_kvNote (if entTier w then y else { y with outputs := y.outputs ++ [Output.pagerFetch part r.node r.entry] }) part
    [r.node] p.base (p.free - 1) p.mark
  refine ⟨i, bs, y, hi, fun hw => ?_, fun hw => ?_, hy, ?_⟩
  · rw [if_pos hw] at hbs
    exact hbs
  · rw [if_neg (by rw [hw]; exact Bool.false_ne_true)] at hbs
    cases hbs
    simp
  · cases h
    refine ⟨?_, ?_, ?_, ?_, hm⟩ <;> split <;> rfl

/-! The pager's requests. -/

/-- No earlier request names the entry. -/
theorem pageReq_some {q : Part} {n : Nat} {r : PageReq} (h : q.pageReqs[n]? = some r)
    (hfirst : ∀ e ∈ q.pageReqs.take n, ¬ (e.node = r.node ∧ e.entry = r.entry)) : q.pageReq n = some r := by
  unfold Part.pageReq
  rw [h]
  dsimp only
  rw [if_neg]
  simpa using hfirst

theorem pageReq_none {q : Part} {n : Nat} {r : PageReq} (h : q.pageReqs[n]? = some r)
    (hlater : ∃ e ∈ q.pageReqs.take n, e.node = r.node ∧ e.entry = r.entry) : q.pageReq n = none := by
  unfold Part.pageReq
  rw [h]
  dsimp only
  rw [if_pos]
  simpa using hlater

end

theorem happens_some {n : String} {r : Option State} {t : State} (h : r = some t) : happens n r = .next t := by
  rw [h]
  rfl

/-- Settles O56: each event by what its operation is, and each step by its writes. -/
theorem kvEvents : Obligations.KvEvents := by
  unfold Obligations.KvEvents
  intro s id part o
  dsimp only
  refine ⟨fun ho ha hf => ?_, fun t h => appendWrites_of_runAppend h, fun t h => mergeWrites_of_runMerge h,
    fun p r w t h => pageInWrites_of_pageInMove h, fun n r hr hfirst => ?_, fun n r hr hlater => ?_, fun n pool hp => ?_⟩
  · have hw := working_bump ho (by rw [ha, Bool.or_true]) hf
    refine ⟨fun v g d p hk ht hg => ?_, fun v g j rows hk hj hrows => ?_, fun v g j rest rows hk hp hab hj hrows => ?_,
      fun v g hk hall => ?_, fun t hk ht hr => ?_, fun t hk hr => ?_⟩
    · refine (show exec (.kvgatherWalk id) s = happens "KVGATHER_WALK" (s.bump.gatherWalkNow id) from rfl).trans (happens_some ?_)
      unfold State.gatherWalkNow
      rw [hw]
      dsimp only
      rw [hk]
      dsimp only
      rw [ht, if_neg (by decide), hg]
    · refine (show exec (.kvPageDelivery id j) s = happens "KV_PAGE_DELIVERY" (s.bump.pageNow id j) from rfl).trans (happens_some ?_)
      unfold State.pageNow
      rw [hw]
      dsimp only
      rw [hk]
      dsimp only
      rw [if_pos (List.contains_iff_mem.2 hj)]
      unfold State.gatherDeliver
      dsimp only
      rw [hrows]
    · refine (show exec (.kvReturnPass id) s = happens "KV_RETURN_PASS" (s.bump.returnNow id) from rfl).trans (happens_some ?_)
      unfold State.returnNow
      rw [hw]
      dsimp only
      rw [hk]
      dsimp only
      rw [hp, hab]
      dsimp only
      rw [if_neg (fun h => hj (List.contains_iff_mem.1 h))]
      unfold State.gatherDeliver
      dsimp only
      rw [hrows]
    · refine (show exec (.tileOpComplete id) s = happens "TILE_OP_COMPLETE" (s.bump.completeTile id) from rfl).trans (happens_some ?_)
      unfold State.completeTile
      rw [hw]
      dsimp only
      rw [if_pos]
      rw [State.delivered?, hk]
      exact List.all_eq_true.2 fun j hj => List.contains_iff_mem.2 (hall j (List.mem_range.1 hj))
    · refine (show exec (.kvappendStep id) s = happens "KVAPPEND_STEP" (s.bump.appendNow id) from rfl).trans (happens_some ?_)
      unfold State.appendNow
      rw [hw]
      dsimp only
      rw [hk]
      dsimp only
      rw [ht, if_neg (by decide), hr]
    · refine (show exec (.smergeComplete id) s = happens "SMERGE_COMPLETE" (s.bump.mergeNow id) from rfl).trans (happens_some ?_)
      unfold State.mergeNow
      rw [hw]
      dsimp only
      rw [hk]
      dsimp only
      rw [hr]
  · refine ⟨(show exec (.pagerPageIn part n) s = happens "PAGER_PAGE_IN" (((s.part part).pageReq n).map (fun r => s.bump.pageIn part r))
      from rfl).trans (happens_some ?_), fun word hword hpr => ?_⟩
    · rw [pageReq_some hr hfirst]
      rfl
    · unfold State.pageIn
      rw [hword]
      dsimp only
      rw [if_pos hpr]
  · have e : exec (.pagerPageIn part n) s =
      happens "PAGER_PAGE_IN" (((s.part part).pageReq n).map (fun r => s.bump.pageIn part r)) := rfl
    rw [e, pageReq_none hr hlater]
    rfl
  · have e : exec (.pagerDemotion part n) s =
      happens "PAGER_DEMOTION" (((s.part part).demoteReqs[n]?).map (fun pool => s.bump.demoteStep part pool)) := rfl
    rw [e, hp]
    rfl

end Sys2Proof.Machine
end

section
/-! PROOF. Retirement, placement, deadlines, budgets, gaps, pre-emption and samples (12 R239, R252, 19 R326 to R340). -/

namespace Sys2Proof.Machine

/-! Retirement. -/

section
variable {s : State} {u : Nat}

/-- A gather and an append touch scratch of their own block alone. -/
theorem opScratch_own {o : EngOp} (h : (∃ v g, o.kind = .gather v g) ∨ o.kind = .append) : ∀ e ∈ s.opScratch o, e.1 = o.blk := by
  have hif : ∀ (c : Prop) [Decidable c] (e f : Nat × Nat × Nat × Bool), f.1 = o.blk → e ∈ (if c then [] else [f]) → e.1 = o.blk := by
    intro c _ e f hf he
    split at he
    · exact nomatch he
    · rw [List.mem_singleton.1 he, hf]
  intro e he
  unfold State.opScratch at he
  obtain ⟨v, g, h⟩ | h := h
  · rw [h] at he
    rcases List.mem_append.1 he with he | he
    · rcases List.mem_cons.1 he with rfl | he
      · rfl
      · exact hif _ _ _ (by rfl) he
    · exact hif _ _ _ (by rfl) he
  · rw [h] at he
    rcases List.mem_cons.1 he with rfl | he
    · rfl
    · rw [List.mem_singleton.1 he]

theorem touchesScratch_foreign {o : EngOp} (h : o.blk ≠ u) (own : ∀ e ∈ s.opScratch o, e.1 = o.blk) (lo : Nat) :
    s.touchesScratch u lo o = false := by
  refine List.any_eq_false.2 fun e he => ?_
  rw [own e he]
  simp [h]

/-- What other blocks' work touches of a block's scratch rests on no draw. -/
theorem touchesScratch_bump {o : EngOp} (h : o.blk ≠ u) (lo : Nat) : s.bump.touchesScratch u lo o = s.touchesScratch u lo o := by
  cases hk : o.kind with
  | gather v g =>
    have hk : (∃ v g, o.kind = .gather v g) ∨ o.kind = .append := .inl ⟨v, g, hk⟩
    rw [touchesScratch_foreign h (opScratch_own hk), touchesScratch_foreign h (opScratch_own hk)]
  | append =>
    have hk : (∃ v g, o.kind = .gather v g) ∨ o.kind = .append := .inr hk
    rw [touchesScratch_foreign h (opScratch_own hk), touchesScratch_foreign h (opScratch_own hk)]
  | _ =>
    cases o
    cases hk
    rfl

theorem retireBusy_bump : s.bump.retireBusy u = s.retireBusy u := by
  refine congrArg₂ or rfl (congrArg s.ops.any (funext fun e => ?_))
  by_cases h : e.2.blk = u
  · simp [h]
  · rw [touchesScratch_bump h]

theorem mayRetire_bump (hb : (s.blocks.find u).isSome = true) (hx : ∀ w ∈ s.warpsOfBlock u, (s.warp w).exited = true)
    (hr : s.retireBusy u = false) : s.bump.mayRetire u = true := by
  have hx : (s.bump.warpsOfBlock u).all (fun w => (s.bump.warp w).exited) = true := List.all_eq_true.2 hx
  have hb : (s.bump.blocks.find u).isSome = true := hb
  rw [State.mayRetire, hb, hx, retireBusy_bump, hr]
  rfl

theorem ifFits_fits {t : State} {part : Nat} (h : t.recordsFit part = true) : t.ifFits part = some t := if_pos h

/-- One step of a retirement that may be. -/
theorem retireStep_orphan {t : State} (hm : s.mayRetire u = true) (ho : s.orphan u = some t)
    (hf : t.recordsFit (s.block u).part = true) : s.retireStep u = some t := by
  unfold State.retireStep
  dsimp only
  rw [hm, if_neg (by decide), ho]
  exact ifFits_fits hf

theorem retireStep_head (hm : s.mayRetire u = true) (ho : s.orphan u = none)
    (hh : s.headNeed (s.block u).core = some (.retire u))
    (hf : ((s.popNeed (s.block u).core).retireBlock u).recordsFit (s.block u).part = true) :
    s.retireStep u = some ((s.popNeed (s.block u).core).retireBlock u) := by
  unfold State.retireStep
  dsimp only
  rw [hm, if_neg (by decide), ho]
  dsimp only
  rw [if_pos (by rw [hh]; exact beq_self_eq_true _)]
  exact ifFits_fits hf

theorem retireStep_first (hm : s.mayRetire u = true) (ho : s.orphan u = none)
    (hh : s.headNeed (s.block u).core ≠ some (.retire u)) (h1 : s.releaseFirst (s.block u).core = true)
    (hd : s.decisionDue (s.block u).part = false) (hf : (s.retireBlock u).recordsFit (s.block u).part = true) :
    s.retireStep u = some (s.retireBlock u) := by
  unfold State.retireStep
  dsimp only
  rw [hm, if_neg (by decide), ho]
  dsimp only
  rw [if_neg (mt beq_iff_eq.1 hh), h1, hd, if_pos (by decide)]
  exact ifFits_fits hf

theorem retireStep_queues (hm : s.mayRetire u = true) (ho : s.orphan u = none)
    (hh : s.headNeed (s.block u).core ≠ some (.retire u))
    (h1 : s.releaseFirst (s.block u).core = false ∨ s.decisionDue (s.block u).part = true)
    (hq : s.requestsFull (s.block u).core = false) (hr : ∀ e ∈ (s.core (s.block u).core).reqs, e.need ≠ .retire u) :
    s.retireStep u = some (s.enterNeed (s.block u).core (.retire u)) := by
  have hr : (s.core (s.block u).core).reqs.any (fun e => e.need == .retire u) = false :=
    List.any_eq_false.2 fun e he => mt beq_iff_eq.1 (hr e he)
  have h1 : (s.releaseFirst (s.block u).core && !s.decisionDue (s.block u).part) = false := by
    rcases h1 with h | h <;> simp [h]
  unfold State.retireStep
  dsimp only
  rw [hm, if_neg (by decide), ho]
  dsimp only
  rw [if_neg (mt beq_iff_eq.1 hh), h1, if_neg Bool.false_ne_true, hq, hr, if_neg (by decide)]

/-! A block that leaves its core, on which no request is deferred. -/

theorem find_drop_self {β : Type} (m : AMap β) (k : Nat) : (m.drop k).find k = none := by
  induction m with
  | nil => rfl
  | cons e t ih =>
    rw [AMap.drop, List.filter_cons]
    split
    next h => exact (if_neg (by simpa using h)).trans ih
    next => exact ih

/-- An entry that a filter keeps is found where it stood. -/
theorem find_filter_kept {β : Type} {m : AMap β} {k : Nat} {p : Nat × β → Bool} (h : ∀ b, m.find k = some b → p (k, b) = true) :
    AMap.find (List.filter p m) k = m.find k := by
  induction m with
  | nil => rfl
  | cons e t ih =>
    obtain ⟨j, b⟩ := e
    by_cases hj : j = k
    · subst hj
      have hb : AMap.find ((j, b) :: t) j = some b := if_pos rfl
      rw [List.filter_cons, if_pos (h b hb), hb]
      exact if_pos rfl
    · have ht : AMap.find ((j, b) :: t) k = AMap.find t k := if_neg hj
      rw [ht] at h ⊢
      rw [List.filter_cons]
      split
      · exact (if_neg hj).trans (ih h)
      · exact ih h

theorem freeStorage_mem (core : Nat) (kibs : List Nat) : (s.freeStorage core kibs).mem = s.mem := by
  unfold State.freeStorage
  split <;> rfl

theorem freeStorage_deferred (core : Nat) (kibs : List Nat) :
    ((s.freeStorage core kibs).core core).deferred = (s.core core).deferred := by
  unfold State.freeStorage
  split
  · rfl
  · change ((s.updCore core (fun c => { c with
      spare := List.filter (fun e => !kibs.contains (e.1 / 1024)) c.spare,
      spareEpochs := kibs.foldl (fun m k => m.put k s.epoch) c.spareEpochs })).core core).deferred = _
    rw [State.core_updCore_same]

/-- The retest of a core on which no request is deferred changes nothing. -/
theorem retest_none {z : State} {core : Nat} (h : (z.core core).deferred = []) : z.retest core = z := by
  rw [State.retest, h]
  change z.renumber core = z
  unfold State.renumber
  rw [h]
  rfl

theorem blockGone_mem : (s.blockGone u).mem = s.mem := by
  unfold State.blockGone
  split
  · rfl
  · exact State.pastOf_mem (State.mapPast_pastOf _ _)

theorem blockGone_deferred (core : Nat) : ((s.blockGone u).core core).deferred = (s.core core).deferred := by
  have hc : (s.blockGone u).cores = s.cores := by
    unfold State.blockGone
    split
    · rfl
    · exact State.pastOf_cores (State.mapPast_pastOf _ _)
  simp only [State.core, hc]

/-- The state of a block that has left, before the retest. -/
def State.vacated (s : State) (u : Nat) : State :=
  { (s.blockGone u).freeStorage (s.block u).core (s.kibsOf u) with
    warps := List.filter (fun e => e.2.blk != u) s.warps,
    ops := List.filter (fun e => e.2.blk != u) s.ops,
    blocks := s.blocks.drop u }.updCore (s.block u).core (fun c =>
    { c with
      reqs := c.reqs.filter (fun r => !s.needOf u r.need),
      deferred := c.deferred.filter (fun r => r.blk != u) })

theorem removeBlock_eq (h : (s.core (s.block u).core).deferred = []) : s.removeBlock u = s.vacated u := by
  refine (show s.removeBlock u = (s.vacated u).retest (s.block u).core from rfl).trans (retest_none ?_)
  have hd : (((s.blockGone u).freeStorage (s.block u).core (s.kibsOf u)).core (s.block u).core).deferred = [] := by
    rw [freeStorage_deferred, blockGone_deferred, h]
  refine (congrArg Core.deferred (State.core_updCore_same _ _ _)).trans ?_
  exact (congrArg (List.filter fun r : Request => r.blk != u) hd).trans rfl

theorem vacated_warps : (s.vacated u).warps = List.filter (fun e => e.2.blk != u) s.warps := rfl
theorem vacated_blocks : (s.vacated u).blocks = s.blocks.drop u := rfl
theorem vacated_mem : (s.vacated u).mem = s.mem := (freeStorage_mem _ _).trans blockGone_mem

/-- The block is gone, with its warps, and other warps and memory stand. -/
theorem removeBlock_leaves (h : (s.core (s.block u).core).deferred = []) :
    (s.removeBlock u).blocks.find u = none ∧ (s.removeBlock u).warpsOfBlock u = [] ∧ (s.removeBlock u).mem = s.mem ∧
      ∀ v, (s.warp v).blk ≠ u → (s.removeBlock u).warps.find v = s.warps.find v := by
  rw [removeBlock_eq h, vacated_blocks, vacated_mem]
  refine ⟨find_drop_self _ _, ?_, rfl, fun v hv => ?_⟩
  · unfold State.warpsOfBlock AMap.keysWhere
    rw [vacated_warps, List.filter_filter]
    simp
  · rw [vacated_warps]
    refine find_filter_kept fun x hx => ?_
    have hw : s.warp v = x := by rw [State.warp, hx, Option.getD_some]
    simpa [← hw] using hv

end

/-! The dispatcher, and the events of single blocks. -/

section
variable {s : State}

theorem execDispatchDecision_running {part : Nat} (hc : (s.part part).configured = true) (hr : (s.part part).pstate = .running) :
    exec (.dispatchDecision part) s = happens "DISPATCH_DECISION" (s.bump.decideStep part) := by
  rw [show exec (.dispatchDecision part) s = execDispatchDecision part s from rfl, execDispatchDecision, hc, hr, if_pos (by decide)]

theorem decideStep_marks {part : Nat} (hs : s.settled part = true)
    (hr : (s.busyCores part).filter (fun c => !s.admitting part c) ≠ [])
    (hf : ∀ c ∈ (s.busyCores part).filter (fun c => !s.admitting part c), s.requestsFull c = false) :
    s.decideStep part =
      some (((s.busyCores part).filter (fun c => !s.admitting part c)).foldl (fun t c => t.markAdmission part c) s) := by
  have hf : ((s.busyCores part).filter (fun c => !s.admitting part c)).any s.requestsFull = false :=
    List.any_eq_false.2 fun c hc => by simp [hf c hc]
  have hr : ((s.busyCores part).filter (fun c => !s.admitting part c)).isEmpty = false := by simpa using hr
  unfold State.decideStep
  dsimp only
  rw [hs, if_neg (by decide), hr, if_pos (by decide), hf, if_neg Bool.false_ne_true]

theorem decideStep_decides {part : Nat} (hs : s.settled part = true)
    (hr : (s.busyCores part).filter (fun c => !s.admitting part c) = [])
    (hh : ∀ c ∈ s.busyCores part, s.headNeed c = some (.admission part)) :
    s.decideStep part = some (((s.unmark part).updPart part (fun p => { p with events := none })).dispatch part) := by
  have hh : (s.busyCores part).all (fun c => s.headNeed c == some (.admission part)) = true :=
    List.all_eq_true.2 fun c hc => beq_iff_eq.2 (hh c hc)
  unfold State.decideStep
  dsimp only
  rw [hs, if_neg (by decide), hr, if_neg (by decide), if_pos hh]

theorem decideStep_unsettled {part : Nat} (hs : s.settled part = false) : s.decideStep part = none := by
  unfold State.decideStep
  dsimp only
  rw [hs, if_pos (by decide)]

theorem preemptRequest_now {u reason : Nat} (h : s.preemptible u = true)
    (hf : (s.preemptAll u cPreempted reason).recordsFit (s.block u).part = true) :
    s.preemptRequest u reason = some (s.preemptAll u cPreempted reason) := by
  rw [State.preemptRequest, if_pos h]
  exact ifFits_fits hf

theorem preemptRequest_later {u reason : Nat} (h : s.preemptible u = false)
    (hg : ∀ v ∈ s.gangOf u, (s.block v).lrec.preempt = true ∧ (s.block v).lrec.persistent = false) :
    s.preemptRequest u reason = some (s.updBlock u (fun b => { b with preemptReq := some reason })) := by
  have hg : (s.gangOf u).all (fun v => (s.block v).lrec.preempt && !(s.block v).lrec.persistent) = true :=
    List.all_eq_true.2 fun v hv => by simp [hg v hv]
  rw [State.preemptRequest, h, if_neg Bool.false_ne_true, if_pos hg]

theorem execPreempt_resident {u : Nat} (hb : (s.blocks.find u).isSome = true) :
    exec (.preempt u 1) s = happens "PREEMPT" (s.bump.preemptRequest u 1) := by
  rw [show exec (.preempt u 1) s = execPreempt u 1 s from rfl, execPreempt, hb, if_pos (by decide)]

theorem when'_holds {n : String} {c : Bool} {t : State} (h : c = true) : when' n c t = .next t := if_pos h

theorem deadline_missed {id : Nat} {g : Grid} (hg : s.grids.find id = some g) (hd : g.lrec.deadline ≠ 0)
    (ht : g.lrec.deadline.toNat < s.timeNs) (hn : g.nextUnit ≠ []) (hs : g.stopped = false) (hm : g.deadlineSent = false)
    (hc : s.canRecord (s.sliceHalf g.part) g.part = true) :
    exec (.deadlineMissed id) s = .next ((s.taskRecord g.part 0x88 0xFF 0 g.recAddr g.job g.queue 0).setGrid id
      { g with deadlineSent := true }) := by
  rw [show exec (.deadlineMissed id) s = execDeadlineMissed id s from rfl, execDeadlineMissed, hg]
  exact when'_holds (by simpa [ht, hn, hs, hm, hc] using hd)

end

/-- Settles O58: retirement by its one step, the leaving block by what its removal filters, and each other event by its condition. -/
theorem dispatchEvents : Obligations.DispatchEvents := by
  unfold Obligations.DispatchEvents
  intro s u part id
  refine ⟨?_, ?_, removeBlock_leaves, ?_, ?_, ?_, ?_, ?_, ?_⟩
  · rintro ⟨hb, hx, hr⟩ t ho hf
    exact happens_some (retireStep_orphan (mayRetire_bump hb hx hr) ho hf)
  · rintro ⟨hb, hx, hr⟩ ho
    have hm := mayRetire_bump hb hx hr
    exact ⟨fun hh hf => happens_some (retireStep_head hm ho hh hf),
      fun hh h1 hd hf => happens_some (retireStep_first hm ho hh h1 hd hf),
      fun hh h1 hq hn => happens_some (retireStep_queues hm ho hh h1 hq hn)⟩
  · intro hc hr
    have hx := execDispatchDecision_running hc hr
    exact ⟨fun hs hn hf => hx.trans (happens_some (decideStep_marks (s := s.bump) hs hn hf)),
      fun hs hn hh => hx.trans (happens_some (decideStep_decides (s := s.bump) hs hn hh)),
      fun hs => hx.trans (congrArg (happens _) (decideStep_unsettled (s := s.bump) hs))⟩
  · exact fun g hg hd ht hn hs hm hc => deadline_missed hg hd ht hn hs hm hc
  · exact fun hc hb hp hz => when'_holds (by simpa [hc, hp, hz] using hb)
  · exact fun hc hp hg hi hl => when'_holds (by simp [hc, hp, hg, hi, hl])
  · exact fun hb => ⟨fun hp hf => (execPreempt_resident hb).trans (happens_some (preemptRequest_now (s := s.bump) hp hf)),
      fun hp hg => (execPreempt_resident hb).trans (happens_some (preemptRequest_later (s := s.bump) hp hg))⟩
  · exact fun hc => when'_holds hc

end Sys2Proof.Machine
end

section
/-! PROOF. A link that goes down (22 R377, 21 R356). -/

namespace Sys2Proof.Machine

/-- A TPEER of block 7, of partition 1, that stores one word to a page of peer 0. -/
def peerStore : EngOp :=
  { w := 0, blk := 7, kind := .tile 5 ⟨0, 0, 1, false, [1], [], [1]⟩, tl := 0, num := 0, ipc := 0, iword := 0, handleIx := 0,
    regs := [], members := [], accepted := true, delivered := [], counted := false, box := none, fault := none }

/-- Three tables of partition 1 that lead from address 0 to a page of peer 0, and partition 0's fault ring over the first of them. -/
def ringOverTables : State :=
  { State.reset with
    mem := [(0, 0x01), (1, 0x10), (0x1000, 0x01), (0x1001, 0x20), (0x2000, 0x1B), (0x2007, 0x08)],
    blocks := [(7, { Block.blank with part := 1 })], ops := [(5, peerStore)],
    parts := [(0, { Part.reset with configured := true, frSize := 16 }),
      (1, { Part.reset with configured := true, frSize := 16, share := ⟨0, 1, 0, 0⟩ })] }

/-- FRTAIL of partition 1 after a step. -/
def tailAfter (o : Host.Outcome State Fault Refusal) : Option Word :=
  match o with
  | .next t => some (t.part 1).frTail
  | _ => none

theorem ringOverTables_awaits : ringOverTables.awaitsPeer 1 0 = true := by decide +kernel

/-- The record of partition 0 lands on the tables, so that partition 1, asked next, no longer waits for the peer. -/
theorem tailAfter_ringOverTables : tailAfter (exec (.linkDown 0) ringOverTables) = some 1 := by decide +kernel

/-- Refutes O60: the statement lets a partition whose operation waits for the lost peer keep its ring as it was, and the model asks
whether it waits only after it has written the records of the partitions before it, which may change its translations. -/
theorem not_firmwareEvents : ¬ Obligations.FirmwareEvents := by
  unfold Obligations.FirmwareEvents
  intro h
  obtain ⟨-, -, -, -, -, -, -, -, -, -, -, -, hlink, -⟩ := h ringOverTables
  obtain ⟨-, hdown⟩ := hlink 0 (by decide)
  obtain ⟨hlost, -⟩ := hdown (by decide +kernel)
  obtain ⟨t, ht, -, -, -, hpart⟩ := hlost (by decide)
  have htail := tailAfter_ringOverTables
  rw [ht, tailAfter, hpart 1 ringOverTables_awaits] at htail
  exact absurd htail (by decide +kernel)

end Sys2Proof.Machine
end

section
/-! PROOF. The system handler and the host (19 R328, 22 R367 to R376). -/

namespace Sys2Proof.Machine

section
variable {s : State} {part ring : Nat} {v : Word}

theorem State.setPart_setPart (s : State) (k : Nat) (x y : Part) : (s.setPart k x).setPart k y = s.setPart k y := by
  rw [State.setPart, State.setPart, State.setPart, AMap.put_put]

/-! The system handler. -/

theorem writeRecord_warps (s : State) (r : FaultRec) (who : Option Nat) : (s.writeRecord part r who).warps = s.warps :=
  State.setPart_warps ..

theorem flushHeld_warps (n : Nat) (s : State) : (s.flushHeld part n).warps = s.warps := by
  induction n generalizing s with
  | zero => rfl
  | succ n ih =>
    rw [State.flushHeld]
    split
    · rfl
    · split
      · rfl
      · rw [ih, writeRecord_warps, State.setPart_warps]

theorem eventWrite_warps (r : FaultRec) (who : Option Nat) : (s.eventWrite part r who).warps = s.warps := by
  unfold State.eventWrite State.msix State.setPart
  rfl

theorem postEvent_warps (r : FaultRec) (who : Option Nat) : (s.postEvent part r who).warps = s.warps := by
  unfold State.postEvent
  dsimp only
  split
  · exact State.setPart_warps ..
  · exact eventWrite_warps ..

/-- The state once the handler has taken its oldest record. -/
def State.handled (s : State) (part : Nat) (rest : List (FaultRec × Option Nat)) : State :=
  let p := s.part part
  (s.setPart part { p with
    handlerQ := rest, frHead := if p.frHead = p.frTail then p.frHead else p.frHead + 1 }).flushHeld part p.heldRecs.length

theorem handle_takes {r : FaultRec} {who : Option Nat} {rest : List (FaultRec × Option Nat)}
    (hq : (s.part part).handlerQ = (r, who) :: rest) (hf : s.fwPhase = .steady) :
    s.handle part true = some (s.handled part rest) ∧
    s.handle part false = some (if 8 ≤ r.cause.toNat && r.cause.toNat ≤ 12 then
      ((s.handled part rest).postEvent part r who).msix part (r.cause.toNat - 5)
      else (s.handled part rest).postEvent part r who) := by
  have hserves : s.fwServes = true := beq_iff_eq.2 hf
  unfold State.handle
  dsimp only
  rw [hq, hserves]
  exact ⟨rfl, rfl⟩

/-- A record for the event ring that has room: its place, and the tail. -/
theorem postEvent_writes {r : FaultRec} {who : Option Nat} (hh : (s.part part).evHeld = []) (hr : (s.part part).eventFull = false) :
    ((s.postEvent part r who).part part).evTail = (s.part part).evTail + 1 ∧
      Output.eventRecord part ((s.part part).evTail.toNat % (s.part part).evSize.toNat)
        ((s.part part).eventAddr ((s.part part).evTail.toNat % (s.part part).evSize.toNat)) r ∈
        (s.postEvent part r who).outputs := by
  have hfull : ((s.part part).eventFull || !(s.part part).evHeld.isEmpty) = false := by rw [hh, hr]; rfl
  rw [State.postEvent, hfull, if_neg Bool.false_ne_true]
  unfold State.eventWrite
  dsimp only
  refine ⟨congrArg Part.evTail (State.part_setPart_same ..), ?_⟩
  exact List.mem_append_left _ (List.mem_append_right _ (List.mem_singleton_self _))

theorem handle_copies {r : FaultRec} {who : Option Nat} {rest : List (FaultRec × Option Nat)}
    (hq : (s.part part).handlerQ = (r, who) :: rest) (hf : s.fwPhase = .steady) :
    ∃ t, exec (.systemHandler part false) s = .next t ∧ t.warps = s.warps ∧
      ((s.part part).heldRecs = [] → (s.part part).evHeld = [] → (s.part part).eventFull = false →
        (t.part part).evTail = (s.part part).evTail + 1 ∧
        let slot := (s.part part).evTail.toNat % (s.part part).evSize.toNat
        Output.eventRecord part slot (atOff ((s.part part).evBaseHi ++ (s.part part).evBaseLo) (64 * slot)) r ∈ t.outputs) := by
  refine ⟨_, happens_some (handle_takes hq hf).2, ?_, fun hh he hr => ?_⟩
  · have hw : ((s.handled part rest).postEvent part r who).warps = s.warps :=
      (postEvent_warps r who).trans (flushHeld_warps ..)
    split
    · exact hw
    · exact hw
  · have hpart : (s.handled part rest).part part = { s.part part with
        handlerQ := rest, frHead := if (s.part part).frHead = (s.part part).frTail then (s.part part).frHead
          else (s.part part).frHead + 1 } := by
      unfold State.handled
      dsimp only
      rw [hh]
      exact State.part_setPart_same ..
    have hwrites := postEvent_writes (s := s.handled part rest) (r := r) (who := who) (part := part) (by rw [hpart]; exact he)
      (by rw [hpart]; exact hr)
    rw [hpart] at hwrites
    obtain ⟨htail, hout⟩ := hwrites
    split
    · exact ⟨htail, List.mem_append_left _ hout⟩
    · exact ⟨htail, hout⟩

/-! Host rings. -/

theorem doorbell_sets (hc : (s.part part).configured = true) (hr : ring < 16) (hp : (s.part part).pstate ≠ .resetting)
    (hv : (v - ((s.part part).ring ring).head).toNat ≤ ((s.part part).ring ring).size.toNat) :
    exec (.doorbell part ring v) s = .next (s.setRing part ring { (s.part part).ring ring with tail := v }) := by
  have ho : (!(s.part part).configured || decide (16 ≤ ring)) = false := by simp [hc, hr]
  rw [show exec (.doorbell part ring v) s = execDoorbell part ring v s from rfl, execDoorbell, ho, if_neg Bool.false_ne_true,
    if_neg (mt beq_iff_eq.1 hp), if_neg (Nat.not_lt.2 hv)]

theorem doorbell_refuses (hc : (s.part part).configured = true) (hr : ring < 16) (hp : (s.part part).pstate ≠ .resetting)
    (hv : ((s.part part).ring ring).size.toNat < (v - ((s.part part).ring ring).head).toNat) (hm : s.sliceRoom part = true) :
    exec (.doorbell part ring v) s = .next (s.hostLinkError part 0xFF 1 0) := by
  have ho : (!(s.part part).configured || decide (16 ≤ ring)) = false := by simp [hc, hr]
  rw [show exec (.doorbell part ring v) s = execDoorbell part ring v s from rfl, execDoorbell, ho, if_neg Bool.false_ne_true,
    if_neg (mt beq_iff_eq.1 hp), if_pos hv]
  exact when'_holds hm

theorem packet_skip (hm : s.sliceRoom part = true) (hn : s.bump.nextPacket part ring = some .skip)
    (hf : (s.bump.nextHead part ring).recordsFit part = true) :
    exec (.hostPacketLaunch part ring) s = .next (s.bump.nextHead part ring) := by
  refine happens_some ?_
  have hm : s.bump.sliceRoom part = true := hm
  rw [State.servePacket, hm, if_neg (by decide), hn]
  exact ifFits_fits hf

theorem packet_launch {q : Nat} {a : DWord} {rs : List (Place × Nat)} (hm : s.sliceRoom part = true)
    (hn : s.bump.nextPacket part ring = some (.launch q a))
    (hr : s.bump.engineRunsAt (pagerVia part) 3 (Rights.r false) a 128 = .ok rs)
    (hl : launchFault a (s.bump.runBytes rs) = none) (hq : s.queueFull part q = false)
    (hd : (s.part part).destroying.contains q = false) (he : s.decisionDue part = false)
    (hf : ((s.bump.launch part q a (launchOf (s.bump.runBytes rs)) true ofGrids).1.nextHead part ring).recordsFit part = true) :
    exec (.hostPacketLaunch part ring) s =
      .next ((s.bump.launch part q a (launchOf (s.bump.runBytes rs)) true ofGrids).1.nextHead part ring) := by
  refine happens_some ?_
  have hm : s.bump.sliceRoom part = true := hm
  have hfree : (s.bump.queueFull part q || (s.bump.part part).destroying.contains q || s.bump.decisionDue part) = false := by
    have hq : s.bump.queueFull part q = false := hq
    have hd : (s.bump.part part).destroying.contains q = false := hd
    have he : s.bump.decisionDue part = false := he
    rw [hq, hd, he]
    rfl
  rw [State.servePacket, hm, if_neg (by decide), hn]
  dsimp only
  rw [State.packetLaunch, hr]
  dsimp only
  rw [hl]
  dsimp only
  rw [hfree, if_neg Bool.false_ne_true]
  exact ifFits_fits hf

theorem packet_wait {obj : DWord} {n : Nat} {rs : List (Place × Nat)}
    (hn : s.bump.nextPacket part ring = some (.wait obj n))
    (hr : s.bump.engineRunsAt (pagerVia part) 3 (Rights.r false) obj 32 = .ok rs)
    (hp : (Bar.ofBytes (s.bump.runBytes rs)).passed n = true) :
    exec (.hostPacketWait part ring) s = .next (s.bump.nextHead part ring) := by
  refine happens_some ?_
  rw [State.packetWait, hn]
  dsimp only
  rw [hr]
  dsimp only
  rw [if_pos hp]

/-! Registers. -/

theorem rsize_sets (hc : (s.part part).configured = true) (hr : ring < 16) :
    (powerIn 16 65536 v.toNat = true → exec (.rsizeWrite part ring v) s =
      .next (s.setRing part ring { (s.part part).ring ring with size := v, err := false })) ∧
    (powerIn 16 65536 v.toNat = false → exec (.rsizeWrite part ring v) s = .next s) := by
  have hx : exec (.rsizeWrite part ring v) s = .next (if powerIn 16 65536 v.toNat then
      s.setRing part ring { (s.part part).ring ring with size := v, err := false } else s) :=
    when'_holds (by simp [hc, hr])
  rw [hx]
  exact ⟨fun h => by rw [if_pos h], fun h => by rw [if_neg (by simp [h])]⟩

theorem resume_serves (hc : (s.part part).configured = true) (hp : (s.part part).pstate ≠ .resetting)
    (hf : s.fwPhase = .steady) (hm : s.sliceRoom part = true) :
    exec (.resume part v) s = .next (s.bump.resumeSlot part v) := by
  have hserves : s.fwServes = true := beq_iff_eq.2 hf
  rw [show exec (.resume part v) s = execResume part v s from rfl, execResume,
    if_neg (by simpa using fun _ => hp)]
  exact when'_holds (by simp [hc, hserves, hm])

theorem register_plain {o : Nat} (hc : (s.part part).configured = true) (hp : part < 8) (ho : ownRegister o = false) :
    exec (.hostRegisterWrite part o v) s = .next (s.hostWrite part o v) := by
  rw [show exec (.hostRegisterWrite part o v) s = execHostRegisterWrite part o v s from rfl, execHostRegisterWrite,
    if_neg hp.ne]
  exact when'_holds (by simp [hc, ho])

theorem hostWrite_base (hv : v.extractLsb' 0 12 = (0 : BitVec 12)) :
    s.hostWrite part 0x10 v = s.updPart part (fun p => { p with evBaseLo := v }) := by
  unfold State.hostWrite
  dsimp only
  rw [if_pos rfl, hv, if_pos (by decide)]

theorem weight_set {c : Nat} (h1 : 1 ≤ c) (h3 : c ≤ 3) (hl : 1 ≤ v.toNat) (hu : v.toNat ≤ 15) :
    exec (.hostRegisterWrite 8 c v) s = .next { s with weights := setNth s.weights (c - 1) v.toNat } := by
  rw [show exec (.hostRegisterWrite 8 c v) s = execHostRegisterWrite 8 c v s from rfl, execHostRegisterWrite,
    if_pos rfl, State.setWeight, if_pos (by simp [h1, h3, hl, hu])]

/-! Partitions. -/

theorem pctl_run (h8 : part < 8) (hc : (s.part part).configured = true) (hp : (s.part part).pstate = .stopped) :
    exec (.pctlRun part) s = .next ((s.setPart part { s.part part with pstate := .running }).msix part 2) := by
  rw [show exec (.pctlRun part) s = execPctlRun part s from rfl, execPctlRun]
  dsimp only
  rw [hc, hp, if_pos (by decide)]
  exact when'_holds (by simp [h8])

theorem pctl_reset (h8 : part < 8) (hc : (s.part part).configured = true) (hr : (s.part part).resetReq = false)
    (ht : (s.part part).takeover = false) :
    exec (.pctlReset part) s =
      .next ((s.setPart part { s.part part with resetReq := true, pstate := .resetting }).msix part 2) := by
  rw [show exec (.pctlReset part) s = execPctlReset part s from rfl, execPctlReset]
  dsimp only
  rw [hc, hr, ht, if_neg (by decide), if_neg Bool.false_ne_true, State.beginReset, State.updPart, State.part_setPart_same,
    State.setPart_setPart]
  exact when'_holds (by simp [h8])

theorem partition_reset (hc : (s.part part).configured = true) (hp : (s.part part).pstate = .resetting) :
    exec (.partitionReset part) s = .next (s.bump.resetPart part) :=
  when'_holds (by rw [hc, hp]; rfl)

theorem memRead_scrub (sh : MemShare) (m : List Host.Cell) (a : Nat) :
    memRead (scrub sh m) a = if shareHolds sh a 1 then unlistedByte else memRead m a := by
  induction m with
  | nil => exact (ite_self _).symm
  | cons c m ih =>
    obtain ⟨j, b⟩ := c
    rw [scrub, List.filter_cons]
    by_cases hj : j = a
    · subst hj
      have hm : memRead ((j, b) :: m) j = b := if_pos rfl
      rw [hm]
      split
      next h =>
        rw [if_neg (by simpa using h)]
        exact if_pos rfl
      next h =>
        have h : shareHolds sh j 1 = true := by simpa using h
        rw [if_pos h]
        exact ih.trans (if_pos h)
    · have hm : memRead ((j, b) :: m) a = memRead m a := if_neg hj
      rw [hm]
      split
      · exact (if_neg hj).trans ih
      · exact ih

theorem configures {regions : List Nat} {m : MemShare} {k : PartSettings} (h8 : part < 8) (hf : s.fwPhase = .steady)
    (hp : (s.part part).pstate = .stopped) (hne : regions ≠ []) (hg : ∀ g ∈ regions, g < 24) (hm : shareFits m = true)
    (hk : settingsFit k = true) (ha : s.apart part ((List.range 24).filter (fun g => regions.contains g)) m = true) :
    exec (.partitionConfigure part regions m k) s = .next (s.setPart part { s.part part with
      configured := true, regions := (List.range 24).filter (fun g => regions.contains g), share := m,
      root := BitVec.ofNat 64 k.root, fillerF := k.fillerF, throtT := k.throtT, ageLim := k.ageLim, pwrShare := k.pwrShare,
      frBase := BitVec.ofNat 64 k.frBase, frSize := k.frSize }) := by
  have hserves : s.fwServes = true := beq_iff_eq.2 hf
  have hmem : ∀ g ∈ regions, g ∈ (List.range 24).filter (fun g => regions.contains g) := fun g h =>
    List.mem_filter.2 ⟨List.mem_range.2 (hg g h), List.contains_iff_mem.2 h⟩
  have hall : regions.all (fun r => ((List.range 24).filter (fun g => regions.contains g)).contains r) = true :=
    List.all_eq_true.2 fun g h => List.contains_iff_mem.2 (hmem g h)
  have hsome : ((List.range 24).filter (fun g => regions.contains g)).isEmpty = false := by
    obtain ⟨g, h⟩ := List.exists_mem_of_ne_nil _ hne
    rw [List.isEmpty_eq_false_iff]
    exact List.ne_nil_of_mem (hmem g h)
  refine (show exec (.partitionConfigure part regions m k) s = execPartitionConfigure part regions m k s from rfl).trans ?_
  have hcores : Config.coreCount / 8 = 24 := by decide
  unfold execPartitionConfigure
  dsimp only
  rw [hcores]
  refine when'_holds ?_
  rw [hserves, hp, hall, hsome, hm, hk, ha]
  simp [h8]

/-! Stiles. -/

theorem stile_create {n cap prod cons : Nat} (hn : n < 65536) (h1 : 1 ≤ cap) (h4 : cap ≤ 4096) (hp : prod < 8) (hc : cons < 8)
    (hs : s.stiles.find n = none) (hf : s.fwPhase = .steady) :
    exec (.stileCreate n cap prod cons) s = .next { s with stiles := s.stiles.put n ⟨cap, prod, cons, [], []⟩ } := by
  have hserves : s.fwServes = true := beq_iff_eq.2 hf
  exact when'_holds (by simp [hn, h1, h4, hp, hc, hs, hserves])

theorem stile_destroy {n : Nat} (hs : (s.stiles.find n).isSome = true) (hf : s.fwPhase = .steady)
    (hd : s.stileWaits n .stdeq = []) (he : s.stileWaits n .stenq = []) :
    exec (.stileDestroy n) s = .next { s with stiles := s.stiles.drop n } := by
  have hserves : s.fwServes = true := beq_iff_eq.2 hf
  have ht : s.stileTrap n cStileInvalid = s := by
    rw [State.stileTrap, hd, he]
    rfl
  have hx : exec (.stileDestroy n) s =
      .next { s.stileTrap n cStileInvalid with stiles := (s.stileTrap n cStileInvalid).stiles.drop n } :=
    when'_holds (by simp [hs, hserves])
  rw [hx, ht]

end

/-- Settles O59: each event by the conditions that it checks, in turn. -/
theorem hostEvents : Obligations.HostEvents := by
  unfold Obligations.HostEvents
  intro s part ring v
  refine ⟨?_, ?_, doorbell_sets, doorbell_refuses, packet_skip, ?_, ?_, rsize_sets, resume_serves, ?_, ?_, ?_, ?_, pctl_run,
    pctl_reset, partition_reset, ?_, ?_, ?_, ?_⟩
  · exact fun rec who rest hq hf => happens_some (handle_takes hq hf).1
  · exact fun rec who rest hq hf => handle_copies hq hf
  · exact fun q a rs hm hn hr hl hq hd he hf => packet_launch hm hn hr hl hq hd he hf
  · exact fun obj n rs hn hr hp => packet_wait hn hr hp
  · exact fun hc => when'_holds hc
  · exact fun hc h8 hv => (register_plain hc h8 (by decide)).trans (congrArg _ (hostWrite_base hv))
  · exact fun o hc h8 ho => register_plain hc h8 ho
  · exact fun c h1 h3 hl hu => weight_set h1 h3 hl hu
  · exact fun sh a => memRead_scrub sh s.mem a
  · exact fun regions m k h8 hf hp hne hg hm hk ha => configures h8 hf hp hne hg hm hk ha
  · exact fun n cap prod cons hn h1 h4 hp hc hs hf => stile_create hn h1 h4 hp hc hs hf
  · exact fun n hs hf hd he => stile_destroy hs hf hd he

end Sys2Proof.Machine
end

section
/-! PROOF. The TASK group (19 R333, R343 to R346). -/

namespace Sys2Proof.Machine

section
variable {s : State} {w : Nat} {i : Instr} {h : Hdr} {f : XForm}

theorem taskReg_self (r : BitVec 8) :
    taskReg (started s w i) (s.selfActor w i) r = (s.warp w).readS ((started s w i).draw 0) r.toNat := by
  rw [taskReg, State.selfActor_lead, warp_started, Warp.readS_issued]

theorem taskPair_self (r : BitVec 8) :
    taskPair (started s w i) (s.selfActor w i) r = (s.warp w).readPairS ((started s w i).draw 0) r.toNat := by
  rw [taskPair, State.selfActor_lead, warp_started, Warp.readPairS_issued]

theorem jobOf_started : (started s w i).jobOf w = s.jobOf w := by
  rw [State.jobOf, State.blockOf, warp_started, Warp.issued_blk]
  rfl

/-! LAUNCH. -/

theorem taskLoad_pastOf {fn n : Nat} {addr : DWord} {a : Actor} {bs : List Byte} {z : State}
    (e : taskLoad fn addr n a s = .ok (bs, z)) : s.pastOf z := by
  unfold taskLoad at e
  split at e
  · exact nomatch e
  · cases e
    exact s.readBy_pastOf _ _ _ _ _
  · cases e
    exact State.pastOf_refl s

/-- A launch gives the id of the job that it makes. -/
theorem launch_id {part queue : Nat} {addr : DWord} {r : LaunchRec} {ring : Bool} {before : Past → Bool} :
    (s.launch part queue addr r ring before).2 = (s.part part).nextJob := by
  unfold State.launch
  dsimp only [State.newJob]
  split <;> rfl

theorem pollLaunch_launches {a : Actor} {part q : Nat} {addr queue : DWord} {bs : List Byte} {z : State} (hq : queue.toNat = q)
    (h64 : q < 64) (hp : s.partOf a.lead = part) (hl : taskLoad 0 addr 128 a s = .ok (bs, z)) (hf : launchFault addr bs = none)
    (hd : (s.part part).destroying.contains q = false) (hr : s.queueFull part q = false) :
    pollLaunch h addr queue 0 a s = .ok ((z.launch part q addr (launchOf bs) false
      (fun r => r.knownBy (s.agentOf a a.lead 4))).1.updWarp a.lead (fun x =>
        x.writeS h.vd.toNat (BitVec.ofNat 32 (s.part part).nextJob))) := by
  have hpart : z.part part = s.part part :=
    congrArg (fun m => (m.find part).getD Part.reset) (State.pastOf_parts (taskLoad_pastOf hl))
  unfold pollLaunch
  dsimp only
  rw [hq, if_neg (Nat.not_le.2 h64), if_neg (by decide), hl]
  dsimp only
  rw [hf]
  dsimp only
  rw [hp, hd, if_neg Bool.false_ne_true, hr, if_neg Bool.false_ne_true, launch_id, hpart]

theorem opLaunch_self {bs : List Byte} {z1 : State} (i : Instr)
    (h64 : ((s.warp w).readS ((started s w i).draw 0) f.vb.toNat).toNat < 64)
    (hd : (s.part (s.partOf w)).destroying.contains ((s.warp w).readS ((started s w i).draw 0) f.vb.toNat).toNat = false)
    (hr : s.queueFull (s.partOf w) ((s.warp w).readS ((started s w i).draw 0) f.vb.toNat).toNat = false)
    (hl : taskLoad 0 ((s.warp w).readPairS ((started s w i).draw 0) f.va.toNat) 128 (s.selfActor w i) (started s w i) = .ok (bs, z1))
    (hf : launchFault ((s.warp w).readPairS ((started s w i).draw 0) f.va.toNat) bs = none) :
    opLaunch h (.x f) (s.selfActor w i) (started s w i) =
      .ok ((z1.launch (s.partOf w) ((s.warp w).readS ((started s w i).draw 0) f.vb.toNat).toNat
        ((s.warp w).readPairS ((started s w i).draw 0) f.va.toNat) (launchOf bs) false
        (fun r => r.knownBy ((started s w i).path w (s.warp w).active 4))).1.updWarp w (fun x =>
          x.writeS h.vd.toNat (BitVec.ofNat 32 (s.part (s.partOf w)).nextJob))) := by
  unfold opLaunch
  dsimp only
  rw [taskReg_self, taskPair_self]
  have hp := pollLaunch_launches (s := started s w i) (a := s.selfActor w i) (h := h)
    (queue := ((s.warp w).readS ((started s w i).draw 0) f.vb.toNat).zeroExtend 64)
    (BitVec.toNat_setWidth_of_le (by decide)) h64 (partOf_started s w i) hl hf hd hr
  rw [hp, State.selfActor_lead, agentOf_self, part_started]

/-! SPAWN and TDEP. -/

theorem opSpawn_self {j : Job} {k : Nat} {bs : List Byte}
    (h64 : ((s.warp w).readS ((started s w i).draw 0) f.vb.toNat).toNat < 64) (hj : s.jobOf w = some j)
    (hk : tcbIndex j ((s.warp w).readPairS ((started s w i).draw 0) f.va.toNat) = some k)
    (hb : taskRead 1 ((s.warp w).readPairS ((started s w i).draw 0) f.va.toNat) 64 (s.selfActor w i) (started s w i) = .ok bs)
    (hc : spawnCheck (started s w i) (s.selfActor w i) bs = none) (hx : j.cancel = false) {t0 t : State}
    (ht0 : ((started s w i).tell (fun r => r.knownBy ((started s w i).path w (s.warp w).active 4))
      [(tcbKey j.part j.id k, 1)]).listTcb j.part j.id k = t0)
    (ht : (if fieldAt bs 0 4 = 0 then t0.runTasks j.part j.id ((s.warp w).readS ((started s w i).draw 0) f.vb.toNat).toNat (2 ^ 32)
      [.ready k] else t0) = t) (hr : t.recordsFit j.part = true) :
    opSpawn h (.x f) (s.selfActor w i) (started s w i) =
      .ok (t.updWarp w (fun x => x.writeS h.vd.toNat (BitVec.ofNat 32 k))) := by
  unfold opSpawn
  dsimp only
  rw [taskReg_self, taskPair_self, State.selfActor_lead, if_neg (Nat.not_le.2 h64), jobOf_started, hj]
  dsimp only
  rw [hk]
  dsimp only
  rw [hb]
  dsimp only
  rw [hc]
  dsimp only
  rw [hx, if_neg Bool.false_ne_true, agentOf_self, ht0, ht, hr, if_neg (by decide)]

section
variable {j : Job} {k n : Nat} {pb sb : List Byte} (hj : s.jobOf w = some j)
  (hn : tcbIndex j ((s.warp w).readPairS ((started s w i).draw 0) f.va.toNat) = some n)
  (hk : tcbIndex j ((s.warp w).readPairS ((started s w i).draw 0) f.vb.toNat) = some k)
  (hp : taskRead 2 ((s.warp w).readPairS ((started s w i).draw 0) f.va.toNat) 64 (s.selfActor w i) (started s w i) = .ok pb)
  (hsb : taskRead 2 ((s.warp w).readPairS ((started s w i).draw 0) f.vb.toNat) 64 (s.selfActor w i) (started s w i) = .ok sb)
include hj hn hk hp hsb

/-- The predecessor is done: nothing is to wait for. -/
theorem opTdep_done (h3 : tcbState pb = 3) : opTdep h (.x f) (s.selfActor w i) (started s w i) =
    .ok ((started s w i).updWarp w (fun x => x.writeS h.vd.toNat 1#32)) := by
  unfold opTdep
  dsimp only
  rw [taskPair_self, taskPair_self, State.selfActor_lead, jobOf_started, hj]
  dsimp only
  rw [hn, hk]
  dsimp only
  rw [hp, hsb]
  dsimp only
  rw [if_pos h3]

theorem opTdep_appends (h3 : tcbState pb ≠ 3) (h0 : tcbState sb = 0) {ws : List KvWrite} {t : State}
    (ha : appendSuccessor (started s w i) j.part ((s.warp w).readPairS ((started s w i).draw 0) f.va.toNat) pb k = some ws)
    (ht : (started s w i).kvCommit ((started s w i).path w (s.warp w).active 4) [] (pagerVia j.part)
      (ws ++ [w4 ((s.warp w).readPairS ((started s w i).draw 0) f.vb.toNat) ((fieldAt sb 0 4 + 1) % 2 ^ 32)]) = .ok t) :
    opTdep h (.x f) (s.selfActor w i) (started s w i) = .ok (t.updWarp w (fun x => x.writeS h.vd.toNat 0#32)) := by
  unfold opTdep
  dsimp only
  rw [taskPair_self, taskPair_self, State.selfActor_lead, jobOf_started, hj]
  dsimp only
  rw [hn, hk]
  dsimp only
  rw [hp, hsb]
  dsimp only
  rw [if_neg h3, if_neg (by simp [h0]), ha]
  dsimp only
  rw [agentOf_self, ht]

theorem opTdep_faults (h3 : tcbState pb ≠ 3) (h0 : tcbState sb ≠ 0) :
    opTdep h (.x f) (s.selfActor w i) (started s w i) = .fault (FaultInfo.of 0x86 1) := by
  unfold opTdep
  dsimp only
  rw [taskPair_self, taskPair_self, State.selfActor_lead, jobOf_started, hj]
  dsimp only
  rw [hn, hk]
  dsimp only
  rw [hp, hsb]
  dsimp only
  rw [if_neg h3, if_pos h0]
  rfl

end

/-! TCANCEL. -/

theorem opTcancel_none (hj : s.job? (s.partOf w) ((s.warp w).readS ((started s w i).draw 0) f.va.toNat).toNat = none) :
    opTcancel h (.x f) (s.selfActor w i) (started s w i) = .ok (started s w i) := by
  unfold opTcancel
  dsimp only
  rw [taskReg_self, State.selfActor_lead, partOf_started,
    show (started s w i).job? (s.partOf w) ((s.warp w).readS ((started s w i).draw 0) f.va.toNat).toNat = none from hj]

theorem opTcancel_cancels {j : Job}
    (hj : s.job? (s.partOf w) ((s.warp w).readS ((started s w i).draw 0) f.va.toNat).toNat = some j)
    (hr : ((started s w i).cancelJob j h.x (s.warp w).blk).recordsFit j.part = true) :
    opTcancel h (.x f) (s.selfActor w i) (started s w i) = .ok ((started s w i).cancelJob j h.x (s.warp w).blk) := by
  unfold opTcancel
  dsimp only
  rw [taskReg_self, State.selfActor_lead, partOf_started, warp_started, Warp.issued_blk,
    show (started s w i).job? (s.partOf w) ((s.warp w).readS ((started s w i).draw 0) f.va.toNat).toNat = some j from hj]
  dsimp only
  rw [if_pos hr]

/-! STENQ and STDEQ. -/

theorem stileFor_mapped {part n : Nat} {enq : Bool} {t : Stile} (hs : s.stiles.find n = some t)
    (ho : (if enq then t.producer else t.consumer) = part) (hp : (s.part t.producer).pstate ≠ .resetting)
    (hc : (s.part t.consumer).pstate ≠ .resetting) : s.stileFor part n enq = .ok t := by
  unfold State.stileFor
  rw [hs]
  dsimp only
  rw [if_neg (by simp [ho]), if_neg (by simp [hp, hc])]

theorem pollStdeq_takes {a : Actor} {n part : Nat} {number : DWord} {stile : Stile} {d : List Word} {rest : List (List Word)}
    (hn : number.toNat = n) (hp : s.partOf a.lead = part) (hf : s.stileFor part n false = .ok stile)
    (hs : stile.slots = d :: rest) :
    pollStdeq h number 0 a s =
      .ok (({ s.noteStile a.lead n false with
          stiles := (s.noteStile a.lead n false).stiles.put n { stile with slots := rest, sent := stile.sent.tail } }.hear
          (s.agentOf a a.lead 4) true (stile.sent.take 1)).updWarp a.lead (fun x =>
          ((List.range 16).zip d).foldl (fun (y : Warp) (e : Nat × Word) => y.writeS (h.vd.toNat + e.1) e.2) x)) := by
  unfold pollStdeq
  dsimp only
  rw [if_neg (by decide), hn, hp, hf]
  dsimp only
  rw [hs]

theorem pollStdeq_waits {a : Actor} {n part : Nat} {number : DWord} {stile : Stile} (hn : number.toNat = n)
    (hp : s.partOf a.lead = part) (hf : s.stileFor part n false = .ok stile) (hs : stile.slots = []) :
    pollStdeq h number 0 a s =
      .wait ((s.noteStile a.lead n false).blockAll a (ownerStile n) 7 (BitVec.ofNat 24 n)) .stdeq [number] := by
  unfold pollStdeq
  dsimp only
  rw [if_neg (by decide), hn, hp, hf]
  dsimp only
  rw [hs]

theorem pollStenq_appends {a : Actor} {n part : Nat} {number : DWord} {ds : List DWord} {stile : Stile} (hn : number.toNat = n)
    (hl : ds.length = 16) (hp : s.partOf a.lead = part) (hf : s.stileFor part n true = .ok stile)
    (hc : stile.slots.length < stile.capacity) :
    pollStenq (number :: ds) a s =
      .ok { (s.noteStile a.lead n true).releaseBy (s.agentOf a a.lead 4) with
        stiles := (s.noteStile a.lead n true).stiles.put n { stile with
            slots := stile.slots ++ [ds.map (fun d => d.extractLsb' 0 32)],
            sent := stile.sent ++ [⟨.access s.freeCtr a.lead 0, s.origin (s.agentOf a a.lead 4), true⟩] } } := by
  have hend : (number :: ds).getD 17 0 = 0 := by simp [hl]
  have htake : ds.take 16 = ds := List.take_of_length_le hl.le
  unfold pollStenq
  dsimp only
  rw [hend, if_neg (by decide)]
  dsimp only [List.headD_cons, List.tail_cons]
  rw [hn, hp, hf, htake]
  dsimp only
  rw [if_neg (Nat.not_le.2 hc)]
  rfl

theorem pollStenq_waits {a : Actor} {n part : Nat} {number : DWord} {ds : List DWord} {stile : Stile} (hn : number.toNat = n)
    (hl : ds.length = 16) (hp : s.partOf a.lead = part) (hf : s.stileFor part n true = .ok stile)
    (hc : stile.capacity ≤ stile.slots.length) :
    pollStenq (number :: ds) a s =
      .wait ((s.noteStile a.lead n true).blockAll a (ownerStile n) 7 (BitVec.ofNat 24 (n + 2 ^ 16))) .stenq (number :: ds) := by
  have hend : (number :: ds).getD 17 0 = 0 := by simp [hl]
  unfold pollStenq
  dsimp only
  rw [hend, if_neg (by decide)]
  dsimp only [List.headD_cons]
  rw [hn, hp, hf]
  dsimp only
  rw [if_pos hc]

/-- The sixteen words of a slot, in registers from `r` on. -/
theorem writeSlots_rawS (r k : Nat) (d : List Word) (j : Nat) (x : Warp) :
    (((List.range' j d.length).zip d).foldl (fun (y : Warp) (e : Nat × Word) => y.writeS (r + e.1) e.2) x).rawS k =
      if r + j ≤ k ∧ k < r + j + d.length then d.getD (k - (r + j)) 0 else x.rawS k := by
  induction d generalizing j x with
  | nil => exact (if_neg fun hk => absurd hk.2 (Nat.not_lt.2 hk.1)).symm
  | cons a d ih =>
    rw [List.length_cons, List.range'_succ, List.zip_cons_cons, List.foldl_cons, ih]
    by_cases h0 : k = r + j
    · subst h0
      rw [if_neg (by omega), if_pos (by omega), Nat.sub_self]
      exact congrArg (fun o => Option.getD o 0) (AMap.find_put_same ..)
    · have hx : (x.writeS (r + j) a).rawS k = x.rawS k := congrArg (fun o => Option.getD o 0) (AMap.find_put_other _ _ h0)
      rw [hx]
      by_cases hk : r + j + 1 ≤ k ∧ k < r + j + 1 + d.length
      · rw [if_pos (by omega), if_pos (by omega), show k - (r + j) = (k - (r + (j + 1))) + 1 by omega,
          List.getD_cons_succ]
      · rw [if_neg (by omega), if_neg (by omega)]

theorem writeSlots_keeps {γ : Type} (p : Warp → γ) (hp : ∀ (x : Warp) r b, p (x.writeS r b) = p x) (r : Nat) (es : List (Nat × Word))
    (x : Warp) : p (es.foldl (fun (y : Warp) (e : Nat × Word) => y.writeS (r + e.1) e.2) x) = p x := by
  induction es generalizing x with
  | nil => rfl
  | cons e es ih => exact (ih _).trans (hp ..)

/-- What an agent of device scope hears rests on the writes kept and the releases heard alone. -/
theorem hear_congr {u z : State} {g : Agent} (hp : u.past = z.past) (hs : u.sync = z.sync) (hg : g.scope = 4) (acq : Bool)
    (rels : List Rel) : (u.hear g acq rels).past = (z.hear g acq rels).past := by
  have horigin : ∀ v : State, v.origin g = ⟨g.key, g.scope, g.blk, g.flock, []⟩ := fun v => by
    rw [State.origin, if_neg (by simp [hg])]
  have hsyncs : u.syncs g = z.syncs g := by
    funext r
    rw [State.syncs, State.syncs, State.mutual, State.mutual, horigin, horigin]
  have hmap : ∀ (v t : State) (k : Past → Past), v.past = t.past → (v.mapPast k).past = (t.mapPast k).past := by
    intro v t k e
    unfold State.mapPast
    rw [e]
    split
    · exact e
    · rfl
  unfold State.hear
  rw [hsyncs]
  split
  · exact hp
  · split
    · exact hmap _ _ _ hp
    · exact hp

/-- A warp that goes on past a plain instruction, which left the other warps as they were. -/
theorem others_past {t : State} (ht : ∀ v, v ≠ w → t.warps.find v = (started s w i).warps.find v) {v : Nat} (hv : v ≠ w) :
    (past s w i t).warps.find v = s.warps.find v :=
  (AMap.find_put_other _ _ hv).trans ((ht v hv).trans (find_started_other i hv))

theorem plain_stenq (h : Hdr) (u : Upper) : plain (.stenq h u) := plain_of_head rfl rfl (fun _ _ e => nomatch e)
theorem plain_stdeq (h : Hdr) (u : Upper) : plain (.stdeq h u) := plain_of_head rfl rfl (fun _ _ e => nomatch e)

/-- A plain instruction that leaves every warp as it was goes on past itself. -/
theorem warp_past_kept {t : State} (hp : plain i) (ht : t.warps = (started s w i).warps) :
    (∀ v, v ≠ w → (past s w i t).warps.find v = s.warps.find v) ∧ ((past s w i t).warp w).wait = none ∧
      ((past s w i t).warp w).s = (s.warp w).s ∧ ((past s w i t).warp w).v = (s.warp w).v ∧
      ((past s w i t).warp w).pc = canon57 ((s.warp w).pc + BitVec.ofNat 64 (instrLength i)) := by
  have hw : t.warp w = (s.warp w).issued i :=
    (congrArg (fun m => (m.find w).getD Warp.blank) ht).trans (warp_started s w i)
  refine ⟨fun v hv => others_past (fun v _ => by rw [ht]) hv, ?_⟩
  rw [warp_past_plain hp, hw]
  exact ⟨rfl, Warp.issued_s _ _, Warp.issued_v _ _, congrArg (fun pc => canon57 (pc + _)) (Warp.issued_pc _ _)⟩

/-- An instruction that leaves every warp as it was and waits. -/
theorem issue_polls {op : Actor → State → Res} {t : State} {o : Word} {k : BitVec 4} {d : BitVec 24} {wk : WaitKind}
    {q : List DWord} (hs : Solo s w i) (ht : t.warps = (started s w i).warps)
    (ho : op (s.selfActor w i) (started s w i) = .wait (t.blockAll (s.selfActor w i) o k d) wk q) :
    ∃ y, issue i op s = .next y ∧ y.stiles = t.stiles ∧ y.mem = t.mem ∧
      (∃ q, (y.warp w).wait = some q ∧ q.kind = wk) ∧ (y.warp w).pc = (s.warp w).pc := by
  have hw : t.warp w = (s.warp w).issued i :=
    (congrArg (fun m => (m.find w).getD Warp.blank) ht).trans (warp_started s w i)
  refine ⟨_, issue_blocked hs (by rw [hw]; exact Warp.issued_live _ _) ho, rfl, rfl, ⟨⟨wk, i, s.selfActor w i, q⟩, ?_, rfl⟩, ?_⟩
  · rw [State.warp_updWarp_same]
  · rw [State.warp_updWarp_same, hw]
    exact Warp.issued_pc _ _

/-- What STENQ sends: the stile's number, and sixteen words. -/
def slotArgs (s : State) (w : Nat) (i : Instr) (f : XForm) : List DWord :=
  ((s.warp w).readS ((started s w i).draw 0) f.va.toNat).zeroExtend 64 ::
    ((List.range 16).map (fun k => (s.warp w).readS ((started s w i).draw 0) (f.vb.toNat + k))).map (fun d => d.zeroExtend 64)

theorem opStenq_self : opStenq (.x f) (s.selfActor w i) (started s w i) =
    pollStenq (slotArgs s w i f) (s.selfActor w i) (started s w i) := by
  unfold opStenq slotArgs
  dsimp only
  rw [taskReg_self, State.selfActor_lead, warp_started, List.map_map]
  refine congrArg (fun l => pollStenq (_ :: l) _ _) (List.map_congr_left fun k _ => ?_)
  exact congrArg (fun d : Word => d.zeroExtend 64) (Warp.readS_issued ..)

theorem words_slot (l : List Word) : (l.map (fun d => d.zeroExtend 64)).map (fun d => d.extractLsb' 0 32) = l := by
  rw [List.map_map]
  refine (List.map_congr_left fun d _ => ?_).trans (List.map_id l)
  exact extract_word d

section
variable {t : Stile} {n : Nat} (hf : s.stiles.find n = some t)
  (hn : ((s.warp w).readS ((started s w i).draw 0) f.va.toNat).toNat = n)
  (hp : (s.part t.producer).pstate ≠ .resetting) (hc : (s.part t.consumer).pstate ≠ .resetting)
include hf hn hp hc

/-- STENQ on a stile that has room. -/
theorem stenq_appends (hs : Solo s w i) (hi : plain i) (ho : t.producer = s.partOf w) (hl : t.slots.length < t.capacity) :
    ∃ y, issue i (opStenq (.x f)) s = .next y ∧
    y.stiles.find n = some { t with
      slots := t.slots ++ [(List.range 16).map (fun k => (s.warp w).readS ((started s w i).draw 0) (f.vb.toNat + k))],
      sent := t.sent ++ [⟨.access (s.freeCtr + 1) w 0, (started s w i).origin ((started s w i).path w (s.warp w).active 4), true⟩] } ∧
    (∀ m, m ≠ n → y.stiles.find m = s.stiles.find m) ∧ y.mem = s.mem ∧ (∀ v, v ≠ w → y.warps.find v = s.warps.find v) ∧
    (y.warp w).wait = none ∧ (y.warp w).s = (s.warp w).s ∧ (y.warp w).v = (s.warp w).v ∧
    (y.warp w).pc = canon57 ((s.warp w).pc + BitVec.ofNat 64 (instrLength i)) := by
  have hmap := stileFor_mapped (s := started s w i) (enq := true) hf ho hp hc
  have happ := opStenq_self.trans (pollStenq_appends (a := s.selfActor w i) ((BitVec.toNat_setWidth_of_le (by decide)).trans hn)
    (by simp) (partOf_started s w i) hmap hl)
  rw [words_slot, State.selfActor_lead, agentOf_self] at happ
  have hrel := State.releaseBy_pastOf ((started s w i).noteStile w n true) ((started s w i).path w (s.warp w).active 4)
  have hwarps : (((started s w i).noteStile w n true).releaseBy ((started s w i).path w (s.warp w).active 4)).warps =
      (started s w i).warps := (State.pastOf_warps hrel).trans rfl
  have hmem : (((started s w i).noteStile w n true).releaseBy ((started s w i).path w (s.warp w).active 4)).mem = s.mem :=
    (State.pastOf_mem hrel).trans rfl
  have hx := issue_past hs happ (not_exited_of_live hs (by
    refine (congrArg (fun m => ((m.find w).getD Warp.blank).live) hwarps).trans ?_
    exact (congrArg Warp.live (warp_started s w i)).trans (Warp.issued_live _ _)))
  obtain ⟨hothers, hwait, hreg, hvec, hpc⟩ := warp_past_kept (t := { ((started s w i).noteStile w n true).releaseBy
    ((started s w i).path w (s.warp w).active 4) with stiles := _ }) hi hwarps
  exact ⟨_, hx, AMap.find_put_same .., fun m hm => AMap.find_put_other _ _ hm, hmem, hothers, hwait, hreg, hvec, hpc⟩

/-- STENQ on a full stile. -/
theorem stenq_waits (hs : Solo s w i) (ho : t.producer = s.partOf w) (hl : t.capacity ≤ t.slots.length) :
    ∃ y, issue i (opStenq (.x f)) s = .next y ∧ y.stiles = s.stiles ∧ y.mem = s.mem ∧
      (∃ q, (y.warp w).wait = some q ∧ q.kind = .stenq) ∧ (y.warp w).pc = (s.warp w).pc := by
  have hmap := stileFor_mapped (s := started s w i) (enq := true) hf ho hp hc
  have happ := opStenq_self.trans (pollStenq_waits (a := s.selfActor w i) ((BitVec.toNat_setWidth_of_le (by decide)).trans hn)
    (by simp) (partOf_started s w i) hmap hl)
  exact issue_polls (t := (started s w i).noteStile w n true) hs rfl happ

/-- The state in which a slot has left a stile, and once the warp's path has heard who sent it. -/
def State.unslotted (s : State) (w : Nat) (i : Instr) (n : Nat) (t : Stile) (rest : List (List Word)) : State :=
  { (started s w i).noteStile w n false with
      stiles := ((started s w i).noteStile w n false).stiles.put n { t with slots := rest, sent := t.sent.tail } }
def State.dequeued (s : State) (w : Nat) (i : Instr) (n : Nat) (t : Stile) (rest : List (List Word)) : State :=
  (s.unslotted w i n t rest).hear ((started s w i).path w (s.warp w).active 4) true (t.sent.take 1)

/-- STDEQ on a stile that holds a slot. -/
theorem stdeq_takes (hs : Solo s w i) (hi : plain i) (ho : t.consumer = s.partOf w) {d : List Word} {r : List (List Word)}
    (hd : t.slots = d :: r) (hl : d.length = 16) :
    ∃ y, issue i (opStdeq h (.x f)) s = .next y ∧
    y.stiles.find n = some { t with slots := r, sent := t.sent.tail } ∧
    y.past = ((started s w i).hear ((started s w i).path w (s.warp w).active 4) true (t.sent.take 1)).past ∧
    (∀ m, m ≠ n → y.stiles.find m = s.stiles.find m) ∧ y.mem = s.mem ∧ (∀ v, v ≠ w → y.warps.find v = s.warps.find v) ∧
    (y.warp w).wait = none ∧
    (∀ k, (y.warp w).rawS k = if h.vd.toNat ≤ k ∧ k < h.vd.toNat + 16 then d.getD (k - h.vd.toNat) 0 else (s.warp w).rawS k) ∧
    (y.warp w).v = (s.warp w).v ∧ (y.warp w).pc = canon57 ((s.warp w).pc + BitVec.ofNat 64 (instrLength i)) := by
  have hmap := stileFor_mapped (s := started s w i) (enq := false) hf ho hp hc
  have htake : opStdeq h (.x f) (s.selfActor w i) (started s w i) = .ok ((s.dequeued w i n t r).updWarp w (fun x =>
      ((List.range 16).zip d).foldl (fun (y : Warp) (e : Nat × Word) => y.writeS (h.vd.toNat + e.1) e.2) x)) := by
    unfold opStdeq
    dsimp only
    rw [taskReg_self, pollStdeq_takes ((BitVec.toNat_setWidth_of_le (by decide)).trans hn) (partOf_started s w i) hmap hd,
      State.selfActor_lead, agentOf_self]
    rfl
  have hear : (s.unslotted w i n t r).pastOf (s.dequeued w i n t r) := State.hear_pastOf _ _ _ _
  have hwarps : (s.dequeued w i n t r).warps = (started s w i).warps := (State.pastOf_warps hear).trans rfl
  have hw : (s.dequeued w i n t r).warp w = (s.warp w).issued i :=
    (congrArg (fun m => (m.find w).getD Warp.blank) hwarps).trans (warp_started s w i)
  have hstiles : (s.dequeued w i n t r).stiles = s.stiles.put n { t with slots := r, sent := t.sent.tail } :=
    (congrArg State.stiles hear).trans rfl
  have hrange : List.range 16 = List.range' 0 d.length := by rw [hl, List.range_eq_range']
  have hx := issue_past hs htake (not_exited_of_live hs (by
    rw [State.warp_updWarp_same, hw, writeSlots_keeps Warp.live (fun _ _ _ => rfl), Warp.issued_live]))
  have hpast : (s.dequeued w i n t r).past =
      ((started s w i).hear ((started s w i).path w (s.warp w).active 4) true (t.sent.take 1)).past :=
    hear_congr (u := s.unslotted w i n t r) (z := started s w i) (g := (started s w i).path w (s.warp w).active 4) rfl rfl rfl true _
  refine ⟨_, hx, ?_, hpast, fun m hm => ?_, (State.pastOf_mem hear).trans rfl,
    fun v hv => others_past (fun v hv => (AMap.find_put_other _ _ hv).trans (by rw [hwarps])) hv, ?_⟩
  · exact (congrArg (AMap.find · n) hstiles).trans (AMap.find_put_same ..)
  · exact (congrArg (AMap.find · m) hstiles).trans (AMap.find_put_other _ _ hm)
  · rw [warp_past_plain hi, State.warp_updWarp_same, hw]
    refine ⟨rfl, fun k => ?_, ?_, ?_⟩
    · have hraw := writeSlots_rawS h.vd.toNat k d 0 ((s.warp w).issued i)
      rw [← hrange, hl, Nat.add_zero, Warp.rawS_issued] at hraw
      exact hraw
    · exact (writeSlots_keeps Warp.v (fun _ _ _ => rfl) ..).trans (Warp.issued_v _ _)
    · refine congrArg (fun pc => canon57 (pc + _)) ?_
      exact (writeSlots_keeps Warp.pc (fun _ _ _ => rfl) ..).trans (Warp.issued_pc _ _)

/-- STDEQ on an empty stile. -/
theorem stdeq_waits (hs : Solo s w i) (ho : t.consumer = s.partOf w) (hl : t.slots = []) :
    ∃ y, issue i (opStdeq h (.x f)) s = .next y ∧ y.stiles = s.stiles ∧ y.mem = s.mem ∧
      (∃ q, (y.warp w).wait = some q ∧ q.kind = .stdeq) ∧ (y.warp w).pc = (s.warp w).pc := by
  have hmap := stileFor_mapped (s := started s w i) (enq := false) hf ho hp hc
  have hwait : opStdeq h (.x f) (s.selfActor w i) (started s w i) = .wait (((started s w i).noteStile w n false).blockAll
      (s.selfActor w i) (ownerStile n) 7 (BitVec.ofNat 24 n)) .stdeq
      [((s.warp w).readS ((started s w i).draw 0) f.va.toNat).zeroExtend 64] := by
    unfold opStdeq
    dsimp only
    rw [taskReg_self, pollStdeq_waits ((BitVec.toNat_setWidth_of_le (by decide)).trans hn) (partOf_started s w i) hmap hl,
      State.selfActor_lead]
  exact issue_polls (t := (started s w i).noteStile w n false) hs rfl hwait

end

end

/-- Settles O49: each instruction by what its operation answers where the checks pass. -/
theorem taskInstructions : Obligations.TaskInstructions := by
  unfold Obligations.TaskInstructions
  intro s w h f x part
  refine ⟨?_, ?_, ?_, ?_, ?_, ?_⟩
  · intro i z addr q job hs h64 hd hq bs z1 hl hf
    exact issue_goesOn (op := opLaunch h (.x f)) hs (opLaunch_self i h64 hd hq hl hf)
  · intro i z addr q hs h64 j k bs hj hk hb hc hx t0
    refine ⟨fun h0 hr => ?_, fun h0 => ?_⟩
    · exact issue_goesOn (op := opSpawn h (.x f)) hs (opSpawn_self h64 hj hk hb hc hx rfl (if_neg h0) hr)
    · intro t hr
      exact issue_goesOn (op := opSpawn h (.x f)) hs (opSpawn_self h64 hj hk hb hc hx rfl (if_pos h0) hr)
  · intro i z pred succ hs j k n pb sb hj hn hk hp hsb
    refine ⟨fun h3 => ?_, fun h3 h0 ws t ha ht => ?_, fun h3 h0 hr => ?_⟩
    · exact issue_updWarp (op := opTdep h (.x f)) hs (opTdep_done hj hn hk hp hsb h3) (Warp.issued_live _ _)
    · exact issue_goesOn (op := opTdep h (.x f)) hs (opTdep_appends hj hn hk hp hsb h3 h0 ha ht)
    · exact issue_fault (op := opTdep h (.x f)) hs hr (opTdep_faults hj hn hk hp hsb h3 h0)
  · intro i z id hs
    refine ⟨fun hj => ?_, fun j hj hr => ?_⟩
    · exact issue_nothing (op := opTcancel h (.x f)) hs (opTcancel_none hj)
    · exact issue_goesOn (op := opTcancel h (.x f)) hs (opTcancel_cancels hj hr)
  · intro i z n d hs t hf ho hp hc
    exact ⟨fun hl => stenq_appends hf rfl hp hc hs (plain_stenq h _) ho hl, fun hl => stenq_waits hf rfl hp hc hs ho hl⟩
  · intro i z n hs t hf ho hp hc
    exact ⟨fun e r hd hl => stdeq_takes hf rfl hp hc hs (plain_stdeq h _) ho hd hl,
      fun hl => stdeq_waits hf rfl hp hc hs ho hl⟩

end Sys2Proof.Machine
end

section
/-! PROOF. The privileged instructions (21 R360 to R366, 19 R347). -/

namespace Sys2Proof.Machine

/-! PRIVILEGED outside firmware (04 R110). -/

section
variable {s : State} {w : Nat} {i : Instr}

theorem isWord_of_head {m fn : Nat} {h : Hdr} {u : Upper} (e : headWord i = some (m, fn, h, u)) : i.isWord = true := by
  refine bne_iff_ne.2 fun hf => ?_
  rw [headWord, hf] at e
  exact nomatch e

theorem precheck_privileged {fn : Nat} {h : Hdr} {u : Upper} (e : headWord i = some (17, fn, h, u))
    (hf : (s.warp w).fw = false) : s.precheck w i = some 0x15 := by
  have hc : contextCause (s.warp w) i = some 0x15 := by
    rw [contextCause, e]
    dsimp only
    rw [hf, if_pos (by decide)]
    rfl
  rw [State.precheck, hc]

theorem loneActor_narrow (h : scopeOfInstr i = .lane ∨ scopeOfInstr i = .warp) : s.loneActor w i = s.selfActor w i := by
  have hn : ((s.selfActor w i).scope == .flock || (s.selfActor w i).scope == .block) = false := by
    rw [show (s.selfActor w i).scope = scopeOfInstr i from rfl]
    rcases h with h | h <;> rw [h] <;> rfl
  rw [State.loneActor, hn, if_neg Bool.false_ne_true]

theorem exec_privileged {fn : Nat} {h : Hdr} {u : Upper} (e : headWord i = some (17, fn, h, u)) (hfo : s.focus = some w)
    (hr : s.ready w = true) (hf : (s.warp w).fw = false) (room : Room s w)
    (hs : scopeOfInstr i = .lane ∨ scopeOfInstr i = .warp) :
    exec i s = .next (taken s w i (FaultInfo.of 0x15 0) ((started s w i).updWarp w (fun x => x.unwait))) := by
  obtain ⟨gate, op, hx⟩ := exec_word i (isWord_of_head e)
  have hu := unwaitAll_loneActor i hr
  rw [hx, issueWith_cause hfo hr (precheck_privileged e hf), Res.cause, settle_lone hr room, hu,
    loneActor_narrow hs]
  rfl

end

/-! What each operation answers. -/

section
variable {s : State} {w : Nat} {i : Instr} {h : Hdr} {f : XForm}

theorem sysResult_self (v : Word) (t : State) :
    sysResult h (s.selfActor w i) v t = .ok (t.updWarp w (fun x => x.writeS h.vd.toNat v)) := rfl

/-- A result, and the state that goes with it. -/
theorem issue_result {op : Actor → State → Res} {v : Word} {t : State} (hs : Solo s w i)
    (ho : op (s.selfActor w i) (started s w i) = sysResult h (s.selfActor w i) v t) :
    issue i op s = .next (goesOn s w i (t.updWarp w (fun x => x.writeS h.vd.toNat v))) := issue_goesOn hs ho

/-- A result alone. -/
theorem issue_status {op : Actor → State → Res} {v : Word} (hs : Solo s w i)
    (ho : op (s.selfActor w i) (started s w i) = sysResult h (s.selfActor w i) v (started s w i)) :
    issue i op s = .next (finished s w i (fun x => x.writeS h.vd.toNat v)) := issue_updWarp hs ho (Warp.issued_live _ _)

/-- Reserved operands. -/
theorem issue_reserved {op : Actor → State → Res} (hs : Solo s w i)
    (ho : op (s.selfActor w i) (started s w i) = Res.cause cReserved) (room : Room s w) :
    issue i op s = .next (taken s w i (FaultInfo.of 0x11 0) ((started s w i).updWarp w (fun x => x.unwait))) :=
  issue_fault hs room ho

theorem isNone_started (hs : Solo s w i) (v : Nat) : ((started s w i).warps.find v).isNone = (s.warps.find v).isNone := by
  by_cases hv : v = w
  · subst hv
    rw [exists_of_ready hs.1.2.1, started_eq_setWarp, State.setWarp, AMap.find_put_same]
    rfl
  · rw [find_started_other i hv]

/-- The registers that a privileged instruction reads. -/
def sysA (s : State) (w : Nat) (i : Instr) (f : XForm) : Word := (s.warp w).readS ((started s w i).draw 0) f.va.toNat
def sysB (s : State) (w : Nat) (i : Instr) (f : XForm) : Word := (s.warp w).readS ((started s w i).draw 0) f.vb.toNat
def sysPair (s : State) (w : Nat) (i : Instr) (f : XForm) : DWord := (s.warp w).readPairS ((started s w i).draw 0) f.vb.toNat

/-! OVFLD, TLBINV and SWRP. -/

theorem opOvfld_sets (hb : sysB s w i f < 8) (hv : ovfValid (sysA s w i f) = true) :
    opOvfld h (.x f) (s.selfActor w i) (started s w i) = sysResult h (s.selfActor w i) (s.part (sysB s w i f).toNat).ovf
      ((started s w i).updPart (sysB s w i f).toNat (fun q => { q with ovf := sysA s w i f })) := by
  have hb : (decide (8 ≤ (sysB s w i f).toNat) || !ovfValid (sysA s w i f)) = false := by
    rw [hv, Bool.not_true, Bool.or_false, decide_eq_false_iff_not]
    exact Nat.not_le.2 hb
  unfold opOvfld
  dsimp only
  rw [taskReg_self, taskReg_self, ← sysA, ← sysB, hb, if_neg Bool.false_ne_true]
  rfl

theorem opOvfld_reserved (hb : ¬ (sysB s w i f < 8 ∧ ovfValid (sysA s w i f) = true)) :
    opOvfld h (.x f) (s.selfActor w i) (started s w i) = Res.cause cReserved := by
  have hb : (decide (8 ≤ (sysB s w i f).toNat) || !ovfValid (sysA s w i f)) = true := by
    rw [Bool.or_eq_true, decide_eq_true_iff, Bool.not_eq_true', ← Bool.not_eq_true, or_iff_not_imp_left]
    exact fun h8 hv => hb ⟨Nat.not_le.1 h8, hv⟩
  unfold opOvfld
  dsimp only
  rw [taskReg_self, taskReg_self, ← sysA, ← sysB, hb, if_pos rfl]

/-- TLBINV's command names no kind or has reserved bits. -/
def tlbReserved (c : Word) : Bool := c.extractLsb' 6 26 != 0 || c.getLsbD 3 || decide ((c.extractLsb' 4 2).toNat = 3)

theorem tlbReserved_false {c : Word} (h6 : c.extractLsb' 6 26 = (0 : BitVec 26)) (h3 : c.getLsbD 3 = false)
    (hk : (c.extractLsb' 4 2).toNat ≠ 3) : tlbReserved c = false := by
  rw [tlbReserved, h6, h3, decide_eq_false hk]
  rfl

theorem tlbReserved_true {c : Word}
    (hr : c.extractLsb' 6 26 ≠ (0 : BitVec 26) ∨ c.getLsbD 3 = true ∨ (c.extractLsb' 4 2).toNat = 3) : tlbReserved c = true := by
  rw [tlbReserved]
  rcases hr with hr | hr | hr
  · rw [bne_iff_ne.2 hr, Bool.true_or, Bool.true_or]
  · rw [hr, Bool.or_true, Bool.true_or]
  · rw [decide_eq_true hr, Bool.or_true]

/-- What TLBINV leaves. -/
def State.invalidated (s z : State) (part kind va : Nat) : State :=
  { z with cores := z.cores.mapVal (fun _ k =>
    { k with tlb := k.tlb.filter (keepsEntry part kind va (z.pageAt part va)) }) }.updPart part (fun p =>
      { p with tables := List.filter (fun e => keepsOld s.mem p kind va e.1) p.tables })

theorem opTlbinv_self : opTlbinv (.x f) (s.selfActor w i) (started s w i) =
    if tlbReserved (sysB s w i f) then Res.cause cReserved
    else if (started s w i).drainsInFlight ((sysB s w i f).extractLsb' 0 3).toNat then .hold
    else .ok (s.invalidated (started s w i) ((sysB s w i f).extractLsb' 0 3).toNat ((sysB s w i f).extractLsb' 4 2).toNat
      (vaBits ((s.warp w).readPairS ((started s w i).draw 0) f.va.toNat))) := by
  unfold opTlbinv
  dsimp only
  rw [taskReg_self, taskPair_self]
  rfl

theorem opTlbinv_invalidates (hc : tlbReserved (sysB s w i f) = false)
    (hd : (started s w i).drainsInFlight ((sysB s w i f).extractLsb' 0 3).toNat = false) :
    opTlbinv (.x f) (s.selfActor w i) (started s w i) =
      .ok (s.invalidated (started s w i) ((sysB s w i f).extractLsb' 0 3).toNat ((sysB s w i f).extractLsb' 4 2).toNat
        (vaBits ((s.warp w).readPairS ((started s w i).draw 0) f.va.toNat))) := by
  rw [opTlbinv_self, hc, if_neg Bool.false_ne_true, hd, if_neg Bool.false_ne_true]

theorem opSwrp_sets {old : Word} {p : Part} (hr : (sysB s w i f).extractLsb' 11 21 = (0 : BitVec 21))
    (hp : (s.part ((sysB s w i f).extractLsb' 8 3).toNat).swrp ((sysB s w i f).extractLsb' 0 8).toNat (sysA s w i f) =
      some (old, p)) :
    opSwrp h (.x f) (s.selfActor w i) (started s w i) = sysResult h (s.selfActor w i) old
      ((((started s w i).setPart ((sysB s w i f).extractLsb' 8 3).toNat p).flushHeld ((sysB s w i f).extractLsb' 8 3).toNat
        p.heldRecs.length).rehead ((sysB s w i f).extractLsb' 8 3).toNat) := by
  unfold opSwrp
  dsimp only
  rw [taskReg_self, taskReg_self, ← sysA, ← sysB, hr, if_neg (by decide), part_started, hp]

theorem opSwrp_reserved (hr : (sysB s w i f).extractLsb' 11 21 ≠ (0 : BitVec 21) ∨
      (s.part ((sysB s w i f).extractLsb' 8 3).toNat).swrp ((sysB s w i f).extractLsb' 0 8).toNat (sysA s w i f) = none) :
    opSwrp h (.x f) (s.selfActor w i) (started s w i) = Res.cause cReserved := by
  unfold opSwrp
  dsimp only
  rw [taskReg_self, taskReg_self, ← sysA, ← sysB, part_started]
  by_cases h0 : (sysB s w i f).extractLsb' 11 21 = (0 : BitVec 21)
  · rw [hr.resolve_left (not_not.2 h0), ite_self]
  · rw [if_pos (bne_iff_ne.2 h0)]

/-! CTXSAVE and CTXLOAD. -/

theorem opCtxsave_reserved (ht : targetWord false (sysA s w i f) = none) :
    opCtxsave h (.x f) (s.selfActor w i) (started s w i) = Res.cause cReserved := by
  unfold opCtxsave
  dsimp only
  rw [taskReg_self, ← sysA, ht]

theorem opCtxsave_saves {t : TargetWord} (ht : targetWord false (sysA s w i f) = some t) (hb : t.block = true)
    (hw : ((started s w i).warps.find t.warp).isNone = false)
    (hs : (started s w i).allSuspended ((started s w i).warp t.warp).blk = true)
    (hc : (started s w i).contextBusy ((started s w i).warp t.warp).blk = false) (ha : (sysPair s w i f).toNat % 4096 = 0)
    {rs : List (Place × Nat)} {g : Image} (hg : (started s w i).imageOf ((started s w i).warp t.warp).blk = g)
    (hr : (started s w i).longRuns ((started s w i).via w) (Rights.w false) ((started s w i).draw 8) (g.size / 4096 + 2)
      (sysPair s w i f) g.size = .ok rs) :
    opCtxsave h (.x f) (s.selfActor w i) (started s w i) = sysResult h (s.selfActor w i) (w32 g.size)
      { (started s w i).putBy ((started s w i).path w (s.warp w).active 4) ((started s w i).draw 13) (Put.store false) (.glob rs)
          g.bytes with images := (started s w i).images ++ [g] } := by
  unfold opCtxsave
  dsimp only
  rw [taskReg_self, taskPair_self, ← sysA, ← sysPair, ht]
  dsimp only
  rw [hb, hw, hs, if_neg (by decide), hc, if_neg Bool.false_ne_true, if_neg (not_not.2 ha), hg, State.selfActor_lead, hr]
  dsimp only
  rw [agentOf_self]

theorem opCtxsave_nothing {t : TargetWord} (ht : targetWord false (sysA s w i f) = some t)
    (hn : (!t.block || ((started s w i).warps.find t.warp).isNone ||
      !(started s w i).allSuspended ((started s w i).warp t.warp).blk) = true) :
    opCtxsave h (.x f) (s.selfActor w i) (started s w i) = sysResult h (s.selfActor w i) 0 (started s w i) := by
  unfold opCtxsave
  dsimp only
  rw [taskReg_self, taskPair_self, ← sysA, ← sysPair, ht]
  dsimp only
  rw [if_pos hn]

section
variable {t : TargetWord} (ht : targetWord false (sysA s w i f) = some t) (hb : t.block = false) (hslot : t.slot = 0)
include ht hb hslot

theorem opCtxload_fault {c : FaultInfo} (hg : (started s w i).imageAt (s.selfActor w i) (sysPair s w i f) = .error c) :
    opCtxload h (.x f) (s.selfActor w i) (started s w i) = .fault c := by
  unfold opCtxload
  dsimp only
  rw [taskReg_self, taskPair_self, ← sysA, ← sysPair, ht]
  dsimp only
  rw [hb, hslot, if_neg (by decide), hg]

variable {g : Image} (hg : (started s w i).imageAt (s.selfActor w i) (sysPair s w i f) = .ok g)
include hg

theorem opCtxload_noSlots (hn : (started s w i).imageSlots t.core g = none) :
    opCtxload h (.x f) (s.selfActor w i) (started s w i) = sysResult h (s.selfActor w i) 2 (started s w i) := by
  unfold opCtxload
  dsimp only
  rw [taskReg_self, taskPair_self, ← sysA, ← sysPair, ht]
  dsimp only
  rw [hb, hslot, if_neg (by decide), hg]
  dsimp only
  rw [hn]

variable {slots : List (Nat × Nat)} (hn : (started s w i).imageSlots t.core g = some slots)
include hn

theorem opCtxload_busy
    (hp : ((started s w i).pacing t.core || !(started s w i).admits t.core g.blk.claim g.blk.alloc) = true) :
    opCtxload h (.x f) (s.selfActor w i) (started s w i) = sysResult h (s.selfActor w i) 1 (started s w i) := by
  unfold opCtxload
  dsimp only
  rw [taskReg_self, taskPair_self, ← sysA, ← sysPair, ht]
  dsimp only
  rw [hb, hslot, if_neg (by decide), hg]
  dsimp only
  rw [hn]
  dsimp only
  rw [if_pos hp]

theorem opCtxload_loads
    (hp : ((started s w i).pacing t.core || !(started s w i).admits t.core g.blk.claim g.blk.alloc) = false)
    (hq : ((started s w i).core t.core).reqs.length + (g.warps.filter (fun e => e.2.leadsNeed e.1)).length ≤ Config.requestQueue) :
    opCtxload h (.x f) (s.selfActor w i) (started s w i) =
      sysResult h (s.selfActor w i) 0 (((started s w i).loadImage t.core g slots).tell
        (fun r => r.knownBy ((started s w i).path w (s.warp w).active 4))
        (slots.map (fun e => (warpId t.core e.2, 0xFFFFFFFF)))) := by
  unfold opCtxload
  dsimp only
  rw [taskReg_self, taskPair_self, ← sysA, ← sysPair, ht]
  dsimp only
  rw [hb, hslot, if_neg (by decide), hg]
  dsimp only
  rw [hn]
  dsimp only
  rw [hp, if_neg Bool.false_ne_true, if_neg (Nat.not_lt.2 hq), State.selfActor_lead, agentOf_self]

end

theorem pacing_started (core : Nat) : (started s w i).pacing core = s.pacing core := by
  have hl : ((started s w i).core core).lastAdmit = (s.core core).lastAdmit := by
    change (((s.bump).chargeIssue w i).core core).lastAdmit = _
    unfold State.chargeIssue State.core State.updCore State.setCore
    by_cases e : core = ((s.bump).warp w).core
    · subst e
      dsimp only
      rw [AMap.find_put_same]
      rfl
    · dsimp only
      rw [AMap.find_put_other _ _ e]
      rfl
  rw [State.pacing, State.pacing, hl, (sameQueue_started core).clock]

/-! QDESTROY. -/

theorem opQdestroy_destroys (hr : (sysA s w i f).extractLsb' 9 23 = (0 : BitVec 23)) {t : State}
    (ht : (started s w i).destroyQueue ((sysA s w i f).extractLsb' 6 3).toNat ((sysA s w i f).extractLsb' 0 6).toNat = t)
    (hf : t.recordsFit ((sysA s w i f).extractLsb' 6 3).toNat = true) :
    opQdestroy (.x f) (s.selfActor w i) (started s w i) = .ok t := by
  unfold opQdestroy
  dsimp only
  rw [taskReg_self, ← sysA, hr, if_neg (by decide), ht, if_pos hf]

theorem opQdestroy_reserved (hr : (sysA s w i f).extractLsb' 9 23 ≠ (0 : BitVec 23)) :
    opQdestroy (.x f) (s.selfActor w i) (started s w i) = Res.cause cReserved := by
  unfold opQdestroy
  dsimp only
  rw [taskReg_self, ← sysA, if_pos (bne_iff_ne.2 hr)]

/-! HALT. -/

section
variable {t : TargetWord} (ht : targetWord false (sysA s w i f) = some t)
include ht

theorem opHalt_gone
    (hg : (((started s w i).warps.find t.warp).isNone || ((started s w i).warp t.warp).exited) = true) :
    opHalt h (.x f) (s.selfActor w i) (started s w i) = sysResult h (s.selfActor w i) 2 (started s w i) := by
  unfold opHalt
  dsimp only
  rw [taskReg_self, ← sysA, ht]
  dsimp only
  rw [if_pos hg]

/-- The warps that HALT of a target reaches: those left that no record suspends. -/
def State.haltable (z : State) (t : TargetWord) : List Nat :=
  (if t.block then (z.warpsOfBlock (z.warp t.warp).blk).filter (fun v => !(z.warp v).exited) else [t.warp]).filter
    (fun v => (z.warp v).susp.isNone)

variable (hg : (((started s w i).warps.find t.warp).isNone || ((started s w i).warp t.warp).exited) = false)
include hg

theorem opHalt_none (hw : (started s w i).haltable t = []) :
    opHalt h (.x f) (s.selfActor w i) (started s w i) = sysResult h (s.selfActor w i) 1 (started s w i) := by
  have hw : ((started s w i).haltable t).isEmpty = true := by rw [hw]; rfl
  unfold opHalt
  dsimp only
  rw [taskReg_self, ← sysA, ht]
  dsimp only
  rw [hg, if_neg Bool.false_ne_true]
  exact if_pos hw

theorem opHalt_halts (hw : (started s w i).haltable t ≠ [])
    (hr : (started s w i).canRecord (halfOfCore ((started s w i).warp t.warp).core) ((started s w i).partOf t.warp) = true) :
    opHalt h (.x f) (s.selfActor w i) (started s w i) = sysResult h (s.selfActor w i) 0
      ((started s w i).haltWarps (if t.block then .block else .warp) ((started s w i).haltable t)) := by
  have hw : ¬ ((started s w i).haltable t).isEmpty = true := by simpa using hw
  unfold opHalt
  dsimp only
  rw [taskReg_self, ← sysA, ht]
  dsimp only
  rw [hg, if_neg Bool.false_ne_true, hr]
  exact (if_neg hw).trans (if_neg (by decide))

end

/-! ERET. -/

theorem opEret_reserved (ht : targetWord true (sysA s w i f) = none) :
    opEret h (.x f) (s.selfActor w i) (started s w i) = Res.cause cReserved := by
  unfold opEret
  dsimp only
  rw [taskReg_self, ← sysA, ht]

section
variable {t : TargetWord} (ht : targetWord true (sysA s w i f) = some t)
include ht

/-- ERET answers the status of the return to its target. -/
theorem opEret_status {r : State} {n : Nat}
    (hr : (started s w i).eret t (sysPair s w i f) (fun r => r.knownBy ((started s w i).path w (s.warp w).active 4)) = (r, n))
    (hc : (t.mode = 1 && n = 0 && !codeAddr (sysPair s w i f)) = false) :
    opEret h (.x f) (s.selfActor w i) (started s w i) = sysResult h (s.selfActor w i) (w32 n) r := by
  unfold opEret
  dsimp only
  rw [taskReg_self, taskPair_self, ← sysA, ← sysPair, ht]
  dsimp only
  rw [State.selfActor_lead, agentOf_self, hr]
  dsimp only
  rw [hc, if_neg Bool.false_ne_true]

theorem opEret_badTarget {r : State}
    (hr : (started s w i).eret t (sysPair s w i f) (fun r => r.knownBy ((started s w i).path w (s.warp w).active 4)) = (r, 0))
    (hm : t.mode = 1) (hc : codeAddr (sysPair s w i f) = false) :
    opEret h (.x f) (s.selfActor w i) (started s w i) = Res.cause cBranchTarget := by
  unfold opEret
  dsimp only
  rw [taskReg_self, taskPair_self, ← sysA, ← sysPair, ht]
  dsimp only
  rw [State.selfActor_lead, agentOf_self, hr]
  dsimp only
  rw [hm, hc, if_pos (by rfl)]

end

end

section
variable {z : State} {t : TargetWord} {pc : DWord} {p : Past → Bool}

theorem eret_nobody (h : z.warps.find t.warp = none ∨ (z.warp t.warp).susp = none) : z.eret t pc p = (z, 1) := by
  have h : ((z.warps.find t.warp).isNone || (z.warp t.warp).susp.isNone) = true := by
    rcases h with h | h <;> simp [h]
  rw [State.eret, if_pos h]

variable {q : Susp} (hw : (z.warps.find t.warp).isSome = true) (hq : (z.warp t.warp).susp = some q)
include hw hq

theorem suspended_target : ((z.warps.find t.warp).isNone || (z.warp t.warp).susp.isNone) = false := by
  rw [hq, Option.isNone_some, Bool.or_false]
  exact Option.isNone_eq_false_iff.2 hw

theorem eret_ends (hm : t.mode = 2) : z.eret t pc p =
    ((if t.block then z.endBlock (z.warp t.warp).blk else z.killWarp t.warp).renumber (z.warp t.warp).core, 0) := by
  rw [State.eret, suspended_target hw hq, if_neg Bool.false_ne_true, if_pos hm]

theorem eret_bound (hm : t.mode = 1) (hb : (z.targets t).any (fun v => (z.resumeGroup v).any z.inInstance) = true) :
    z.eret t pc p = (z, 3) := by
  rw [State.eret, suspended_target hw hq, if_neg Bool.false_ne_true, if_neg (by omega), hm, hb, if_pos (by decide)]

theorem eret_resumes (hm : t.mode = 0) :
    z.eret t pc p = ((z.targets t).foldl (fun z v => z.resumeWarp v none p) z, 0) := by
  rw [State.eret, suspended_target hw hq, if_neg Bool.false_ne_true, if_neg (by omega), hm, if_neg (by simp)]
  rfl

theorem eret_moves (hm : t.mode = 1) (hb : (z.targets t).any (fun v => (z.resumeGroup v).any z.inInstance) = false) :
    z.eret t pc p = ((z.targets t).foldl (fun z v => z.resumeWarp v (some pc) p) z, 0) := by
  rw [State.eret, suspended_target hw hq, if_neg Bool.false_ne_true, if_neg (by omega), hm, hb, if_neg (by decide)]
  rfl

end

/-- Settles O50: PRIVILEGED among the checks before any effect, and each instruction by what its operation answers. -/
theorem systemInstructions : Obligations.SystemInstructions := by
  unfold Obligations.SystemInstructions
  refine ⟨fun s w i fn h u e hf hr hw room hs => exec_privileged e hf hr hw room hs, fun s w h f => ?_⟩
  intro x a b pair gives reserved
  refine ⟨?_, ?_, ?_, ?_, ?_, ?_, ?_, ?_⟩
  · intro i hs
    exact ⟨fun hb hv => issue_result (op := opOvfld h (.x f)) hs (opOvfld_sets hb hv),
      fun hb room => issue_reserved (op := opOvfld h (.x f)) hs (opOvfld_reserved hb) room⟩
  · intro i z part kind va hs
    refine ⟨fun h6 h3 hk hd => ?_, fun hr room => ?_⟩
    · exact issue_past (op := opTlbinv (.x f)) hs (opTlbinv_invalidates (tlbReserved_false h6 h3 hk) hd) (not_exited_started hs)
    · have hc : tlbReserved (sysB s w i f) = true := tlbReserved_true hr
      exact issue_reserved (op := opTlbinv (.x f)) hs (opTlbinv_self.trans (if_pos hc)) room
  · intro i z part hs
    exact ⟨fun hr old p hp => issue_result (op := opSwrp h (.x f)) hs (opSwrp_sets hr hp),
      fun hr room => issue_reserved (op := opSwrp h (.x f)) hs (opSwrp_reserved hr) room⟩
  · intro i z hs
    refine ⟨fun ht room => issue_reserved (op := opCtxsave h (.x f)) hs (opCtxsave_reserved ht) room, ?_, ?_⟩
    · intro t ht hb hw hsus hc ha rs hr g
      exact issue_result (op := opCtxsave h (.x f)) hs (opCtxsave_saves ht hb
        ((isNone_started hs _).trans (Option.isNone_eq_false_iff.2 hw)) hsus hc ha rfl hr)
    · intro t ht hn
      refine issue_status (op := opCtxsave h (.x f)) hs (opCtxsave_nothing ht ?_)
      rw [isNone_started hs]
      rcases hn with hn | hn | hn
      · rw [hn]
        rfl
      · rw [hn, Option.isNone_none, Bool.or_true, Bool.true_or]
      · rw [hn, Bool.not_false, Bool.or_true]
  · intro i z hs
    refine ⟨?_, ?_, ?_⟩
    · intro t g slots ht hb hslot hg hn
      refine ⟨fun hp ha hq => ?_, fun hp => ?_⟩
      · refine issue_result (op := opCtxload h (.x f)) hs (opCtxload_loads ht hb hslot hg hn ?_ ?_)
        · rw [pacing_started, hp, ha]
          rfl
        · rw [(sameQueue_started _).reqs]
          exact hq
      · refine issue_status (op := opCtxload h (.x f)) hs (opCtxload_busy ht hb hslot hg hn ?_)
        rw [pacing_started]
        rcases hp with hp | hp
        · rw [hp, Bool.true_or]
        · rw [hp, Bool.not_false, Bool.or_true]
    · exact fun t g ht hb hslot hg hn => issue_status (op := opCtxload h (.x f)) hs (opCtxload_noSlots ht hb hslot hg hn)
    · exact fun t c ht hb hslot hg room => issue_fault (op := opCtxload h (.x f)) hs room (opCtxload_fault ht hb hslot hg)
  · intro i hs
    refine ⟨fun hr => ?_, fun hr room => issue_reserved (op := opQdestroy (.x f)) hs (opQdestroy_reserved hr) room⟩
    intro part t hf
    exact issue_goesOn (op := opQdestroy (.x f)) hs (opQdestroy_destroys hr rfl hf)
  · intro i z hs t ht y ws
    have hthere : (z.warps.find t.warp).isSome = true → y.exited = false → ((z.warps.find t.warp).isNone || y.exited) = false :=
      fun hw he => by rw [he, Bool.or_false]; exact Option.isNone_eq_false_iff.2 hw
    refine ⟨fun hg => ?_, fun hw he hn => ?_, fun hw he hn hr => ?_⟩
    · refine issue_status (op := opHalt h (.x f)) hs (opHalt_gone ht ?_)
      rcases hg with hg | hg
      · rw [show (started s w i).warps.find t.warp = none from hg, Option.isNone_none, Bool.true_or]
      · rw [show ((started s w i).warp t.warp).exited = true from hg, Bool.or_true]
    · exact issue_status (op := opHalt h (.x f)) hs (opHalt_none ht (hthere hw he) hn)
    · exact issue_result (op := opHalt h (.x f)) hs (opHalt_halts ht (hthere hw he) hn hr)
  · intro i z hs
    refine ⟨fun ht room => issue_reserved (op := opEret h (.x f)) hs (opEret_reserved ht) room, ?_, ?_⟩
    · intro t ht hn
      refine issue_status (v := w32 1) (op := opEret h (.x f)) hs (opEret_status ht (eret_nobody hn) ?_)
      rw [decide_eq_false (show ¬ (1 : Nat) = 0 by decide), Bool.and_false, Bool.false_and]
    · intro t q ht hw hq y known bound
      refine ⟨fun hm => ?_, fun hm hb => ?_, fun hm hb hc => ?_, fun hm hb hc room => ?_, fun hm => ?_⟩
      · refine issue_result (v := w32 0) (op := opEret h (.x f)) hs (opEret_status ht (eret_resumes hw hq hm) ?_)
        rw [hm]
        rfl
      · refine issue_status (v := w32 3) (op := opEret h (.x f)) hs (opEret_status ht (eret_bound hw hq hm hb) ?_)
        rw [decide_eq_false (show ¬ (3 : Nat) = 0 by decide), Bool.and_false, Bool.false_and]
      · refine issue_result (v := w32 0) (op := opEret h (.x f)) hs (opEret_status ht (eret_moves hw hq hm hb) ?_)
        rw [show codeAddr (sysPair s w i f) = true from hc, Bool.not_true, Bool.and_false]
      · exact issue_fault (op := opEret h (.x f)) hs room (opEret_badTarget ht (eret_moves hw hq hm hb) hm hc)
      · refine issue_result (v := w32 0) (op := opEret h (.x f)) hs (opEret_status ht (eret_ends hw hq hm) ?_)
        rw [hm]
        rfl

end Sys2Proof.Machine
end

section
/-! PROOF. The steps of the KV unit (17 R304 to R307, R311, R312, R317, R318). -/

namespace Sys2Proof.Machine

/-! What an acquire leaves unseen (02 R48). -/

theorem mem_of_mem_prunePast {m : AMap (List Past)} {e : Nat × List Past} (h : e ∈ prunePast m) : e ∈ m := by
  obtain ⟨g, hg, he⟩ := List.mem_flatten.1 h
  rw [← List.flatten_splitBy (fun a b => a.1 / 16 == b.1 / 16) m]
  exact List.mem_flatten.2 ⟨g, List.mem_of_mem_filter hg, he⟩

/-- A write kept after a function of them all is that function of a write kept before. -/
theorem exists_of_mapPast {s : State} {f : Past → Past} {e : Nat × List Past} {r : Past} (he : e ∈ (s.mapPast f).past)
    (hr : r ∈ e.2) (hn : s.past.isEmpty = false) : ∃ e0 ∈ s.past, ∃ r0 ∈ e0.2, r = f r0 := by
  unfold State.mapPast at he
  rw [if_neg (Bool.eq_false_iff.1 hn)] at he
  obtain ⟨e0, h0, rfl⟩ := List.mem_map.1 (mem_of_mem_prunePast he)
  obtain ⟨r0, hr0, rfl⟩ := List.mem_map.1 hr
  exact ⟨e0, h0, r0, hr0, rfl⟩

theorem find_dropMask_disjoint (l : List (Nat × Mask)) (key : Nat) (m : Mask) : masksAt (dropMask l key m) key &&& m = 0 := by
  induction l with
  | nil => exact BitVec.zero_and
  | cons e t ih =>
    unfold dropMask at ih ⊢
    by_cases hk : e.1 = key
    · by_cases h0 : (e.2 &&& ~~~m == 0) = true
      · rw [List.filterMap_cons_none (by rw [if_pos hk, if_pos h0])]
        exact ih
      · rw [List.filterMap_cons_some (b := (key, e.2 &&& ~~~m)) (by rw [if_pos hk, if_neg h0])]
        rw [masksAt, AMap.find, if_pos rfl, Option.getD_some, BitVec.and_assoc, BitVec.and_comm (~~~m), BitVec.and_not_self]
        exact BitVec.and_zero
    · rw [List.filterMap_cons_some (b := e) (by rw [if_neg hk])]
      rw [masksAt, AMap.find, if_neg hk]
      exact ih

theorem Past.unreadBy_learned (r : Past) (g : Agent) : (r.learned g.key g.lanes).unreadBy g = false := by
  unfold Past.unreadBy Past.learned
  dsimp only
  rw [find_dropMask_disjoint]
  rfl

theorem unread_kvEnter {s : State} {g : Agent} {objs : List Nat} {o : Nat} (ho : o ∈ objs) {e : Rel}
    (he : e ∈ (s.sync.rels.find (objectKey o)).getD []) (hs : s.syncs { g with scope := 4 } e = true) {q : Nat} {r : Past}
    (hr : r ∈ ((s.kvEnter g objs).past.find q).getD []) (hc : r.carries e.msg = true) : r.unreadBy g = false := by
  obtain ⟨rs, hq, hr⟩ : ∃ rs, (q, rs) ∈ (s.kvEnter g objs).past ∧ r ∈ rs := by
    cases hf : (s.kvEnter g objs).past.find q with
    | none =>
      rw [hf] at hr
      exact nomatch hr
    | some rs =>
      rw [hf] at hr
      exact ⟨rs, AMap.mem_of_find hf, hr⟩
  by_cases hn : s.past.isEmpty = true
  · rw [State.kvEnter, if_pos hn, List.isEmpty_iff.1 hn] at hq
    exact nomatch hq
  rw [State.kvEnter, if_neg hn] at hq
  generalize hrels : (objs.flatMap (fun o => (s.sync.rels.find (objectKey o)).getD [])).eraseDups.filter
    (fun r => s.carried r.msg) = rels at hq
  -- A carried release is among those heard.
  have hmem : ∀ e0 ∈ s.past, ∀ r0 ∈ e0.2, r0.carries e.msg = true → e ∈ rels := by
    intro e0 h0 r0 hr0 hc0
    rw [← hrels]
    refine List.mem_filter.2 ⟨List.mem_eraseDups.2 (List.mem_flatMap.2 ⟨o, ho, he⟩), ?_⟩
    exact List.any_eq_true.2 ⟨e0, h0, List.any_eq_true.2 ⟨r0, hr0, hc0⟩⟩
  unfold State.hear at hq
  dsimp only at hq
  split at hq
  next hempty =>
    have := hmem _ hq r hr hc
    rw [List.isEmpty_iff.1 hempty] at this
    exact nomatch this
  · rw [if_pos rfl, State.tell] at hq
    obtain ⟨e0, h0, r0, hr0, rfl⟩ := exists_of_mapPast hq hr (Bool.eq_false_iff.2 hn)
    have hc0 : r0.carries e.msg = true := by
      split at hc
      · exact hc
      · exact hc
    have hsome : (rels.filter (s.syncs { g with scope := 4 })).any (fun e => r0.carries e.msg) = true :=
      List.any_eq_true.2 ⟨e, List.mem_filter.2 ⟨hmem e0 h0 r0 hr0 hc0, hs⟩, hc0⟩
    rw [if_pos hsome, List.foldl_cons, List.foldl_nil]
    exact Past.unreadBy_learned r0 g

/-! The runs of a write hold as many bytes as it has. -/

theorem sum_longRuns {s : State} {v : Via} {r : Rights} {k fuel : Nat} {a : DWord} {n : Nat} {rs : List (Place × Nat)}
    (hf : n = 0 ∨ n + a.toNat % 4096 ≤ fuel * 4096) (h : s.longRuns v r k fuel a n = .ok rs) :
    (rs.map (fun e => e.2)).sum = n := by
  induction fuel generalizing a n rs with
  | zero =>
    cases h
    exact (hf.elim id (fun h => by omega)).symm
  | succ f ih =>
    unfold State.longRuns at h
    by_cases h0 : n = 0
    · rw [if_pos h0] at h
      cases h
      exact h0.symm
    rw [if_neg h0] at h
    split at h
    · exact nomatch h
    dsimp only at h
    split at h
    · split at h
      · exact nomatch h
      · exact nomatch h
    · split at h
      · exact nomatch h
      next t ht =>
        cases h
        have hn : min n (4096 - a.toNat % 4096) + (n - min n (4096 - a.toNat % 4096)) = n := by omega
        rw [List.map_cons, List.sum_cons, ih ?_ ht, hn]
        have hnext : (a + BitVec.ofNat 64 (min n (4096 - a.toNat % 4096))).toNat % 4096 =
            (a.toNat + min n (4096 - a.toNat % 4096)) % 4096 := by
          rw [BitVec.toNat_add, BitVec.toNat_ofNat]
          omega
        rw [hnext]
        have := hf.resolve_left h0
        omega

theorem sum_engineRunsAt {s : State} {v : Via} {agent : Nat} {r : Rights} {a : DWord} {n : Nat} {rs : List (Place × Nat)}
    (h : s.engineRunsAt v agent r a n = .ok rs) : (rs.map (fun e => e.2)).sum = n := by
  unfold State.engineRunsAt at h
  split at h
  · exact nomatch h
  next q hq =>
    split at h
    · exact nomatch h
    · split at h
      · exact nomatch h
      · cases h
        refine sum_longRuns (.inr ?_) hq
        omega

/-- Each write has as many bytes as its runs take in. -/
def wholeRuns (r : List (Place × Nat) × List Byte) : Prop := (r.1.map (fun e => e.2)).sum = r.2.length

theorem wholeRuns_of_kvRuns {s : State} {v : Via} {ws : List KvWrite} {q : List (List (Place × Nat) × List Byte)}
    (h : s.kvRuns v ws = .ok q) : ∀ r ∈ q, wholeRuns r := by
  induction ws generalizing q with
  | nil =>
    cases h
    exact fun r hr => nomatch hr
  | cons e t ih =>
    unfold State.kvRuns at h
    split at h
    · exact nomatch h
    next rs hrs =>
      split at h
      · exact nomatch h
      next q' hq =>
        cases h
        intro r hr
        rcases List.mem_cons.1 hr with rfl | hr
        · exact sum_engineRunsAt hrs
        · exact ih hq r hr

/-! A write that stands where the newest does. -/

theorem length_keysOf_glob (s : State) (rs : List (Place × Nat)) : (s.keysOf (.glob rs)).length = (rs.map (fun e => e.2)).sum := by
  induction rs with
  | nil => rfl
  | cons e t ih => 
    simp only [State.keysOf, List.flatMap_cons, List.length_append, List.map_cons, List.sum_cons] at ih ⊢
    rw [ih]
    congr 1
    obtain ⟨p, n⟩ := e
    cases p <;> simp

theorem length_readTarget_glob (s : State) (k : Nat) (rs : List (Place × Nat)) :
    (s.readTarget k (.glob rs)).length = (rs.map (fun e => e.2)).sum := by
  induction rs with
  | nil => rfl
  | cons e t ih =>
    simp only [State.readTarget, List.flatMap_cons, List.length_append, List.map_cons, List.sum_cons] at ih ⊢
    rw [ih]
    congr 1
    obtain ⟨p, n⟩ := e
    cases p <;> simp [State.readRun, memReadList]

/-- A write among the newest takes its place as it stands, whatever races with it. -/
theorem State.bytes_coherent_newest (s : State) (g : Agent) (k : Nat) (p : Put) (ms : List (Nat × Mask)) (t : Target) (bs : List Byte)
    (hk : (s.keysOf t).length = bs.length) (hr : (s.readTarget k t).length = bs.length) (hp : p.newest = true) :
    (s.coherent g k p ms t bs).bytes = bs := by
  have hflat := flatten_pieces (unitLens g.words t.start bs.length) ((s.keysOf t).zip ((s.readTarget k t).zip bs))
    ((sum_unitLens ..).trans (by simp [List.length_zip, hk, hr]))
  unfold State.coherent
  dsimp only
  rw [bytes_foldl_units _ (fun e => e.2.2) _ fun a u _ => ?_, hflat]
  · rw [List.nil_append, ← Function.comp_def (fun e : Byte × Byte => e.2) (fun e : Option Nat × Byte × Byte => e.2), ← List.map_map,
      List.map_snd_zip (by simp [List.length_zip, hk, hr]), List.map_snd_zip (by rw [hr])]
  · rw [if_pos hp]
    exact bytes_foldl_unit ..

/-- A step's write stands where the newest does: its bytes are in memory, and past and releases alone differ besides. -/
theorem putBy_step (s : State) (g : Agent) (k : Nat) {r : List (Place × Nat) × List Byte} (h : wholeRuns r) :
    ∃ z, s.pastOf z ∧ s.putBy g k (Put.step false) (.glob r.1) r.2 = z.writeRuns r.1 r.2 := by
  unfold State.putBy
  split
  · exact ⟨s, s.pastOf_refl, rfl⟩
  · dsimp only
    rw [s.bytes_coherent_newest _ _ _ _ _ _ ((length_keysOf_glob ..).trans h) ((length_readTarget_glob ..).trans h) rfl]
    exact ⟨{ s with past := _, sync := _ }, rfl, rfl⟩

/-! Runs outside the on-chip map. -/

theorem blocks_writeRuns {rs : List (Place × Nat)} (hc : offChip (.glob rs)) (s : State) (bs : List Byte) :
    (s.writeRuns rs bs).blocks = s.blocks := by
  induction rs generalizing s bs with
  | nil => rfl
  | cons e t ih =>
    obtain ⟨p, n⟩ := e
    refine (ih (fun e he => hc e (List.mem_cons_of_mem _ he)) _ _).trans ?_
    cases p with
    | phys a => rfl
    | peer d a => rfl
    | onChip a => exact absurd rfl (hc _ List.mem_cons_self a)

/-- The runs of a list take in no byte of physical memory at a place. -/
def clearOf (rs : List (Place × Nat)) (p : Nat) : Prop := ∀ e ∈ rs, ∀ b, e.1 = .phys b → ¬ (b ≤ p ∧ p < b + e.2)

theorem memRead_writeRuns_clear {rs : List (Place × Nat)} (hc : offChip (.glob rs)) {p : Nat} (hp : clearOf rs p) (s : State)
    (bs : List Byte) : memRead (s.writeRuns rs bs).mem p = memRead s.mem p :=
  (StoreFrame.writeRuns rs (fun _ h => h) hc s bs).bytes.1 p fun e he hh => by
    obtain rfl := List.mem_singleton.1 he
    obtain ⟨x, hx, a, ha, h1, h2⟩ := hh
    exact hp x hx a ha ⟨h1, h2⟩

theorem getD_take {n j : Nat} (bs : List Byte) (hj : j < n) : (bs.take n).getD j 0 = bs.getD j 0 := by
  rw [List.getD_eq_getElem?_getD, List.getD_eq_getElem?_getD, List.getElem?_take_of_lt hj]

theorem getD_drop (bs : List Byte) (n j : Nat) : (bs.drop n).getD j 0 = bs.getD (n + j) 0 := by
  rw [List.getD_eq_getElem?_getD, List.getD_eq_getElem?_getD, List.getElem?_drop]

/-- A byte of a run reads as it was written where no later run takes it in. -/
theorem memRead_writeRuns {pre post : List (Place × Nat)} {a n j : Nat} {s : State} {bs : List Byte}
    (hc : offChip (.glob (pre ++ (.phys a, n) :: post))) (hi : Inv s)
    (hn : ((pre ++ (.phys a, n) :: post).map (fun e => e.2)).sum = bs.length) (hj : j < n) (hp : clearOf post (a + j)) :
    memRead (s.writeRuns (pre ++ (.phys a, n) :: post) bs).mem (a + j) = bs.getD ((pre.map (fun e => e.2)).sum + j) 0 := by
  induction pre generalizing s bs with
  | nil =>
    have hl : j < (bs.take n).length := by
      rw [List.nil_append, List.map_cons, List.sum_cons] at hn
      rw [List.length_take]
      dsimp only at hn
      omega
    refine (memRead_writeRuns_clear (fun e he => hc e (List.mem_cons_of_mem _ he)) hp _ _).trans ?_
    refine (memRead_memWriteList_same a (bs.take n) hi hl).trans ?_
    rw [List.map_nil, List.sum_nil, Nat.zero_add, ← getD_take bs hj, List.getD_eq_getElem _ _ hl]
  | cons e t ih =>
    obtain ⟨p, m⟩ := e
    rw [List.cons_append, List.map_cons, List.sum_cons] at hn
    have hd : ((t ++ (.phys a, n) :: post).map (fun e => e.2)).sum = (bs.drop m).length := by
      rw [List.length_drop, ← hn, Nat.add_sub_cancel_left]
    have hct : offChip (.glob (t ++ (.phys a, n) :: post)) := fun e he => hc e (List.mem_cons_of_mem _ he)
    rw [List.map_cons, List.sum_cons, Nat.add_assoc, ← getD_drop]
    cases p with
    | phys b => exact ih hct (s.writePhys_wf b _ hi) hd
    | peer d b => exact ih hct hi hd
    | onChip b => exact absurd rfl (hc _ List.mem_cons_self b)

/-! A step's writes in order. -/

/-- The state after a step's writes. -/
def stepPut (g : Agent) (s : State) (q : List (List (Place × Nat) × List Byte)) : State :=
  q.foldl (fun u r => u.putBy g (u.draw 13) (Put.step false) (.glob r.1) r.2) s

section
variable {g : Agent} {s : State} {q : List (List (Place × Nat) × List Byte)}

theorem stepPut_frame (hc : ¬ onChipIn (q.map (fun e => .glob e.1))) :
    StoreFrame s (stepPut g s q) (q.map (fun e => .glob e.1)) := by
  refine StoreFrame.foldl _ q (fun s r hr => ?_) s
  have hm : Target.glob r.1 ∈ q.map (fun e => Target.glob e.1) := List.mem_map.2 ⟨r, hr, rfl⟩
  refine (StoreFrame.putBy s g _ _ _ _ (offChip_of_not hc hm) (fun u o n h => nomatch h)).mono fun e he => ?_
  rw [List.mem_singleton.1 he]
  exact hm

theorem clear_of_flatMap {p : Nat} (h : clearOf (q.flatMap (fun e => e.1)) p) :
    ∀ e ∈ q.map (fun e => Target.glob e.1), ¬ holdsPhys e p := by
  intro e he hh
  obtain ⟨r, hr, rfl⟩ := List.mem_map.1 he
  obtain ⟨x, hx, a, ha, h1, h2⟩ := hh
  exact h x (List.mem_flatMap.2 ⟨r, hr, hx⟩) a ha ⟨h1, h2⟩

theorem offChip_of_mem (hc : ¬ onChipIn (q.map (fun e => .glob e.1))) {r : List (Place × Nat) × List Byte} (hr : r ∈ q) :
    offChip (.glob r.1) := offChip_of_not hc (List.mem_map.2 ⟨r, hr, rfl⟩)

theorem blocks_stepPut (hc : ∀ r ∈ q, offChip (.glob r.1)) (hw : ∀ r ∈ q, wholeRuns r) : (stepPut g s q).blocks = s.blocks := by
  induction q generalizing s with
  | nil => rfl
  | cons r t ih =>
    obtain ⟨z, hz, he⟩ := putBy_step s g (s.draw 13) (hw r List.mem_cons_self)
    refine (ih (fun r hr => hc r (List.mem_cons_of_mem _ hr)) (fun r hr => hw r (List.mem_cons_of_mem _ hr))).trans ?_
    dsimp only
    rw [he, blocks_writeRuns (hc r List.mem_cons_self), State.pastOf_blocks hz]

theorem inv_stepPut (hi : Inv s) : Inv (stepPut g s q) := by
  induction q generalizing s with
  | nil => exact hi
  | cons r t ih => exact ih (State.putBy_wf _ _ _ _ _ _ hi)

theorem runsHold_stepPut (hi : Inv s) (hc : ¬ onChipIn (q.map (fun e => .glob e.1))) (hw : ∀ r ∈ q, wholeRuns r) :
    RunsHold (stepPut g s q) q := by
  rintro before r after rfl pre post a n hr j hj hclear
  have hmem : r ∈ before ++ r :: after := List.mem_append_right _ List.mem_cons_self
  have hsplit : stepPut g s (before ++ r :: after) =
      stepPut g ((stepPut g s before).putBy g ((stepPut g s before).draw 13) (Put.step false) (.glob r.1) r.2) after := by
    rw [stepPut, List.foldl_append, List.foldl_cons]
    rfl
  have hlater : ¬ onChipIn (after.map (fun e => .glob e.1)) := fun ⟨t, ht, h⟩ =>
    hc ⟨t, List.map_subset _ (fun x hx => List.mem_append_right _ (List.mem_cons_of_mem _ hx)) ht, h⟩
  obtain ⟨z, hz, he⟩ := putBy_step (stepPut g s before) g ((stepPut g s before).draw 13) (hw r hmem)
  have hzi : Inv z := by
    rw [Inv, State.pastOf_mem hz]
    exact inv_stepPut hi
  have hwhole := hw r hmem
  rw [hsplit, (stepPut_frame hlater).bytes.1 _ (clear_of_flatMap fun e he => hclear e (List.mem_append_right _ he)), he]
  have hoff := offChip_of_mem hc hmem
  obtain ⟨rs, bs⟩ := r
  obtain rfl : rs = pre ++ (.phys a, n) :: post := hr
  exact memRead_writeRuns hoff hzi hwhole hj fun e he => hclear e (List.mem_append_left _ he)

end

/-! The steps. -/

/-- The state after a step's acquire, its writes and its release (17 R307). -/
def kvStepped (z : State) (g : Agent) (objs : List Nat) (q : List (List (Place × Nat) × List Byte)) : State :=
  (stepPut g (z.kvEnter g objs) q).kvLeave g objs

theorem kvCommit_ok {z : State} {g : Agent} {objs : List Nat} {v : Via} {ws : List KvWrite}
    {q : List (List (Place × Nat) × List Byte)} (hg : g.scope = 4) (h : z.kvRuns v ws = .ok q) :
    z.kvCommit g objs v ws = .ok (kvStepped z g objs q) := by
  have hsame : { g with scope := 4 } = g := by rw [← hg]
  unfold State.kvCommit
  dsimp only
  rw [h, hsame]
  rfl

section
variable {z : State} {g : Agent} {objs : List Nat} {q : List (List (Place × Nat) × List Byte)}

theorem kvStepped_frame (hc : ¬ onChipIn (q.map (fun e => .glob e.1))) :
    StoreFrame z (kvStepped z g objs q) (q.map (fun e => .glob e.1)) :=
  ((StoreFrame.of_pastOf (z.kvEnter_pastOf g objs)).trans (stepPut_frame hc)).trans
    (StoreFrame.of_pastOf (State.kvLeave_pastOf _ g objs))

theorem blocks_kvStepped (hc : ¬ onChipIn (q.map (fun e => .glob e.1))) (hw : ∀ r ∈ q, wholeRuns r) :
    (kvStepped z g objs q).blocks = z.blocks := by
  rw [kvStepped, State.pastOf_blocks (State.kvLeave_pastOf _ g objs), blocks_stepPut (fun r hr => offChip_of_mem hc hr) hw,
    State.pastOf_blocks (z.kvEnter_pastOf g objs)]

theorem runsHold_kvStepped (hi : Inv z) (hc : ¬ onChipIn (q.map (fun e => .glob e.1))) (hw : ∀ r ∈ q, wholeRuns r) :
    RunsHold (kvStepped z g objs q) q := by
  have henter : Inv (z.kvEnter g objs) := by
    rw [Inv, State.pastOf_mem (z.kvEnter_pastOf g objs)]
    exact hi
  intro before r after hq pre post a n hr j hj hclear
  rw [kvStepped, State.pastOf_mem (State.kvLeave_pastOf _ g objs)]
  exact runsHold_stepPut henter hc hw before r after hq pre post a n hr j hj hclear

theorem live_kvStepped (w : Nat) : ((kvStepped z g objs q).warp w).live = (z.warp w).live := by
  have hput : ∀ (u : State), ((stepPut g u q).warp w).live = (u.warp w).live :=
    fun u => foldl_keeps (fun t : State => (t.warp w).live) _ (fun t r => State.live_putBy ..) q u
  rw [kvStepped, State.pastOf_warp (State.kvLeave_pastOf _ g objs), hput, State.pastOf_warp (z.kvEnter_pastOf g objs)]

end

/-- What a step of the KV unit tells the pager and the host changes no more than that. -/
structure KvNoted (u t : State) : Prop where
  blocks : t.blocks = u.blocks
  ops : t.ops = u.ops
  grids : t.grids = u.grids
  mem : t.mem = u.mem
  parts : ∀ p, t.part p = { u.part p with named := (t.part p).named, demoteReqs := (t.part p).demoteReqs }

theorem kvNoted_kvNote (u : State) (part : Nat) (nodes : List DWord) (pool : DWord) (free mark : Nat) :
    KvNoted u (u.kvNote part nodes pool free mark) := by
  refine ⟨rfl, rfl, rfl, rfl, fun p => ?_⟩
  unfold State.kvNote State.updPart
  by_cases h : p = part
  · subst h
    rw [State.part_setPart_same]
  · rw [State.part_setPart_other _ _ h]

theorem KvNoted.updWarp {u t : State} (h : KvNoted u t) (w : Nat) (f : Warp → Warp) : KvNoted u (t.updWarp w f) :=
  ⟨h.blocks, h.ops, h.grids, h.mem, h.parts⟩

theorem KvNoted.kvDiscards {u t : State} (h : KvNoted u t) (part : Nat) (ds : List (DWord × Nat)) : KvNoted u (t.kvDiscards part ds) :=
  ⟨h.blocks, h.ops, h.grids, h.mem, h.parts⟩

/-- What an instruction does to its warp that writes some uniform registers alone. -/
structure WritesSlots (ws : List (Nat × Word)) (x y : Warp) : Prop where
  s : ∀ r, y.rawS r = written ws r (x.rawS r)
  v : y.v = x.v
  p : y.p = x.p
  sticky : y.sticky = x.sticky
  pc : y.pc = x.pc
  live : y.live = x.live

theorem rawS_writeS (x : Warp) (r k : Nat) (b : Word) : (x.writeS k b).rawS r = if k = r then b else x.rawS r := by
  by_cases h : k = r
  · subst h
    rw [if_pos rfl]
    exact congrArg (fun o => Option.getD o 0) (AMap.find_put_same ..)
  · rw [if_neg h]
    exact congrArg (fun o => Option.getD o 0) (AMap.find_put_other _ _ (Ne.symm h))

theorem writesSlots_pair (x : Warp) (r : Nat) (lo hi : Word) :
    WritesSlots [(r, lo), (r + 1, hi)] x ((x.writeS r lo).writeS (r + 1) hi) := by
  refine ⟨fun k => ?_, rfl, rfl, rfl, rfl, rfl⟩
  rw [rawS_writeS, rawS_writeS]
  rfl

section
variable {s u t : State} {w : Nat} {i : Instr} {ws : List (Nat × Word)} {q : List (List (Place × Nat) × List Byte)}

theorem kvKept_past (hp : plain i) (hf : StoreFrame (started s w i) u (q.map (fun e => .glob e.1)))
    (hb : u.blocks = (started s w i).blocks) (hn : KvNoted u t)
    (ho : ∀ v, v ≠ w → t.warps.find v = (started s w i).warps.find v)
    (hx : WritesSlots ws ((s.warp w).issued i) (t.warp w)) : KvKept s (past s w i t) w i ws (q.flatMap (fun e => e.1)) := by
  have hwarp := warp_past_plain (s := s) (w := w) hp t
  refine ⟨fun v hv => others_past ho hv, (hn.blocks.trans hb).trans (blocks_started s w i), hn.ops.trans hf.ops, fun g => ?_,
    fun p => ?_, fun r => ?_, ?_, ?_, ?_, ?_, fun p hclear => ?_⟩
  · exact (congrArg (fun (m : AMap Grid) => (m.find g).map (fun x => { x with code := [] })) hn.grids).trans (hf.owners.2 g)
  · have htables := congrArg Part.tables (hn.parts p)
    have h1 := hn.parts p
    rw [hf.owners.1 p] at h1
    exact h1.trans (htables.symm ▸ rfl)
  · rw [hwarp]
    exact (hx.s r).trans (congrArg (fun m => written ws r ((AMap.find m r).getD 0)) (Warp.issued_s _ _))
  · rw [hwarp]
    exact hx.v.trans (Warp.issued_v _ _)
  · rw [hwarp]
    exact hx.p.trans (Warp.issued_p _ _)
  · rw [hwarp]
    exact hx.sticky.trans (Warp.issued_sticky _ _)
  · rw [hwarp]
    exact congrArg (fun pc => canon57 (pc + _)) (hx.pc.trans (Warp.issued_pc _ _))
  · refine (congrArg (fun m => memRead m p) hn.mem).trans (hf.bytes.1 p (clear_of_flatMap hclear))

end

/-- SHAPE-BOUND is not replayable (21 R356). -/
theorem kvRes_shape (n : Nat) (a : DWord) : kvRes (kvShape n a) = .fault { FaultInfo.of 0x5D n with agent := 3, addr := a } := by
  have hr : replayable cShape = false := by decide
  unfold kvRes kvShape engineFault
  dsimp only
  rw [hr]
  rfl

theorem any_nonzero_of_all {l : List Word} (h : ∀ r ∈ l, r = 0) : l.any (fun r => r != 0) = false :=
  List.any_eq_false.2 fun r hr => by rw [h r hr]; decide

/-! KVWALK (17 R312). -/

theorem walkResult_past {d : KvDesc} {p : KvPool} {x : Nat} (hb : badEntry p.cap d.path = none) (hx : d.len ≤ x) :
    walkResult d p x = .ok (0xFFFFFFFF, 0x10000000) := by
  unfold walkResult
  rw [hb]
  exact if_pos hx

theorem walkResult_window {d : KvDesc} {p : KvPool} {x : Nat} (hb : badEntry p.cap d.path = none) (hx : x < d.len) (hw : x < d.win) :
    walkResult d p x = .ok (0xFFFFFFFF, 0x20000000) := by
  unfold walkResult
  rw [hb]
  dsimp only
  rw [if_neg (Nat.not_le.2 hx), if_pos hw]

theorem walkResult_found {d : KvDesc} {p : KvPool} {x k : Nat} {n : KvNode} (hb : badEntry p.cap d.path = none) (hw : d.win ≤ x)
    (hx : x < d.len) (hc : chooseNode d.path x = some (k, n)) (hn : x < n.start + n.count) :
    walkResult d p x = .ok (n.ents.getD ((x - n.start) / 16) 0,
      BitVec.ofNat 32 (k * 2 ^ 24 + (x - n.start) / 16 * 256 + (x - n.start) % 16)) := by
  unfold walkResult
  rw [hb]
  dsimp only
  rw [if_neg (Nat.not_le.2 hx), if_neg (Nat.not_lt.2 hw), hc]
  exact if_neg (Nat.not_le.2 hn)

theorem walkResult_bad {d : KvDesc} {p : KvPool} {x : Nat} {n : KvNode} (hb : badEntry p.cap d.path = some n) :
    walkResult d p x = .error (kvShape 13 n.addr) := by
  unfold walkResult
  rw [hb]

theorem plain_kvwalk (h : Hdr) (u : Upper) : plain (.kvwalk h u) := plain_of_head rfl rfl (fun _ _ e => nomatch e)
theorem plain_kvtrunc (h : Hdr) (u : Upper) : plain (.kvtrunc h u) := plain_of_head rfl rfl (fun _ _ e => nomatch e)
theorem plain_kvfork (h : Hdr) (u : Upper) : plain (.kvfork h u) := plain_of_head rfl rfl (fun _ _ e => nomatch e)

section
variable {s : State} {w : Nat} {i : Instr} {h : Hdr} {f : XForm} {d : KvDesc} {p : KvPool}

/-- The path of a warp that performs a step of the KV unit (17 R307). -/
def kvPath (s : State) (w : Nat) (i : Instr) : Agent := (started s w i).path w (s.warp w).active 4

/-- The operands of a step. -/
def kvOperands (s : State) (w : Nat) (i : Instr) (f : XForm) : List Word := (started s w i).operandBlock (s.selfActor w i) f.va

/-- The descriptor and the pool that a step's operands name, with no earlier operation of the warp on the descriptor due. -/
structure KvFound (s : State) (w : Nat) (i : Instr) (f : XForm) (d : KvDesc) (p : KvPool) : Prop where
  desc : (started s w i).kvDesc ((started s w i).engineVia (s.warp w).blk) (regPair (kvOperands s w i f) 0) = .ok d
  pool : (started s w i).kvPool ((started s w i).engineVia (s.warp w).blk) d.pool = .ok p
  first : (started s w i).kvEarlier w s.nextUid (regPair (kvOperands s w i f) 0) = false

theorem kvStepped_past {t : State} {objs : List Nat} {q : List (List (Place × Nat) × List Byte)}
    (hp : t.past = (kvStepped (started s w i) (kvPath s w i) objs q).past)
    (hs : t.sync = (kvStepped (started s w i) (kvPath s w i) objs q).sync) : KvStepped s (past s w i t) w i objs q :=
  ⟨hp, hs⟩

/-- The state after KVWALK has told the pager of its path. -/
def walkNoted (s : State) (w : Nat) (i : Instr) (d : KvDesc) (p : KvPool) : State :=
  let v := (started s w i).engineVia (s.warp w).blk
  ((started s w i).kvVisit (kvPath s w i) ((started s w i).kvTouched v d)).kvNote v.part (d.path.map (fun n => n.addr)) d.pool
    p.free p.mark

theorem opKvwalk_self {r : Except KvErr (Word × Word)} (hr : ∀ r ∈ (kvOperands s w i f).drop 3, r = 0) (hf : KvFound s w i f d p)
    (hw : walkResult d p (regN (kvOperands s w i f) 2) = r) :
    (∀ lo hi, r = .ok (lo, hi) → opKvwalk h (.x f) (s.selfActor w i) (started s w i) =
      .ok ((walkNoted s w i d p).updWarp w (fun x => (x.writeS h.vd.toNat lo).writeS (h.vd.toNat + 1) hi))) ∧
    ∀ e, r = .error e → opKvwalk h (.x f) (s.selfActor w i) (started s w i) = kvRes e := by
  obtain ⟨hd, hp, he⟩ := hf
  have hb : ((started s w i).warp w).blk = (s.warp w).blk := by rw [warp_started, Warp.issued_blk]
  unfold opKvwalk
  dsimp only
  rw [← kvOperands, any_nonzero_of_all hr, if_neg Bool.false_ne_true, State.selfActor_lead, hb,
    show (started s w i).nextUid = s.nextUid from rfl, he, if_neg Bool.false_ne_true, hd]
  dsimp only
  rw [hp]
  dsimp only
  rw [hw]
  refine ⟨fun lo hi e => ?_, fun e h => ?_⟩
  · subst e
    dsimp only
    rw [agentOf_self]
    rfl
  · subst h
    rfl

/-- A step that writes nothing. -/
theorem kvwalk_gives {lo hi : Word} (hs : Solo s w (.kvwalk h (.x f))) (hr : ∀ r ∈ (kvOperands s w (.kvwalk h (.x f)) f).drop 3, r = 0)
    (hf : KvFound s w (.kvwalk h (.x f)) f d p)
    (hw : walkResult d p (regN (kvOperands s w (.kvwalk h (.x f)) f) 2) = .ok (lo, hi)) :
    let i : Instr := .kvwalk h (.x f)
    ∃ t, exec i s = .next t ∧ t.mem = s.mem ∧
      KvStepped s t w i ((started s w i).kvTouched ((started s w i).engineVia (s.warp w).blk) d) [] ∧
      KvKept s t w i [(h.vd.toNat, lo), (h.vd.toNat + 1, hi)] [] := by
  intro i
  have hpast : (started s w i).pastOf ((started s w i).kvVisit (kvPath s w i)
      ((started s w i).kvTouched ((started s w i).engineVia (s.warp w).blk) d)) :=
    State.pastOf_trans (State.kvEnter_pastOf ..) (State.kvLeave_pastOf ..)
  have hwarp : (walkNoted s w i d p).warp w = (s.warp w).issued i :=
    (State.pastOf_warp hpast w).trans (warp_started s w i)
  refine ⟨past s w i ((walkNoted s w i d p).updWarp w (fun x => (x.writeS h.vd.toNat lo).writeS (h.vd.toNat + 1) hi)),
    issue_past (op := opKvwalk h (.x f)) hs ((opKvwalk_self hr hf hw).1 lo hi rfl) (not_exited_of_live hs ?_),
    (State.pastOf_mem hpast).trans (mem_started s w i), kvStepped_past (q := []) rfl rfl, ?_⟩
  · rw [State.warp_updWarp_same, hwarp]
    exact Warp.issued_live _ _
  · refine kvKept_past (q := []) (plain_kvwalk h (.x f)) (StoreFrame.of_pastOf hpast) (State.pastOf_blocks hpast)
      ((kvNoted_kvNote _ _ _ _ _ _).updWarp _ _) (fun v hv => (AMap.find_put_other _ _ hv).trans ?_) ?_
    · exact congrArg (fun m => AMap.find m v) ((kvNote_rest _ _ _ _ _ _).2.2.1.trans (State.pastOf_warps hpast))
    · rw [State.warp_updWarp_same, hwarp]
      exact writesSlots_pair _ _ _ _

/-- A step that makes its writes between its acquire and its release: memory holds them, and all else is as it was. -/
theorem kvStep_gives {op : Actor → State → Res} {t : State} {objs : List Nat} {q : List (List (Place × Nat) × List Byte)}
    {ws : List (Nat × Word)} (hs : Solo s w i) (hp : plain i) (hi : Inv s) (hq : ∀ r ∈ q, wholeRuns r)
    (ho : op (s.selfActor w i) (started s w i) = .ok t) (hn : KvNoted (kvStepped (started s w i) (kvPath s w i) objs q) t)
    (hpast : t.past = (kvStepped (started s w i) (kvPath s w i) objs q).past)
    (hsync : t.sync = (kvStepped (started s w i) (kvPath s w i) objs q).sync)
    (hv : ∀ v, v ≠ w → t.warps.find v = (kvStepped (started s w i) (kvPath s w i) objs q).warps.find v)
    (hx : WritesSlots ws ((kvStepped (started s w i) (kvPath s w i) objs q).warp w) (t.warp w)) :
    ∃ t', issue i op s = .next t' ∧ KvStepped s t' w i objs q ∧ (¬ onChipIn (q.map (fun e => .glob e.1)) →
      RunsHold t' q ∧ KvKept s t' w i ws (q.flatMap (fun e => e.1))) := by
  have hlive : (t.warp w).live = (s.warp w).live :=
    (hx.live.trans (live_kvStepped w)).trans ((congrArg Warp.live (warp_started s w i)).trans (Warp.issued_live _ _))
  refine ⟨past s w i t, issue_past hs ho (not_exited_of_live hs hlive), kvStepped_past hpast hsync, fun hc => ⟨?_, ?_⟩⟩
  · intro before r after hb pre post a n hr j hj hclear
    refine (congrArg (fun m => memRead m (a + j)) hn.mem).trans ?_
    exact runsHold_kvStepped (z := started s w i) hi hc hq before r after hb pre post a n hr j hj hclear
  · have hf := kvStepped_frame (z := started s w i) (g := kvPath s w i) (objs := objs) hc
    refine kvKept_past hp hf (blocks_kvStepped hc hq) hn (fun v hne => ?_) ?_
    · rw [hv v hne, hf.warps]
    · rw [hf.warp w, warp_started] at hx
      exact hx

/-! KVTRUNC (17 R317). -/

/-- What a truncation does to the path. -/
def truncOf (f : XForm) (d : KvDesc) (pos : Nat) : Trunc := if f.ma then truncWindow d pos else truncBack d pos

/-- The state after KVTRUNC has told the pager of its path and the host of the pages lost. -/
def truncNoted (s : State) (w : Nat) (i : Instr) (d : KvDesc) (p : KvPool) (tr : Trunc) (free : Nat) (u : State) : State :=
  let v := (started s w i).engineVia (s.warp w).blk
  (u.kvNote v.part (d.path.map (fun n => n.addr)) d.pool free p.mark).kvDiscards v.part
    ((tr.freed.filter (fun e => !entPresent e.word && !entTier e.word)).map (fun e => (e.node.addr, e.e)))

theorem truncNoted_rest (tr : Trunc) (free : Nat) (u : State) : (truncNoted s w i d p tr free u).past = u.past ∧
    (truncNoted s w i d p tr free u).sync = u.sync ∧ (truncNoted s w i d p tr free u).warps = u.warps := ⟨rfl, rfl, rfl⟩

theorem kvNoted_truncNoted (tr : Trunc) (free : Nat) (u : State) : KvNoted u (truncNoted s w i d p tr free u) :=
  (kvNoted_kvNote ..).kvDiscards _ _

theorem opKvtrunc_self {q : List (List (Place × Nat) × List Byte)} {ws : List KvWrite} {free free2 : Nat}
    (hr : ∀ r ∈ (kvOperands s w i f).drop 3, r = 0) (hf : KvFound s w i f d p)
    (hl : regN (kvOperands s w i f) 2 ≤ d.len) (hm : f.ma = true → d.win ≤ regN (kvOperands s w i f) 2)
    (hb : ∀ e ∈ (truncOf f d (regN (kvOperands s w i f) 2)).freed, entBad p.cap e.word = false)
    (hw : truncWrites d p (truncOf f d (regN (kvOperands s w i f) 2)) (if f.ma then d.len else regN (kvOperands s w i f) 2)
      (if f.ma then regN (kvOperands s w i f) 2 else min d.win (regN (kvOperands s w i f) 2)) = (ws, free, free2))
    (hq : (started s w i).kvRuns ((started s w i).engineVia (s.warp w).blk) ws = .ok q) :
    let tr := truncOf f d (regN (kvOperands s w i f) 2)
    opKvtrunc h (.x f) (s.selfActor w i) (started s w i) = .ok ((truncNoted s w i d p tr free (kvStepped (started s w i)
      (kvPath s w i) ((started s w i).kvTouched ((started s w i).engineVia (s.warp w).blk) d) q)).updWarp w (fun x =>
        (x.writeS h.vd.toNat (BitVec.ofNat 32 tr.freed.length)).writeS (h.vd.toNat + 1)
          (BitVec.ofNat 32 (tr.dropped.filter (fun n => decide (n.refs ≤ 1))).length))) := by
  intro tr
  obtain ⟨hd, hp, he⟩ := hf
  have hblk : ((started s w i).warp w).blk = (s.warp w).blk := by rw [warp_started, Warp.issued_blk]
  have hpos : (decide (d.len < regN (kvOperands s w i f) 2) || (f.ma && decide (regN (kvOperands s w i f) 2 < d.win))) = false := by
    rw [decide_eq_false (Nat.not_lt.2 hl), Bool.false_or]
    cases hma : f.ma with
    | false => rfl
    | true => exact decide_eq_false (Nat.not_lt.2 (hm hma))
  have hnone : (truncOf f d (regN (kvOperands s w i f) 2)).freed.find? (fun e => entBad p.cap e.word) = none :=
    List.find?_eq_none.2 fun e hmem => by rw [hb e hmem]; decide
  unfold opKvtrunc
  dsimp only
  rw [← kvOperands, any_nonzero_of_all hr, if_neg Bool.false_ne_true, State.selfActor_lead, hblk,
    show (started s w i).nextUid = s.nextUid from rfl, he, if_neg Bool.false_ne_true, hd]
  dsimp only
  rw [hp]
  dsimp only
  rw [hpos, if_neg Bool.false_ne_true, ← truncOf, hnone]
  dsimp only
  rw [hw]
  dsimp only
  rw [agentOf_self, kvCommit_ok rfl hq]
  rfl

theorem kvtrunc_gives {q : List (List (Place × Nat) × List Byte)} {ws : List KvWrite} {free free2 : Nat}
    (hs : Solo s w (.kvtrunc h (.x f))) (hi : Inv s)
    (hr : ∀ r ∈ (kvOperands s w (.kvtrunc h (.x f)) f).drop 3, r = 0) (hf : KvFound s w (.kvtrunc h (.x f)) f d p)
    (hl : regN (kvOperands s w (.kvtrunc h (.x f)) f) 2 ≤ d.len)
    (hm : f.ma = true → d.win ≤ regN (kvOperands s w (.kvtrunc h (.x f)) f) 2)
    (hb : ∀ e ∈ (truncOf f d (regN (kvOperands s w (.kvtrunc h (.x f)) f) 2)).freed, entBad p.cap e.word = false)
    (hw : truncWrites d p (truncOf f d (regN (kvOperands s w (.kvtrunc h (.x f)) f) 2))
      (if f.ma then d.len else regN (kvOperands s w (.kvtrunc h (.x f)) f) 2)
      (if f.ma then regN (kvOperands s w (.kvtrunc h (.x f)) f) 2
        else min d.win (regN (kvOperands s w (.kvtrunc h (.x f)) f) 2)) = (ws, free, free2))
    (hq : (started s w (.kvtrunc h (.x f))).kvRuns ((started s w (.kvtrunc h (.x f))).engineVia (s.warp w).blk) ws = .ok q) :
    let i : Instr := .kvtrunc h (.x f)
    let tr := truncOf f d (regN (kvOperands s w i f) 2)
    ∃ t, exec i s = .next t ∧
      KvStepped s t w i ((started s w i).kvTouched ((started s w i).engineVia (s.warp w).blk) d) q ∧
      (¬ onChipIn (q.map (fun e => .glob e.1)) → RunsHold t q ∧ KvKept s t w i [(h.vd.toNat, BitVec.ofNat 32 tr.freed.length),
        (h.vd.toNat + 1, BitVec.ofNat 32 (tr.dropped.filter (fun n => decide (n.refs ≤ 1))).length)] (q.flatMap (fun e => e.1))) := by
  intro i tr
  generalize hu : kvStepped (started s w i) (kvPath s w i)
    ((started s w i).kvTouched ((started s w i).engineVia (s.warp w).blk) d) q = u
  have ho := opKvtrunc_self (h := h) hr hf hl hm hb hw hq
  rw [hu] at ho
  obtain ⟨hpast, hsync, hwarps⟩ := truncNoted_rest (s := s) (w := w) (i := i) (d := d) (p := p) tr free u
  refine kvStep_gives (op := opKvtrunc h (.x f)) hs (plain_kvtrunc h (.x f)) hi (wholeRuns_of_kvRuns hq) ho
    (hu.symm ▸ (kvNoted_truncNoted tr free u).updWarp _ _) (hu.symm ▸ hpast) (hu.symm ▸ hsync)
    (hu.symm ▸ fun v hv => (AMap.find_put_other _ _ hv).trans (congrArg (fun m => AMap.find m v) hwarps)) ?_
  have hwarp : (truncNoted s w i d p tr free u).warp w = u.warp w := congrArg (fun m => (AMap.find m w).getD Warp.blank) hwarps
  rw [hu, State.warp_updWarp_same, ← hwarp]
  exact writesSlots_pair _ _ _ _

/-! KVFORK (17 R318). -/

/-- The bytes of the new descriptor. -/
def forkBytes (d : KvDesc) (ns : List KvNode) (pos : Nat) : List Byte :=
  ((List.range 16).flatMap (fun i => leBytes 8 ((ns[i]?).elim 0 (fun n => n.addr.toNat)))) ++ leBytes 4 pos
    ++ leBytes 4 d.win ++ leBytes 8 d.pool.toNat ++ List.replicate 112 0

/-- The nodes that the new descriptor shares. -/
def forkNodes (d : KvDesc) (pos : Nat) : List KvNode := d.path.filter (fun n => decide (n.start < pos))

/-- The writes of a fork. -/
def forkWrites (d : KvDesc) (pos : Nat) (new : DWord) : List KvWrite :=
  (forkNodes d pos).map (fun n => n.countsAt n.count (n.refs + 1)) ++ [(new, forkBytes d (forkNodes d pos) pos)]

theorem opKvfork_self {q : List (List (Place × Nat) × List Byte)} (hr : ∀ r ∈ (kvOperands s w i f).drop 5, r = 0)
    (hf : KvFound s w i f d p) (hw : d.win ≤ regN (kvOperands s w i f) 4) (hl : regN (kvOperands s w i f) 4 ≤ d.len)
    (hc : isCanonical (regPair (kvOperands s w i f) 2) = true)
    (hc' : isCanonical (atOff (regPair (kvOperands s w i f) 2) 255) = true)
    (ha : (regPair (kvOperands s w i f) 2).toNat % 64 = 0)
    (he : (started s w i).kvEarlier w s.nextUid (regPair (kvOperands s w i f) 2) = false)
    (hn : ∀ n ∈ forkNodes d (regN (kvOperands s w i f) 4), n.refs < 65535)
    (hq : (started s w i).kvRuns ((started s w i).engineVia (s.warp w).blk)
      (forkWrites d (regN (kvOperands s w i f) 4) (regPair (kvOperands s w i f) 2)) = .ok q) :
    let v := (started s w i).engineVia (s.warp w).blk
    opKvfork (.x f) (s.selfActor w i) (started s w i) = .ok ((kvStepped (started s w i) (kvPath s w i)
      ((started s w i).kvTouched v d ++ (started s w i).kvObjects v [regPair (kvOperands s w i f) 2]) q).kvNote v.part
        (d.path.map (fun n => n.addr)) d.pool p.free p.mark) := by
  intro v
  obtain ⟨hd, hp, hfirst⟩ := hf
  have hblk : ((started s w i).warp w).blk = (s.warp w).blk := by rw [warp_started, Warp.issued_blk]
  have hpos : (decide (d.len < regN (kvOperands s w i f) 4) || decide (regN (kvOperands s w i f) 4 < d.win)) = false := by
    rw [decide_eq_false (Nat.not_lt.2 hl), decide_eq_false (Nat.not_lt.2 hw)]
    rfl
  have hnone : (forkNodes d (regN (kvOperands s w i f) 4)).find? (fun n => decide (65535 ≤ n.refs)) = none :=
    List.find?_eq_none.2 fun n hmem => by rw [decide_eq_false (Nat.not_le.2 (hn n hmem))]; decide
  unfold opKvfork
  dsimp only
  rw [← kvOperands, any_nonzero_of_all hr, if_neg Bool.false_ne_true, State.selfActor_lead, hblk,
    show (started s w i).nextUid = s.nextUid from rfl, hfirst, he, Bool.or_false, if_neg Bool.false_ne_true, hd]
  dsimp only
  rw [hp]
  dsimp only
  rw [hpos, if_neg Bool.false_ne_true, hc, hc', Bool.and_true, Bool.not_true, Bool.and_false, if_neg Bool.false_ne_true,
    if_neg (not_not.2 ha), ← forkNodes, hnone]
  dsimp only
  rw [← forkBytes, ← forkWrites, agentOf_self, kvCommit_ok rfl hq]
  rfl

theorem kvfork_gives {q : List (List (Place × Nat) × List Byte)} (hs : Solo s w (.kvfork h (.x f))) (hi : Inv s)
    (hr : ∀ r ∈ (kvOperands s w (.kvfork h (.x f)) f).drop 5, r = 0) (hf : KvFound s w (.kvfork h (.x f)) f d p)
    (hw : d.win ≤ regN (kvOperands s w (.kvfork h (.x f)) f) 4) (hl : regN (kvOperands s w (.kvfork h (.x f)) f) 4 ≤ d.len)
    (hc : isCanonical (regPair (kvOperands s w (.kvfork h (.x f)) f) 2) = true)
    (hc' : isCanonical (atOff (regPair (kvOperands s w (.kvfork h (.x f)) f) 2) 255) = true)
    (ha : (regPair (kvOperands s w (.kvfork h (.x f)) f) 2).toNat % 64 = 0)
    (he : (started s w (.kvfork h (.x f))).kvEarlier w s.nextUid (regPair (kvOperands s w (.kvfork h (.x f)) f) 2) = false)
    (hn : ∀ n ∈ forkNodes d (regN (kvOperands s w (.kvfork h (.x f)) f) 4), n.refs < 65535)
    (hq : (started s w (.kvfork h (.x f))).kvRuns ((started s w (.kvfork h (.x f))).engineVia (s.warp w).blk)
      (forkWrites d (regN (kvOperands s w (.kvfork h (.x f)) f) 4) (regPair (kvOperands s w (.kvfork h (.x f)) f) 2)) = .ok q) :
    let i : Instr := .kvfork h (.x f)
    let v := (started s w i).engineVia (s.warp w).blk
    ∃ t, exec i s = .next t ∧ KvStepped s t w i ((started s w i).kvTouched v d ++
        (started s w i).kvObjects v [regPair (kvOperands s w i f) 2]) q ∧
      (¬ onChipIn (q.map (fun e => .glob e.1)) → RunsHold t q ∧ KvKept s t w i [] (q.flatMap (fun e => e.1))) := by
  intro i v
  exact kvStep_gives (op := opKvfork (.x f)) hs (plain_kvfork h (.x f)) hi (wholeRuns_of_kvRuns hq)
    (opKvfork_self hr hf hw hl hc hc' ha he hn hq) (kvNoted_kvNote _ _ _ _ _ _) rfl rfl (fun v hv => rfl)
    ⟨fun r => rfl, rfl, rfl, rfl, rfl, rfl⟩

end

/-- Settles O44: the acquire leaves unseen no write that a release of its objects carries, and each step's state is that of its
acquire, its writes in order where each stands where the newest does, its release and its notes. -/
theorem kvSteps : Obligations.KvSteps := by
  unfold Obligations.KvSteps
  refine ⟨fun s g objs o ho e he hs q r hr hc => unread_kvEnter ho he hs hr hc, fun s w h f d p => ?_⟩
  intro rs v objs found
  refine ⟨?_, ?_, ?_⟩
  · intro i hs hr ⟨hd, hp, he⟩
    have hf : KvFound s w i f d p := ⟨hd, hp, he⟩
    refine ⟨fun hb hx => kvwalk_gives hs hr hf (walkResult_past hb hx),
      fun hb hx hwin => kvwalk_gives hs hr hf (walkResult_window hb hx hwin), fun k n hb hwin hx hc hn => ?_, fun n hb room => ?_⟩
    · exact kvwalk_gives hs hr hf (walkResult_found hb hwin hx hc hn)
    · exact issue_fault (op := opKvwalk h (.x f)) hs room
        (((opKvwalk_self hr hf (walkResult_bad hb)).2 _ rfl).trans (kvRes_shape 13 n.addr))
  · intro i pos tr ws hs hi hr ⟨hd, hp, he⟩ hl hm hb q hq
    exact kvtrunc_gives hs hi hr ⟨hd, hp, he⟩ hl hm hb rfl hq
  · intro i pos new ns ws hs hi hr ⟨hd, hp, hfirst⟩ hw hl hc hc' ha he hn q hq
    exact kvfork_gives hs hi hr ⟨hd, hp, hfirst⟩ hw hl hc hc' ha he hn hq

end Sys2Proof.Machine
end

section
/-! PROOF. What keeps memory in its canonical form (log 3): the shapes of results, and the rules by which a proof that an
operation keeps it follows the operation's own definition. -/

namespace Sys2Proof.Machine

/-- Memory is canonical in the state that a result holds, if it holds one. -/
def OptInv (o : Option State) : Prop :=
  match o with
  | some t => Inv t
  | none => True

/-- The same for an effect's answer. -/
def ResInv (r : Res) : Prop :=
  match r with
  | .ok t => Inv t
  | .jump t => Inv t
  | .trap t _ => Inv t
  | .wait t _ _ => Inv t
  | .gone t => Inv t
  | .fault _ => True
  | .hold => True

/-- The same for an answer that may be missing. -/
def OptResInv (o : Option Res) : Prop :=
  match o with
  | some r => ResInv r
  | none => True

/-- The same for a result or an error. -/
def ExceptInv {ε : Type} (o : Except ε State) : Prop :=
  match o with
  | .ok t => Inv t
  | .error _ => True

/-- The same for a result with a value beside it, or an error. -/
def ExceptFstInv {ε β : Type} (o : Except ε (State × β)) : Prop :=
  match o with
  | .ok p => Inv p.1
  | .error _ => True

/-- The same for a result or an error that may be missing. -/
def OptExceptInv {ε : Type} (o : Option (Except ε State)) : Prop :=
  match o with
  | some r => ExceptInv r
  | none => True

/-- The same for the outcome of a step. -/
def OutcomeInv (o : Host.Outcome State Fault Refusal) : Prop :=
  match o with
  | .next t => Inv t
  | .fault _ => True
  | .refused _ => True

section
variable {s t : State}

theorem inv_of_mem (hi : Inv s) (hm : t.mem = s.mem) : Inv t := by rw [Inv, hm]; exact hi

theorem inv_of_pastOf (h : s.pastOf t) (hi : Inv s) : Inv t := inv_of_mem hi (State.pastOf_mem h)

theorem inv_of_some {o : Option State} (h : o = some t) (ho : OptInv o) : Inv t := by subst h; exact ho

theorem inv_of_ok {ε : Type} {o : Except ε State} (h : o = .ok t) (ho : ExceptInv o) : Inv t := by subst h; exact ho

theorem inv_of_ok_fst {ε β : Type} {o : Except ε (State × β)} {b : β} (h : o = .ok (t, b)) (ho : ExceptFstInv o) : Inv t := by
  subst h
  exact ho

theorem inv_of_some_ok {ε : Type} {o : Option (Except ε State)} (h : o = some (.ok t)) (ho : OptExceptInv o) : Inv t := by
  subst h
  exact ho

theorem inv_of_fst {β : Type} {p : State × β} {b : β} (h : p = (t, b)) (hp : Inv p.1) : Inv t := by subst h; exact hp

theorem resInv_of_some {o : Option Res} {r : Res} (h : o = some r) (ho : OptResInv o) : ResInv r := by subst h; exact ho

theorem inv_ite {c : Prop} [Decidable c] (hs : Inv s) (ht : Inv t) : Inv (if c then s else t) := by
  split
  · exact hs
  · exact ht

theorem inv_getD {o : Option State} (ho : OptInv o) (hs : Inv s) : Inv (o.getD s) := by
  cases o with
  | none => exact hs
  | some t => exact ho

theorem inv_foldl {β : Type} {f : State → β → State} {l : List β} (h : ∀ s b, Inv s → Inv (f s b)) (hs : Inv s) :
    Inv (l.foldl f s) := by
  induction l generalizing s with
  | nil => exact hs
  | cons b l ih => exact ih (h s b hs)

theorem inv_foldl_fst {β γ : Type} {f : State × γ → β → State × γ} {l : List β} {c : γ}
    (h : ∀ p b, Inv p.1 → Inv (f p b).1) (hs : Inv s) : Inv (l.foldl f (s, c)).1 := by
  induction l generalizing s c with
  | nil => exact hs
  | cons b l ih => exact ih (h (s, c) b hs)

theorem optInv_map {β : Type} {f : β → State} {o : Option β} (h : ∀ b, Inv (f b)) : OptInv (o.map f) := by
  cases o with
  | none => trivial
  | some b => exact h b

theorem optInv_bind {β : Type} {f : β → Option State} {o : Option β} (h : ∀ b, o = some b → OptInv (f b)) : OptInv (o.bind f) := by
  cases o with
  | none => trivial
  | some b => exact h b rfl

theorem optResInv_map {β : Type} {f : β → Res} {o : Option β} (h : ∀ b, ResInv (f b)) : OptResInv (o.map f) := by
  cases o with
  | none => trivial
  | some b => exact h b

theorem resInv_getD {o : Option Res} {r : Res} (ho : OptResInv o) (hr : ResInv r) : ResInv (o.getD r) := by
  cases o with
  | none => exact hr
  | some r => exact ho

theorem exceptInv_map {ε β : Type} {f : β → State} {o : Except ε β} (h : ∀ b, Inv (f b)) : ExceptInv (o.map f) := by
  cases o with
  | error e => trivial
  | ok b => exact h b

theorem exceptInv_map_keeps {ε : Type} {f : State → State} {o : Except ε State} (h : ∀ t, Inv t → Inv (f t)) (ho : ExceptInv o) :
    ExceptInv (o.map f) := by
  cases o with
  | error e => trivial
  | ok t => exact h t ho

theorem inv_of_next {o : Host.Outcome State Fault Refusal} (h : o = .next t) (ho : OutcomeInv o) : Inv t := by subst h; exact ho

end

end Sys2Proof.Machine
end

section
/-! PROOF. State operations keep memory canonical (log 3): tables, records, rendezvous, access, races and fetch. -/

namespace Sys2Proof.Machine

theorem State.inv_setWarp {s : State} {w : Nat} {x : Warp} (hi : Inv s) : Inv (s.setWarp w x) := hi

theorem State.inv_setPart {s : State} {p : Nat} {x : Part} (hi : Inv s) : Inv (s.setPart p x) := hi

theorem State.inv_updWarp {s : State} {w : Nat} {f : Warp → Warp} (hi : Inv s) : Inv (s.updWarp w f) := hi

theorem State.inv_updBlock {s : State} {b : Nat} {f : Block → Block} (hi : Inv s) : Inv (s.updBlock b f) := hi

theorem State.inv_updCore {s : State} {c : Nat} {f : Core → Core} (hi : Inv s) : Inv (s.updCore c f) := hi

theorem State.inv_updPart {s : State} {p : Nat} {f : Part → Part} (hi : Inv s) : Inv (s.updPart p f) := hi

theorem State.inv_bump {s : State} (hi : Inv s) : Inv s.bump := hi

theorem State.inv_flushHeld {s : State} {part n : Nat} (hi : Inv s) : Inv (s.flushHeld part n) := by
  induction n generalizing s with
  | zero => exact hi
  | succ n ih =>
    unfold State.flushHeld
    dsimp only
    split
    · exact hi
    · split
      · exact hi
      · exact ih (State.writeRecord_wf _ _ _ _ hi)

theorem State.inv_suspendAll {s : State} {ws : List Nat} {f : FaultInfo} {flags : BitVec 8} {rdv : Bool} {n : Nat}
    (hi : Inv s) : Inv (s.suspendAll ws f flags rdv n) := by
  unfold State.suspendAll
  exact inv_foldl (fun _ _ h => h) hi

theorem State.inv_takeException {s : State} {a : Actor} {pc : DWord} {f : FaultInfo} {rdv : Bool} (hi : Inv s) :
    Inv (s.takeException a pc f rdv) := by
  unfold State.takeException
  exact State.inv_suspendAll (State.postRecord_wf _ _ _ _ _ hi)

theorem State.inv_deviceRecord {s : State} {half part : Nat} {f : FaultInfo} (hi : Inv s) :
    Inv (s.deviceRecord half part f) := by
  unfold State.deviceRecord
  exact State.postRecord_wf _ _ _ _ _ hi

theorem State.inv_advanceAll {s : State} {a : Actor} {i : Instr} (hi : Inv s) : Inv (s.advanceAll a i) := by
  unfold State.advanceAll
  exact inv_foldl (fun _ _ h => h) hi

theorem State.inv_unwaitAll {s : State} {a : Actor} (hi : Inv s) : Inv (s.unwaitAll a) := by
  unfold State.unwaitAll
  exact inv_foldl (fun _ _ h => h) hi

theorem State.inv_updInst {s : State} {a : Actor} {f : Inst → Option Inst} (hi : Inv s) : Inv (s.updInst a f) := by
  unfold State.updInst
  split <;> exact hi

theorem State.inv_waitAll {s : State} {a : Actor} {k : WaitKind} {i : Instr} {args : List DWord} (hi : Inv s) :
    Inv (s.waitAll a k i args) := by
  unfold State.waitAll
  exact inv_foldl (fun _ _ h => h) hi

theorem State.inv_blockAll {s : State} {a : Actor} {owner : Word} {kind : BitVec 4} {detail : BitVec 24} (hi : Inv s) :
    Inv (s.blockAll a owner kind detail) := by
  unfold State.blockAll
  exact inv_foldl (fun _ _ h => h) hi

theorem inv_settle {s : State} {a : Actor} {i : Instr} {r : Res} (hi : Inv s) (hr : ResInv r) : OptInv (settle s a i r) := by
  unfold settle
  dsimp only
  cases r with
  | ok t => exact State.inv_advanceAll (State.inv_updInst hr)
  | jump t => exact State.inv_unwaitAll (State.inv_updInst hr)
  | wait t k args => exact State.inv_waitAll (State.inv_updInst hr)
  | hold => trivial
  | gone t => exact hr
  | fault f =>
    dsimp only
    split
    · trivial
    · split
      · exact State.inv_takeException (State.inv_waitAll (State.inv_updInst hi))
      · exact State.inv_takeException (State.inv_unwaitAll hi)
  | trap t f =>
    dsimp only
    split
    · trivial
    · exact State.inv_takeException (State.inv_advanceAll (State.inv_updInst hr))

theorem State.inv_chargeInstance {s : State} {a : Actor} {i : Instr} (hi : Inv s) : Inv (s.chargeInstance a i) := by
  unfold State.chargeInstance
  exact inv_foldl (fun _ _ h => h) hi

theorem State.inv_performInst {s : State} {e : Inst} {lead : Nat} {op : Actor → State → Res}
    (ho : ∀ a t, Inv t → ResInv (op a t)) (hi : Inv s) : OptInv (s.performInst e lead op) :=
  inv_settle (State.inv_chargeInstance hi) (ho _ _ (State.inv_chargeInstance hi))

theorem State.inv_addArrival {s : State} {sc : Scope} {w : Nat} {i : Instr} (hi : Inv s) : Inv (s.addArrival sc w i).1 := by
  unfold State.addArrival
  dsimp only
  split <;> exact hi

theorem State.inv_closeInsts {s : State} {blk : Nat} (hi : Inv s) : Inv (s.closeInsts blk) := by
  unfold State.closeInsts
  exact inv_ite hi hi

theorem State.inv_arrive {s : State} {sc : Scope} {w : Nat} {i : Instr} (hi : Inv s) : Inv (s.arrive sc w i) := by
  unfold State.arrive
  dsimp only
  exact inv_ite (State.inv_updInst (State.inv_updWarp (State.inv_addArrival hi))) (State.inv_updWarp (State.inv_addArrival
    hi))

theorem State.inv_join {s : State} {sc : Scope} {w : Nat} {i : Instr} (hi : Inv s) : OptInv (s.join sc w i) := by
  unfold State.join
  split
  · exact inv_settle hi trivial
  · exact State.inv_arrive hi

theorem inv_issued {r : Option State} (hr : OptInv r) : OutcomeInv (issued r) := by
  cases r with
  | none => trivial
  | some t => exact hr

theorem State.inv_registerPoison {s : State} {a : Actor} {i : Instr} (hi : Inv s) : Inv (s.registerPoison a i) := by
  unfold State.registerPoison
  exact inv_foldl (fun _ _ h => h) hi

theorem inv_guarded {i : Instr} {op : Actor → State → Res} {a : Actor} {s : State} (ho : ∀ a t, Inv t → ResInv (op a t))
    (hi : Inv s) : ResInv (guarded i op a s) := by
  unfold guarded
  split
  · exact State.inv_registerPoison hi
  · exact ho a s hi

theorem inv_issueWith {gate : Nat → State → Option Res} {i : Instr} {op : Actor → State → Res} {s : State}
    (hg : ∀ w t, Inv t → OptResInv (gate w t)) (ho : ∀ a t, Inv t → ResInv (op a t)) (hi : Inv s) :
    OutcomeInv (issueWith gate i op s) := by
  unfold issueWith
  split
  · trivial
  next w _ =>
    split
    · trivial
    · split
      · trivial
      · have hs : Inv ((s.bump.chargeIssue w i).updWarp w (fun x => x.issued i)) := hi
        dsimp only
        split
        · exact inv_issued (inv_settle hs trivial)
        · split
          · split
            next r hr => exact inv_issued (inv_settle hs (resInv_of_some hr (hg w _ hs)))
            · exact inv_issued (State.inv_join hs)
          · split
            · exact inv_issued (inv_settle hs hs)
            · exact inv_issued (inv_settle hs (inv_guarded ho hs))

theorem inv_issue {i : Instr} {op : Actor → State → Res} {s : State} (ho : ∀ a t, Inv t → ResInv (op a t)) (hi : Inv s) :
    OutcomeInv (issue i op s) := inv_issueWith (fun _ _ _ => trivial) ho hi

theorem State.inv_resumeAll {s : State} {w : Nat} (hi : Inv s) : Inv (s.resumeAll w) := by
  unfold State.resumeAll
  refine inv_foldl (fun t t1 h => ?_) hi
  dsimp only
  split
  · split
    · exact State.inv_updInst h
    · exact h
  · exact h

theorem State.inv_dropNeeds {s : State} {w : Nat} (hi : Inv s) : Inv (s.dropNeeds w) := hi

theorem State.inv_resumeAt {s : State} {w : Nat} {pc : DWord} (hi : Inv s) : Inv (s.resumeAt w pc) := by
  unfold State.resumeAt
  exact inv_foldl (fun _ _ h => h) hi

theorem State.inv_withdraw {s : State} {w : Nat} (hi : Inv s) : Inv (s.withdraw w) := by
  unfold State.withdraw
  exact inv_ite hi hi

theorem State.inv_endWarp {s : State} {w : Nat} (hi : Inv s) : Inv (s.endWarp w) := by
  unfold State.endWarp
  exact State.inv_closeInsts (State.inv_dropNeeds (State.inv_withdraw hi))

theorem State.inv_finishWait {s : State} {q : Wait} {r : Res} (hi : Inv s) (hr : ResInv r) : OptInv (s.finishWait q r) :=
  inv_settle hi hr

theorem State.inv_fillTlb {s : State} {core part k : Nat} {a : DWord} (hi : Inv s) : Inv (s.fillTlb core part k a) := by
  unfold State.fillTlb
  exact inv_ite hi hi

theorem State.inv_freeStorage {s : State} {core : Nat} {kibs : List Nat} (hi : Inv s) : Inv (s.freeStorage core kibs) := by
  unfold State.freeStorage
  exact inv_ite hi hi

theorem State.inv_clearPoison {s : State} {ts : List Target} (hi : Inv s) : Inv (s.clearPoison ts) := by
  unfold State.clearPoison
  exact inv_foldl (fun _ _ h => inv_ite h h) (inv_ite hi hi)

theorem State.inv_notePeerReads {s : State} {ts : List Target} (hi : Inv s) : Inv (s.notePeerReads ts) := by
  unfold State.notePeerReads
  refine inv_foldl (fun t t1 h => ?_) hi
  split
  · refine inv_foldl (fun t2 t3 h1 => ?_) h
    split <;> exact h1
  · exact h

theorem State.inv_mapPast {s : State} {f : Past → Past} (hi : Inv s) : Inv (s.mapPast f) :=
  inv_of_pastOf (State.mapPast_pastOf _ _) hi

theorem State.inv_tell {s : State} {p : Past → Bool} {to' : List (Nat × Mask)} (hi : Inv s) : Inv (s.tell p to') :=
  inv_of_pastOf (State.tell_pastOf _ _ _) hi

theorem State.inv_learn {s : State} {w : Nat} {lanes : Mask} {p : Past → Bool} (hi : Inv s) : Inv (s.learn w lanes p) :=
  inv_of_pastOf (State.learn_pastOf _ _ _ _) hi

theorem State.inv_publish {s : State} {g : Agent} {m : Msg} (hi : Inv s) : Inv (s.publish g m) :=
  inv_of_pastOf (State.publish_pastOf _ _ _) hi

theorem State.inv_performed {s : State} {step agent : Nat} (hi : Inv s) : Inv (s.performed step agent) :=
  inv_of_pastOf (State.performed_pastOf _ _ _) hi

theorem State.inv_putNow {s : State} {t : Target} {bs : List Byte} (hi : Inv s) : Inv (s.putNow t bs) := by
  unfold State.putNow
  exact State.writeTarget_wf _ _ _ hi

theorem State.inv_hear {s : State} {g : Agent} {acq : Bool} {rels : List Rel} (hi : Inv s) : Inv (s.hear g acq rels) :=
  inv_of_pastOf (State.hear_pastOf _ _ _ _) hi

theorem State.inv_readBy {t s : State} {g : Agent} {k : Nat} {acq : Bool} {e : Target} (hi : Inv t) :
    Inv (t.readBy s g k acq e) :=
  inv_of_pastOf (State.readBy_pastOf _ _ _ _ _ _) hi

theorem State.inv_readNewest {s : State} {g : Agent} {acq : Bool} {e : Target} (hi : Inv s) : Inv (s.readNewest g acq e) :=
  inv_of_pastOf (State.readNewest_pastOf _ _ _ _) hi

theorem State.inv_releaseBy {s : State} {g : Agent} (hi : Inv s) : Inv (s.releaseBy g) :=
  inv_of_pastOf (State.releaseBy_pastOf _ _) hi

theorem State.inv_fence {s : State} {g : Agent} {kind : Nat} (hi : Inv s) : Inv (s.fence g kind) :=
  inv_of_pastOf (State.fence_pastOf _ _ _) hi

theorem State.inv_learnAll {s : State} {a : Actor} {p : Nat → Past → Bool} (hi : Inv s) : Inv (s.learnAll a p) :=
  inv_of_pastOf (State.learnAll_pastOf _ _ _) hi

theorem State.inv_reconverge {s : State} {w : Nat} {m : Mask} (hi : Inv s) : Inv (s.reconverge w m) :=
  inv_of_pastOf (State.reconverge_pastOf _ _ _) hi

theorem State.inv_adoptOf {s : State} {p : Past → Bool} {key : Nat} (hi : Inv s) : Inv (s.adoptOf p key) := by
  unfold State.adoptOf
  exact State.inv_mapPast hi

theorem State.inv_adopt {s : State} {g : Agent} {key : Nat} (hi : Inv s) : Inv (s.adopt g key) :=
  inv_of_pastOf (State.adopt_pastOf _ _ _) hi

theorem State.inv_inherit {s : State} {grid w : Nat} (hi : Inv s) : Inv (s.inherit grid w) :=
  inv_of_pastOf (State.inherit_pastOf _ _ _) hi

theorem State.inv_forget {s : State} {key : Nat} (hi : Inv s) : Inv (s.forget key) :=
  inv_of_pastOf (State.forget_pastOf _ _) hi

theorem State.inv_blockGone {s : State} {u : Nat} (hi : Inv s) : Inv (s.blockGone u) := by
  unfold State.blockGone
  exact inv_ite hi (State.inv_mapPast hi)

theorem State.inv_kvEnter {s : State} {g : Agent} {objs : List Nat} (hi : Inv s) : Inv (s.kvEnter g objs) :=
  inv_of_pastOf (State.kvEnter_pastOf _ _ _) hi

theorem State.inv_kvLeave {s : State} {g : Agent} {objs : List Nat} (hi : Inv s) : Inv (s.kvLeave g objs) :=
  inv_of_pastOf (State.kvLeave_pastOf _ _ _) hi

theorem State.inv_afterFetch {s : State} {w : Nat} (hi : Inv s) : Inv (s.afterFetch w) := by
  unfold State.afterFetch
  exact inv_ite hi (State.inv_fillTlb hi)

theorem State.inv_fetchFault {s : State} {w : Nat} {f : FaultInfo} {word : DWord} (hi : Inv s) :
    OptInv (s.fetchFault w f word) := by
  unfold State.fetchFault
  exact inv_settle hi trivial

theorem State.inv_vectorWarp {s : State} {w : Nat} (hi : Inv s) : Inv (s.vectorWarp w) := by
  unfold State.vectorWarp
  dsimp only
  split
  · exact hi
  · exact inv_ite (State.inv_setWarp (State.inv_learn hi)) (State.inv_takeException hi)

theorem State.inv_takeBoundary {s : State} {w : Nat} (hi : Inv s) : Inv (s.takeBoundary w) := by
  unfold State.takeBoundary
  dsimp only
  split
  · exact State.inv_takeException hi
  split
  · exact State.inv_takeException hi
  split
  · exact hi
  split
  · split
    · split
      · exact State.inv_takeException hi
      · exact hi
    · exact hi
  · exact State.inv_vectorWarp hi

end Sys2Proof.Machine
end

section
/-! PROOF. The effects of control, arithmetic, cross-lane, memory and REP instructions keep memory canonical (log 3). -/

namespace Sys2Proof.Machine

theorem inv_lanewise {a : Actor} {s : State} {group : Nat} {markCause : Cause} {detail : Nat} {f : Warp → Nat → LaneOut}
    (hi : Inv s) : ResInv (lanewise a s group markCause detail f) := by
  unfold lanewise
  dsimp only
  split <;> exact hi

theorem inv_opNop {a : Actor} {s : State} (hi : Inv s) : ResInv (opNop a s) := by
  unfold opNop
  exact hi

theorem inv_transfer {call : Bool} {target : DWord} {a : Actor} {s : State} (hi : Inv s) :
    ResInv (transfer call target a s) := by
  unfold transfer
  dsimp only
  split
  · exact hi
  split
  · trivial
  split
  · trivial
  split
  · split
    · trivial
    · exact hi
  split
  · trivial
  · exact hi

theorem inv_opBra {u : Upper} {a : Actor} {s : State} (hi : Inv s) : ResInv (opBra u a s) := by
  unfold opBra
  exact inv_transfer hi

theorem inv_opBrx {u : Upper} {a : Actor} {s : State} (hi : Inv s) : ResInv (opBrx u a s) := by
  unfold opBrx
  exact inv_transfer hi

theorem inv_opCall {u : Upper} {a : Actor} {s : State} (hi : Inv s) : ResInv (opCall u a s) := by
  unfold opCall
  exact inv_transfer hi

theorem inv_opCallx {u : Upper} {a : Actor} {s : State} (hi : Inv s) : ResInv (opCallx u a s) := by
  unfold opCallx
  exact inv_transfer hi

theorem inv_opRet {a : Actor} {s : State} (hi : Inv s) : ResInv (opRet a s) := by
  unfold opRet
  dsimp only
  split
  · trivial
  split
  · trivial
  · exact hi

theorem inv_opRpush {u : Upper} {a : Actor} {s : State} (hi : Inv s) : ResInv (opRpush u a s) := by
  unfold opRpush
  dsimp only
  split
  · trivial
  · exact hi

theorem inv_opRjoin {a : Actor} {s : State} (hi : Inv s) : ResInv (opRjoin a s) := by
  unfold opRjoin
  dsimp only
  split
  · trivial
  split
  · trivial
  · exact hi
  · exact State.inv_setWarp (State.inv_reconverge hi)

theorem inv_opExit {a : Actor} {s : State} (hi : Inv s) : ResInv (opExit a s) := by
  unfold opExit
  dsimp only
  split
  · exact hi
  split
  · exact State.inv_closeInsts (State.inv_mapPast hi)
  · trivial

theorem inv_opYield {a : Actor} {s : State} (hi : Inv s) : ResInv (opYield a s) := by
  unfold opYield
  split <;> exact hi

theorem inv_opTrap {u : Upper} {a : Actor} {s : State} (hi : Inv s) : ResInv (opTrap u a s) := by
  unfold opTrap
  dsimp only
  split <;> exact hi

theorem inv_opBpt {a : Actor} {s : State} (hi : Inv s) : ResInv (opBpt a s) := by
  unfold opBpt
  split
  · exact hi
  · trivial

theorem inv_opReti {a : Actor} {s : State} (hi : Inv s) : ResInv (opReti a s) := by
  unfold opReti
  dsimp only
  split
  · trivial
  split
  · trivial
  split
  · trivial
  split
  · trivial
  · exact hi

theorem inv_opFp {fn : Nat} {g : FpArgs → FpVal} {h : Hdr} {u : Upper} {a : Actor} {s : State} (hi : Inv s) :
    ResInv (opFp fn g h u a s) := by
  unfold opFp
  exact inv_lanewise hi

theorem inv_opCvt {h : Hdr} {u : Upper} {a : Actor} {s : State} (hi : Inv s) : ResInv (opCvt h u a s) := by
  unfold opCvt
  exact inv_lanewise hi

theorem inv_opQblk {h : Hdr} {u : Upper} {a : Actor} {s : State} (hi : Inv s) : ResInv (opQblk h u a s) := by
  unfold opQblk
  exact inv_lanewise hi

theorem inv_opDq {h : Hdr} {u : Upper} {a : Actor} {s : State} (hi : Inv s) : ResInv (opDq h u a s) := by
  unfold opDq
  exact inv_lanewise hi

theorem inv_opPackh {h : Hdr} {u : Upper} {a : Actor} {s : State} (hi : Inv s) : ResInv (opPackh h u a s) := by
  unfold opPackh
  exact inv_lanewise hi

theorem inv_opUnpackh {h : Hdr} {u : Upper} {a : Actor} {s : State} (hi : Inv s) : ResInv (opUnpackh h u a s) := by
  unfold opUnpackh
  exact inv_lanewise hi

theorem inv_opDw {g : Fmt → Word → Num → Num → Num → Num → Nat × Nat × FlagSet} {h : Hdr} {u : Upper} {a : Actor} {s : State}
    (hi : Inv s) : ResInv (opDw g h u a s) := by
  unfold opDw
  exact inv_lanewise hi

theorem inv_opDwcvt {h : Hdr} {u : Upper} {a : Actor} {s : State} (hi : Inv s) : ResInv (opDwcvt h u a s) := by
  unfold opDwcvt
  exact inv_lanewise hi

theorem inv_opInt {fn : Nat} {f : IntArgs → IntVal} {h : Hdr} {u : Upper} {a : Actor} {s : State} (hi : Inv s) :
    ResInv (opInt fn f h u a s) := by
  unfold opInt
  exact inv_lanewise hi

theorem inv_predResult {pd : BitVec 8} {group : Nat} {f : Warp → Nat → Bool × FlagSet} {a : Actor} {s : State} (hi : Inv s) :
    ResInv (predResult pd group f a s) := by
  unfold predResult
  dsimp only
  split <;> exact hi

theorem inv_opIcmpp {h : Hdr} {u : Upper} {a : Actor} {s : State} (hi : Inv s) : ResInv (opIcmpp h u a s) := by
  unfold opIcmpp
  exact inv_predResult hi

theorem inv_opFcmpp {h : Hdr} {u : Upper} {a : Actor} {s : State} (hi : Inv s) : ResInv (opFcmpp h u a s) := by
  unfold opFcmpp
  exact inv_predResult hi

theorem inv_opPbool {h : Hdr} {u : Upper} {a : Actor} {s : State} (hi : Inv s) : ResInv (opPbool h u a s) := by
  unfold opPbool
  split <;> exact hi

theorem inv_opPmov {h : Hdr} {u : Upper} {a : Actor} {s : State} (hi : Inv s) : ResInv (opPmov h u a s) := by
  unfold opPmov
  split
  · dsimp only
    split <;> split <;> exact hi
  · exact hi

theorem State.inv_writeUniform {s : State} {a : Actor} {r : Nat} {v : Word} (hi : Inv s) : Inv (s.writeUniform a r v) := by
  unfold State.writeUniform
  exact inv_foldl (fun _ _ h => h) hi

theorem inv_opPcnt {h : Hdr} {u : Upper} {a : Actor} {s : State} (hi : Inv s) : ResInv (opPcnt h u a s) := by
  unfold opPcnt
  split
  · exact State.inv_writeUniform hi
  · exact hi

theorem inv_opPfirst {h : Hdr} {u : Upper} {a : Actor} {s : State} (hi : Inv s) : ResInv (opPfirst h u a s) := by
  unfold opPfirst
  split <;> exact hi

theorem inv_opPqry {h : Hdr} {u : Upper} {a : Actor} {s : State} (hi : Inv s) : ResInv (opPqry h u a s) := by
  unfold opPqry
  split
  · exact State.inv_writeUniform hi
  · exact hi

theorem State.inv_writeLanes {s : State} {ws : List LaneWrite} (hi : Inv s) : Inv (s.writeLanes ws) := by
  unfold State.writeLanes
  exact inv_foldl (fun _ _ h => h) hi

theorem inv_crossFinish {a : Actor} {s t : State} {group : Nat} {all : FlagSet} {outs : List (Nat × Nat × FlagSet)} (hi :
  Inv t) :
    ResInv (crossFinish a s t group all outs) := by
  unfold crossFinish
  dsimp only
  have h : Inv (((s.liveMembers a).filter (fun m => m.sel != 0)).foldl (fun t m => t.updWarp m.w (fun x => x.raise all)) t)
    :=
    inv_foldl (fun _ _ h => h) hi
  split <;> exact h

theorem inv_opShuffle {seg : Bool} {h : Hdr} {u : Upper} {a : Actor} {s : State} (hi : Inv s) :
    ResInv (opShuffle seg h u a s) := by
  unfold opShuffle
  split
  · exact State.inv_writeLanes hi
  · exact hi

theorem inv_opRfirst {h : Hdr} {u : Upper} {a : Actor} {s : State} (hi : Inv s) : ResInv (opRfirst h u a s) := by
  unfold opRfirst
  split
  · dsimp only
    split
    · exact hi
    split
    · exact hi
    · exact State.inv_writeLanes hi
  · exact hi

theorem inv_opRlane {h : Hdr} {u : Upper} {a : Actor} {s : State} (hi : Inv s) : ResInv (opRlane h u a s) := by
  unfold opRlane
  split <;> exact hi

theorem inv_opWlane {h : Hdr} {u : Upper} {a : Actor} {s : State} (hi : Inv s) : ResInv (opWlane h u a s) := by
  unfold opWlane
  split
  · dsimp only
    split <;> exact hi
  · exact hi

theorem inv_opRedstep {h : Hdr} {u : Upper} {a : Actor} {s : State} (hi : Inv s) : ResInv (opRedstep h u a s) := by
  unfold opRedstep
  split
  · exact inv_crossFinish (State.inv_writeLanes hi)
  · exact hi

theorem State.inv_spread {s : State} {a : Actor} {ws : List (Nat × Word)} (hi : Inv s) : Inv (s.spread a ws) := by
  unfold State.spread
  exact inv_ite hi (State.inv_writeLanes hi)

theorem inv_opRed {h : Hdr} {u : Upper} {a : Actor} {s : State} (hi : Inv s) : ResInv (opRed h u a s) := by
  unfold opRed
  split
  · dsimp only
    exact inv_crossFinish (State.inv_spread hi)
  · exact hi

theorem inv_opRedcmp {h : Hdr} {u : Upper} {a : Actor} {s : State} (hi : Inv s) : ResInv (opRedcmp h u a s) := by
  unfold opRedcmp
  split
  · dsimp only
    exact inv_crossFinish (State.inv_spread hi)
  · exact hi

theorem inv_opScan {h : Hdr} {u : Upper} {a : Actor} {s : State} (hi : Inv s) : ResInv (opScan h u a s) := by
  unfold opScan
  split
  · exact inv_crossFinish (State.inv_writeLanes hi)
  · exact hi

theorem inv_opTrn {h : Hdr} {u : Upper} {a : Actor} {s : State} (hi : Inv s) : ResInv (opTrn h u a s) := by
  unfold opTrn
  split
  · exact State.inv_writeLanes hi
  · exact hi

theorem State.inv_fillFor {s : State} {a : Actor} {sp : Space} {its : List Item} (hi : Inv s) :
    Inv (s.fillFor a sp its) := by
  unfold State.fillFor
  split
  · exact inv_ite hi (inv_foldl (fun _ _ h => State.inv_fillTlb h) hi)
  · exact hi

theorem State.inv_released {s : State} {a : Actor} {f : MForm} (hi : Inv s) : Inv (s.released a f) :=
  inv_of_pastOf (State.released_pastOf _ _ _) hi

theorem State.inv_pushLoads {s : State} {a : Actor} {bad : Option Cause} {fn : Nat} {ts : List Target} {atomic : Bool}
    {cells : List (Nat × LoadCell)} {reads : List (Nat × LateRead)} (hi : Inv s) :
    Inv (s.pushLoads a bad fn ts atomic cells reads) := by
  unfold State.pushLoads
  exact inv_foldl (fun _ _ h => h) hi

theorem State.inv_pushStores {s : State} {a : Actor} {bad : Option Cause} {fn : Nat} {ts : List Target} {atomic : Bool}
    (hi : Inv s) : Inv (s.pushStores a bad fn ts atomic) := by
  unfold State.pushStores
  exact inv_foldl (fun _ _ h => h) hi

theorem State.inv_sawAll {s : State} {a : Actor} {f : MForm} {rs : List (Item × Target)} (hi : Inv s) :
    Inv (s.sawAll a f rs) :=
  inv_of_pastOf (State.sawAll_pastOf _ _ _ _) hi

theorem State.inv_fixReads {s : State} {a : Actor} {ts : List Target} (hi : Inv s) : Inv (s.fixReads a ts) := by
  unfold State.fixReads
  exact inv_foldl (fun _ _ h => inv_ite h h) hi

theorem inv_opLoad {fn : Nat} {h : Hdr} {u : Upper} {a : Actor} {s : State} (hi : Inv s) : ResInv (opLoad fn h u a s) := by
  unfold opLoad
  split
  · dsimp only
    split
    · exact hi
    split
    · trivial
    split
    · trivial
    · exact State.inv_pushLoads (State.inv_sawAll (State.inv_notePeerReads (State.inv_fillFor (State.inv_fixReads hi))))
  · exact hi

theorem State.inv_storeAll {s : State} {p : Put} {es : List (Agent × Target × List Byte)} (hi : Inv s) :
    Inv (s.storeAll p es) := by
  unfold State.storeAll
  exact State.inv_clearPoison (inv_foldl (fun _ _ h => State.putBy_wf _ _ _ _ _ _ h) hi)

theorem State.inv_storeBy {s : State} {g : Agent} {es : List (Target × List Byte)} (hi : Inv s) : Inv (s.storeBy g es) := by
  unfold State.storeBy
  exact State.inv_storeAll hi

theorem inv_opStore {fn : Nat} {h : Hdr} {u : Upper} {a : Actor} {s : State} (hi : Inv s) : ResInv (opStore fn h u a s) := by
  unfold opStore
  split
  · dsimp only
    split
    · exact hi
    split
    · trivial
    split
    · trivial
    · exact State.inv_pushStores (State.inv_storeAll (State.inv_released (State.inv_fillFor (State.inv_fixReads hi))))
  · exact hi

theorem State.inv_amoStep {s : State} {g : Agent} {acq rel : Bool} {ovf : Word} {code size : Nat} {t : Target} {v c : Nat}
    (hi : Inv s) : Inv (s.amoStep g acq rel ovf code size t v c).2 := by
  unfold State.amoStep
  split
  · exact hi
  · exact State.inv_hear (State.putBy_wf _ _ _ _ _ _ hi)

theorem State.inv_amoAll {s : State} {g : Item → Agent} {acq rel : Bool} {ovf : Word} {code size : Nat}
    {es : List (Item × Target × Nat × Nat)} (hi : Inv s) : Inv (s.amoAll g acq rel ovf code size es).2 := by
  induction es generalizing s with
  | nil => exact hi
  | cons e r ih => exact ih (State.inv_amoStep hi)

theorem inv_opAtomic {fn : Nat} {h : Hdr} {u : Upper} {a : Actor} {s : State} (hi : Inv s) :
    ResInv (opAtomic fn h u a s) := by
  unfold opAtomic
  split
  · dsimp only
    split
    · exact hi
    split
    · split
      · trivial
      split
      · trivial
      split
      · exact State.inv_pushStores (State.inv_fillFor (State.inv_fixReads hi))
      · exact State.inv_pushStores (State.inv_amoAll (State.inv_released (State.inv_fillFor (State.inv_fixReads hi))))
    split
    · trivial
    split
    · trivial
    split
    · exact State.inv_pushLoads (State.inv_fillFor (State.inv_fixReads hi))
    · exact State.inv_pushLoads (State.inv_amoAll (State.inv_released (State.inv_fillFor (State.inv_fixReads hi))))
  · exact hi

theorem inv_opFence {u : Upper} {a : Actor} {s : State} (hi : Inv s) : ResInv (opFence u a s) := by
  unfold opFence
  split
  · exact inv_foldl (fun _ _ h => State.inv_fence h) hi
  · exact hi

theorem inv_opPref {a : Actor} {s : State} (hi : Inv s) : ResInv (opPref a s) := by
  unfold opPref
  exact hi

theorem inv_opLdrec {h : Hdr} {u : Upper} {a : Actor} {s : State} (hi : Inv s) : ResInv (opLdrec h u a s) := by
  unfold opLdrec
  split
  · dsimp only
    split
    · exact hi
    split
    · trivial
    split
    · trivial
    · exact State.inv_pushLoads (State.inv_sawAll (State.inv_notePeerReads (State.inv_fillFor (State.inv_fixReads hi))))
  · exact hi

theorem inv_opStrec {h : Hdr} {u : Upper} {a : Actor} {s : State} (hi : Inv s) : ResInv (opStrec h u a s) := by
  unfold opStrec
  split
  · dsimp only
    split
    · exact hi
    split
    · trivial
    split
    · trivial
    · exact State.inv_pushStores (State.inv_storeAll (State.inv_released (State.inv_fillFor (State.inv_fixReads hi))))
  · exact hi

theorem inv_opIntShort {f : IntArgs → IntVal} {e : Nat × Nat × Hdr × Upper} {a : Actor} {s : State} (hi : Inv s) :
    ResInv (opIntShort f e a s) := by
  unfold opIntShort
  exact inv_opInt hi

theorem inv_opFpShort {g : FpArgs → FpVal} {e : Nat × Nat × Hdr × Upper} {a : Actor} {s : State} (hi : Inv s) :
    ResInv (opFpShort g e a s) := by
  unfold opFpShort
  exact inv_opFp hi

theorem inv_opMovhi {f : IForm} {a : Actor} {s : State} (hi : Inv s) : ResInv (opMovhi f a s) := by
  unfold opMovhi
  exact inv_lanewise hi

theorem inv_opTarget {major fn : Nat} {h : Hdr} {u : Upper} {a : Actor} {s : State} (hi : Inv s) :
    ResInv (opTarget major fn h u a s) := by
  unfold opTarget
  split
  · exact inv_opInt hi
  · exact inv_opFp hi
  · exact inv_opDw hi
  · exact inv_opDw hi
  · exact inv_opDw hi
  · exact inv_opDw hi
  · exact inv_opDwcvt hi
  · exact inv_opCvt hi
  · exact inv_opQblk hi
  · exact inv_opDq hi
  · exact inv_opPackh hi
  · exact inv_opUnpackh hi
  · exact inv_opLoad hi
  · exact inv_opStore hi
  · exact inv_opLoad hi
  · exact inv_opStore hi
  · exact inv_opTrn hi

theorem inv_opRep {f : RepForm} {t : Instr} {a : Actor} {s : State} (hi : Inv s) : ResInv (opRep f t a s) := by
  unfold opRep
  split
  · exact inv_opTarget hi
  · exact inv_opMovhi hi
  · exact hi

end Sys2Proof.Machine
end

section
/-! PROOF. Engines, objects, waits, the matrix unit and the KV unit keep memory canonical (log 3). -/

namespace Sys2Proof.Machine

theorem State.inv_setBar {s : State} {g : Agent} {p : Put} {t : Target} {b : Bar} (hi : Inv s) : Inv (s.setBar g p t b) := by
  unfold State.setBar
  exact State.putBy_wf _ _ _ _ _ _ (State.inv_readNewest hi)

theorem State.inv_barBytes {s : State} {g : Agent} {u off n : Nat} (hi : Inv s) : OptInv (s.barBytes g u off n) := by
  unfold State.barBytes
  exact optInv_map (fun _ => State.inv_setBar (State.inv_releaseBy hi))

theorem State.inv_barFlags {s : State} {g : Agent} {u off : Nat} {f : FlagSet} (hi : Inv s) :
    Inv (s.barFlags g u off f) := by
  unfold State.barFlags
  exact State.inv_setBar hi

theorem State.inv_updTimeline {s : State} {blk tl : Nat} {f : Timeline → Timeline} (hi : Inv s) :
    Inv (s.updTimeline blk tl f) := hi

theorem State.inv_finishOp {s : State} {id : Nat} (hi : Inv s) : Inv (s.finishOp id) := by
  unfold State.finishOp
  split
  · exact hi
  · exact inv_ite (State.inv_forget (State.inv_updWarp (State.inv_publish hi))) (State.inv_updTimeline (State.inv_forget
      (State.inv_updWarp (State.inv_publish hi))))

theorem State.inv_setOp {s : State} {id : Nat} {o : EngOp} (hi : Inv s) : Inv (s.setOp id o) := hi

theorem State.inv_issueOp {s : State} {a : Actor} {kind : OpKind} {tl handleIx : Nat} {regs : List Word} {vd : Nat}
    (hi : Inv s) : Inv (s.issueOp a kind tl handleIx regs vd) := by
  unfold State.issueOp
  exact State.inv_updWarp (State.inv_adopt hi)

theorem State.inv_scrPut {s : State} {g : Agent} {u off : Nat} {bs : List Byte} (hi : Inv s) :
    Inv (s.scrPut g u off bs) := by
  unfold State.scrPut
  exact State.putBy_wf _ _ _ _ _ _ hi

theorem State.inv_smear {s : State} {g : Agent} {u off : Nat} {new : List (Option Byte)} (hi : Inv s) :
    Inv (s.smear g u off new) := by
  unfold State.smear
  exact State.inv_scrPut hi

theorem State.inv_scramble {s : State} {g : Agent} {u off n : Nat} (hi : Inv s) : Inv (s.scramble g u off n) := by
  unfold State.scramble
  exact State.inv_scrPut hi

theorem State.inv_failOp {s : State} {id : Nat} {e : Cause × DWord} {lanes : Mask} (hi : Inv s) :
    Inv (s.failOp id e lanes) := by
  unfold State.failOp
  split <;> exact hi

theorem State.inv_readObject {s : State} {a : Actor} {h : Hdr} {acq : Bool} {t : Target} (hi : Inv s) :
    Inv (s.readObject a h acq t) :=
  inv_of_pastOf (State.readObject_pastOf _ _ _ _ _) hi

theorem State.inv_releaseObject {s : State} {a : Actor} {h : Hdr} (hi : Inv s) : Inv (s.releaseObject a h) :=
  inv_of_pastOf (State.releaseObject_pastOf _ _ _) hi

theorem State.inv_poisonTrap {s : State} {a : Actor} (hi : Inv s) : Inv (s.poisonTrap a) := by
  unfold State.poisonTrap
  exact inv_foldl (fun _ _ h => h) hi

theorem inv_syncWith {fn : Nat} {sp : Space} {addr : DWord} {n : Nat} {g : Target → State → Res} {a : Actor} {s : State}
    (hg : ∀ t s, Inv s → ResInv (g t s)) (hi : Inv s) : ResInv (syncWith fn sp addr n g a s) := by
  unfold syncWith
  split
  · trivial
  · split
    · exact State.inv_poisonTrap hi
    · exact hg _ _ (State.inv_fixReads hi)

theorem inv_opBarinit {h : Hdr} {u : Upper} {a : Actor} {s : State} (hi : Inv s) : ResInv (opBarinit h u a s) := by
  unfold opBarinit
  split
  · split
    · exact hi
    · exact inv_syncWith (fun _ _ h2 => State.putBy_wf _ _ _ _ _ _ h2) hi
  · exact hi

theorem inv_opBararr {h : Hdr} {u : Upper} {a : Actor} {s : State} (hi : Inv s) : ResInv (opBararr h u a s) := by
  unfold opBararr
  split
  · dsimp only
    refine inv_syncWith ?_ ?_
    · intro _ _ he
      split
      · trivial
      · exact State.inv_writeUniform (State.inv_setBar (State.inv_releaseObject (State.inv_readObject he)))
    · exact hi
  · exact hi

theorem inv_opBarexp {h : Hdr} {u : Upper} {a : Actor} {s : State} (hi : Inv s) : ResInv (opBarexp h u a s) := by
  unfold opBarexp
  split
  · dsimp only
    refine inv_syncWith ?_ ?_
    · intro _ _ he
      split
      · trivial
      · exact State.inv_writeUniform (State.inv_setBar (State.inv_readObject he))
    · exact hi
  · exact hi

theorem inv_opBartest {h : Hdr} {u : Upper} {a : Actor} {s : State} (hi : Inv s) : ResInv (opBartest h u a s) := by
  unfold opBartest
  split
  · exact inv_syncWith (fun _ _ h2 => State.inv_writeUniform (State.inv_readObject h2)) hi
  · exact hi

theorem inv_syncHeld {fn : Nat} {sp : Space} {addr : DWord} {n : Nat} {held : DWord} {g : Target → State → Res} {a : Actor}
    {s : State} (hg : ∀ t s, Inv s → ResInv (g t s)) (hi : Inv s) : ResInv (syncHeld fn sp addr n held g a s) := by
  unfold syncHeld
  split
  · trivial
  · exact inv_syncWith hg hi

theorem inv_pollBarwait {h : Hdr} {addr p held : DWord} {a : Actor} {s : State} (hi : Inv s) :
    ResInv (pollBarwait h addr p held a s) := by
  unfold pollBarwait
  refine inv_syncHeld ?_ ?_
  · intro _ _ he
    dsimp only
    split
    · exact State.inv_writeUniform (State.inv_readObject he)
    · exact State.inv_blockAll (State.inv_readObject he)
  · exact hi

theorem inv_opBarwait {h : Hdr} {u : Upper} {a : Actor} {s : State} (hi : Inv s) : ResInv (opBarwait h u a s) := by
  unfold opBarwait
  split
  · exact inv_pollBarwait hi
  · exact hi

theorem State.inv_readWord {s : State} {a : Actor} {h : Hdr} {acq : Bool} {t : Target} (hi : Inv s) :
    Inv (s.readWord a h acq t) :=
  inv_of_pastOf (State.readWord_pastOf _ _ _ _ _) hi

theorem inv_pollWaitf {h : Hdr} {addr v owner held : DWord} {a : Actor} {s : State} (hi : Inv s) :
    ResInv (pollWaitf h addr v owner held a s) := by
  unfold pollWaitf
  split
  · trivial
  refine inv_syncHeld ?_ ?_
  · intro _ _ he
    dsimp only
    split
    · exact State.inv_writeUniform (State.inv_readWord he)
    · exact State.inv_blockAll (State.inv_writeUniform (State.inv_readWord he))
  · exact hi

theorem inv_opWaitf {h : Hdr} {u : Upper} {a : Actor} {s : State} (hi : Inv s) : ResInv (opWaitf h u a s) := by
  unfold opWaitf
  split
  · exact inv_pollWaitf hi
  · exact hi

theorem State.inv_startTransfers {s : State} {w : Nat} {iword : DWord} {nt : Bool} {first : Nat} {ts : List Transfer}
    (hi : Inv s) : Inv (s.startTransfers w iword nt first ts) := by
  induction ts generalizing s with
  | nil => exact hi
  | cons t r ih => exact ih (State.inv_setWarp (State.inv_adopt (inv_of_mem hi rfl)))

theorem inv_opLcopy {h : Hdr} {u : Upper} {a : Actor} {s : State} (hi : Inv s) : ResInv (opLcopy h u a s) := by
  unfold opLcopy
  split
  · dsimp only
    split
    · exact hi
    split
    · trivial
    split
    · trivial
    · exact State.inv_startTransfers hi
  · exact hi

theorem State.inv_batchTrap {s : State} {a : Actor} {bs : List Batch} : OptResInv (s.batchTrap a bs) := by
  unfold State.batchTrap
  split
  · exact optResInv_map (fun _ => trivial)
  · trivial

theorem inv_pollBseal {h : Hdr} {a : Actor} {s : State} (hi : Inv s) : ResInv (pollBseal h a s) := by
  unfold pollBseal
  dsimp only
  split
  · exact resInv_getD State.inv_batchTrap hi
  · exact hi

theorem inv_pollBwaitn {u : Upper} {a : Actor} {s : State} (hi : Inv s) : ResInv (pollBwaitn u a s) := by
  unfold pollBwaitn
  split
  · dsimp only
    split
    · exact State.inv_learnAll hi
    split
    · exact resInv_getD State.inv_batchTrap (State.inv_blockAll hi)
    · exact State.inv_blockAll hi
  · exact hi

theorem inv_pollBwaits {b : DWord} {a : Actor} {s : State} (hi : Inv s) : ResInv (pollBwaits b a s) := by
  unfold pollBwaits
  dsimp only
  split
  · exact State.inv_learnAll hi
  · exact resInv_getD State.inv_batchTrap (State.inv_blockAll hi)

theorem inv_opBwaits {u : Upper} {a : Actor} {s : State} (hi : Inv s) : ResInv (opBwaits u a s) := by
  unfold opBwaits
  split
  · exact inv_pollBwaits hi
  · exact hi

theorem inv_opBtest {h : Hdr} {u : Upper} {a : Actor} {s : State} (hi : Inv s) : ResInv (opBtest h u a s) := by
  unfold opBtest
  split
  · exact State.inv_setWarp (inv_ite (State.inv_learnAll hi) hi)
  · exact hi

theorem State.inv_runTransfer {s : State} {id : Nat} {o : EngOp} (hi : Inv s) : ExceptInv (s.runTransfer id o) := by
  unfold State.runTransfer
  split
  · exact exceptInv_map (fun _ => State.inv_scrPut hi)
  · exact hi

theorem inv_opTdef {h : Hdr} {u : Upper} {a : Actor} {s : State} (hi : Inv s) : ResInv (opTdef h u a s) := by
  unfold opTdef
  split
  · dsimp only
    split
    · trivial
    split
    · trivial
    split
    · trivial
    split
    · trivial
    · exact State.inv_updBlock (State.inv_fillTlb hi)
  · exact hi

theorem State.inv_tileCheck {s : State} {blk fn : Nat} {h : Handle} {rs : List Word} :
    OptResInv (s.tileCheck blk fn h rs) := by
  unfold State.tileCheck
  dsimp only
  split
  · trivial
  split
  · trivial
  split
  · trivial
  split
  · trivial
  split
  · trivial
  split
  · trivial
  · split <;> trivial

theorem inv_opTile {fn : Nat} {h : Hdr} {u : Upper} {a : Actor} {s : State} (hi : Inv s) : ResInv (opTile fn h u a s) := by
  unfold opTile
  split
  · dsimp only
    split
    · trivial
    split
    · trivial
    split
    · trivial
    split
    next he =>
      exact resInv_of_some he State.inv_tileCheck
    · exact State.inv_issueOp hi
  · exact hi

theorem State.inv_tredStep {s : State} {g : Agent} {ovf : Word} {op : Nat} {e : Target × List Byte} (hi : Inv s) :
    Inv (s.tredStep g ovf op e) := by
  unfold State.tredStep
  exact State.putBy_wf _ _ _ _ _ _ hi

theorem State.inv_tileWrite {s : State} {g : Agent} {part fn s6 : Nat} {es : List (Target × List Byte)} (hi : Inv s) :
    Inv (s.tileWrite g part fn s6 es) := by
  unfold State.tileWrite
  exact inv_ite (inv_foldl (fun _ _ h => State.inv_tredStep h) hi) (State.inv_storeBy hi)

theorem State.inv_runTile {s : State} {id fn : Nat} {h : Handle} {o : EngOp} (hi : Inv s) :
    ExceptInv (s.runTile id fn h o) := by
  unfold State.runTile
  dsimp only
  split
  · trivial
  split
  · split
    · trivial
    · exact State.inv_tileWrite hi
  split
  · trivial
  · exact State.inv_notePeerReads (State.inv_scrPut hi)

theorem State.inv_smearTile {s : State} {id fn : Nat} {h : Handle} {o : EngOp} (hi : Inv s) :
    Inv (s.smearTile id fn h o) := by
  unfold State.smearTile
  exact inv_ite (inv_ite (State.inv_tileWrite hi) (State.inv_storeBy hi)) (State.inv_smear hi)

theorem State.inv_castDeliver {s : State} {id : Nat} {h : Handle} {o : EngOp} {rank u : Nat} {bs : List Byte} (hi : Inv s) :
    Inv (s.castDeliver id h o rank u bs).1 := by
  unfold State.castDeliver
  dsimp only
  split
  next he =>
    exact State.inv_setOp (inv_of_some he (State.inv_barBytes (State.inv_scrPut hi)))
  · exact State.inv_setOp (State.inv_scrPut hi)

theorem inv_counterGate {lims : List Nat} {w : Nat} {s : State} (hi : Inv s) : OptResInv (counterGate lims w s) := by
  unfold counterGate
  dsimp only
  split
  · trivial
  split
  · trivial
  · exact hi

theorem State.inv_mergeDrains {s : State} {a : Actor} {limit : Nat} (hi : Inv s) : Inv (s.mergeDrains a limit) := by
  unfold State.mergeDrains
  exact inv_foldl (fun _ _ h => h) hi

theorem inv_okOrTrap {t : State} {f : Option FaultInfo} (hi : Inv t) : ResInv (okOrTrap t f) := by
  unfold okOrTrap
  split <;> exact hi

theorem inv_doneWaitc {u : Upper} {a : Actor} {s : State} (hi : Inv s) : ResInv (doneWaitc u a s) := by
  unfold doneWaitc
  exact inv_okOrTrap (State.inv_mergeDrains (State.inv_learnAll hi))

theorem inv_gated {gate : Nat → State → Option Res} {op : Actor → State → Res} {a : Actor} {s : State}
    (hg : ∀ w s, Inv s → OptResInv (gate w s)) (ho : ∀ a s, Inv s → ResInv (op a s)) (hi : Inv s) :
    ResInv (gated gate op a s) := by
  unfold gated
  split
  · exact resInv_getD (hg a.lead s hi) (ho a s hi)
  · exact ho a s hi

theorem inv_gateWaitc {u : Upper} {x1 : Nat} {s : State} (hi : Inv s) : OptResInv (gateWaitc u x1 s) := by
  unfold gateWaitc
  exact inv_counterGate hi

theorem inv_opWaitc {u : Upper} {a : Actor} {s : State} (hi : Inv s) : ResInv (opWaitc u a s) := by
  unfold opWaitc
  exact inv_gated (fun _ _ h => inv_gateWaitc h) (fun _ _ h => inv_doneWaitc h) hi

theorem inv_gateFlagrd {w : Nat} {s : State} (hi : Inv s) : OptResInv (gateFlagrd w s) := by
  unfold gateFlagrd
  split
  · trivial
  split
  · trivial
  · exact hi

theorem inv_doneFlagrd {h : Hdr} {u : Upper} {a : Actor} {s : State} (hi : Inv s) : ResInv (doneFlagrd h u a s) := by
  unfold doneFlagrd
  split
  · exact inv_okOrTrap (inv_foldl (fun _ _ h2 => h2) (State.inv_mergeDrains (State.inv_learnAll hi)))
  · exact hi

theorem inv_opFlagrd {h : Hdr} {u : Upper} {a : Actor} {s : State} (hi : Inv s) : ResInv (opFlagrd h u a s) := by
  unfold opFlagrd
  exact inv_gated (fun _ _ h2 => inv_gateFlagrd h2) (fun _ _ h2 => inv_doneFlagrd h2) hi

theorem State.inv_passGate {s : State} {w : Nat} {q : Wait} {gate : Nat → State → Option Res} {op : Actor → State → Res}
    (hg : ∀ w s, Inv s → OptResInv (gate w s)) (ho : ∀ a s, Inv s → ResInv (op a s)) (hi : Inv s) :
    OptInv (s.passGate w q gate op) := by
  unfold State.passGate
  split
  · trivial
  next r _ hr => exact inv_settle hi (resInv_of_some hr (hg w s hi))
  · dsimp only
    split
    · exact State.inv_join hi
    · exact inv_settle hi (ho q.actor s hi)

theorem inv_pollWaitt {u : Upper} {n : DWord} {a : Actor} {s : State} (hi : Inv s) : ResInv (pollWaitt u n a s) := by
  unfold pollWaitt
  split
  · dsimp only
    split
    · trivial
    split
    · exact State.inv_learnAll hi
    split
    · trivial
    · exact State.inv_blockAll hi
  · exact hi

theorem inv_opWaitt {u : Upper} {a : Actor} {s : State} (hi : Inv s) : ResInv (opWaitt u a s) := by
  unfold opWaitt
  split
  · exact inv_pollWaitt hi
  · exact hi

theorem inv_opTlarm {u : Upper} {a : Actor} {s : State} (hi : Inv s) : ResInv (opTlarm u a s) := by
  unfold opTlarm
  split
  · dsimp only
    split
    · trivial
    split
    · trivial
    · exact hi
  · exact hi

theorem inv_opTlrd {h : Hdr} {u : Upper} {a : Actor} {s : State} (hi : Inv s) : ResInv (opTlrd h u a s) := by
  unfold opTlrd
  split
  · dsimp only
    split
    · trivial
    · exact hi
  · exact hi

theorem State.inv_pushMatrix {s : State} {w : Nat} {k : MatKind} {fn : Nat} {pc iword : DWord} (hi : Inv s) :
    Inv (s.pushMatrix w k fn pc iword) := by
  unfold State.pushMatrix
  exact State.inv_updWarp (State.inv_adopt hi)

theorem inv_opOmap {h : Hdr} {u : Upper} {a : Actor} {s : State} (hi : Inv s) : ResInv (opOmap h u a s) := by
  unfold opOmap
  split
  · dsimp only
    split
    · trivial
    split
    · trivial
    split
    · trivial
    · exact hi
  · exact hi

theorem State.inv_tagSlot {s : State} {w k c : Nat} (hi : Inv s) : Inv (s.tagSlot w k c) := hi

theorem State.inv_landSlot {s : State} {w k : Nat} {bs : List Byte} (hi : Inv s) : Inv (s.landSlot w k bs) := hi

theorem inv_opWbload {h : Hdr} {u : Upper} {a : Actor} {s : State} (hi : Inv s) : ResInv (opWbload h u a s) := by
  unfold opWbload
  split
  · dsimp only
    split
    · trivial
    split
    · split
      · trivial
      split
      · trivial
      split
      · trivial
      split
      · trivial
      split
      · trivial
      split
      · split
        · trivial
        · exact State.inv_tagSlot (State.inv_issueOp hi)
      split
      · trivial
      · exact State.inv_tagSlot (State.inv_issueOp hi)
    split
    · trivial
    split
    · trivial
    split
    · trivial
    split
    · trivial
    · exact State.inv_tagSlot (State.inv_pushMatrix hi)
  · exact hi

theorem State.inv_mmaCheck {s : State} {a : Actor} {h : Hdr} {f : XForm} : OptResInv (s.mmaCheck a h f) := by
  unfold State.mmaCheck
  dsimp only
  split
  · trivial
  split
  · trivial
  split
  · trivial
  split
  · trivial
  split
  · trivial
  split
  · trivial
  split
  · trivial
  · split <;> trivial

theorem State.inv_chargeMma {s : State} {ms : List Nat} {c weight : Nat} (hi : Inv s) : Inv (s.chargeMma ms c weight) := by
  unfold State.chargeMma
  split <;> exact hi

theorem inv_opMma {h : Hdr} {u : Upper} {a : Actor} {s : State} (hi : Inv s) : ResInv (opMma h u a s) := by
  unfold opMma
  split
  · dsimp only
    split
    next he =>
      exact resInv_of_some he State.inv_mmaCheck
    split
    · trivial
    split
    · trivial
    · exact State.inv_chargeMma (inv_foldl (fun _ _ h2 => State.inv_updWarp (State.inv_pushMatrix h2)) hi)
  · exact hi

theorem inv_opAccz {h : Hdr} {u : Upper} {a : Actor} {s : State} (hi : Inv s) : ResInv (opAccz h u a s) := by
  unfold opAccz
  split
  · dsimp only
    split
    · trivial
    split
    · trivial
    · exact inv_foldl (fun _ _ h2 => State.inv_pushMatrix h2) hi
  · exact hi

theorem inv_opAccld {h : Hdr} {u : Upper} {a : Actor} {s : State} (hi : Inv s) : ResInv (opAccld h u a s) := by
  unfold opAccld
  split
  · dsimp only
    split
    · trivial
    split
    · trivial
    split
    · trivial
    split
    · trivial
    · exact State.inv_pushMatrix hi
  · exact hi

theorem inv_opAccdrain {h : Hdr} {u : Upper} {a : Actor} {s : State} (hi : Inv s) : ResInv (opAccdrain h u a s) := by
  unfold opAccdrain
  split
  · dsimp only
    split
    · trivial
    split
    · split
      · trivial
      split
      · trivial
      split
      · split
        · trivial
        split
        · trivial
        split
        · trivial
        split
        · trivial
        split
        · trivial
        · exact State.inv_pushMatrix hi
      split
      · trivial
      split
      · trivial
      split
      · trivial
      split
      · trivial
      · exact State.inv_pushMatrix hi
    split
    · trivial
    split
    · trivial
    split
    · split
      · trivial
      split
      · trivial
      split
      · trivial
      split
      · trivial
      split
      · trivial
      · exact State.inv_pushMatrix hi
    split
    · trivial
    split
    · trivial
    split
    · trivial
    split
    · trivial
    · exact State.inv_pushMatrix hi
  · exact hi

theorem State.inv_runDrain {s : State} {w i : Nat} {d : Drain} {bias : List Byte} (hi : Inv s) :
    Inv (s.runDrain w i d bias) := by
  unfold State.runDrain
  dsimp only
  exact inv_ite (State.inv_updWarp (State.inv_performed (State.inv_storeBy hi))) (State.inv_barFlags (State.inv_performed
    (State.inv_storeBy hi)))

theorem State.inv_runMatrix {s : State} {w i : Nat} {k : MatKind} (hi : Inv s) : Inv (s.runMatrix w i k) := by
  unfold State.runMatrix
  dsimp only
  split
  · refine State.inv_landSlot ?_
    refine State.inv_forget ?_
    refine State.inv_updWarp ?_
    refine State.inv_publish ?_
    split
    · exact hi
    · exact hi
    · exact hi
    · exact hi
    · exact State.inv_runDrain hi
  refine State.inv_forget ?_
  refine State.inv_updWarp ?_
  refine State.inv_publish ?_
  split
  · exact hi
  · exact hi
  · exact hi
  · exact hi
  · exact State.inv_runDrain hi

theorem State.inv_spoilMatrix {s : State} {w id : Nat} {k : MatKind} (hi : Inv s) : Inv (s.spoilMatrix w id k) := by
  unfold State.spoilMatrix
  dsimp only
  split
  · exact hi
  · exact hi
  · exact State.inv_storeBy hi
  · exact hi

theorem State.inv_failMatrix {s : State} {w i : Nat} {o : MatOp} {f : Cause × DWord} (hi : Inv s) :
    Inv (s.failMatrix w i o f) := by
  unfold State.failMatrix
  exact State.inv_spoilMatrix hi

theorem State.inv_kvCommit {s : State} {g : Agent} {objs : List Nat} {v : Via} {ws : List KvWrite} (hi : Inv s) :
    ExceptInv (s.kvCommit g objs v ws) := by
  unfold State.kvCommit
  dsimp only
  split
  · trivial
  · exact State.inv_kvLeave (inv_foldl (fun _ _ h => State.putBy_wf _ _ _ _ _ _ h) (State.inv_kvEnter hi))

theorem State.inv_kvVisit {s : State} {g : Agent} {objs : List Nat} (hi : Inv s) : Inv (s.kvVisit g objs) := by
  unfold State.kvVisit
  exact State.inv_kvLeave (State.inv_kvEnter hi)

theorem State.inv_kvNote {s : State} {part : Nat} {nodes : List DWord} {pool : DWord} {free mark : Nat} (hi : Inv s) :
    Inv (s.kvNote part nodes pool free mark) := hi

theorem State.inv_kvDiscards {s : State} {part : Nat} {ds : List (DWord × Nat)} (hi : Inv s) :
    Inv (s.kvDiscards part ds) := hi

theorem inv_opKvwalk {h : Hdr} {u : Upper} {a : Actor} {s : State} (hi : Inv s) : ResInv (opKvwalk h u a s) := by
  unfold opKvwalk
  split
  · dsimp only
    split
    · trivial
    split
    · trivial
    split
    · trivial
    split
    · trivial
    split
    · trivial
    · exact State.inv_updWarp (State.inv_kvNote (State.inv_kvVisit hi))
  · exact hi

theorem inv_opKvtrunc {h : Hdr} {u : Upper} {a : Actor} {s : State} (hi : Inv s) : ResInv (opKvtrunc h u a s) := by
  unfold opKvtrunc
  split
  · dsimp only
    split
    · trivial
    split
    · trivial
    split
    · trivial
    split
    · trivial
    split
    · trivial
    split
    · trivial
    split
    · trivial
    next he =>
      exact State.inv_updWarp (State.inv_kvDiscards (State.inv_kvNote (inv_of_ok he (State.inv_kvCommit hi))))
  · exact hi

theorem inv_opKvfork {u : Upper} {a : Actor} {s : State} (hi : Inv s) : ResInv (opKvfork u a s) := by
  unfold opKvfork
  split
  · dsimp only
    split
    · trivial
    split
    · trivial
    split
    · trivial
    split
    · trivial
    split
    · trivial
    split
    · trivial
    split
    · trivial
    split
    · trivial
    split
    · trivial
    next h =>
      exact State.inv_kvNote (inv_of_ok h (State.inv_kvCommit hi))
  · exact hi

theorem State.inv_gatherCheck {s : State} {blk : Nat} {rs : List Word} : OptResInv (s.gatherCheck blk rs) := by
  unfold State.gatherCheck
  dsimp only
  split
  · trivial
  split
  · trivial
  split
  · trivial
  split
  · trivial
  split
  · trivial
  split
  · trivial
  · split <;> trivial

theorem inv_appendCheck {rs : List Word} : OptResInv (appendCheck rs) := by
  unfold appendCheck
  dsimp only
  split
  · trivial
  split
  · trivial
  split
  · trivial
  · split <;> trivial

theorem State.inv_mergeCheck {s : State} {blk : Nat} {rs : List Word} : OptResInv (s.mergeCheck blk rs) := by
  unfold State.mergeCheck
  dsimp only
  split
  · trivial
  split
  · trivial
  split
  · trivial
  split
  · trivial
  split
  · trivial
  split
  · trivial
  split
  · trivial
  split
  · trivial
  split
  · trivial
  · split <;> trivial

theorem inv_opKvIssue {fn : Nat} {kind : OpKind} {check' : State → Nat → List Word → Option Res} {h : Hdr} {u : Upper}
    {a : Actor} {s : State} (hc : ∀ b rs, OptResInv (check' s b rs)) (hi : Inv s) :
    ResInv (opKvIssue fn kind check' h u a s) := by
  unfold opKvIssue
  split
  · dsimp only
    split
    · trivial
    · split
      · trivial
      · split
        next he => exact resInv_of_some he (hc _ _)
        · exact State.inv_issueOp hi
  · exact hi

theorem State.inv_walked {s : State} {id : Nat} {o : EngOp} {g : Gather} {d : KvDesc} {p : KvPool} {vRows : Bool}
    (hi : Inv s) : Inv (s.walked id o g d p vRows) := by
  unfold State.walked
  exact State.inv_updPart (State.inv_kvNote (State.inv_kvVisit (State.inv_setOp (inv_ite hi (State.inv_scrPut hi)))))

theorem State.inv_reread {s : State} {id : Nat} {o : EngOp} {g : Gather} {j : Nat} (hi : Inv s) :
    Inv (s.reread id o g j) := by
  unfold State.reread
  dsimp only
  split
  · exact hi
  split
  · exact hi
  split
  · exact hi
  · exact State.inv_kvNote (State.inv_kvVisit hi)

theorem State.inv_deliverPage {s : State} {id : Nat} {o : EngOp} {g : Gather} {j : Nat} {rows : List Byte} {idx : Option Nat}
    (hi : Inv s) : Inv (s.deliverPage id o g j rows idx).1 := by
  unfold State.deliverPage
  dsimp only
  split
  · exact State.inv_updPart (State.inv_setOp (inv_ite (State.inv_scrPut hi) (State.putBy_wf _ _ _ _ _ _ (State.inv_releaseBy
      (State.inv_scrPut hi)))))
  split
  next h =>
    exact inv_of_some h (State.inv_barBytes (State.inv_updPart (State.inv_setOp (inv_ite (State.inv_scrPut hi)
      (State.putBy_wf _ _ _ _ _ _ (State.inv_releaseBy (State.inv_scrPut hi)))))))
  · exact State.inv_updPart (State.inv_setOp (inv_ite (State.inv_scrPut hi) (State.putBy_wf _ _ _ _ _ _ (State.inv_releaseBy
      (State.inv_scrPut hi)))))

theorem State.inv_runAppend {s : State} {id : Nat} {o : EngOp} (hi : Inv s) : ExceptInv (s.runAppend id o) := by
  unfold State.runAppend
  dsimp only
  split
  · trivial
  split
  · trivial
  split
  · trivial
  split
  · trivial
  split
  · trivial
  split
  · trivial
  split
  · trivial
  split
  · trivial
  · trivial
  split
  · trivial
  split
  · trivial
  · trivial
  split
  · trivial
  next h =>
    exact State.inv_kvNote (inv_of_ok h (State.inv_kvCommit hi))

theorem State.inv_runMerge {s : State} {id : Nat} {o : EngOp} (hi : Inv s) : ExceptFstInv (s.runMerge id o) := by
  unfold State.runMerge
  dsimp only
  split
  · trivial
  split
  · trivial
  split
  · exact State.inv_scrPut hi
  split
  next h =>
    exact inv_of_some h (State.inv_barBytes (State.inv_scrPut hi))
  · exact State.inv_scrPut hi

theorem State.inv_demoteOne {s : State} {part : Nat} {p : KvPool} (hi : Inv s) : OptInv (s.demoteOne part p) := by
  unfold State.demoteOne
  split
  · trivial
  split
  · split
    · trivial
    split
    · trivial
    next h =>
      exact State.inv_updPart (inv_of_ok h (State.inv_kvCommit hi))
  · trivial

theorem State.inv_pageInMove {s : State} {part : Nat} {p : KvPool} {r : PageReq} {w : Word} (hi : Inv s) :
    OptInv (s.pageInMove part p r w) := by
  unfold State.pageInMove
  split
  · trivial
  dsimp only
  split
  · trivial
  split
  · trivial
  next h =>
    exact State.inv_kvNote (inv_ite (inv_of_ok h (State.inv_kvCommit hi)) (inv_of_mem (inv_of_ok h (State.inv_kvCommit hi))
      rfl))

end Sys2Proof.Machine
end

section
/-! PROOF. The Shepherd, the dispatcher, tasks and the system instructions keep memory canonical (log 3). -/

namespace Sys2Proof.Machine

theorem State.inv_enterNeed {s : State} {core : Nat} {n : Need} (hi : Inv s) : Inv (s.enterNeed core n) := hi

theorem State.inv_popNeed {s : State} {core : Nat} (hi : Inv s) : Inv (s.popNeed core) := hi

theorem inv_opAcq {try' : Bool} {h : Hdr} {u : Upper} {a : Actor} {s : State} (hi : Inv s) :
    ResInv (opAcq try' h u a s) := by
  unfold opAcq
  dsimp only
  split
  · trivial
  split
  · trivial
  · exact State.inv_blockAll hi

theorem State.inv_addUnits {s : State} {w cls n e : Nat} (hi : Inv s) : Inv (s.addUnits w cls n e) := by
  unfold State.addUnits
  dsimp only
  split <;> exact hi

theorem State.inv_grantOne {s : State} {w cls n vd : Nat} (hi : Inv s) : Inv (s.grantOne w cls n vd) := by
  unfold State.grantOne
  exact State.inv_updWarp (State.inv_addUnits hi)

theorem State.inv_grant {s : State} {r : Request} {a : Actor} {vd : Nat} (hi : Inv s) : Inv (s.grant r a vd) := by
  unfold State.grant
  exact inv_ite (inv_foldl (fun _ _ h => h) (State.inv_addUnits hi)) (inv_foldl (fun _ _ h => State.inv_grantOne h) hi)

theorem State.inv_renumber {s : State} {core : Nat} (hi : Inv s) : Inv (s.renumber core) := by
  unfold State.renumber
  dsimp only
  refine inv_foldl (fun t t1 h => ?_) hi
  split
  · exact State.inv_blockAll h
  · exact h

theorem State.inv_undefer {s : State} {core : Nat} {r : Request} (hi : Inv s) : Inv (s.undefer core r) := hi

theorem State.inv_retestPass {s : State} {core : Nat} {rs : List Request} (hi : Inv s) : Inv (s.retestPass core rs) := by
  induction rs generalizing s with
  | nil => exact State.inv_renumber hi
  | cons r t ih =>
    have hu : Inv (s.undefer core r) := State.inv_undefer hi
    unfold State.retestPass
    split
    · exact ih hu
    · dsimp only
      split
      · exact ih (inv_ite hi (inv_getD (State.inv_finishWait hu trivial) hi))
      · exact ih (inv_getD (State.inv_finishWait hu (State.inv_grant hu)) hi)
      · exact ih hi

theorem State.inv_retest {s : State} {core : Nat} (hi : Inv s) : Inv (s.retest core) := by
  unfold State.retest
  exact State.inv_retestPass hi

theorem State.inv_passRelease {s : State} {core w : Nat} (hi : Inv s) : OptInv (s.passRelease core w) := by
  unfold State.passRelease
  split
  · exact hi
  split
  · exact hi
  · trivial

theorem State.inv_shepherdTest {s : State} {core : Nat} (hi : Inv s) : OptInv (s.shepherdTest core) := by
  unfold State.shepherdTest
  split
  · exact State.inv_passRelease hi
  · dsimp only
    split
    · exact hi
    split
    · split
      · exact hi
      · exact State.inv_finishWait hi trivial
    · exact State.inv_finishWait hi (State.inv_grant hi)
    split
    · exact State.inv_finishWait hi (inv_foldl (fun _ _ h => h) hi)
    split
    · split
      · exact hi
      · exact State.inv_finishWait hi trivial
    · exact State.inv_renumber (State.inv_waitAll hi)
  · trivial

theorem State.inv_removeUnits {s : State} {w cls n : Nat} (hi : Inv s) : Inv (s.removeUnits w cls n) := by
  unfold State.removeUnits
  dsimp only
  split
  · exact State.inv_freeStorage hi
  · exact hi
  · exact State.inv_freeStorage hi
  · exact State.inv_freeStorage hi

theorem State.inv_releaseNow {s : State} {a : Actor} {cls n : Nat} (hi : Inv s) : Inv (s.releaseNow a cls n) := by
  unfold State.releaseNow
  exact State.inv_retest (State.inv_updBlock (inv_foldl (fun _ _ h => State.inv_removeUnits h) hi))

theorem State.inv_relHeld {s : State} {a : Actor} {cls n : Nat} (hi : Inv s) : OptResInv (s.relHeld a cls n) := by
  unfold State.relHeld
  dsimp only
  split
  · trivial
  split
  · trivial
  split
  · trivial
  split
  · trivial
  split
  · trivial
  split
  · exact State.inv_blockAll hi
  · trivial

theorem inv_pollRel {h : Hdr} {amount : DWord} {a : Actor} {s : State} (hi : Inv s) : ResInv (pollRel h amount a s) := by
  unfold pollRel
  dsimp only
  split
  next he =>
    exact resInv_of_some he (State.inv_relHeld hi)
  split
  · exact State.inv_releaseNow hi
  split
  · trivial
  · exact State.inv_blockAll hi

theorem inv_pollRelease {h : Hdr} {amount : DWord} {a : Actor} {s : State} (hi : Inv s) :
    ResInv (pollRelease h amount a s) := by
  unfold pollRelease
  dsimp only
  split
  · exact resInv_getD (State.inv_relHeld hi) (State.inv_releaseNow hi)
  · exact hi

theorem inv_opRel {h : Hdr} {u : Upper} {a : Actor} {s : State} (hi : Inv s) : ResInv (opRel h u a s) := by
  unfold opRel
  exact inv_pollRel hi

theorem inv_opClaimq {h : Hdr} {u : Upper} {a : Actor} {s : State} (hi : Inv s) : ResInv (opClaimq h u a s) := by
  unfold opClaimq
  split <;> exact hi

theorem inv_pollFjoin {h : Hdr} {key : DWord} {a : Actor} {s : State} (hi : Inv s) : ResInv (pollFjoin h key a s) := by
  unfold pollFjoin
  dsimp only
  split
  · trivial
  split
  · trivial
  split
  · exact State.inv_blockAll hi
  split
  · trivial
  split
  · trivial
  · exact State.inv_writeUniform hi

theorem inv_opFjoin {h : Hdr} {u : Upper} {a : Actor} {s : State} (hi : Inv s) : ResInv (opFjoin h u a s) := by
  unfold opFjoin
  split
  · exact inv_pollFjoin hi
  · exact hi

theorem inv_pollFleave {a : Actor} {s : State} (hi : Inv s) : ResInv (pollFleave a s) := by
  unfold pollFleave
  dsimp only
  split
  · trivial
  split
  · trivial
  split
  · exact State.inv_blockAll hi
  · exact hi

theorem inv_opFlockset {u : Upper} {a : Actor} {s : State} (hi : Inv s) : ResInv (opFlockset u a s) := by
  unfold opFlockset
  split
  · dsimp only
    split
    · trivial
    split
    · trivial
    · exact hi
  · exact hi

theorem State.inv_smearOp {s : State} {id : Nat} {o : EngOp} (hi : Inv s) : Inv (s.smearOp id o) := by
  unfold State.smearOp
  split
  · exact inv_ite (State.inv_smearTile hi) (inv_foldl (fun _ _ h => State.inv_smear h) hi)
  · exact inv_foldl (fun _ _ h => State.inv_smear h) hi

theorem State.inv_scrambleOp {s : State} {id : Nat} {o : EngOp} (hi : Inv s) : Inv (s.scrambleOp id o) := by
  unfold State.scrambleOp
  dsimp only
  split
  · exact inv_ite (State.inv_storeBy (inv_foldl (fun _ _ h => State.inv_scramble h) hi)) (inv_foldl (fun _ _ h =>
      State.inv_scramble h) hi)
  · exact inv_foldl (fun _ _ h => State.inv_scramble h) hi

theorem State.inv_opFails {s : State} {id : Nat} {o : EngOp} {e : Cause × DWord} (hi : Inv s) : Inv (s.opFails id o e) := by
  unfold State.opFails
  exact State.inv_failOp (inv_ite hi (State.inv_smearOp hi))

theorem State.inv_perform {s : State} {id : Nat} {o : EngOp} (hi : Inv s) : OptExceptInv (s.perform id o) := by
  unfold State.perform
  split
  · exact exceptInv_map_keeps (fun _ h => State.inv_finishOp h) (State.inv_runTransfer hi)
  · split
    · trivial
    · exact exceptInv_map_keeps (fun _ h => State.inv_finishOp h) (State.inv_runTile hi)
  · exact exceptInv_map fun _ => State.inv_landSlot (State.inv_finishOp hi)
  · trivial

theorem State.inv_countDone {s : State} {id : Nat} {o : EngOp} (hi : Inv s) : Inv (s.countDone id o) := by
  unfold State.countDone
  dsimp only
  split
  · exact State.inv_landSlot (State.inv_finishOp (State.inv_scrambleOp hi))
  · exact State.inv_finishOp (State.inv_scrambleOp hi)

theorem State.inv_castOn {s : State} {id : Nat} {o : EngOp} {h : Handle} (hi : Inv s) : Inv (s.castOn id o h) := by
  unfold State.castOn
  exact inv_ite (State.inv_finishOp hi) (State.inv_updTimeline (State.inv_updWarp (State.inv_setOp (State.inv_publish hi))))

theorem State.inv_settleOp {s : State} {id : Nat} (hi : Inv s) : Inv (s.settleOp id) := by
  unfold State.settleOp
  split
  · exact hi
  split
  · exact inv_ite (State.inv_castOn hi) (State.inv_countDone hi)
  · exact State.inv_countDone hi
  split
  next h =>
    exact inv_of_some_ok h (State.inv_perform hi)
  · exact State.inv_countDone hi

theorem State.inv_awaitReplay {s : State} {id : Nat} (hi : Inv s) : Inv (s.awaitReplay id) := by
  unfold State.awaitReplay
  split
  · exact hi
  · exact inv_ite hi hi

theorem State.inv_serveOp {s : State} {id : Nat} (hi : Inv s) : Inv (s.serveOp id) := by
  unfold State.serveOp
  split
  · exact hi
  split
  · exact hi
  · exact inv_ite hi (inv_ite (inv_foldl (fun _ _ h => State.inv_awaitReplay h) hi) (inv_foldl (fun _ _ h =>
      State.inv_settleOp h) hi))

theorem State.inv_serveUnit {s : State} {w : Nat} (hi : Inv s) : Inv (s.serveUnit w) := by
  unfold State.serveUnit
  split
  · exact State.inv_forget (State.inv_updWarp (State.inv_publish hi))
  · exact hi

theorem State.inv_serve {s : State} {u : Susp} (hi : Inv s) : Inv (s.serve u) := by
  unfold State.serve
  dsimp only
  split
  · split
    · refine State.inv_serveUnit ?_
      split
      · exact State.inv_serveOp hi
      · exact hi
    split
    · exact State.inv_serveOp hi
    · exact hi
  split
  · exact State.inv_serveOp hi
  · exact hi

theorem State.inv_replayOp {s : State} {id : Nat} {o : EngOp} (hi : Inv s) : Inv (s.replayOp id o) := by
  unfold State.replayOp
  dsimp only
  split
  · exact hi
  split
  next h =>
    exact inv_of_some_ok h (State.inv_perform hi)
  · exact State.inv_opFails hi
  · split <;> exact hi

theorem State.inv_setGrid {s : State} {g : Nat} {x : Grid} (hi : Inv s) : Inv (s.setGrid g x) := hi

theorem State.inv_newJob {s : State} {part : Nat} {table : DWord} (hi : Inv s) : Inv (s.newJob part table).1 := by
  unfold State.newJob
  exact hi

theorem State.inv_rehead {s : State} {part : Nat} (hi : Inv s) : Inv (s.rehead part) := by
  unfold State.rehead
  exact inv_ite hi (inv_ite hi (inv_ite hi hi))

theorem State.inv_noteEvent {s : State} {part : Nat} (hi : Inv s) : Inv (s.noteEvent part) := hi

theorem State.inv_enqueue {s : State} {part job queue : Nat} {addr : DWord} {r : LaunchRec} {tcb : Option (Nat × Option Nat)}
    {ring : Bool} {before : Past → Bool} (hi : Inv s) : Inv (s.enqueue part job queue addr r tcb ring before) := by
  unfold State.enqueue
  exact State.inv_rehead (State.inv_noteEvent (State.inv_updPart (State.inv_adoptOf hi)))

theorem State.inv_taskRecord {s : State} {part : Nat} {cause : Cause} {agent detail : Nat} {addr : DWord}
    {job lane member : Nat} (hi : Inv s) : Inv (s.taskRecord part cause agent detail addr job lane member) := by
  unfold State.taskRecord
  exact State.inv_deviceRecord hi

theorem State.inv_touchObject {s : State} {g : Agent} {part : Nat} {obj : DWord} {status : Nat} (hi : Inv s) :
    ExceptFstInv (s.touchObject g part obj status) := by
  unfold State.touchObject
  split
  · dsimp only
    split
    · exact State.inv_setBar (State.inv_releaseBy (State.putBy_wf _ _ _ _ _ _ (State.inv_readNewest hi)))
    · exact State.putBy_wf _ _ _ _ _ _ (State.inv_readNewest hi)
  · trivial
  · trivial

theorem State.inv_signalObject {s : State} {g : Agent} {part job : Nat} {obj : DWord} {status : Nat} (hi : Inv s) :
    Inv (s.signalObject g part job obj status) := by
  unfold State.signalObject
  split
  · exact hi
  split
  · exact State.inv_taskRecord hi
  next h =>
    exact inv_ite (inv_of_ok_fst h (State.inv_touchObject hi)) (State.inv_taskRecord (inv_of_ok_fst h (State.inv_touchObject
      hi)))

theorem State.inv_tcbPut {s : State} {part : Nat} {addr : DWord} {n : Nat} (hi : Inv s) : Inv (s.tcbPut part addr n) := by
  unfold State.tcbPut
  split
  next h =>
    exact inv_of_ok h (State.inv_kvCommit hi)
  · exact hi

theorem State.inv_takenMask {s : State} {g : Agent} {part : Nat} {bs : List Byte} (hi : Inv s) :
    Inv (s.takenMask g part bs).1 := by
  unfold State.takenMask
  dsimp only
  split
  · exact hi
  split
  · split
    · exact hi
    · exact State.inv_readBy hi
  · exact hi

theorem State.inv_listTcb {s : State} {part job i : Nat} (hi : Inv s) : Inv (s.listTcb part job i) := by
  unfold State.listTcb
  split
  · exact inv_ite hi hi
  · exact hi

theorem State.inv_enterTcb {s : State} {part : Nat} {t : ReadyTcb} (hi : Inv s) : Inv (s.enterTcb part t) := by
  unfold State.enterTcb
  exact inv_ite hi (State.inv_forget (State.inv_enqueue hi))

theorem State.inv_admitQueue {s : State} {part queue n : Nat} (hi : Inv s) : Inv (s.admitQueue part queue n) := by
  induction n generalizing s with
  | zero => exact hi
  | succ n ih =>
    unfold State.admitQueue
    split
    · exact hi
    · split
      · exact hi
      · exact ih (State.inv_enterTcb hi)

theorem State.inv_admitTcbs {s : State} {part : Nat} (hi : Inv s) : Inv (s.admitTcbs part) := by
  unfold State.admitTcbs
  exact inv_ite hi (inv_foldl (fun _ _ h => State.inv_admitQueue h) hi)

theorem State.inv_taskStep {s : State} {part job queue : Nat} {j : Job} {e : TaskStep} (hi : Inv s) :
    Inv (s.taskStep part job queue j e).1 := by
  unfold State.taskStep
  split
  · dsimp only
    split
    · exact hi
    split
    · exact State.inv_tcbPut (State.inv_adopt (State.inv_listTcb hi))
    split
    · exact State.inv_tcbPut (State.inv_takenMask (State.inv_adopt (State.inv_listTcb hi)))
    split
    · exact State.inv_taskRecord (State.inv_tcbPut (State.inv_takenMask (State.inv_adopt (State.inv_listTcb hi))))
    split
    · exact State.inv_taskRecord (State.inv_tcbPut (State.inv_takenMask (State.inv_adopt (State.inv_listTcb hi))))
    split
    · exact State.inv_signalObject (State.inv_tcbPut (State.inv_takenMask (State.inv_adopt (State.inv_listTcb hi))))
    · exact State.inv_enterTcb (State.inv_tcbPut (State.inv_takenMask (State.inv_adopt (State.inv_listTcb hi))))
  · dsimp only
    split
    · exact hi
    · exact State.inv_tcbPut hi
  dsimp only
  split
  · exact State.inv_taskRecord hi
  split
  · exact State.inv_taskRecord hi
  · exact State.inv_tcbPut (State.inv_tell hi)

theorem State.inv_runTasks {s : State} {part job queue fuel : Nat} {es : List TaskStep} (hi : Inv s) :
    Inv (s.runTasks part job queue fuel es) := by
  induction fuel generalizing s es with
  | zero =>
    unfold State.runTasks
    exact hi
  | succ n ih =>
    cases es with
    | nil =>
      unfold State.runTasks
      exact hi
    | cons e t =>
      unfold State.runTasks
      dsimp only
      split
      · exact hi
      · exact ih (State.inv_taskStep hi)

theorem State.inv_endJob {s : State} {part job : Nat} (hi : Inv s) : Inv (s.endJob part job) := by
  unfold State.endJob
  exact inv_ite hi hi

theorem State.inv_completeGrid {s : State} {id : Nat} {g : Grid} (hi : Inv s) : Inv (s.completeGrid id g) := by
  have h1 : Inv ((s.tell (ofGrid id) [(gridKey id, 1)]).signalObject (agentFor g.part (gridKey id)) g.part g.job g.lrec.done
      g.status) := State.inv_signalObject (State.inv_tell hi)
  unfold State.completeGrid
  refine State.inv_rehead (State.inv_endJob (State.inv_forget (State.inv_updPart ?_)))
  generalize (s.tell (ofGrid id) [(gridKey id, 1)]).signalObject (agentFor g.part (gridKey id)) g.part g.job g.lrec.done
    g.status = u
    at h1 ⊢
  have h3 (o : List Output) (gs : AMap Grid) :
      Inv { (if g.hostRing then { u with outputs := o } else u) with grids := gs } := by
    split <;> exact h1
  split
  · split
    · exact inv_ite (h3 _ _) (State.inv_runTasks (h3 _ _))
    · exact h3 _ _
  · exact h3 _ _

theorem State.inv_checkGrid {s : State} {id : Nat} (hi : Inv s) : Inv (s.checkGrid id) := by
  unfold State.checkGrid
  split
  · exact inv_ite (State.inv_completeGrid hi) hi
  · exact hi

theorem State.inv_stopGrid {s : State} {id status : Nat} (hi : Inv s) : Inv (s.stopGrid id status) := by
  unfold State.stopGrid
  split
  · exact hi
  · exact State.inv_rehead hi

theorem State.inv_removeBlock {s : State} {u : Nat} (hi : Inv s) : Inv (s.removeBlock u) := by
  unfold State.removeBlock
  exact State.inv_retest (State.inv_updCore (State.inv_freeStorage (State.inv_blockGone hi)))

theorem State.inv_gridLeft {s : State} {id : Nat} (hi : Inv s) : Inv (s.gridLeft id) := by
  unfold State.gridLeft
  split <;> exact hi

theorem State.inv_orphanRecord {s : State} {u : Nat} {f : FaultInfo} (hi : Inv s) : Inv (s.orphanRecord u f) := by
  unfold State.orphanRecord
  exact State.inv_deviceRecord hi

theorem State.inv_settleFailed {s : State} {id : Nat} (hi : Inv s) : Inv (s.settleFailed id) := by
  unfold State.settleFailed
  exact inv_ite (State.inv_settleOp hi) hi

theorem State.inv_orphan {s : State} {u : Nat} (hi : Inv s) : OptInv (s.orphan u) := by
  have hw (f : Nat → Option State) (hf : ∀ w, OptInv (f w)) (ws : List Nat) : OptInv (ws.findSome? f) := by
    cases h : ws.findSome? f with
    | none => trivial
    | some t =>
      obtain ⟨w, -, he⟩ := List.exists_of_findSome?_eq_some h
      exact inv_of_some he (hf w)
  unfold State.orphan
  split
  · split
    · refine inv_foldl (fun _ _ h => State.inv_settleFailed h) ?_
      split
      · exact State.inv_orphanRecord hi
      · exact hi
    · exact State.inv_settleOp (State.inv_orphanRecord hi)
  · refine hw _ (fun w => optInv_map fun _ => State.inv_updWarp ?_) _
    split
    · exact State.inv_orphanRecord hi
    · exact hi

theorem State.inv_retireBlock {s : State} {u : Nat} (hi : Inv s) : Inv (s.retireBlock u) := by
  unfold State.retireBlock
  exact State.inv_checkGrid (State.inv_gridLeft (State.inv_removeBlock hi))

theorem State.inv_discard {s : State} {u : Nat} {migrate : Bool} (hi : Inv s) : Inv (s.discard u migrate) := by
  unfold State.discard
  dsimp only
  split
  · exact State.inv_rehead (State.inv_setGrid (State.inv_adopt (State.inv_removeBlock hi)))
  · exact State.inv_adopt (State.inv_removeBlock hi)

theorem State.inv_preemptRecord {s : State} {u : Nat} {cause : Cause} {reason : Nat} (hi : Inv s) :
    Inv (s.preemptRecord u cause reason) := by
  unfold State.preemptRecord
  exact State.postRecord_wf _ _ _ _ _ hi

theorem State.inv_preemptAll {s : State} {u : Nat} {cause : Cause} {reason : Nat} (hi : Inv s) :
    Inv (s.preemptAll u cause reason) := by
  unfold State.preemptAll
  exact State.inv_checkGrid (inv_foldl (fun _ _ h => State.inv_discard (State.inv_preemptRecord h)) hi)

theorem State.inv_placeWarps {s : State} {u gid core q0 : Nat} {r : LaunchRec} {back : Option (List Word × DWord)}
    (hi : Inv s) : Inv (s.placeWarps u gid core q0 r back) := by
  unfold State.placeWarps
  exact inv_foldl (fun _ _ h => State.inv_inherit h) hi

theorem State.inv_placeBlock {s : State} {gid : Nat} {g : Grid} {gangCore : Option (Nat × Nat)} {core q0 : Nat}
    {e : UnitBlock} (hi : Inv s) : Inv (s.placeBlock gid g gangCore core q0 e) := by
  unfold State.placeBlock
  exact State.inv_updCore (State.inv_placeWarps hi)

theorem State.inv_markRunning {s : State} {g : Grid} (hi : Inv s) : Inv (s.markRunning g) := by
  unfold State.markRunning
  split
  · exact inv_ite (State.inv_tcbPut hi) hi
  · exact hi

theorem State.inv_placeUnit {s : State} {gid : Nat} {g : Grid} {cores : List (Nat × Nat)} (hi : Inv s) :
    Inv (s.placeUnit gid g cores) := by
  unfold State.placeUnit
  exact State.inv_rehead (State.inv_noteEvent (State.inv_admitTcbs (State.inv_setGrid (inv_foldl (fun _ _ h =>
    State.inv_placeBlock h) (State.inv_markRunning hi)))))

theorem State.inv_backfill {s : State} {h limit : Nat} {regions : List Nat} {cs : List (Nat × Grid)} (hi : Inv s) :
    Inv (s.backfill h limit regions cs) := by
  induction cs generalizing s with
  | nil => exact hi
  | cons e t ih =>
    unfold State.backfill
    split
    · dsimp only
      split
      · split
        · exact State.inv_setGrid (State.inv_placeUnit hi)
        · exact ih (State.inv_setGrid (State.inv_placeUnit hi))
      · exact State.inv_placeUnit hi
    · exact ih hi

theorem State.inv_backfillElsewhere {s : State} {regions : List Nat} {cs : List (Nat × Grid)} (hi : Inv s) :
    Inv (s.backfillElsewhere regions cs) := by
  induction cs generalizing s with
  | nil => exact hi
  | cons e t ih =>
    unfold State.backfillElsewhere
    split
    · exact ih (State.inv_placeUnit hi)
    · exact ih hi

theorem State.inv_reserve {s : State} {part : Nat} {h : Grid} (hi : Inv s) : Inv (s.reserve part h) := by
  unfold State.reserve
  exact inv_ite hi hi

theorem State.inv_dispatch {s : State} {part : Nat} (hi : Inv s) : Inv (s.dispatch part) := by
  unfold State.dispatch
  split
  · exact hi
  · dsimp only
    split
    · exact State.inv_updPart (State.inv_placeUnit (State.inv_reserve hi))
    · exact State.inv_reserve hi
    · exact inv_ite (State.inv_backfill (State.inv_reserve hi)) (State.inv_backfillElsewhere (State.inv_reserve hi))

theorem resInv_of_taskRead {fn : Nat} {addr : DWord} {n : Nat} {a : Actor} {s : State} {r : Res}
    (h : taskRead fn addr n a s = .error r) (hi : Inv s) : ResInv r := by
  unfold taskRead at h
  dsimp only at h
  split at h
  · cases h
    trivial
  · split at h
    · cases h
      exact hi
    · exact nomatch h

theorem State.inv_launch {s : State} {part queue : Nat} {addr : DWord} {r : LaunchRec} {ring : Bool} {before : Past → Bool}
    (hi : Inv s) : Inv (s.launch part queue addr r ring before).1 := by
  unfold State.launch
  split
  next h =>
    split
    · exact State.inv_enqueue (inv_of_fst h (State.inv_newJob hi))
    dsimp only
    refine State.inv_forget ?_
    refine State.inv_enqueue ?_
    refine State.inv_tcbPut ?_
    refine State.inv_listTcb ?_
    split
    · exact State.inv_takenMask (State.inv_adoptOf (inv_of_fst h (State.inv_newJob hi)))
    · exact State.inv_adoptOf (inv_of_fst h (State.inv_newJob hi))

theorem resInv_of_taskLoad {fn : Nat} {addr : DWord} {n : Nat} {a : Actor} {s : State} {r : Res}
    (h : taskLoad fn addr n a s = .error r) (hi : Inv s) : ResInv r := by
  unfold taskLoad at h
  split at h
  next he =>
    cases h
    exact resInv_of_taskRead he hi
  · exact nomatch h
  · exact nomatch h

theorem inv_of_taskLoad {fn : Nat} {addr : DWord} {n : Nat} {a : Actor} {s t : State} {bs : List Byte}
    (h : taskLoad fn addr n a s = .ok (bs, t)) (hi : Inv s) : Inv t := by
  unfold taskLoad at h
  split at h
  · exact nomatch h
  · cases h
    exact State.inv_readBy hi
  · cases h
    exact hi

theorem inv_pollLaunch {h : Hdr} {addr queue ended : DWord} {a : Actor} {s : State} (hi : Inv s) :
    ResInv (pollLaunch h addr queue ended a s) := by
  unfold pollLaunch
  dsimp only
  split
  · trivial
  · split
    · trivial
    · split
      next he => exact resInv_of_taskLoad he hi
      next he =>
        have hl := inv_of_taskLoad he hi
        split
        · trivial
        · split
          · trivial
          · split
            · split
              · trivial
              · exact State.inv_blockAll hl
            · exact State.inv_updWarp (State.inv_launch hl)

theorem inv_opLaunch {h : Hdr} {u : Upper} {a : Actor} {s : State} (hi : Inv s) : ResInv (opLaunch h u a s) := by
  unfold opLaunch
  split
  · exact inv_pollLaunch hi
  · exact hi

theorem inv_spawnCheck {s : State} {a : Actor} {bs : List Byte} (hi : Inv s) : OptResInv (spawnCheck s a bs) := by
  unfold spawnCheck
  dsimp only
  split
  · trivial
  · split
    · trivial
    · split
      · trivial
      · split
        next he => exact resInv_of_taskRead he hi
        · trivial
        · exact optResInv_map fun _ => trivial

theorem inv_opSpawn {h : Hdr} {u : Upper} {a : Actor} {s : State} (hi : Inv s) : ResInv (opSpawn h u a s) := by
  unfold opSpawn
  split
  · dsimp only
    split
    · trivial
    · split
      · trivial
      · split
        · trivial
        · split
          next he => exact resInv_of_taskRead he hi
          · split
            next he => exact resInv_of_some he (inv_spawnCheck hi)
            · split
              · trivial
              · have hl (p : Past → Bool) (ks : List (Nat × Mask)) (n k : Nat) (j : Nat) : Inv ((s.tell p ks).listTcb n k j)
                  :=
                  State.inv_listTcb (State.inv_tell hi)
                split
                · split
                  · trivial
                  · exact State.inv_updWarp (State.inv_runTasks (hl _ _ _ _ _))
                · split
                  · trivial
                  · exact State.inv_updWarp (hl _ _ _ _ _)
  · exact hi

theorem inv_opTdep {h : Hdr} {u : Upper} {a : Actor} {s : State} (hi : Inv s) : ResInv (opTdep h u a s) := by
  unfold opTdep
  split
  · dsimp only
    split
    · trivial
    · split
      · split
        next he => exact resInv_of_taskRead he hi
        next he _ => exact resInv_of_taskRead he hi
        · split
          · exact hi
          · split
            · trivial
            · split
              · trivial
              · split
                next he => exact State.inv_updWarp (inv_of_ok he (State.inv_kvCommit hi))
                · trivial
      · trivial
  · exact hi

theorem State.inv_trapBlock {s : State} {u : Nat} {c : Cause} (hi : Inv s) : Inv (s.trapBlock u c) := by
  unfold State.trapBlock
  dsimp only
  split
  · exact hi
  · exact State.inv_takeException hi

theorem State.inv_sweepTcbs {s : State} {j : Job} (hi : Inv s) : Inv (s.sweepTcbs j) := by
  unfold State.sweepTcbs
  refine State.inv_updPart ?_
  refine inv_foldl (fun t t1 h => ?_) hi
  dsimp only
  split
  · exact inv_ite (State.inv_tcbPut h) h
  · exact h

theorem State.inv_killBlock {s : State} {u : Nat} (hi : Inv s) : Inv (s.killBlock u) := by
  unfold State.killBlock
  exact inv_ite (State.inv_trapBlock hi) hi

theorem State.inv_killPending {s : State} {core : Nat} (hi : Inv s) : Inv (s.killPending core) := by
  unfold State.killPending
  exact inv_foldl (fun _ _ h => State.inv_killBlock h) hi

theorem State.inv_cancelJob {s : State} {j : Job} {kill : Bool} {except : Nat} (hi : Inv s) :
    Inv (s.cancelJob j kill except) := by
  unfold State.cancelJob
  exact State.inv_endJob (State.inv_admitTcbs (inv_foldl (fun _ _ h => State.inv_checkGrid h) (inv_ite (inv_foldl (fun _ _ h
    => State.inv_killBlock h) (inv_foldl (fun _ _ h => State.inv_stopGrid h) (State.inv_sweepTcbs hi))) (inv_foldl (fun _ _
    h => State.inv_stopGrid h) (State.inv_sweepTcbs hi)))))

theorem inv_opTcancel {h : Hdr} {u : Upper} {a : Actor} {s : State} (hi : Inv s) : ResInv (opTcancel h u a s) := by
  unfold opTcancel
  split
  · split
    · exact hi
    dsimp only
    split
    · exact State.inv_cancelJob hi
    · trivial
  · exact hi

theorem inv_goneIf {part : Nat} {t : State} (hi : Inv t) : ResInv (goneIf part t) := by
  unfold goneIf
  split
  · exact hi
  · trivial

theorem inv_opSliceyield {a : Actor} {s : State} (hi : Inv s) : ResInv (opSliceyield a s) := by
  unfold opSliceyield
  dsimp only
  split
  · exact inv_goneIf (State.inv_preemptAll hi)
  · exact hi

theorem inv_opRegion {a : Actor} {s : State} (hi : Inv s) : ResInv (opRegion a s) := by
  unfold opRegion
  dsimp only
  split
  · trivial
  split
  · split
    · exact inv_goneIf (State.inv_preemptAll hi)
    · exact hi
  · exact hi

theorem inv_opRegionend {a : Actor} {s : State} (hi : Inv s) : ResInv (opRegionend a s) := by
  unfold opRegionend
  dsimp only
  split
  · exact hi
  · trivial

theorem inv_pollStenq {args : List DWord} {a : Actor} {s : State} (hi : Inv s) : ResInv (pollStenq args a s) := by
  unfold pollStenq
  dsimp only
  split
  · trivial
  split
  · trivial
  split
  · exact State.inv_blockAll hi
  · exact State.inv_releaseBy hi

theorem inv_opStenq {u : Upper} {a : Actor} {s : State} (hi : Inv s) : ResInv (opStenq u a s) := by
  unfold opStenq
  split
  · exact inv_pollStenq hi
  · exact hi

theorem inv_pollStdeq {h : Hdr} {number ended : DWord} {a : Actor} {s : State} (hi : Inv s) :
    ResInv (pollStdeq h number ended a s) := by
  unfold pollStdeq
  dsimp only
  split
  · trivial
  split
  · trivial
  split
  · exact State.inv_blockAll hi
  · exact State.inv_updWarp (State.inv_hear hi)

theorem inv_opStdeq {h : Hdr} {u : Upper} {a : Actor} {s : State} (hi : Inv s) : ResInv (opStdeq h u a s) := by
  unfold opStdeq
  split
  · exact inv_pollStdeq hi
  · exact hi

/-- What a wait polls keeps memory canonical. -/
theorem inv_pollOf {q : Wait} {op : Actor → State → Res} (h : pollOf q = some op) {a : Actor} {s : State} (hi : Inv s) :
    ResInv (op a s) := by
  unfold pollOf at h
  dsimp only at h
  split at h <;> cases h
  · exact inv_pollBarwait hi
  · exact inv_pollWaitf hi
  · exact inv_pollWaitt hi
  · exact inv_pollBwaitn hi
  · exact inv_pollBwaits hi
  · exact inv_pollBseal hi
  · exact inv_pollRel hi
  · exact inv_pollRelease hi
  · exact inv_pollFleave hi
  · exact inv_pollFjoin hi
  · exact inv_pollStdeq hi
  · exact inv_pollStenq hi
  · exact inv_pollLaunch hi

theorem resInv_of_pollWait {s : State} {kinds : List WaitKind} {w : Nat} {q : Wait} {r : Res}
    (h : s.pollWait kinds w = some (q, r)) (hi : Inv s) : ResInv r := by
  unfold State.pollWait at h
  split at h
  · exact nomatch h
  · split at h
    · obtain ⟨op, hop, he⟩ := Option.map_eq_some_iff.1 h
      cases he
      exact inv_pollOf hop hi
    · exact nomatch h

theorem State.inv_refreshBlocked {s : State} {w : Nat} (hi : Inv s) : Inv (s.refreshBlocked w) := by
  unfold State.refreshBlocked
  split
  · exact hi
  split
  · exact hi
  · split <;> exact hi

theorem State.inv_refreshAll {s : State} {ws : List Nat} (hi : Inv s) : Inv (s.refreshAll ws) := by
  unfold State.refreshAll
  exact inv_foldl (fun _ _ h => State.inv_refreshBlocked h) hi

theorem inv_sysResult {h : Hdr} {a : Actor} {v : Word} {s : State} (hi : Inv s) : ResInv (sysResult h a v s) := by
  unfold sysResult
  exact hi

theorem inv_opOvfld {h : Hdr} {u : Upper} {a : Actor} {s : State} (hi : Inv s) : ResInv (opOvfld h u a s) := by
  unfold opOvfld
  split
  · dsimp only
    split
    · trivial
    · exact inv_sysResult hi
  · exact hi

theorem inv_opTlbinv {u : Upper} {a : Actor} {s : State} (hi : Inv s) : ResInv (opTlbinv u a s) := by
  unfold opTlbinv
  split
  · dsimp only
    split
    · trivial
    split
    · trivial
    · exact hi
  · exact hi

theorem inv_opSwrp {h : Hdr} {u : Upper} {a : Actor} {s : State} (hi : Inv s) : ResInv (opSwrp h u a s) := by
  unfold opSwrp
  split
  · dsimp only
    split
    · trivial
    split
    · trivial
    · exact inv_sysResult (State.inv_rehead (State.inv_flushHeld hi))
  · exact hi

theorem inv_opCtxsave {h : Hdr} {u : Upper} {a : Actor} {s : State} (hi : Inv s) : ResInv (opCtxsave h u a s) := by
  unfold opCtxsave
  split
  · dsimp only
    split
    · trivial
    split
    · exact inv_sysResult hi
    split
    · trivial
    split
    · trivial
    split
    · trivial
    · exact inv_sysResult (State.putBy_wf _ _ _ _ _ _ hi)
  · exact hi

theorem State.inv_reenter {s : State} {core w : Nat} (hi : Inv s) : Inv (s.reenter core w) := by
  unfold State.reenter
  dsimp only
  split
  · exact hi
  · exact inv_ite hi (inv_ite hi (inv_ite (State.inv_renumber hi) (State.inv_enterNeed (State.inv_blockAll
      (State.inv_waitAll hi)))))

theorem State.inv_loadImage {s : State} {core : Nat} {g : Image} {slots : List (Nat × Nat)} (hi : Inv s) :
    Inv (s.loadImage core g slots) := by
  unfold State.loadImage
  dsimp only
  refine inv_foldl (fun t t1 h => ?_) ?_
  · exact State.inv_reenter h
  · refine State.inv_updCore ?_
    split
    · exact State.inv_setGrid (inv_foldl (fun _ _ h => h) hi)
    · exact inv_foldl (fun _ _ h => h) hi

theorem inv_opCtxload {h : Hdr} {u : Upper} {a : Actor} {s : State} (hi : Inv s) : ResInv (opCtxload h u a s) := by
  unfold opCtxload
  split
  · split
    · trivial
    split
    · trivial
    split
    · trivial
    split
    · exact inv_sysResult hi
    split
    · exact inv_sysResult hi
    split
    · trivial
    · exact inv_sysResult (State.inv_tell (State.inv_loadImage hi))
  · exact hi

theorem State.inv_endLaunch {s : State} {w : Nat} (hi : Inv s) : Inv (s.endLaunch w) := by
  unfold State.endLaunch
  dsimp only
  split
  · exact inv_ite hi (inv_getD (State.inv_finishWait hi trivial) hi)
  · exact hi

theorem State.inv_dropTcb {s : State} {part : Nat} {t : ReadyTcb} (hi : Inv s) : Inv (s.dropTcb part t) := by
  unfold State.dropTcb
  exact State.inv_endJob (State.inv_forget (State.inv_runTasks (State.inv_signalObject hi)))

theorem State.inv_destroyQueue {s : State} {part queue : Nat} (hi : Inv s) : Inv (s.destroyQueue part queue) := by
  unfold State.destroyQueue
  exact inv_ite (inv_foldl (fun _ _ h => State.inv_checkGrid h) (inv_foldl (fun _ _ h => State.inv_dropTcb h) (inv_foldl
    (fun _ _ h => State.inv_stopGrid h) (inv_foldl (fun _ _ h => State.inv_endLaunch h) hi)))) (State.inv_updPart (inv_foldl
    (fun _ _ h => State.inv_checkGrid h) (inv_foldl (fun _ _ h => State.inv_dropTcb h) (inv_foldl (fun _ _ h =>
    State.inv_stopGrid h) (inv_foldl (fun _ _ h => State.inv_endLaunch h) hi)))))

theorem inv_opQdestroy {u : Upper} {a : Actor} {s : State} (hi : Inv s) : ResInv (opQdestroy u a s) := by
  unfold opQdestroy
  split
  · dsimp only
    split
    · trivial
    split
    · exact State.inv_destroyQueue hi
    · trivial
  · exact hi

theorem State.inv_haltWarps {s : State} {sc : Scope} {ws : List Nat} (hi : Inv s) : Inv (s.haltWarps sc ws) := by
  unfold State.haltWarps
  dsimp only
  split
  · exact inv_foldl (fun _ _ h => h) hi
  · exact State.inv_takeException (inv_foldl (fun _ _ h => h) hi)

theorem inv_opHalt {h : Hdr} {u : Upper} {a : Actor} {s : State} (hi : Inv s) : ResInv (opHalt h u a s) := by
  unfold opHalt
  split
  · split
    · trivial
    dsimp only
    split
    · exact inv_sysResult hi
    split
    · split
      · exact inv_sysResult hi
      split
      · trivial
      · exact inv_sysResult (State.inv_haltWarps hi)
    split
    · exact inv_sysResult hi
    split
    · trivial
    · exact inv_sysResult (State.inv_haltWarps hi)
  · exact hi

theorem State.inv_reload {s : State} {u : Nat} {c : Cause} (hi : Inv s) : Inv (s.reload u c) := by
  unfold State.reload
  exact inv_ite hi (inv_ite hi hi)

theorem State.inv_resumeWarp {s : State} {w : Nat} {newPc : Option DWord} {p : Past → Bool} (hi : Inv s) :
    Inv (s.resumeWarp w newPc p) := by
  unfold State.resumeWarp
  split
  · exact hi
  dsimp only
  refine State.inv_tell ?_
  split
  · exact State.inv_resumeAt (State.inv_reload (State.inv_serve hi))
  · exact State.inv_resumeAll (State.inv_reload (State.inv_serve hi))

theorem State.inv_killWarp {s : State} {w : Nat} (hi : Inv s) : Inv (s.killWarp w) := by
  unfold State.killWarp
  exact State.inv_forget (State.inv_endWarp hi)

theorem State.inv_endBlock {s : State} {u : Nat} (hi : Inv s) : Inv (s.endBlock u) := by
  unfold State.endBlock
  dsimp only
  split
  · exact State.inv_setGrid (inv_foldl (fun _ _ h => inv_ite h (State.inv_killWarp h)) hi)
  · exact inv_foldl (fun _ _ h => inv_ite h (State.inv_killWarp h)) hi

theorem State.inv_eret {s : State} {t : TargetWord} {pc : DWord} {p : Past → Bool} (hi : Inv s) : Inv (s.eret t pc p).1 := by
  unfold State.eret
  dsimp only
  split
  · exact hi
  split
  · exact State.inv_renumber (inv_ite (State.inv_endBlock hi) (State.inv_killWarp hi))
  split
  · exact hi
  · exact inv_foldl (fun _ _ h => State.inv_resumeWarp h) hi

theorem inv_opEret {h : Hdr} {u : Upper} {a : Actor} {s : State} (hi : Inv s) : ResInv (opEret h u a s) := by
  unfold opEret
  split
  · split
    · trivial
    dsimp only
    split
    · trivial
    · exact inv_sysResult (State.inv_eret hi)
  · exact hi

end Sys2Proof.Machine
end

section
/-! PROOF. Turns, events and the host keep memory canonical (log 3). -/

namespace Sys2Proof.Machine

theorem inv_notEnabled {event : String} : OutcomeInv (notEnabled event) := trivial

theorem inv_happens {event : String} {r : Option State} (hr : OptInv r) : OutcomeInv (happens event r) := by
  cases r with
  | none => trivial
  | some t => exact hr

theorem inv_when' {event : String} {c : Bool} {t : State} (hi : Inv t) : OutcomeInv (when' event c t) := by
  unfold when'
  split
  · exact hi
  · trivial

/-- What a rendezvous performs keeps memory canonical. -/
theorem inv_wideOp {i : Instr} {op : Actor → State → Res} (h : wideOp i = some op) {a : Actor} {s : State} (hi : Inv s) :
    ResInv (op a s) := by
  unfold wideOp at h
  split at h <;> cases h
  · exact inv_opNop hi
  · exact inv_opTrap hi
  · exact inv_opPcnt hi
  · exact inv_opPqry hi
  · exact inv_opShuffle hi
  · exact inv_opShuffle hi
  · exact inv_opRfirst hi
  · exact inv_opRed hi
  · exact inv_opRedcmp hi
  · exact inv_opScan hi
  · exact inv_opLoad hi
  · exact inv_opStore hi
  · exact inv_opLoad hi
  · exact inv_opStore hi
  · exact inv_opRep hi
  · exact inv_opWaitc hi
  · exact inv_opFlagrd hi
  · exact inv_opBararr hi
  · exact inv_opBarwait hi
  · exact inv_opMma hi
  · exact inv_opAccz hi
  · exact inv_opAcq hi
  · exact inv_opAcq hi
  · exact inv_opRel hi
  · exact inv_opFjoin hi
  · exact inv_pollFleave hi
  · exact inv_opFlockset hi
  · exact inv_opSliceyield hi
  · exact inv_opRegion hi
  · exact inv_opRegionend hi

theorem State.inv_meet {s : State} {e : Inst} (hi : Inv s) : Inv (s.meet e) :=
  inv_of_pastOf (State.meet_pastOf _ _) hi

theorem State.inv_completeInst {s : State} {blk id : Nat} (hi : Inv s) : OptInv (s.completeInst blk id) := by
  unfold State.completeInst
  split
  · trivial
  next e _ =>
    split
    · trivial
    · dsimp only
      split
      · trivial
      · cases h : wideOp e.instr with
        | none => trivial
        | some op =>
          exact State.inv_performInst (fun _ _ ht => inv_guarded (fun _ _ hu => inv_wideOp h hu) ht) (State.inv_meet hi)

theorem State.inv_resumeWait {s : State} {kinds : List WaitKind} {w : Nat} (hi : Inv s) : OptInv (s.resumeWait kinds w) := by
  unfold State.resumeWait
  split
  · trivial
  next h =>
    split
    · trivial
    · exact State.inv_finishWait hi (resInv_of_pollWait h hi)
  · trivial
  next _ _ h => exact State.inv_finishWait hi (resInv_of_pollWait h hi)

theorem State.inv_resumeGate {s : State} {w : Nat} (hi : Inv s) : OptInv (s.resumeGate w) := by
  unfold State.resumeGate
  split
  · trivial
  split
  · exact State.inv_passGate (fun _ _ h => inv_gateWaitc h) (fun _ _ h => inv_doneWaitc h) hi
  · exact State.inv_passGate (fun _ _ h => inv_gateFlagrd h) (fun _ _ h => inv_doneFlagrd h) hi
  · trivial

theorem inv_execWaitcResume {w : Nat} {s : State} (hi : Inv s) : OutcomeInv (execWaitcResume w s) := by
  unfold execWaitcResume
  split
  · exact inv_happens (State.inv_resumeGate hi)
  · exact inv_notEnabled

theorem inv_execFlagrdResume {w : Nat} {s : State} (hi : Inv s) : OutcomeInv (execFlagrdResume w s) := by
  unfold execFlagrdResume
  split
  · exact inv_happens (State.inv_resumeGate hi)
  · exact inv_notEnabled

theorem State.inv_readLate {s : State} {w : Nat} {q : PendLoad} (hi : Inv s) : Inv (s.readLate w q).1 := by
  unfold State.readLate
  exact inv_foldl_fst (fun _ _ h => State.inv_readBy h) hi

theorem State.inv_loadReturns {s : State} {w idx : Nat} {q : PendLoad} (hi : Inv s) : Inv (s.loadReturns w idx q) := by
  unfold State.loadReturns
  split
  next h =>
    exact State.inv_updWarp (inv_of_fst h (State.inv_readLate hi))

theorem inv_execLoadDataReturn {w idx : Nat} {s : State} (hi : Inv s) : OutcomeInv (execLoadDataReturn w idx s) := by
  unfold execLoadDataReturn
  split
  · exact inv_when' (State.inv_loadReturns hi)
  · exact inv_notEnabled

theorem inv_execStorePerformed {w idx : Nat} {s : State} (hi : Inv s) : OutcomeInv (execStorePerformed w idx s) := by
  unfold execStorePerformed
  split
  · exact inv_when' (State.inv_updWarp (State.inv_performed hi))
  · exact inv_notEnabled

theorem State.inv_fillRange {s : State} {v : Via} {a : DWord} {n : Nat} (hi : Inv s) : Inv (s.fillRange v a n) := by
  unfold State.fillRange
  exact inv_ite hi (inv_foldl (fun _ _ h => State.inv_fillTlb h) hi)

theorem State.inv_fillOp {s : State} {o : EngOp} (hi : Inv s) : Inv (s.fillOp o) := by
  unfold State.fillOp
  dsimp only
  split
  · exact State.inv_fillRange hi
  · refine inv_foldl (fun t t1 h => ?_) hi
    split
    · exact State.inv_fillRange h
    · exact h
  · refine inv_foldl (fun t2 t3 h1 => ?_) hi
    split
    · exact State.inv_fillRange h1
    · exact h1
  · exact hi

theorem State.inv_trapWaiter {s : State} {w : Nat} (hi : Inv s) : Inv (s.trapWaiter w) := by
  unfold State.trapWaiter
  split
  · exact hi
  split
  · exact hi
  split
  · exact inv_getD (State.inv_finishWait hi trivial) hi
  · exact hi

theorem State.inv_trapWaiters {s : State} {blk : Nat} (hi : Inv s) : Inv (s.trapWaiters blk) := by
  unfold State.trapWaiters
  exact inv_foldl (fun _ _ h => State.inv_trapWaiter h) hi

theorem State.inv_performNow {s : State} {id : Nat} {lane : Bool} (hi : Inv s) : OptInv (s.performNow id lane) := by
  unfold State.performNow
  split
  · split
    · trivial
    split
    next h =>
      exact State.inv_trapWaiters (State.inv_fillOp (inv_of_some_ok h (State.inv_perform hi)))
    · trivial
  · trivial

theorem State.inv_failNow {s : State} {id : Nat} (hi : Inv s) : OptInv (s.failNow id) := by
  unfold State.failNow
  split
  · split
    · trivial
    · exact optInv_map (fun _ => State.inv_trapWaiters (State.inv_opFails hi))
  · trivial

theorem State.inv_replayNow {s : State} {id : Nat} (hi : Inv s) : OptInv (s.replayNow id) := by
  unfold State.replayNow
  split
  · split
    · exact State.inv_trapWaiters (State.inv_replayOp hi)
    · trivial
  · trivial

theorem State.inv_acceptTile {s : State} {w : Nat} (hi : Inv s) : OptInv (s.acceptTile w) := by
  unfold State.acceptTile
  split
  · trivial
  split
  · trivial
  split
  · trivial
  · exact hi

theorem State.inv_completeTile {s : State} {id : Nat} (hi : Inv s) : OptInv (s.completeTile id) := by
  unfold State.completeTile
  split
  · split
    · exact State.inv_trapWaiters (State.inv_finishOp hi)
    · exact State.inv_performNow hi
  · trivial

theorem State.inv_failIf {s : State} {id blk : Nat} {e : Option (Cause × DWord)} (hi : Inv s) : Inv (s.failIf id blk e) := by
  unfold State.failIf
  split
  · exact inv_ite hi (State.inv_trapWaiters (State.inv_failOp hi))
  · exact hi

theorem State.inv_deliverCast {s : State} {id rank : Nat} (hi : Inv s) : OptInv (s.deliverCast id rank) := by
  unfold State.deliverCast
  split
  · trivial
  split
  · split
    · trivial
    split
    · exact State.inv_failIf (State.inv_castDeliver (inv_ite (State.inv_fillOp hi) hi))
    · trivial
  · trivial

theorem State.inv_fetchA {s : State} {w : Nat} (hi : Inv s) : OptInv (s.fetchA w) := by
  unfold State.fetchA
  dsimp only
  split
  · trivial
  split
  · split
    · trivial
    split
    · trivial
    · exact hi
  · trivial

theorem State.inv_matrixNow {s : State} {w : Nat} {p : MatKind → Bool} (hi : Inv s) : OptInv (s.matrixNow w p) := by
  unfold State.matrixNow
  split
  · dsimp only
    split
    · split
      · exact State.inv_runMatrix hi
      · trivial
    split
    · exact State.inv_runMatrix hi
    · trivial
  · trivial

theorem State.inv_matrixFails {s : State} {w : Nat} (hi : Inv s) : OptInv (s.matrixFails w) := by
  unfold State.matrixFails
  split
  · exact optInv_map (fun _ => State.inv_failMatrix hi)
  · trivial

theorem State.inv_gatherWalkNow {s : State} {id : Nat} (hi : Inv s) : OptInv (s.gatherWalkNow id) := by
  unfold State.gatherWalkNow
  split
  · split
    · split
      · trivial
      split
      · exact State.inv_walked hi
      · trivial
    · trivial
  · trivial

theorem State.inv_gatherDeliver {s : State} {id : Nat} {o : EngOp} {v : Bool} {g : Gather} {j : Nat} (hi : Inv s) :
    OptInv (s.gatherDeliver id o v g j) := by
  unfold State.gatherDeliver
  dsimp only
  split
  · exact State.inv_failIf (State.inv_deliverPage (State.inv_reread hi))
  · trivial

theorem State.inv_pageNow {s : State} {id page : Nat} (hi : Inv s) : OptInv (s.pageNow id page) := by
  unfold State.pageNow
  split
  · split
    · split
      · exact State.inv_gatherDeliver hi
      · trivial
    · trivial
  · trivial

theorem State.inv_returnNow {s : State} {id : Nat} (hi : Inv s) : OptInv (s.returnNow id) := by
  unfold State.returnNow
  split
  · split
    · split
      · split
        · trivial
        · exact State.inv_gatherDeliver hi
      · trivial
    · trivial
  · trivial

theorem State.inv_appendNow {s : State} {id : Nat} (hi : Inv s) : OptInv (s.appendNow id) := by
  unfold State.appendNow
  split
  · split
    · split
      · trivial
      split
      next h =>
        exact State.inv_trapWaiters (State.inv_finishOp (inv_of_ok h (State.inv_runAppend hi)))
      · trivial
    · trivial
  · trivial

theorem State.inv_mergeNow {s : State} {id : Nat} (hi : Inv s) : OptInv (s.mergeNow id) := by
  unfold State.mergeNow
  split
  · split
    · split
      next h =>
        exact State.inv_trapWaiters (State.inv_finishOp (inv_of_ok_fst h (State.inv_runMerge hi)))
      next h1 =>
        exact State.inv_failIf (inv_of_ok_fst h1 (State.inv_runMerge hi))
      · trivial
    · trivial
  · trivial

theorem State.inv_dropReq {s : State} {part : Nat} {r : PageReq} (hi : Inv s) : Inv (s.dropReq part r) := hi

theorem State.inv_refusePage {s : State} {part : Nat} {r : PageReq} (hi : Inv s) : Inv (s.refusePage part r) := by
  unfold State.refusePage
  dsimp only
  split
  · split <;> exact hi
  · exact hi

theorem State.inv_pageMove {s : State} {part : Nat} {r : PageReq} {w : Word} (hi : Inv s) :
    OptInv (s.pageMove part r w) := by
  have hp (t : State) (ht : Inv t) : OptInv (match t.kvPool (pagerVia part) r.pool with
      | .error _ => none
      | .ok q => t.pageInMove part q r w) := by
    split
    · trivial
    · exact State.inv_pageInMove ht
  unfold State.pageMove
  split
  · trivial
  next p _ =>
    split
    · trivial
    · have hd : OptInv (if p.free = 0 then s.demoteOne part p else some s) := by
        split
        · exact State.inv_demoteOne hi
        · exact hi
      cases h : (if p.free = 0 then s.demoteOne part p else some s) with
      | none => trivial
      | some t => exact hp t (inv_of_some h hd)

theorem State.inv_pageIn {s : State} {part : Nat} {r : PageReq} (hi : Inv s) : Inv (s.pageIn part r) := by
  unfold State.pageIn
  split
  · exact State.inv_refusePage hi
  split
  · exact hi
  split
  next h =>
    exact State.inv_dropReq (inv_of_some h (State.inv_pageMove hi))
  · exact State.inv_refusePage hi

theorem State.inv_dropDemote {s : State} {part : Nat} {pool : DWord} (hi : Inv s) : Inv (s.dropDemote part pool) := hi

theorem State.inv_demoteStep {s : State} {part : Nat} {pool : DWord} (hi : Inv s) : Inv (s.demoteStep part pool) := by
  unfold State.demoteStep
  split
  · exact hi
  split
  · exact hi
  split
  next h =>
    exact inv_ite (State.inv_dropDemote (inv_of_some h (State.inv_demoteOne hi))) (inv_of_some h (State.inv_demoteOne hi))
  · exact hi

theorem State.inv_endTurn {s : State} {core : Nat} (hi : Inv s) : Inv (s.endTurn core) := hi

theorem inv_execRendezvousComplete {blk inst : Nat} {s : State} (hi : Inv s) :
    OutcomeInv (execRendezvousComplete blk inst s) := by
  unfold execRendezvousComplete
  dsimp only
  split
  · exact inv_happens (State.inv_completeInst hi)
  · exact inv_notEnabled

theorem State.inv_clockTick {s : State} {core : Nat} (hi : Inv s) : Inv (s.clockTick core) := by
  unfold State.clockTick
  exact inv_ite hi (State.inv_killPending hi)

theorem State.inv_stall {s : State} {core : Nat} (hi : Inv s) : Inv (s.stall core) := hi

theorem State.inv_withRoom {s t : State} {w : Nat} (hi : Inv s) (ht : Inv t) : Inv (s.withRoom t w) := by
  unfold State.withRoom
  dsimp only
  split
  · exact ht
  · exact State.inv_stall hi

theorem State.inv_boundaryMove {s : State} {w : Nat} (hi : Inv s) : Inv (s.boundaryMove w) := by
  unfold State.boundaryMove
  exact State.inv_withRoom hi (State.inv_takeBoundary hi)

theorem State.inv_vectorMove {s : State} {w : Nat} (hi : Inv s) : Inv (s.vectorMove w) := by
  unfold State.vectorMove
  exact State.inv_withRoom hi (State.inv_vectorWarp hi)

theorem State.inv_ifFits {t : State} {part : Nat} (hi : Inv t) : OptInv (t.ifFits part) := by
  unfold State.ifFits
  split
  · exact hi
  · trivial

theorem State.inv_stopCore {s : State} {core : Nat} {cause : Cause} (hi : Inv s) : OptInv (s.stopCore core cause) := by
  unfold State.stopCore
  split
  · trivial
  dsimp only
  split
  · trivial
  · exact State.inv_updCore (State.inv_suspendAll (State.postRecord_wf _ _ _ _ _ hi))

theorem inv_execStringBalanceLost {core quarter : Nat} {s : State} (hi : Inv s) :
    OutcomeInv (execStringBalanceLost core quarter s) := by
  unfold execStringBalanceLost
  refine inv_happens ?_
  split
  · exact State.inv_stopCore hi
  · trivial

theorem inv_execThermalMigrate {core : Nat} {s : State} (hi : Inv s) : OutcomeInv (execThermalMigrate core s) := by
  unfold execThermalMigrate
  split
  · exact inv_happens (State.inv_ifFits (State.inv_preemptAll hi))
  · exact hi

theorem State.inv_retireStep {s : State} {u : Nat} (hi : Inv s) : OptInv (s.retireStep u) := by
  have h1 : Inv ((s.popNeed (s.block u).core).retireBlock u) := State.inv_retireBlock (State.inv_popNeed hi)
  have h2 : Inv (s.retireBlock u) := State.inv_retireBlock hi
  unfold State.retireStep
  dsimp only
  generalize (s.popNeed (s.block u).core).retireBlock u = t1 at h1 ⊢
  generalize s.retireBlock u = t2 at h2 ⊢
  split
  · trivial
  · split
    next h => exact State.inv_ifFits (inv_of_some h (State.inv_orphan hi))
    · split
      · exact State.inv_ifFits h1
      · split
        · exact State.inv_ifFits h2
        · split
          · trivial
          · exact State.inv_enterNeed hi

theorem State.inv_unmark {s : State} {part : Nat} (hi : Inv s) : Inv (s.unmark part) := by
  unfold State.unmark
  exact inv_foldl (fun _ _ h => h) hi

theorem State.inv_decideStep {s : State} {part : Nat} (hi : Inv s) : OptInv (s.decideStep part) := by
  unfold State.decideStep
  dsimp only
  split
  · trivial
  split
  · split
    · trivial
    · exact inv_foldl (fun _ _ h => h) hi
  split
  · exact State.inv_dispatch (State.inv_updPart (State.inv_unmark hi))
  · trivial

theorem inv_execDispatchDecision {part : Nat} {s : State} (hi : Inv s) : OutcomeInv (execDispatchDecision part s) := by
  unfold execDispatchDecision
  refine inv_happens ?_
  split
  · exact State.inv_decideStep hi
  · trivial

theorem inv_execDeadlineMissed {grid : Nat} {s : State} (hi : Inv s) : OutcomeInv (execDeadlineMissed grid s) := by
  unfold execDeadlineMissed
  split
  · exact inv_notEnabled
  · exact inv_when' (State.inv_setGrid (State.inv_taskRecord hi))

theorem State.inv_preemptRequest {s : State} {u reason : Nat} (hi : Inv s) : OptInv (s.preemptRequest u reason) := by
  unfold State.preemptRequest
  split
  · exact State.inv_ifFits (State.inv_preemptAll hi)
  split
  · exact hi
  · trivial

theorem inv_execPreempt {blk reason : Nat} {s : State} (hi : Inv s) : OutcomeInv (execPreempt blk reason s) := by
  unfold execPreempt
  refine inv_happens ?_
  split
  · exact State.inv_preemptRequest hi
  · trivial

theorem State.inv_trapDeadlock {s : State} {d : List WaitNode} {u : Nat} {cyc : Bool} (hi : Inv s) :
    Inv (s.trapDeadlock d u cyc) := by
  unfold State.trapDeadlock
  split
  · exact hi
  · exact State.inv_takeException (State.inv_updCore (State.inv_updBlock (inv_foldl (fun _ _ h => h) hi)))

theorem State.inv_trapHits {s : State} {part : Nat} {d : List WaitNode} {hit : List Nat} (hi : Inv s) :
    Inv (s.trapHits part d hit) := by
  unfold State.trapHits
  exact inv_foldl (fun _ _ h => State.inv_retest h) (inv_foldl (fun _ _ h => State.inv_trapDeadlock h)
    (State.inv_deviceRecord hi))

theorem State.inv_sample {s : State} {part : Nat} (hi : Inv s) : Inv (s.sample part) := by
  unfold State.sample
  dsimp only
  generalize hs : s.refreshAll _ = u
  have hu : Inv u := hs ▸ State.inv_refreshAll hi
  refine inv_getD ?_ (State.inv_updPart hu)
  generalize hf : List.findSome? _ _ = o
  cases o with
  | none => trivial
  | some t =>
    obtain ⟨i, -, he⟩ := List.exists_of_findSome?_eq_some hf
    exact inv_of_some he (State.inv_ifFits (State.inv_trapHits (State.inv_updPart hu)))

theorem State.inv_poisonStorage {s : State} {array phys core w item : Nat} (hi : Inv s) :
    Inv (s.poisonStorage array phys core w item) := by
  unfold State.poisonStorage
  split
  · exact hi
  · exact hi
  · exact hi
  · exact hi
  · exact hi
  · dsimp only
    generalize (List.range 128).map _ = bs
    exact inv_of_mem (State.inv_putNow hi) rfl
  · exact hi

theorem State.inv_eccError {s : State} {array phys core w item : Nat} (hi : Inv s) :
    OptInv (s.eccError array phys core w item) := by
  unfold State.eccError
  split
  · trivial
  dsimp only
  split
  · exact State.inv_poisonStorage hi
  split
  · trivial
  split
  · exact State.inv_takeException (State.inv_poisonStorage hi)
  · exact State.inv_deviceRecord (State.inv_poisonStorage hi)

theorem State.inv_msix {s : State} {part vector : Nat} (hi : Inv s) : Inv (s.msix part vector) := hi

theorem State.inv_eventWrite {s : State} {part : Nat} {r : FaultRec} {who : Option Nat} (hi : Inv s) :
    Inv (s.eventWrite part r who) := hi

theorem State.inv_postEvent {s : State} {part : Nat} {r : FaultRec} {who : Option Nat} (hi : Inv s) :
    Inv (s.postEvent part r who) := by
  unfold State.postEvent
  exact inv_ite hi hi

theorem State.inv_flushEvents {s : State} {part n : Nat} (hi : Inv s) : Inv (s.flushEvents part n) := by
  induction n generalizing s with
  | zero => exact hi
  | succ n ih =>
    unfold State.flushEvents
    dsimp only
    split
    · exact hi
    · split
      · exact hi
      · exact ih (State.inv_eventWrite (State.inv_setPart hi))

theorem State.inv_freeEvents {s : State} {part : Nat} (hi : Inv s) : Inv (s.freeEvents part) := by
  unfold State.freeEvents
  exact State.inv_flushEvents hi

theorem State.inv_postEverywhere {s : State} {cause : Cause} (hi : Inv s) : Inv (s.postEverywhere cause) := by
  unfold State.postEverywhere
  exact inv_foldl (fun _ _ h => inv_ite (State.inv_postEvent h) (State.postRecord_wf _ _ _ _ _ h)) hi

theorem State.inv_handle {s : State} {part : Nat} {resolved : Bool} (hi : Inv s) : OptInv (s.handle part resolved) := by
  unfold State.handle
  dsimp only
  split
  · trivial
  split
  · trivial
  split
  · exact State.inv_flushHeld hi
  · exact inv_ite (State.inv_msix (State.inv_postEvent (State.inv_flushHeld hi))) (State.inv_postEvent (State.inv_flushHeld
      hi))

theorem State.inv_hostLinkError {s : State} {part agent detail : Nat} {addr : DWord} (hi : Inv s) :
    Inv (s.hostLinkError part agent detail addr) := by
  unfold State.hostLinkError
  exact State.inv_deviceRecord hi

theorem inv_execDoorbell {part ring : Nat} {tail : BitVec 32} {s : State} (hi : Inv s) :
    OutcomeInv (execDoorbell part ring tail s) := by
  unfold execDoorbell
  dsimp only
  split
  · exact inv_notEnabled
  split
  · exact hi
  split
  · exact inv_when' (State.inv_hostLinkError hi)
  · exact hi

theorem State.inv_nextHead {s : State} {part ring : Nat} (hi : Inv s) : Inv (s.nextHead part ring) := hi

theorem State.inv_skipPacket {s : State} {part ring detail : Nat} {addr : DWord} (hi : Inv s) :
    Inv (s.skipPacket part ring detail addr) := by
  unfold State.skipPacket
  exact State.inv_nextHead (State.inv_taskRecord hi)

theorem State.inv_freeObject {s : State} {part : Nat} {obj : DWord} (hi : Inv s) : Inv (s.freeObject part obj) := by
  unfold State.freeObject
  split
  · exact hi
  split
  · exact hi
  next h =>
    exact inv_ite (inv_of_ok_fst h (State.inv_touchObject hi)) (State.inv_taskRecord (inv_of_ok_fst h (State.inv_touchObject
      hi)))

theorem State.inv_packetLaunch {s : State} {part ring queue : Nat} {addr : DWord} (hi : Inv s) :
    OptInv (s.packetLaunch part ring queue addr) := by
  unfold State.packetLaunch
  split
  · exact State.inv_skipPacket hi
  dsimp only
  split
  · exact State.inv_skipPacket (State.inv_freeObject hi)
  split
  · trivial
  · exact State.inv_nextHead (State.inv_launch hi)

theorem State.inv_servePacket {s : State} {part ring : Nat} (hi : Inv s) : OptInv (s.servePacket part ring) := by
  unfold State.servePacket
  dsimp only
  split
  · trivial
  split
  · exact State.inv_hostLinkError hi
  · exact hi
  · exact State.inv_skipPacket hi
  · exact State.inv_packetLaunch hi
  · trivial

theorem inv_execHostPacketLaunch {part ring : Nat} {s : State} (hi : Inv s) :
    OutcomeInv (execHostPacketLaunch part ring s) :=
  inv_happens (optInv_bind fun _ h => State.inv_ifFits (inv_of_some h (State.inv_servePacket (State.inv_bump hi))))

theorem State.inv_packetWait {s : State} {part ring : Nat} (hi : Inv s) : OptInv (s.packetWait part ring) := by
  unfold State.packetWait
  split
  · split
    · split
      · exact hi
      · trivial
    · trivial
  · trivial

theorem State.inv_resumeSlot {s : State} {part : Nat} {value : Word} (hi : Inv s) : Inv (s.resumeSlot part value) := by
  unfold State.resumeSlot
  dsimp only
  split
  · exact State.inv_hostLinkError hi
  · exact State.inv_eret hi

theorem inv_execResume {part : Nat} {value : BitVec 32} {s : State} (hi : Inv s) : OutcomeInv (execResume part value s) := by
  unfold execResume
  dsimp only
  split
  · exact hi
  · exact inv_when' (State.inv_resumeSlot hi)

theorem State.inv_serveEvents {s : State} {part : Nat} (hi : Inv s) : Inv (s.serveEvents part) := by
  unfold State.serveEvents
  exact inv_ite (State.inv_freeEvents hi) hi

theorem State.inv_hostWrite {s : State} {part o : Nat} {v : Word} (hi : Inv s) : Inv (s.hostWrite part o v) := by
  unfold State.hostWrite
  exact inv_ite (inv_ite hi hi) (inv_ite hi (inv_ite (inv_ite (State.inv_serveEvents hi) hi) (inv_ite (inv_ite hi hi)
    (inv_ite hi hi))))

theorem State.inv_setWeight {s : State} {c : Nat} {v : Word} (hi : Inv s) : Inv (s.setWeight c v) := by
  unfold State.setWeight
  exact inv_ite hi hi

theorem inv_execHostRegisterWrite {part offset : Nat} {value : BitVec 32} {s : State} (hi : Inv s) :
    OutcomeInv (execHostRegisterWrite part offset value s) := by
  unfold execHostRegisterWrite
  split
  · exact State.inv_setWeight hi
  · exact inv_when' (State.inv_hostWrite hi)

theorem State.inv_heldResets {s : State} (hi : Inv s) : Inv s.heldResets := by
  unfold State.heldResets
  exact inv_foldl (fun _ _ h => h) hi

theorem State.inv_clearBlocks {s : State} {part : Nat} (hi : Inv s) : Inv (s.clearBlocks part) := by
  unfold State.clearBlocks
  exact inv_foldl (fun _ _ h => State.inv_removeBlock h) hi

theorem State.inv_clearGrids {s : State} {part : Nat} {had : List Nat} (hi : Inv s) : Inv (s.clearGrids part had) := by
  unfold State.clearGrids
  dsimp only
  generalize hs : had.foldl _ s = u
  have hu : Inv u := by
    rw [← hs]
    refine inv_foldl (fun t g ht => ?_) hi
    split
    · generalize hr : State.forget _ _ = r
      have h : Inv r := hr ▸ State.inv_forget (State.inv_signalObject (State.inv_tell ht))
      exact inv_ite (State.inv_msix h) h
    · exact ht
  exact inv_of_mem (inv_foldl (fun _ _ h => State.inv_forget h) hu) rfl

theorem State.inv_stileTrap {s : State} {n : Nat} {c : Cause} (hi : Inv s) : Inv (s.stileTrap n c) := by
  unfold State.stileTrap
  refine inv_foldl (fun t t1 h => ?_) hi
  dsimp only
  split
  · exact inv_getD (State.inv_finishWait h trivial) h
  · exact h

theorem State.inv_emptyStiles {s : State} {part : Nat} (hi : Inv s) : Inv (s.emptyStiles part) := by
  unfold State.emptyStiles
  refine inv_foldl (fun t t1 h => ?_) hi
  split
  · exact State.inv_stileTrap h
  · exact h

theorem State.inv_resetPart {s : State} {part : Nat} (hi : Inv s) : Inv (s.resetPart part) := by
  unfold State.resetPart
  dsimp only
  generalize hs : State.emptyStiles _ part = u
  have hu : Inv u := hs ▸ State.inv_emptyStiles (State.inv_clearGrids (State.inv_clearBlocks hi))
  exact State.inv_postEvent (State.inv_msix (State.inv_setPart (scrub_wf _ hu)))

theorem State.inv_setTakeover {s : State} {b : Bool} (hi : Inv s) : Inv (s.setTakeover b) :=
  inv_foldl (fun _ _ h => h) hi

/-- The phase of the firmware is no part of memory. -/
theorem inv_setFwPhase {s : State} {p : FwPhase} (hi : Inv s) : Inv { s with fwPhase := p } := hi

theorem State.inv_setDigest {s : State} {fw : Nat} {d : BitVec 512} (hi : Inv s) : Inv (s.setDigest fw d) := hi

theorem inv_execLiveUpdate {image : FwImage} {s : State} (hi : Inv s) : OutcomeInv (execLiveUpdate image s) :=
  inv_ite hi (inv_ite (State.inv_postEverywhere hi) (inv_ite hi (inv_setFwPhase (State.inv_setTakeover (State.inv_setDigest
    hi)))))

theorem State.inv_endTakeover {s : State} {cause : Cause} (hi : Inv s) : Inv (s.endTakeover cause) := by
  unfold State.endTakeover
  exact inv_foldl (fun _ _ h => State.inv_serveEvents h)
    (State.inv_heldResets (State.inv_postEverywhere (inv_setFwPhase (State.inv_setTakeover hi))))

theorem inv_execFirmwareTakeover {s : State} (hi : Inv s) : OutcomeInv (execFirmwareTakeover s) := by
  have h : Inv { s with activeFw := 1 - s.activeFw % 2 } := hi
  exact inv_when' (State.inv_endTakeover h)

theorem inv_execFirmwareRollback {s : State} (hi : Inv s) : OutcomeInv (execFirmwareRollback s) :=
  inv_when' (State.inv_endTakeover hi)

theorem inv_execWatchdog {s : State} (hi : Inv s) : OutcomeInv (execWatchdog s) :=
  inv_when' (inv_setFwPhase (State.inv_setTakeover (State.inv_postEverywhere hi)))

theorem State.inv_restart {s : State} {keep : Bool} {fw : Nat} : Inv (s.restart keep fw) := rfl

theorem State.inv_startFailed {s : State} {keep : Bool} {fw : Nat} : Inv (s.startFailed keep fw) := rfl

theorem State.inv_boot {s : State} {keep : Bool} {fw : Nat} {i : FwImage} : Inv (s.boot keep fw i) := by
  unfold State.boot
  exact inv_ite State.inv_restart State.inv_startFailed

theorem inv_execFailedStart {retry other : FwImage} {s : State} : OutcomeInv (execFailedStart retry other s) :=
  inv_when' (inv_ite State.inv_restart (inv_ite State.inv_restart (inv_setFwPhase State.inv_restart)))

theorem State.inv_linkEvent {s : State} {peer part : Nat} (hi : Inv s) : Inv (s.linkEvent peer part) := by
  unfold State.linkEvent
  exact inv_ite hi (State.inv_deviceRecord hi)

theorem inv_execLinkDown {peer : Nat} {s : State} (hi : Inv s) : OutcomeInv (execLinkDown peer s) := by
  unfold execLinkDown
  dsimp only
  generalize hs : s.configured.foldl _ s = t
  have ht : Inv t := hs ▸ inv_foldl (fun _ _ h => State.inv_linkEvent h) hi
  exact inv_when' (inv_ite hi ht)

theorem State.inv_peerTimeout {s : State} {k : PeerWork} (hi : Inv s) : OptInv (s.peerTimeout k) := by
  unfold State.peerTimeout
  split
  · refine optInv_bind fun o _ => ?_
    split
    · split
      · exact State.inv_trapWaiters (State.inv_opFails hi)
      · trivial
    · trivial
  · split
    · split
      · trivial
      · exact hi
    · trivial
  · split
    · split
      · trivial
      · exact State.inv_updWarp (State.inv_performed hi)
    · trivial

theorem State.inv_hostTimeout {s : State} {part : Nat} {op : Option Nat} (hi : Inv s) : OptInv (s.hostTimeout part op) := by
  unfold State.hostTimeout
  split
  · exact optInv_map (fun _ => State.inv_trapWaiters (State.inv_opFails hi))
  split
  · exact State.inv_deviceRecord hi
  · trivial

theorem State.inv_answer {s : State} {o : Output} (hi : Inv s) : Inv (s.answer o) := hi

theorem State.inv_peerAccess {s : State} {k : PeerAccess} (hi : Inv s) : OptInv (s.peerAccess k) := by
  unfold State.peerAccess
  split
  · dsimp only
    split
    · trivial
    · exact hi
  · split
    · exact State.inv_putNow hi
    · trivial
  dsimp only
  split
  · split
    · trivial
    split
    · exact hi
    · exact State.inv_answer (State.inv_putNow hi)
  split
  · trivial
  split
  · exact hi
  · exact State.inv_answer (State.inv_putNow hi)

theorem State.inv_latch {s : State} {w i : Nat} (hi : Inv s) : Inv (s.latch w i) := by
  unfold State.latch
  exact inv_ite hi (inv_ite hi hi)

theorem inv_opSrd {h : Hdr} {u : Upper} {a : Actor} {s : State} (hi : Inv s) : ResInv (opSrd h u a s) := by
  unfold opSrd
  split
  · dsimp only
    split
    · trivial
    split
    · trivial
    split
    · exact hi
    · split <;> exact State.inv_updWarp (State.inv_latch hi)
  · exact hi

theorem inv_opSwr {u : Upper} {a : Actor} {s : State} (hi : Inv s) : ResInv (opSwr u a s) := by
  unfold opSwr
  split
  · dsimp only
    split
    · trivial
    split
    · trivial
    · exact hi
  · exact hi

theorem inv_opLdi {h : Hdr} {u : Upper} {a : Actor} {s : State} (hi : Inv s) : ResInv (opLdi h u a s) := by
  unfold opLdi
  split
  · exact inv_lanewise hi
  · exact hi

end Sys2Proof.Machine
end

section
/-! PROOF. Every step keeps memory canonical (log 3). -/

namespace Sys2Proof.Machine

theorem inv_exec {i : Instr} {s : State} (hi : Inv s) : OutcomeInv (exec i s) := by
  cases i with
  | nop _ _ => exact inv_issue (fun _ _ h2 => inv_opNop h2) hi
  | bra _ _ => exact inv_issue (fun _ _ h2 => inv_opBra h2) hi
  | brx _ _ => exact inv_issue (fun _ _ h2 => inv_opBrx h2) hi
  | call _ _ => exact inv_issue (fun _ _ h2 => inv_opCall h2) hi
  | callx _ _ => exact inv_issue (fun _ _ h2 => inv_opCallx h2) hi
  | ret _ _ => exact inv_issue (fun _ _ h2 => inv_opRet h2) hi
  | rpush _ _ => exact inv_issue (fun _ _ h2 => inv_opRpush h2) hi
  | rjoin _ _ => exact inv_issue (fun _ _ h2 => inv_opRjoin h2) hi
  | exit _ _ => exact inv_issue (fun _ _ h2 => inv_opExit h2) hi
  | yield _ _ => exact inv_issue (fun _ _ h2 => inv_opYield h2) hi
  | trap _ _ => exact inv_issue (fun _ _ h2 => inv_opTrap h2) hi
  | bpt _ _ => exact inv_issue (fun _ _ h2 => inv_opBpt h2) hi
  | reti _ _ => exact inv_issue (fun _ _ h2 => inv_opReti h2) hi
  | icmpp _ _ => exact inv_issue (fun _ _ h2 => inv_opIcmpp h2) hi
  | fcmpp _ _ => exact inv_issue (fun _ _ h2 => inv_opFcmpp h2) hi
  | pbool _ _ => exact inv_issue (fun _ _ h2 => inv_opPbool h2) hi
  | pmov _ _ => exact inv_issue (fun _ _ h2 => inv_opPmov h2) hi
  | pcnt _ _ => exact inv_issue (fun _ _ h2 => inv_opPcnt h2) hi
  | pfirst _ _ => exact inv_issue (fun _ _ h2 => inv_opPfirst h2) hi
  | pqry _ _ => exact inv_issue (fun _ _ h2 => inv_opPqry h2) hi
  | mov _ _ => exact inv_issue (fun _ _ h2 => inv_opInt h2) hi
  | iadd _ _ => exact inv_issue (fun _ _ h2 => inv_opInt h2) hi
  | isub _ _ => exact inv_issue (fun _ _ h2 => inv_opInt h2) hi
  | imul _ _ => exact inv_issue (fun _ _ h2 => inv_opInt h2) hi
  | imulhi _ _ => exact inv_issue (fun _ _ h2 => inv_opInt h2) hi
  | imad _ _ => exact inv_issue (fun _ _ h2 => inv_opInt h2) hi
  | imin _ _ => exact inv_issue (fun _ _ h2 => inv_opInt h2) hi
  | imax _ _ => exact inv_issue (fun _ _ h2 => inv_opInt h2) hi
  | iabs _ _ => exact inv_issue (fun _ _ h2 => inv_opInt h2) hi
  | and _ _ => exact inv_issue (fun _ _ h2 => inv_opInt h2) hi
  | or _ _ => exact inv_issue (fun _ _ h2 => inv_opInt h2) hi
  | xor _ _ => exact inv_issue (fun _ _ h2 => inv_opInt h2) hi
  | not _ _ => exact inv_issue (fun _ _ h2 => inv_opInt h2) hi
  | shl _ _ => exact inv_issue (fun _ _ h2 => inv_opInt h2) hi
  | shr _ _ => exact inv_issue (fun _ _ h2 => inv_opInt h2) hi
  | sar _ _ => exact inv_issue (fun _ _ h2 => inv_opInt h2) hi
  | rotl _ _ => exact inv_issue (fun _ _ h2 => inv_opInt h2) hi
  | popc _ _ => exact inv_issue (fun _ _ h2 => inv_opInt h2) hi
  | clz _ _ => exact inv_issue (fun _ _ h2 => inv_opInt h2) hi
  | brev _ _ => exact inv_issue (fun _ _ h2 => inv_opInt h2) hi
  | bfx _ _ => exact inv_issue (fun _ _ h2 => inv_opInt h2) hi
  | bfi _ _ => exact inv_issue (fun _ _ h2 => inv_opInt h2) hi
  | sel _ _ => exact inv_issue (fun _ _ h2 => inv_opInt h2) hi
  | lea _ _ => exact inv_issue (fun _ _ h2 => inv_opInt h2) hi
  | fadd _ _ => exact inv_issue (fun _ _ h2 => inv_opFp h2) hi
  | fsub _ _ => exact inv_issue (fun _ _ h2 => inv_opFp h2) hi
  | fmul _ _ => exact inv_issue (fun _ _ h2 => inv_opFp h2) hi
  | ffma _ _ => exact inv_issue (fun _ _ h2 => inv_opFp h2) hi
  | fmin _ _ => exact inv_issue (fun _ _ h2 => inv_opFp h2) hi
  | fmax _ _ => exact inv_issue (fun _ _ h2 => inv_opFp h2) hi
  | frcp _ _ => exact inv_issue (fun _ _ h2 => inv_opFp h2) hi
  | fdiv _ _ => exact inv_issue (fun _ _ h2 => inv_opFp h2) hi
  | fsqrt _ _ => exact inv_issue (fun _ _ h2 => inv_opFp h2) hi
  | frsq _ _ => exact inv_issue (fun _ _ h2 => inv_opFp h2) hi
  | fex2 _ _ => exact inv_issue (fun _ _ h2 => inv_opFp h2) hi
  | flg2 _ _ => exact inv_issue (fun _ _ h2 => inv_opFp h2) hi
  | fsin _ _ => exact inv_issue (fun _ _ h2 => inv_opFp h2) hi
  | fcos _ _ => exact inv_issue (fun _ _ h2 => inv_opFp h2) hi
  | fscale _ _ => exact inv_issue (fun _ _ h2 => inv_opFp h2) hi
  | fclass _ _ => exact inv_issue (fun _ _ h2 => inv_opFp h2) hi
  | movL _ => exact inv_issue (fun _ _ h => inv_opIntShort h) hi
  | iaddL _ => exact inv_issue (fun _ _ h => inv_opIntShort h) hi
  | isubL _ => exact inv_issue (fun _ _ h => inv_opIntShort h) hi
  | imulL _ => exact inv_issue (fun _ _ h => inv_opIntShort h) hi
  | imulhiL _ => exact inv_issue (fun _ _ h => inv_opIntShort h) hi
  | imadL _ => exact inv_issue (fun _ _ h => inv_opIntShort h) hi
  | iminL _ => exact inv_issue (fun _ _ h => inv_opIntShort h) hi
  | imaxL _ => exact inv_issue (fun _ _ h => inv_opIntShort h) hi
  | iabsL _ => exact inv_issue (fun _ _ h => inv_opIntShort h) hi
  | andL _ => exact inv_issue (fun _ _ h => inv_opIntShort h) hi
  | orL _ => exact inv_issue (fun _ _ h => inv_opIntShort h) hi
  | xorL _ => exact inv_issue (fun _ _ h => inv_opIntShort h) hi
  | notL _ => exact inv_issue (fun _ _ h => inv_opIntShort h) hi
  | shlL _ => exact inv_issue (fun _ _ h => inv_opIntShort h) hi
  | shrL _ => exact inv_issue (fun _ _ h => inv_opIntShort h) hi
  | sarL _ => exact inv_issue (fun _ _ h => inv_opIntShort h) hi
  | rotlL _ => exact inv_issue (fun _ _ h => inv_opIntShort h) hi
  | popcL _ => exact inv_issue (fun _ _ h => inv_opIntShort h) hi
  | clzL _ => exact inv_issue (fun _ _ h => inv_opIntShort h) hi
  | brevL _ => exact inv_issue (fun _ _ h => inv_opIntShort h) hi
  | bfxL _ => exact inv_issue (fun _ _ h => inv_opIntShort h) hi
  | bfiL _ => exact inv_issue (fun _ _ h => inv_opIntShort h) hi
  | selL _ => exact inv_issue (fun _ _ h => inv_opIntShort h) hi
  | leaL _ => exact inv_issue (fun _ _ h => inv_opIntShort h) hi
  | faddL _ => exact inv_issue (fun _ _ h => inv_opFpShort h) hi
  | fsubL _ => exact inv_issue (fun _ _ h => inv_opFpShort h) hi
  | fmulL _ => exact inv_issue (fun _ _ h => inv_opFpShort h) hi
  | ffmaL _ => exact inv_issue (fun _ _ h => inv_opFpShort h) hi
  | fminL _ => exact inv_issue (fun _ _ h => inv_opFpShort h) hi
  | fmaxL _ => exact inv_issue (fun _ _ h => inv_opFpShort h) hi
  | frcpL _ => exact inv_issue (fun _ _ h => inv_opFpShort h) hi
  | fdivL _ => exact inv_issue (fun _ _ h => inv_opFpShort h) hi
  | fsqrtL _ => exact inv_issue (fun _ _ h => inv_opFpShort h) hi
  | frsqL _ => exact inv_issue (fun _ _ h => inv_opFpShort h) hi
  | fex2L _ => exact inv_issue (fun _ _ h => inv_opFpShort h) hi
  | flg2L _ => exact inv_issue (fun _ _ h => inv_opFpShort h) hi
  | fsinL _ => exact inv_issue (fun _ _ h => inv_opFpShort h) hi
  | fcosL _ => exact inv_issue (fun _ _ h => inv_opFpShort h) hi
  | fscaleL _ => exact inv_issue (fun _ _ h => inv_opFpShort h) hi
  | fclassL _ => exact inv_issue (fun _ _ h => inv_opFpShort h) hi
  | movi _ => exact inv_issue (fun _ _ h => inv_opIntShort h) hi
  | movhi _ => exact inv_issue (fun _ _ h => inv_opMovhi h) hi
  | iaddi _ => exact inv_issue (fun _ _ h => inv_opIntShort h) hi
  | andi _ => exact inv_issue (fun _ _ h => inv_opIntShort h) hi
  | ori _ => exact inv_issue (fun _ _ h => inv_opIntShort h) hi
  | xori _ => exact inv_issue (fun _ _ h => inv_opIntShort h) hi
  | shli _ => exact inv_issue (fun _ _ h => inv_opIntShort h) hi
  | shri _ => exact inv_issue (fun _ _ h => inv_opIntShort h) hi
  | sari _ => exact inv_issue (fun _ _ h => inv_opIntShort h) hi
  | rep _ _ => exact inv_issue (fun _ _ h => inv_opRep h) hi
  | movS16 _ => exact inv_issue (fun _ _ h => inv_opIntShort h) hi
  | iaddS16 _ => exact inv_issue (fun _ _ h => inv_opIntShort h) hi
  | isubS16 _ => exact inv_issue (fun _ _ h => inv_opIntShort h) hi
  | imulS16 _ => exact inv_issue (fun _ _ h => inv_opIntShort h) hi
  | andS16 _ => exact inv_issue (fun _ _ h => inv_opIntShort h) hi
  | orS16 _ => exact inv_issue (fun _ _ h => inv_opIntShort h) hi
  | xorS16 _ => exact inv_issue (fun _ _ h => inv_opIntShort h) hi
  | shlS16 _ => exact inv_issue (fun _ _ h => inv_opIntShort h) hi
  | shrS16 _ => exact inv_issue (fun _ _ h => inv_opIntShort h) hi
  | sarS16 _ => exact inv_issue (fun _ _ h => inv_opIntShort h) hi
  | faddS16 _ => exact inv_issue (fun _ _ h => inv_opFpShort h) hi
  | fsubS16 _ => exact inv_issue (fun _ _ h => inv_opFpShort h) hi
  | fmulS16 _ => exact inv_issue (fun _ _ h => inv_opFpShort h) hi
  | fminS16 _ => exact inv_issue (fun _ _ h => inv_opFpShort h) hi
  | fmaxS16 _ => exact inv_issue (fun _ _ h => inv_opFpShort h) hi
  | iminS16 _ => exact inv_issue (fun _ _ h => inv_opIntShort h) hi
  | dwadd _ _ => exact inv_issue (fun _ _ h2 => inv_opDw h2) hi
  | dwsub _ _ => exact inv_issue (fun _ _ h2 => inv_opDw h2) hi
  | dwmul _ _ => exact inv_issue (fun _ _ h2 => inv_opDw h2) hi
  | dwnorm _ _ => exact inv_issue (fun _ _ h2 => inv_opDw h2) hi
  | dwcvt _ _ => exact inv_issue (fun _ _ h2 => inv_opDwcvt h2) hi
  | shfl _ _ => exact inv_issue (fun _ _ h2 => inv_opShuffle h2) hi
  | shflx _ _ => exact inv_issue (fun _ _ h2 => inv_opShuffle h2) hi
  | rfirst _ _ => exact inv_issue (fun _ _ h2 => inv_opRfirst h2) hi
  | rlane _ _ => exact inv_issue (fun _ _ h2 => inv_opRlane h2) hi
  | wlane _ _ => exact inv_issue (fun _ _ h2 => inv_opWlane h2) hi
  | redstep _ _ => exact inv_issue (fun _ _ h2 => inv_opRedstep h2) hi
  | red _ _ => exact inv_issue (fun _ _ h2 => inv_opRed h2) hi
  | redcmp _ _ => exact inv_issue (fun _ _ h2 => inv_opRedcmp h2) hi
  | scan _ _ => exact inv_issue (fun _ _ h2 => inv_opScan h2) hi
  | trn _ _ => exact inv_issue (fun _ _ h2 => inv_opTrn h2) hi
  | cvt _ _ => exact inv_issue (fun _ _ h2 => inv_opCvt h2) hi
  | qblk _ _ => exact inv_issue (fun _ _ h2 => inv_opQblk h2) hi
  | dq _ _ => exact inv_issue (fun _ _ h2 => inv_opDq h2) hi
  | packh _ _ => exact inv_issue (fun _ _ h2 => inv_opPackh h2) hi
  | unpackh _ _ => exact inv_issue (fun _ _ h2 => inv_opUnpackh h2) hi
  | srd _ _ => exact inv_issue (fun _ _ h2 => inv_opSrd h2) hi
  | swr _ _ => exact inv_issue (fun _ _ h2 => inv_opSwr h2) hi
  | ldi _ _ => exact inv_issue (fun _ _ h2 => inv_opLdi h2) hi
  | ld _ _ => exact inv_issue (fun _ _ h2 => inv_opLoad h2) hi
  | st _ _ => exact inv_issue (fun _ _ h2 => inv_opStore h2) hi
  | lds _ _ => exact inv_issue (fun _ _ h2 => inv_opLoad h2) hi
  | sts _ _ => exact inv_issue (fun _ _ h2 => inv_opStore h2) hi
  | ldf _ _ => exact inv_issue (fun _ _ h2 => inv_opLoad h2) hi
  | stf _ _ => exact inv_issue (fun _ _ h2 => inv_opStore h2) hi
  | atom _ _ => exact inv_issue (fun _ _ h2 => inv_opAtomic h2) hi
  | atoms _ _ => exact inv_issue (fun _ _ h2 => inv_opAtomic h2) hi
  | fence _ _ => exact inv_issue (fun _ _ h2 => inv_opFence h2) hi
  | pref _ _ => exact inv_issue (fun _ _ h2 => inv_opPref h2) hi
  | ldrec _ _ => exact inv_issue (fun _ _ h2 => inv_opLdrec h2) hi
  | strec _ _ => exact inv_issue (fun _ _ h2 => inv_opStrec h2) hi
  | barinit _ _ => exact inv_issue (fun _ _ h2 => inv_opBarinit h2) hi
  | bararr _ _ => exact inv_issue (fun _ _ h2 => inv_opBararr h2) hi
  | barwait _ _ => exact inv_issue (fun _ _ h2 => inv_opBarwait h2) hi
  | bartest _ _ => exact inv_issue (fun _ _ h2 => inv_opBartest h2) hi
  | barexp _ _ => exact inv_issue (fun _ _ h2 => inv_opBarexp h2) hi
  | waitf _ _ => exact inv_issue (fun _ _ h2 => inv_opWaitf h2) hi
  | waitc _ _ => exact inv_issueWith (fun _ _ h2 => inv_gateWaitc h2) (fun _ _ h2 => inv_opWaitc h2) hi
  | waitt _ _ => exact inv_issue (fun _ _ h2 => inv_opWaitt h2) hi
  | tlarm _ _ => exact inv_issue (fun _ _ h2 => inv_opTlarm h2) hi
  | tlrd _ _ => exact inv_issue (fun _ _ h2 => inv_opTlrd h2) hi
  | flagrd _ _ => exact inv_issueWith (fun _ _ h2 => inv_gateFlagrd h2) (fun _ _ h2 => inv_opFlagrd h2) hi
  | lcopy _ _ => exact inv_issue (fun _ _ h2 => inv_opLcopy h2) hi
  | bseal _ _ => exact inv_issue (fun _ _ h2 => inv_pollBseal h2) hi
  | bwaitn _ _ => exact inv_issue (fun _ _ h2 => inv_pollBwaitn h2) hi
  | bwaits _ _ => exact inv_issue (fun _ _ h2 => inv_opBwaits h2) hi
  | btest _ _ => exact inv_issue (fun _ _ h2 => inv_opBtest h2) hi
  | tdef _ _ => exact inv_issue (fun _ _ h2 => inv_opTdef h2) hi
  | tload _ _ => exact inv_issue (fun _ _ h2 => inv_opTile h2) hi
  | tstore _ _ => exact inv_issue (fun _ _ h2 => inv_opTile h2) hi
  | tmcast _ _ => exact inv_issue (fun _ _ h2 => inv_opTile h2) hi
  | tred _ _ => exact inv_issue (fun _ _ h2 => inv_opTile h2) hi
  | tpeer _ _ => exact inv_issue (fun _ _ h2 => inv_opTile h2) hi
  | omap _ _ => exact inv_issue (fun _ _ h2 => inv_opOmap h2) hi
  | wbload _ _ => exact inv_issue (fun _ _ h2 => inv_opWbload h2) hi
  | mma _ _ => exact inv_issue (fun _ _ h2 => inv_opMma h2) hi
  | accz _ _ => exact inv_issue (fun _ _ h2 => inv_opAccz h2) hi
  | accld _ _ => exact inv_issue (fun _ _ h2 => inv_opAccld h2) hi
  | accdrain _ _ => exact inv_issue (fun _ _ h2 => inv_opAccdrain h2) hi
  | kvwalk _ _ => exact inv_issue (fun _ _ h2 => inv_opKvwalk h2) hi
  | kvgather _ _ => exact inv_issue (fun _ _ h2 => inv_opKvIssue (fun _ _ => State.inv_gatherCheck) h2) hi
  | kvappend _ _ => exact inv_issue (fun _ _ h2 => inv_opKvIssue (fun _ _ => inv_appendCheck) h2) hi
  | kvtrunc _ _ => exact inv_issue (fun _ _ h2 => inv_opKvtrunc h2) hi
  | kvfork _ _ => exact inv_issue (fun _ _ h2 => inv_opKvfork h2) hi
  | smerge _ _ => exact inv_issue (fun _ _ h2 => inv_opKvIssue (fun _ _ => State.inv_mergeCheck) h2) hi
  | acq _ _ => exact inv_issue (fun _ _ h2 => inv_opAcq h2) hi
  | acqt _ _ => exact inv_issue (fun _ _ h2 => inv_opAcq h2) hi
  | rel _ _ => exact inv_issue (fun _ _ h2 => inv_opRel h2) hi
  | claimq _ _ => exact inv_issue (fun _ _ h2 => inv_opClaimq h2) hi
  | fjoin _ _ => exact inv_issue (fun _ _ h2 => inv_opFjoin h2) hi
  | fleave _ _ => exact inv_issue (fun _ _ h2 => inv_pollFleave h2) hi
  | flockset _ _ => exact inv_issue (fun _ _ h2 => inv_opFlockset h2) hi
  | launch _ _ => exact inv_issue (fun _ _ h2 => inv_opLaunch h2) hi
  | spawn _ _ => exact inv_issue (fun _ _ h2 => inv_opSpawn h2) hi
  | tdep _ _ => exact inv_issue (fun _ _ h2 => inv_opTdep h2) hi
  | tcancel _ _ => exact inv_issue (fun _ _ h2 => inv_opTcancel h2) hi
  | sliceyield _ _ => exact inv_issue (fun _ _ h2 => inv_opSliceyield h2) hi
  | region _ _ => exact inv_issue (fun _ _ h2 => inv_opRegion h2) hi
  | regionend _ _ => exact inv_issue (fun _ _ h2 => inv_opRegionend h2) hi
  | stenq _ _ => exact inv_issue (fun _ _ h2 => inv_opStenq h2) hi
  | stdeq _ _ => exact inv_issue (fun _ _ h2 => inv_opStdeq h2) hi
  | ovfld _ _ => exact inv_issue (fun _ _ h2 => inv_opOvfld h2) hi
  | tlbinv _ _ => exact inv_issue (fun _ _ h2 => inv_opTlbinv h2) hi
  | ctxsave _ _ => exact inv_issue (fun _ _ h2 => inv_opCtxsave h2) hi
  | ctxload _ _ => exact inv_issue (fun _ _ h2 => inv_opCtxload h2) hi
  | qdestroy _ _ => exact inv_issue (fun _ _ h2 => inv_opQdestroy h2) hi
  | swrp _ _ => exact inv_issue (fun _ _ h2 => inv_opSwrp h2) hi
  | halt _ _ => exact inv_issue (fun _ _ h2 => inv_opHalt h2) hi
  | eret _ _ => exact inv_issue (fun _ _ h2 => inv_opEret h2) hi
  | fillerIssue _ _ => exact inv_when' hi
  | throttleEntry _ => exact inv_when' (State.inv_clockTick hi)
  | throttleExit _ => exact inv_when' (State.inv_clockTick hi)
  | stringBalanceLost _ _ => exact inv_execStringBalanceLost hi
  | powerInterval _ _ _ => exact inv_when' (inv_foldl (fun _ _ h => h) hi)
  | operatingPointChange _ => exact inv_when' hi
  | yieldExpiry _ => exact inv_when' hi
  | thermalMigrate _ => exact inv_execThermalMigrate hi
  | thermalTrip _ => exact inv_happens (State.inv_stopCore hi)
  | railUndervolt _ => exact inv_happens (State.inv_stopCore hi)
  | railOvercurrent _ => exact inv_happens (State.inv_stopCore hi)
  | coreUngate _ => exact inv_when' hi
  | powerGate _ => exact inv_when' hi
  | loadDataReturn _ _ => exact inv_execLoadDataReturn hi
  | storePerformed _ _ => exact inv_execStorePerformed hi
  | shepherdTest _ => exact inv_happens (State.inv_shepherdTest hi)
  | rendezvousComplete _ _ => exact inv_execRendezvousComplete hi
  | handlerVector _ => exact inv_when' (State.inv_vectorWarp hi)
  | waitcResume _ => exact inv_execWaitcResume hi
  | barwaitResume _ => exact inv_happens (State.inv_resumeWait hi)
  | waitfResume _ => exact inv_happens (State.inv_resumeWait hi)
  | waittResume _ => exact inv_happens (State.inv_resumeWait hi)
  | batchWaitResume _ => exact inv_happens (State.inv_resumeWait hi)
  | bsealResume _ => exact inv_happens (State.inv_resumeWait hi)
  | relResume _ => exact inv_happens (State.inv_resumeWait hi)
  | fleaveResume _ => exact inv_happens (State.inv_resumeWait hi)
  | fjoinResume _ => exact inv_happens (State.inv_resumeWait hi)
  | flagrdResume _ => exact inv_execFlagrdResume hi
  | stdeqResume _ => exact inv_happens (State.inv_resumeWait hi)
  | stenqResume _ => exact inv_happens (State.inv_resumeWait hi)
  | launchQueueResume _ => exact inv_happens (State.inv_resumeWait hi)
  | lcopyTransferDone _ => exact inv_happens (State.inv_performNow hi)
  | engineAsyncFault _ => exact inv_happens (State.inv_failNow hi)
  | engineReplay _ => exact inv_happens (State.inv_replayNow hi)
  | tileAccept _ => exact inv_happens (State.inv_acceptTile hi)
  | tileOpComplete _ => exact inv_happens (State.inv_completeTile hi)
  | tmcastDelivery _ _ => exact inv_happens (State.inv_deliverCast hi)
  | mmaAFetch _ => exact inv_happens (State.inv_fetchA hi)
  | wbloadFillDone _ => exact inv_happens (State.inv_matrixNow hi)
  | mmaComplete _ => exact inv_happens (State.inv_matrixNow hi)
  | acczAccldComplete _ => exact inv_happens (State.inv_matrixNow hi)
  | accdrainComplete _ => exact inv_happens (State.inv_matrixNow hi)
  | matrixLateFault _ => exact inv_happens (State.inv_matrixFails hi)
  | kvgatherWalk _ => exact inv_happens (State.inv_gatherWalkNow hi)
  | kvPageDelivery _ _ => exact inv_happens (State.inv_pageNow hi)
  | kvReturnPass _ => exact inv_happens (State.inv_returnNow hi)
  | kvappendStep _ => exact inv_happens (State.inv_appendNow hi)
  | smergeComplete _ => exact inv_happens (State.inv_mergeNow hi)
  | pagerPageIn _ _ => exact inv_happens (optInv_map (fun _ => State.inv_pageIn hi))
  | pagerDemotion _ _ => exact inv_happens (optInv_map (fun _ => State.inv_demoteStep hi))
  | dispatchDecision _ => exact inv_execDispatchDecision hi
  | blockRetire _ => exact inv_happens (State.inv_retireStep hi)
  | deadlineMissed _ => exact inv_execDeadlineMissed hi
  | budgetExhausted _ => exact inv_when' (State.inv_trapBlock hi)
  | regionGap _ => exact inv_when' (State.inv_trapBlock hi)
  | preempt _ _ => exact inv_execPreempt hi
  | waitForSample _ => exact inv_when' (State.inv_sample hi)
  | systemHandler _ _ => exact inv_happens (State.inv_handle hi)
  | eccUncorrectable _ _ _ _ _ => exact inv_happens (State.inv_eccError hi)
  | softErrorCorrect _ => exact inv_when' hi
  | doorbell _ _ _ => exact inv_execDoorbell hi
  | hostPacketLaunch _ _ => exact inv_execHostPacketLaunch hi
  | hostPacketWait _ _ => exact inv_happens (State.inv_packetWait hi)
  | rsizeWrite _ _ _ => exact inv_when' (inv_ite hi hi)
  | resume _ _ => exact inv_execResume hi
  | evhead _ _ => exact inv_when' (State.inv_serveEvents hi)
  | hostRegisterWrite _ _ _ => exact inv_execHostRegisterWrite hi
  | pctlRun _ => exact inv_when' (inv_ite hi hi)
  | pctlReset _ => exact inv_when' (inv_ite hi (inv_ite hi hi))
  | partitionReset _ => exact inv_when' (State.inv_resetPart hi)
  | partitionConfigure _ _ _ _ => exact inv_when' hi
  | stileCreate _ _ _ _ => exact inv_when' hi
  | stileDestroy _ => exact inv_when' (State.inv_stileTrap hi)
  | liveUpdate _ => exact inv_execLiveUpdate hi
  | firmwareTakeover => exact inv_execFirmwareTakeover hi
  | firmwareRollback => exact inv_execFirmwareRollback hi
  | watchdog => exact inv_execWatchdog hi
  | coldStart _ _ _ => exact inv_ite hi (inv_ite State.inv_restart State.inv_startFailed)
  | warmStart _ => exact inv_ite hi State.inv_boot
  | failedStart _ _ => exact inv_execFailedStart
  | attestationRequest _ => exact hi
  | telemetryRead => exact hi
  | linkRetrain _ => exact inv_when' (State.inv_postEverywhere hi)
  | linkDown _ => exact inv_execLinkDown hi
  | peerTimeout _ => exact inv_happens (State.inv_peerTimeout hi)
  | ethDown _ => exact inv_when' (State.inv_postEverywhere hi)
  | hostMemoryWrite _ _ => exact inv_when' (State.inv_putNow hi)
  | peerAccess _ => exact inv_happens (State.inv_peerAccess hi)
  | hostTimeout _ _ => exact inv_happens (State.inv_hostTimeout hi)

theorem inv_runWarp {w : Nat} {s : State} (hi : Inv s) : OutcomeInv (runWarp w s) := by
  unfold runWarp
  split
  · exact inv_getD (State.inv_fetchFault (State.inv_afterFetch hi)) (State.inv_stall hi)
  next i _ =>
    have h := inv_exec (i := i) (State.inv_afterFetch (w := w) hi)
    split
    · exact State.inv_stall hi
    · exact h

theorem inv_stepTurn {core : Nat} {s : State} (hi : Inv s) : OutcomeInv (stepTurn core s) := by
  have he : Inv (s.endTurn core) := State.inv_endTurn hi
  unfold stepTurn
  split
  · exact State.inv_clockTick hi
  · exact State.inv_boundaryMove hi
  · exact State.inv_vectorMove hi
  · exact inv_runWarp he
  · exact inv_exec hi
  · exact inv_exec hi
  · exact he

theorem outcomeInv_of_stepBehind {core : Nat} {s : State} {o : Host.Outcome State Fault Refusal} (h : stepBehind core s =
  some o)
    (hi : Inv s) : OutcomeInv o := by
  unfold stepBehind at h
  dsimp only at h
  split at h
  · obtain ⟨t, ht, rfl⟩ := Option.map_eq_some_iff.1 h
    exact inv_of_some ht (State.inv_decideStep (State.inv_bump hi))
  · obtain ⟨c, -, rfl⟩ := Option.map_eq_some_iff.1 h
    exact inv_stepTurn hi

theorem inv_stepFocus {s : State} (hi : Inv s) : OutcomeInv (stepFocus s) := by
  unfold stepFocus
  dsimp only
  split
  · exact hi
  next w _ =>
    split
    · exact hi
    · split
      · exact inv_stepTurn hi
      · cases h : stepBehind (s.warp w).core s with
        | none => exact hi
        | some o => exact outcomeInv_of_stepBehind h hi

theorem inv_stepMove {m : Move} {s : State} (hi : Inv s) : OutcomeInv (stepMove m s) := by
  unfold stepMove
  split
  · split
    · trivial
    · exact inv_exec hi
  · split
    · exact hi
    · exact inv_stepTurn hi
  · exact hi
  · exact hi

theorem inv_step {s : State} (hi : Inv s) : OutcomeInv (step s) := by
  unfold step
  split
  · exact inv_stepMove hi
  · exact inv_stepFocus hi

/-- Settles O4: memory is written through `memWriteList` and `scrub` alone, each of which keeps its canonical form, and every
operation of a step is made of such writes and of changes to other fields. -/
theorem stepKeepsInv : Obligations.StepKeepsInv := by
  unfold Obligations.StepKeepsInv
  exact fun _ _ hi hs => inv_of_next hs (inv_step hi)

end Sys2Proof.Machine
end
